-- ==== Sys2Proof/Word.lean ====
section
/-! DEFINITION. The words of the machine and their plainest arithmetic (spec/00_scope.md R3: little-endian, bits [hi:lo]). -/

namespace Sys2Proof

/-- A byte of memory. -/
abbrev Byte := BitVec 8

/-- A 32-bit register. -/
abbrev Word := BitVec 32

/-- A 64-bit register pair, address or control register. -/
abbrev Word64 := BitVec 64

/-- Bits [hi:lo] of a number. -/
def bitsOf (n hi lo : Nat) : Nat := n / 2 ^ lo % 2 ^ (hi + 1 - lo)

/-- Bit i of a number. -/
def bitOf (n i : Nat) : Bool := n / 2 ^ i % 2 == 1

/-- A Boolean as a number. -/
def natOf (b : Bool) : Nat := if b then 1 else 0

/-- The true and false results of the comparison forms (R148). -/
def maskOf (b : Bool) : Word := if b then 0xFFFFFFFF else 0

end Sys2Proof
end

