-- ==== Sys2Proof/Config.lean ====
section
/-! DEFINITION. What an implementation or its board fixes, and the free values (notes/assumptions/6.md): opaque functions
without a body, applied to the step counter `tick` of the state and to a number that tells the places of one step apart. -/

namespace Sys2Proof.Config

/-- The free values: an undefined value of the spec, or a choice made at run time, at one place of one step. -/
opaque freeBits : Nat → Nat → BitVec 64

/-- A 32-bit free value. -/
def freeWord (tick site : Nat) : Word := (freeBits tick site).setWidth 32

/-- A free byte. -/
def freeByte (tick site : Nat) : Byte := (freeBits tick site).setWidth 8

/-- A free choice of one of n alternatives, below n when n is positive. -/
def freeChoice (tick site n : Nat) : Nat := (freeBits tick site).toNat % n

/-- A free yes or no. -/
def freeBool (tick site : Nat) : Bool := (freeBits tick site).getLsbD 0

/-- What every word of an undefined register frame holds before it is written: family k, register and lane. -/
opaque freeFrame : Nat → Nat → Nat → Word

/-- One less than the clocks within which everything that stays due is done (01_machine_state.md R20). -/
opaque latency : Nat

/-- The hash of a connection's flow label that chooses a port (15_fabric_host.md R400). -/
opaque flowHash : Nat → Nat

/-- The package that a port is cabled to. -/
opaque portPeer : Nat → Nat

/-- The words of the sequencer's control store in mask ROM (17_firmware_power_conformance.md R427). -/
opaque romWord : Nat → BitVec 96

/-- What the part finds in its fuses and on its board (17_firmware_power_conformance.md R428, R429). -/
opaque fuseSvn : Nat
opaque fusePubKeyHash : List Byte

end Sys2Proof.Config
end

