-- ==== Sys2Proof/Machine/NMap.lean ====
section
/-! DEFINITION. Finite maps from numbers as plain data: lists with strictly rising keys; and byte memory in its canonical
form, the entries that differ from the value an unlisted address reads as. -/

namespace Sys2Proof.Machine

/-- A finite map from numbers: a list with strictly rising keys. -/
abbrev NMap (α : Type) := List (Nat × α)

/-- The value at a key. -/
def nget {α : Type} : NMap α → Nat → Option α
  | [], _ => none
  | (k, v) :: m, i => if k = i then some v else nget m i

/-- Set the value at a key, keeping the keys rising. -/
def nset {α : Type} : NMap α → Nat → α → NMap α
  | [], i, x => [(i, x)]
  | (k, v) :: m, i, x =>
    if i < k then (i, x) :: (k, v) :: m
    else if i = k then (i, x) :: m
    else (k, v) :: nset m i x

/-- Remove a key. -/
def ndel {α : Type} : NMap α → Nat → NMap α
  | [], _ => []
  | (k, v) :: m, i => if k = i then m else (k, v) :: ndel m i

/-- Change the value at a key that is present. -/
def nmod {α : Type} (m : NMap α) (i : Nat) (f : α → α) : NMap α :=
  match nget m i with
  | some v => nset m i (f v)
  | none => m

def nhas {α : Type} (m : NMap α) (i : Nat) : Bool := (nget m i).isSome
def nkeys {α : Type} (m : NMap α) : List Nat := m.map (·.1)
def nvals {α : Type} (m : NMap α) : List α := m.map (·.2)
/-- Change every value. -/
def nall {α : Type} (m : NMap α) (f : Nat → α → α) : NMap α := m.map fun (k, v) => (k, f k v)

/-- The least number from `i` on, below `i + fuel`, that is no key. -/
def nfree {α : Type} (m : NMap α) (i : Nat) : Nat → Nat
  | 0 => i
  | f + 1 => if nhas m i then nfree m (i + 1) f else i

/-- One more than the greatest key. -/
def nnext {α : Type} (m : NMap α) : Nat :=
  match m.getLast? with
  | some (k, _) => k + 1
  | none => 0

/-- The keys rise strictly. -/
def nsorted {α : Type} : NMap α → Bool
  | [] => true
  | [_] => true
  | a :: b :: m => decide (a.1 < b.1) && nsorted (b :: m)

/-- Byte memory: addresses strictly rising, no entry equal to what an unlisted address reads as. -/
abbrev Memory := List Host.Cell

/-- What a byte that nothing has written reads as (notes/assumptions/1.md). -/
def unlistedByte : Byte := 0

/-- Read one byte. -/
def Memory.read (m : Memory) (a : Nat) : Byte := (nget m a).getD unlistedByte

/-- Write one byte, keeping the canonical form. -/
def Memory.write (m : Memory) (a : Nat) (b : Byte) : Memory := if b = unlistedByte then ndel m a else nset m a b

/-- The canonical form. -/
def Memory.wf (m : Memory) : Bool := nsorted m && m.all fun c => c.2 != unlistedByte

/-- n bytes from an address up. -/
def Memory.readN (m : Memory) (a : Nat) : Nat → List Byte
  | 0 => []
  | n + 1 => m.read a :: Memory.readN m (a + 1) n

/-- Write bytes from an address up. -/
def Memory.writeN (m : Memory) (a : Nat) : List Byte → Memory
  | [] => m
  | b :: bs => Memory.writeN (m.write a b) (a + 1) bs

/-- Write a list of cells in order. -/
def Memory.writeCells (m : Memory) : List Host.Cell → Memory
  | [] => m
  | c :: cs => Memory.writeCells (m.write c.1 c.2) cs

/-- Insert before the first element that is not smaller. -/
def insertBy {α : Type} (le : α → α → Bool) (x : α) : List α → List α
  | [] => [x]
  | y :: ys => if le x y then x :: y :: ys else y :: insertBy le x ys

/-- Sort; equal elements keep their order. -/
def sortBy {α : Type} (le : α → α → Bool) (l : List α) : List α := l.foldr (insertBy le) []

/-- Little-endian bytes as a number (R3). -/
def leNat : List Byte → Nat
  | [] => 0
  | b :: bs => b.toNat + 256 * leNat bs

/-- A number as n little-endian bytes (R3). -/
def leBytes : Nat → Nat → List Byte
  | 0, _ => []
  | n + 1, x => BitVec.ofNat 8 x :: leBytes n (x / 256)

def Memory.readLe (m : Memory) (a n : Nat) : Nat := leNat (m.readN a n)
def Memory.writeLe (m : Memory) (a n x : Nat) : Memory := m.writeN a (leBytes n x)

end Sys2Proof.Machine
end

