-- ==== Sys2Proof/Syntax.lean ====
section
/-! DEFINITION. The instructions of the part: one constructor for each row of spec/opcode_table.json. The first 245 have a
32-bit encoding (04_opcode_map_assembly.md R110); the others are the part's own steps and the events that reach it
(95_what_each_step_holds.md). What such an event carries (which strand, which core, a frame's bytes) is data of the
state: Machine/State.lean, field args. -/

namespace Sys2Proof

/-- An operand selector (R30). The c field of the four-operand forms names a subset of these (R31). -/
inductive Sel where
  | v (n : Fin 64)      -- window register
  | o (n : Fin 8)       -- operand file
  | lr                  -- last result
  | q (n : Fin 8)       -- queue port
  | zero | laneid | strandid | roleid | teamid | coreid | pkgid | ones
  | imm (c : BitVec 5)  -- inline constant c - 16
  deriving DecidableEq, Repr

/-- The address base of a memory word (R36): virtual, team window, cluster window, thread stack. -/
inductive Base where
  | virt | team | clu | stk
  deriving DecidableEq, Repr

/-- The rows of spec/opcode_table.json. Field names follow the formats of R93 to R101. -/
inductive Instr where
  | loop (a : Sel) (off : BitVec 14)
  | brk (n : BitVec 21)
  | swtrap (t : BitVec 13) (c : BitVec 8)
  | sleep (n : BitVec 21)
  | iadd (d a b : Sel)
  | isub (d a b : Sel)
  | imul (d a b : Sel)
  | imulhS32 (d a b : Sel)
  | imulhN32 (d a b : Sel)
  | idivS32 (d a b : Sel)
  | idivN32 (d a b : Sel)
  | iremS32 (d a b : Sel)
  | iremN32 (d a b : Sel)
  | iminS32 (d a b : Sel)
  | iminN32 (d a b : Sel)
  | imaxS32 (d a b : Sel)
  | imaxN32 (d a b : Sel)
  | iabs (d a : Sel)
  | iaddsS32 (d a b : Sel)
  | isubsS32 (d a b : Sel)
  | iaddsN32 (d a b : Sel)
  | isubsN32 (d a b : Sel)
  | add64 (d a b : Sel)
  | sub64 (d a b : Sel)
  | mulwS32 (d a b : Sel)
  | mulwN32 (d a b : Sel)
  | iaddi (d a : Sel) (i : BitVec 10)
  | iandi (d a : Sel) (i : BitVec 10)
  | iori (d a : Sel) (i : BitVec 10)
  | ixori (d a : Sel) (i : BitVec 10)
  | ishli (d a : Sel) (i : BitVec 10)
  | ishri (d a : Sel) (i : BitVec 10)
  | israi (d a : Sel) (i : BitVec 10)
  | icmpiLt (d a : Sel) (i : BitVec 10)
  | and (d a b : Sel)
  | or (d a b : Sel)
  | xor (d a b : Sel)
  | andn (d a b : Sel)
  | orn (d a b : Sel)
  | shl (d a b : Sel)
  | shr (d a b : Sel)
  | sra (d a b : Sel)
  | rotl (d a b : Sel)
  | shl64 (d a b : Sel)
  | shr64 (d a b : Sel)
  | sra64 (d a b : Sel)
  | popc (d a : Sel)
  | clz (d a : Sel)
  | ctz (d a : Sel)
  | brev (d a : Sel)
  | bfxS (d a b : Sel)
  | bfxN (d a b : Sel)
  | bfi (d a b : Sel)
  | perm (d a b : Sel)
  | ceq (d a b : Sel)
  | cne (d a b : Sel)
  | cltS (d a b : Sel)
  | cleS (d a b : Sel)
  | cltN (d a b : Sel)
  | cleN (d a b : Sel)
  | fceq (d a b : Sel)
  | fcne (d a b : Sel)
  | fclt (d a b : Sel)
  | fcle (d a b : Sel)
  | fcun (d a b : Sel)
  | fclass (d a b : Sel)
  | ceq64 (d a b : Sel)
  | clt64S (d a b : Sel)
  | clt64N (d a b : Sel)
  | fadd (d a b : Sel)
  | fsub (d a b : Sel)
  | fmul (d a b : Sel)
  | fmin (d a b : Sel)
  | fmax (d a b : Sel)
  | fabs (d a : Sel)
  | fneg (d a : Sel)
  | fdiv (d a b : Sel)
  | fsqrt (d a : Sel)
  | frcp (d a : Sel)
  | frsqrt (d a : Sel)
  | fexp2 (d a : Sel)
  | flog2 (d a : Sel)
  | fsinpi (d a : Sel)
  | fcospi (d a : Sel)
  | ftanh (d a : Sel)
  | faddF16x2 (d a b : Sel)
  | fmulF16x2 (d a b : Sel)
  | faddBf16x2 (d a b : Sel)
  | fmulBf16x2 (d a b : Sel)
  | fminF16x2 (d a b : Sel)
  | fmaxF16x2 (d a b : Sel)
  | fscl (d a b : Sel)
  | frnd (d a : Sel)
  | ffmaF16x2 (d a b : Sel)
  | ffmaBf16x2 (d a b : Sel)
  | fdot2Bf16 (d a b : Sel)
  | idp4S8 (d a b : Sel)
  | idp4N8 (d a b : Sel)
  | cvtF32S32 (d a : Sel) (rm : BitVec 2)
  | cvtF32N32 (d a : Sel) (rm : BitVec 2)
  | cvtS32F32 (d a : Sel) (sat : Bool) (rm : BitVec 2)
  | cvtN32F32 (d a : Sel) (sat : Bool) (rm : BitVec 2)
  | cvtF32F16 (d a : Sel) (el : BitVec 2)
  | cvtF32Bf16 (d a : Sel) (el : BitVec 2)
  | pkF16 (d a : Sel) (el : BitVec 2) (sat : Bool) (rm : BitVec 2)
  | pkBf16 (d a : Sel) (el : BitVec 2) (sat : Bool) (rm : BitVec 2)
  | pkE4m3 (d a : Sel) (el : BitVec 2) (sat : Bool) (rm : BitVec 2)
  | pkE5m2 (d a : Sel) (el : BitVec 2) (sat : Bool) (rm : BitVec 2)
  | pkE2m1 (d a : Sel) (el : BitVec 2) (sat : Bool) (rm : BitVec 2)
  | pkF8d (d a : Sel) (bias : BitVec 4) (el : BitVec 2)
  | upkE4m3 (d a : Sel) (el : BitVec 2)
  | upkE5m2 (d a : Sel) (el : BitVec 2)
  | upkE2m1 (d a : Sel) (el : BitVec 2)
  | upkF8d (d a : Sel) (bias : BitVec 4) (el : BitVec 2)
  | cvtE8m0 (d a : Sel) (el : BitVec 2) (sat : Bool) (rm : BitVec 2)
  | frint (d a : Sel) (rm : BitVec 2)
  | ffma (d a b c : Sel)
  | sel (d a b c : Sel)
  | imad (d a b c : Sel)
  | ldN8 (d a : Sel) (base : Base) (off : BitVec 8)
  | ldS8 (d a : Sel) (base : Base) (off : BitVec 8)
  | ldN16 (d a : Sel) (base : Base) (off : BitVec 8)
  | ldS16 (d a : Sel) (base : Base) (off : BitVec 8)
  | ldB32 (d a : Sel) (base : Base) (off : BitVec 8)
  | ldB64 (d a : Sel) (base : Base) (off : BitVec 8)
  | ldB128 (d a : Sel) (base : Base) (off : BitVec 8)
  | ldBlk (d a : Sel) (base : Base) (n : BitVec 5)
  | stB8 (d a : Sel) (base : Base) (off : BitVec 8)
  | stB16 (d a : Sel) (base : Base) (off : BitVec 8)
  | stB32 (d a : Sel) (base : Base) (off : BitVec 8)
  | stB64 (d a : Sel) (base : Base) (off : BitVec 8)
  | stB128 (d a : Sel) (base : Base) (off : BitVec 8)
  | stBlk (d a : Sel) (base : Base) (n : BitVec 5)
  | aadd (d a b : Sel) (base : Base)
  | aand (d a b : Sel) (base : Base)
  | aor (d a b : Sel) (base : Base)
  | axor (d a b : Sel) (base : Base)
  | aminS32 (d a b : Sel) (base : Base)
  | amaxS32 (d a b : Sel) (base : Base)
  | aminN32 (d a b : Sel) (base : Base)
  | amaxN32 (d a b : Sel) (base : Base)
  | axchg (d a b : Sel) (base : Base)
  | acas (d a b : Sel) (base : Base)
  | aadd64 (d a b : Sel) (base : Base)
  | acas64 (d a b : Sel) (base : Base)
  | afadd (d a b : Sel) (base : Base)
  | afaddBf16x2 (d a b : Sel) (base : Base)
  | aincWrap (d a b : Sel) (base : Base)
  | bra (off : BitVec 17)
  | bz (a : Sel) (off : BitVec 17)
  | bnz (a : Sel) (off : BitVec 17)
  | blz (a : Sel) (off : BitVec 17)
  | bgez (a : Sel) (off : BitVec 17)
  | call (a : Sel) (off : BitVec 17)
  | bany (a : Sel) (off : BitVec 17)
  | ball (a : Sel) (off : BitVec 17)
  | jr (a : Sel)
  | callr (d a : Sel)
  | ret (a : Sel)
  | reform (n : BitVec 7)
  | spawn (c : BitVec 3) (a b : Sel)
  | lxPick (d a b : Sel)
  | lxShift (d a b : Sel)
  | lxRot (d a b : Sel)
  | lxSwap (d a b : Sel)
  | lxAny (d a : Sel)
  | lxAll (d a : Sel)
  | lxMask (d a : Sel)
  | lxActive (d : Sel)
  | lxFirst (d a : Sel)
  | lxSumS32 (d a : Sel)
  | lxMinS32 (d a : Sel)
  | lxMaxS32 (d a : Sel)
  | lxFsum (d a : Sel)
  | lxPrefixS32 (d a : Sel)
  | lxSame (d a : Sel)
  | lxLead (d : Sel)
  | barArrive (n : BitVec 7)
  | barWait (n : BitVec 7)
  | barSync (n : BitVec 7)
  | barInit (e : BitVec 11) (n : BitVec 7)
  | fence (k : BitVec 2) (s : BitVec 3)
  | wait (m : BitVec 7)
  | tktWait (t : BitVec 3)
  | tktPass (t : BitVec 3)
  | mxGo (d a b : Sel)
  | mxWait (d a : Sel) (retire : Bool)
  | mxTest (d a : Sel)
  | mxStat (d a : Sel)
  | mxAbort (a : Sel)
  | drnLoad (s : BitVec 7) (a : Sel)
  | qBind (p : BitVec 3) (b : Sel)
  | qUnbind (p : BitVec 3)
  | qTake (d : Sel) (p : BitVec 3)
  | qGive (p : BitVec 3)
  | qAlloc (d : Sel) (p : BitVec 3)
  | qPost (p : BitVec 3)
  | qCnt (d : Sel) (p : BitVec 3)
  | qClose (p : BitVec 3)
  | cpGo (d a : Sel)
  | cpFill (d a : Sel)
  | cpGather (d a : Sel)
  | cpQ (d a : Sel)
  | cpWait (d a : Sel) (retire : Bool)
  | cpTest (d a : Sel)
  | lpLd (d a : Sel)
  | lpPut (d a b : Sel)
  | lpAdd (d a b : Sel)
  | lpCas (d a b : Sel)
  | lpMsg (d a b : Sel)
  | lpFence (a : Sel)
  | lpNow (d : Sel)
  | lpSeq (d a : Sel)
  | lpLaunch (d a : Sel)
  | fabPut (d a : Sel)
  | fabGet (d a : Sel)
  | fabAadd (d a b : Sel)
  | fabAcas (d a b : Sel)
  | fabWait (a : Sel)
  | movi (d : Sel) (i : BitVec 20)
  | movh (d : Sel) (i : BitVec 12)
  | scopeOpen (n : BitVec 21)
  | wbase (k : BitVec 21)
  | safept (n : BitVec 21)
  | dgOn (clear : Bool)
  | dgChk (d a : Sel) (cmp : Bool)
  | dgFold (d a : Sel)
  | csrRd (d : Sel) (n : BitVec 7)
  | csrWr (a : Sel) (n : BitVec 7)
  | tkill (a : Sel)
  | tlbInv (a : Sel) (pod : Bool) (size : BitVec 2)
  | tlbProbe (d a : Sel)
  | dbgHalt (a : Sel)
  | mattr (scope : BitVec 3) (order : BitVec 2) (use : BitVec 3) (hint : BitVec 2)
  -- words without operands
  | nop
  | yield
  | exit
  | rbar
  | fenceOpnd
  | fenceIfetch
  | lpGate
  | fabFence
  | scopeClose
  | dgOff
  | tret
  -- steps and events without an encoding
  | clauseIssue
  | waitConditionMet
  | variableLatencyResult
  | storeAcknowledge
  | pushLatchWrite
  | quantumPublishDeadline
  | sleepIntervalElapsed
  | watchdogExpiry
  | binAgeTimerExpiry
  | binLaunch
  | compactorMove
  | teamEnd
  | atomicopCompletion
  | copyRow
  | cpQSlotFill
  | wavefrontAdmission
  | wavefrontComplete
  | weightReloadComplete
  | arrayQuiescentPoint
  | drainUnitEntry
  | drainUnitCommit
  | mxcapWrite
  | rlstallRead
  | aqpmaxRead
  | kick
  | kickPageOtherWrite
  | uqregWrite
  | uqderegWrite
  | uqclrWrite
  | uqstatRejClear
  | kickdropRead
  | launchPacket
  | clusterLaunchPacket
  | copyPacket
  | waitLsnPacket
  | signalPacket
  | barrierPacket
  | graphPacket
  | graphNodeStart
  | packetCompletion
  | sliceExpiry
  | teamAdmission
  | clusterReservationDelay
  | saveComplete
  | preemptionTimeout
  | teamResumption
  | coreHot
  | coreCool
  | coreThrottle
  | coreUnthrottle
  | packageOvertempShut
  | coreIdleTimeout
  | ctxkillWrite
  | ctxctlKilledClear
  | loopGrantArrival
  | loopIdleArrival
  | numberedRecordReceive
  | recordWriteApply
  | recordAtomicApply
  | recordMsgApply
  | recordLaunchApply
  | recordKillOrderApply
  | recordXlateApply
  | recordDigestApply
  | grantRegeneration
  | lossOfSignal
  | missingIdleTimeout
  | loopctlJoinWrite
  | loopctlMasterWrite
  | loopctlStartWrite
  | mzmHeaterWrite
  | qalarmClear
  | tapMinmaxRead
  | grantsRead
  | regenRead
  | crcerrRead
  | ibdropRead
  | loopFormationTimeout
  | framePutReceive
  | frameGetreqReceive
  | frameGetrespReceive
  | frameAaddReceive
  | frameAcasReceive
  | frameAtomrespReceive
  | frameAckReceive
  | frameNaksReceive
  | frameNakfReceive
  | frameSleepReceive
  | frameWakeReceive
  | pfcPauseReceive
  | ackDelayExpiry
  | retransmitTimeout
  | fabOperationTimeout
  | rateRecoveryTimer
  | portctlEnWrite
  | portctlLpreqWrite
  | portctlWakeWrite
  | portLinkUp
  | portLinkLost
  | portDrainComplete
  | portLanesReady
  | lpabortRead
  | dropsRead
  | hostWindowRead
  | hostWindowWrite
  | hostAtomicopRequest
  | hostCompletionTimeout
  | hostLinkDown
  | hostLinkUp
  | eqdropRead
  | controlRegisterWrite
  | dbgcmdHalt
  | dbgcmdResume
  | dbgcmdDump
  | dbgcmdCheckpoint
  | dbgcmdReplay
  | checkpointPeriodExpiry
  | sampleIntervalExpiry
  | sampleRecordAppend
  | drdropRead
  | packageReset
  | suppliesGood
  | powerCycle
  | dievWrite
  | dievSupplyChange
  | dievSupplySettled
  | serrcntRead
  | serruncRead
  | pcieConfigWrite
  | tapPowerSample
  deriving DecidableEq, Repr

end Sys2Proof
end

