-- ==== Sys2Proof/Machine/Types.lean ====
section
/-! DEFINITION. The state a core and its work hold: threads, strands, teams, grids, queues, barriers, bins, and the paths
that issue (01_machine_state.md, 06 to 10 and 13). All of it is plain data. -/

namespace Sys2Proof.Machine

/-! Threads and frames. -/

/-- The states of R10. A waiting thread is `run` and stands in one of its strand's waits; a parked one is in S1. A vacant
lane position has no thread. -/
inductive TSt where
  | ready
  | run                  -- its path is inside a clause, issuing or waiting
  | held (level : Nat)   -- parked until TLEVEL is `level` (R345); 3: for good, its trap is fatal (R353, R423)
  | stopped              -- stopped at a safept for a save (R363)
  | filed | exited
  deriving DecidableEq, Repr, Inhabited

/-- An entry of a thread's hardware-loop stack (R171). -/
structure LoopEnt where
  count : Word
  start : Word64
  e : Word64
  deriving DecidableEq, Repr, Inhabited

/-- A thread (R10, R11, R22, R26, R27, R171, R202, R409). -/
structure Thread where
  st : TSt
  pc : Word64
  wb : Nat
  o : List Word
  lr : Word64
  loops : List LoopEnt          -- top first
  arrival : Option (Nat × Nat)  -- barrier and phase
  resumeWait : Bool
  anchorOrd : Word              -- last safe point retired, and where (R409)
  anchorPc : Word64
  starve : Nat
  safeOrd : Word                -- the ordinal it stopped at
  chk : Option Word64           -- R82 is still to be checked when it issues the clause at this PC (R442)
  pass : Option Word64          -- the word a breakpoint stopped it before: it issues that word once without a match (R411)
  deriving DecidableEq, Repr, Inhabited

/-- How far a register write has been published to the matrix engine (R206, R231): not fenced, or fenced, with the barrier
phases its strand has arrived at since. -/
inductive Pub where
  | unfenced
  | fenced (arrived : List (Nat × Nat))
  deriving DecidableEq, Repr, Inhabited

/-- A register frame (R21). A cell's key is register * 32 + lane. Cells never written hold zero, or, in a frame whose
contents are undefined, the free family `fill`. `part` 0 to 3 is a partition file, 4 to 11 a lead slot's file; `base` is
the first unit of eight registers. -/
structure Frame where
  uid : Nat
  size : Nat
  fill : Option Nat
  cells : NMap Word
  part : Nat
  base : Nat
  wbs : NMap Nat                -- window bases to restore when the frame is popped
  pubs : NMap Pub               -- registers written since admission, by register number
  deriving DecidableEq, Repr, Inhabited

/-- A register of a thread: the operand file (`frame` 0) or a frame by its uid. -/
structure RegLoc where
  frame : Nat
  reg : Nat
  lane : Nat
  deriving DecidableEq, Repr, Inhabited

/-- A queue port (R28, R219): the descriptor it is bound to and its push latch. -/
structure Port where
  desc : Nat
  latch : Option (List Word)
  deriving DecidableEq, Repr, Inhabited

/-! Memory operations in flight. -/

/-- What the value of a pending destination waits for. -/
inductive PendOn where
  | ready               -- the value is known and may land
  | posts (h : Nat)     -- lp.ld: every post below h is complete (R260); the address is a locket offset
  | post (h : Nat)      -- lp.add and lp.cas: the record of post h applied (R259)
  | fab (n : Nat)       -- a fabric atomic's answer (R265)
  | host                -- host memory: the link must stay up (R352)
  deriving DecidableEq, Repr, Inhabited

/-- A pending variable-latency result (R89): the registers and the values they take. -/
structure PendLoad where
  writes : List (RegLoc × Word)
  on : PendOn
  off : Nat := 0        -- locket offset of an lp.ld
  acq : Option Nat := none   -- an acquire at this scope when it returns (R196)
  probe : Bool := false
  vaddr : NMap Nat := []     -- address of each lane, as TADDR would hold it
  hosts : List Nat := []     -- lanes that read host memory
  since : Nat := 0           -- of such a load: CYCLE of its issue
  deriving DecidableEq, Repr, Inhabited

/-- A read-modify-write not yet performed: op4 of R197, address, operand, expected value. -/
structure Rmw where
  op : Nat
  addr : Nat
  b : Word64
  x : Word64
  lane : Nat
  va : Nat := 0         -- its address, as TADDR would hold it
  deriving DecidableEq, Repr, Inhabited

/-- A store, block store or posted atomic that its target has not performed (R190, R198). -/
structure PendStore where
  cells : List Host.Cell
  rmws : List Rmw
  scope : Nat
  release : Bool
  use : Nat
  host : Bool           -- some byte lies in host memory
  parts : List (Nat × Nat × Nat)   -- lane, first address, bytes
  vaddr : NMap Nat      -- address of each lane, as TADDR would hold it
  ctl : Bool            -- some byte lies in the control region
  issued : Nat          -- CYCLE at issue (quantum, R291)
  deriving DecidableEq, Repr, Inhabited

/-- A post of a strand (R258): its LSN once applied to the local replica. -/
structure PostSt where
  lsn : Option Nat
  off : Nat := 0        -- locket bytes that it writes: first, and how many
  len : Nat := 0
  lanes : List Nat := []       -- its threads
  deriving DecidableEq, Repr, Inhabited

/-- A fabric operation of a strand, a lane's for an atomic (R263 to R267). -/
structure FabSt where
  done : Bool                  -- acknowledged, complete or failed
  get : Bool
  use : Nat
  acq : Option Nat             -- an acquire at this scope once complete
  handle : Option Nat
  deriving DecidableEq, Repr, Inhabited

/-- A failed fabric operation not yet reported (R267). -/
structure FabFail where
  num : Nat
  remote : Word64
  cause : Nat
  deriving DecidableEq, Repr, Inhabited

/-! Paths. -/

/-- The prefix of R101 held for the next word. -/
structure Prefix where
  scope : Nat
  order : Nat
  use : Nat
  hint : Nat
  deriving DecidableEq, Repr, Inhabited

/-- A thread on its way into a bin (R14): its key PC and itself, with the live registers it takes along. -/
structure Filing where
  lane : Nat
  key : Word64
  thread : Thread
  regs : List (Nat × Word)
  defined : Bool        -- spawn: every base-frame register is zero
  deriving DecidableEq, Repr, Inhabited

/-- What a waiting path awaits (R10), with what it keeps meanwhile. -/
inductive Wait where
  | mask (m : Nat)                       -- a clause's WAIT field (R88), before its first word
  | word (m : Nat)                       -- the wait instruction (R208)
  | switch                               -- a switch marker (R89)
  | leave (taken : List (Nat × Word64))  -- a switch marker of a transfer: the lanes that go, each to its target (R89)
  | ports (pops : List Nat) (push : Option Nat)  -- pops and room of an instruction's queue ports (R218)
  | latch (port : Nat)                   -- a push latch to empty (R222, R224)
  | slotAlloc (port : Nat) | slotTake (port : Nat)
  | slotRelease (port : Nat)             -- the release of q.post and q.give
  | release (scope : Nat)                -- earlier stores performed (R205, R210)
  | acquire                              -- pending loads return (R205)
  | full (scope : Nat)
  | relAtom (scope : Nat)                -- a release by an atomic: loads and stores before it (R196)
  | acqHold                              -- an acquire of the strand not yet returned (R196)
  | rmwHold (lo hi : Nat)                -- own posted atomics on bytes lo to hi - 1
  | fenceHold                            -- a `fence full` of the strand, whose stores come before later loads (R205)
  | locket (at' : List (Nat × Nat × Nat))    -- own posts and lp.ld on locket bytes: lane, first byte, one past the last (R282)
  | reqRoom (n : Nat)                    -- room for n among the core's outstanding memory requests (R2)
  | words (d : Sel) (left : List Nat) (lanes : List (Nat × Nat × List (Nat × Nat))) (bad : List (Nat × Nat × Nat × Nat))
      (srcs : List RegLoc) (kept : List (RegLoc × Word))
                                         -- ld.blk: words not yet read (R192); each lane with its address and its physical
                                         -- parts; lanes that trap at the end: cause, SUB, address; the registers of the
                                         -- address, and the words read for them, which are written at the end (R194)
  | bar (n : Nat) (phases : List Nat) (targets : List (Nat × Nat))   -- phases it passes with; lanes whose phase is not complete
  | ticket (t : Nat)
  | rbar | scopeOpen (n : Nat) | scopeClose
  | frameSpace (n since : Nat)           -- scope.open: pool space, and the CYCLE of the request
  | frameUse                             -- scope.close: an operation names the frame (R229)
  | sleep (till : Nat)
  | mxFree (blk fmt : Nat) (block : List Byte) (push : Option Nat)   -- mx.go: a token of the core; its operands and block as read
  | cpFree (off : Nat) (desc : List Byte) (push : Option Nat)        -- cp forms: the same, with the descriptor
  | mx (tok : Nat) (retire : Bool)       -- mx.wait
  | mxDone (record : Word)               -- mx.wait: the operation has ended; its record
  | cp (tok : Nat) (retire : Bool)       -- cp.wait
  | drnSlot (s : Nat)
  | opnd | ifetch                        -- fence.opnd, fence.ifetch
  | file (todo : List Filing) (leave : Bool) (since : Nat)  -- threads still to be filed; reform leaves the strand
  | released                             -- rbar: released, to issue again (R173)
  | reformWait
  | gate (n : Nat) | postRoom (n : Nat)  -- a post, by its place among the strand's held posts: its gate, then room (R258)
  | posts (n : Nat)                      -- lp.ld: the held posts before it (R260)
  | lsn (l : Nat)                        -- lp.fence
  | post (h : Nat)                       -- lp.seq, tlb.inv of the pod: a post complete
  | fab (h : Nat)                        -- fab.wait
  | digest                               -- dg.chk
  | tret
  | host (op : Nat) (d : Sel) (todo : List Rmw) (vals : List (Nat × Word64)) (bad : List (Nat × Nat × Nat × Nat))  -- host
      -- atomics (R200): op4 and destination, those to complete, values by lane, traps by lane: cause, SUB, address
  deriving DecidableEq, Repr, Inhabited

/-- What a word popped from a queue (R139, R345): the descriptor, HEAD before and after, the lanes that popped, and the entries, oldest
first. -/
structure Undo where
  desc : Nat
  before : Nat
  after : Nat
  lanes : List Nat
  entries : List (List Word)
  deriving DecidableEq, Repr, Inhabited

/-- A path inside a clause (R11): the header's address and word, the clause's words, the number of the word at hand. -/
structure RunPath where
  lanes : List Nat
  hdrAddr : Word64
  hdr : Word
  words : List Word
  nxt : Word64                 -- the clause's sequential successor (R81)
  pos : Nat
  pfx : Option Prefix
  hi : Option (Nat × Word)     -- the HI half latched by csr.rd (R272)
  resume : Option Wait
  entered : Nat                -- first word it issued, 1 unless a trap return resumed inside (R109)
  got : Option (NMap (List Word64))   -- operands read by a word that waits after reading them
  skips : NMap Word64          -- where lanes go at the clause's end whose `loop` count was zero (R171)
  undo : List Undo := []       -- pops of the word at hand
  second : Bool := false       -- its clause was issued as the strand's second path (R12)
  prev : Word64 := 0           -- at a switch marker: the recorded PC of the word that carries it (R351)
  taken : Option (List Byte) := none   -- payload that a post took at its issue (R258)
  deriving DecidableEq, Repr, Inhabited

/-- A path waiting in the scheduler. -/
structure WaitPath where
  path : RunPath
  on : Wait
  deriving DecidableEq, Repr, Inhabited

/-! Strands. -/

/-- A trap bank with its side buffer (R32, R346 to R348). -/
structure Bank where
  cause : Word := 0
  epc : Word64 := 0
  addr : Word64 := 0
  lanes : Word := 0
  epcWritten : Bool := false
  detail : NMap Word64 := []
  savedLr : NMap Word64 := []
  resumePc : NMap Word64 := []
  deriving DecidableEq, Repr, Inhabited

/-- Per-strand control and status (R32, R33, R343). -/
structure Csrs where
  dzt : Bool := true
  sstep : Bool := false
  dgon : Bool := false
  tlevel : Nat := 0
  s1 : List Nat := []
  s2 : List Nat := []
  bankA : Bank := {}
  bankB : Bank := {}
  tsave : Word64 := 0
  safept : Word := 0xFFFFFFFF
  wdog : Nat := 0
  deriving DecidableEq, Repr, Inhabited

/-- What a strand has in flight (R89, R190, R258, R263). -/
structure Flight where
  loads : List PendLoad := []
  stores : List PendStore := []
  soft : List (Nat × Nat) := []        -- lanes with an uncorrectable loaded word, and its address (R352)
  hostLost : List (Nat × Nat) := []    -- lanes whose store to host memory was lost (R352)
  hostBad : List (Nat × Nat) := []     -- lanes whose load from host memory was lost (R352)
  posts : NMap PostSt := []
  postCount : Nat := 0
  gate : Bool := false
  gateSeq : Nat := 0                   -- posts and lp.ld that have been held (R258)
  fabs : NMap FabSt := []              -- by number, in order of issue
  fabSeq : Nat := 0
  fabCount : Nat := 0                  -- FabCount: handles given
  fabFence : Nat := 0                  -- operations issued from now on wait for those below this number (R266)
  fabFails : List FabFail := []        -- oldest first
  deriving DecidableEq, Repr, Inhabited

/-- A resident strand (R6 to R9). `role` is 4 in a lead strand. `part` is a partition, or 4 plus the lead slot. -/
structure Strand where
  team : Nat
  core : Nat
  part : Nat
  role : Nat
  strandid : Nat
  lanes : NMap Thread
  frames : List Frame                  -- current frame first
  ports : NMap Port
  csr : Csrs
  fl : Flight
  waits : List WaitPath
  seq : Nat                            -- place in its partition's order (R323)
  aged : Nat                           -- clocks ready and not chosen (R323)
  stopping : Bool
  bindErr : Option (Nat × Nat)         -- a binding of the descriptor failed: port and offset (R216)
  serial : Nat                         -- order of admission in the team (R34)
  passed : List (Nat × Nat)            -- barrier phases it has passed (R206)
  reformed : Bool := false             -- a reform has taken threads from it (R175)
  softRegs : List RegLoc := []         -- registers with an uncorrectable soft error (R352)
  unread : List (Nat × Nat) := []      -- registers of retired operations for which it has not returned from `mx.wait` (R231)
  deriving DecidableEq, Repr, Inhabited

/-! Teams and grids. -/

/-- A named barrier (R202). -/
structure Barrier where
  init : Bool := false
  expect : Nat := 0
  arrived : Nat := 0
  phase : Nat := 0
  deriving DecidableEq, Repr, Inhabited

/-- A live queue (R212 to R215): its descriptor's fields as the queue table holds them, and the engines that refer to it. -/
structure LiveQ where
  base : Nat
  shape : Nat
  c0 : Nat
  c1 : Nat
  c2 : Nat
  c3 : Nat
  closed : Bool
  engines : List Nat                   -- matrix token t as t, drain of t as 32 + t, copy token t as 64 + t
  deriving DecidableEq, Repr, Inhabited

/-- A role record of a kernel descriptor (R130). -/
structure Role where
  entry : Nat
  threads : Nat
  strands : Nat
  frame : Nat                          -- registers
  budget : Nat                         -- registers
  deriving DecidableEq, Repr, Inhabited

/-- A safe-point record (R130). -/
structure SafePt where
  opMask : Nat
  qMask : Nat
  regs : List (Nat × Nat × Nat)        -- frame, first register, count
  sps : List (Nat × Nat)               -- offset, length
  deriving DecidableEq, Repr, Inhabited

/-- A kernel descriptor as read (R130). -/
structure KDesc where
  cw : Nat
  ch : Nat
  roles : List Role
  lead : Option Role
  spSize : Nat
  stack : Nat
  csLo : Nat
  csHi : Nat
  age : Nat
  nbar : Nat
  wdog : Nat
  tbase : Option Nat                   -- CODE offset
  tsave : Option Nat                   -- memory-plan index
  stkPlan : Nat
  psize : Nat
  safePts : NMap SafePt
  liveMaps : NMap (List Nat)
  qbinds : List (Nat × Nat × Nat)      -- port, role, descriptor
  deriving DecidableEq, Repr, Inhabited

/-- A ticket (R209). -/
structure Ticket where
  value : Nat := 0
  poison : Bool := false
  effect : Bool := false               -- the poison has taken effect (R211)
  deriving DecidableEq, Repr, Inhabited

/-- A team (R6, R37 to R41). -/
structure Team where
  grid : Nat
  teamid : Nat
  cluIdx : Nat
  cluster : List Nat                   -- the cluster's teams, in order
  core : Nat
  slot : Nat                           -- team slot of its core, 0 to 7
  spBase : Nat                         -- physical address of its scratchpad
  stackBlk : Nat
  bars : NMap Barrier
  dgval : Word64
  dgcnt : Word
  queues : NMap LiveQ                  -- by descriptor offset
  finals : NMap (Bool × Bool × Bool)   -- per role: DZT, SSTEP, DGON of its first strand when that finished (R34)
  saving : Bool
  stopReq : Nat                        -- CYCLE of the pre-emption request
  stopAt : Option Nat := none  -- CYCLE at which its last strand, or its cluster's, was found stopped (R369)
  ptoHalted : Bool                     -- halted by the pre-emption timeout (R367)
  saveRes : Nat                        -- bytes reserved in the save pool (R365)
  saveOff : Nat                        -- and where
  dgstep : Nat                         -- `dg.chk` of its lead strand that posted a digest (R421)
  deriving DecidableEq, Repr, Inhabited

/-- A bin (R14). -/
structure Bin where
  team : Nat
  role : Nat
  pc : Word64
  threads : List Filing
  frame : Frame
  age : Nat                            -- clocks since the first thread was filed (R322)
  fired : Bool                         -- its age timer has expired, or a pre-emption launches it
  readyAt : Option Nat                 -- CYCLE when a condition of R16 came to hold
  deriving DecidableEq, Repr, Inhabited

end Sys2Proof.Machine
end

