-- ==== Sys2Proof/Machine/EngTypes.lean ====
section
/-! DEFINITION. The state of a core's engines and caches: matrix tokens, array, drain engine, copy tokens, read cache,
instruction buffer, TLB (08, 09, 10, 12, 13). -/

namespace Sys2Proof.Machine

/-- Matrix token states but FREE (R233); a FREE token is absent. -/
inductive MxSt where
  | queued | array | drain | done | stopped | aborted
  deriving DecidableEq, Repr, Inhabited

/-- The accumulator or A registers an operation names of an owner strand (R228, R229): of the `count` registers from `first` up,
the first `used` of every `stride`. -/
structure RegRun where
  strand : Nat
  frame : Nat
  first : Nat
  count : Nat
  stride : Nat := 1
  used : Nat := 1
  deriving DecidableEq, Repr, Inhabited

/-- A matrix token and its operation (R226 to R237). -/
structure MxTok where
  st : MxSt
  reported : Bool
  team : Nat
  strand : Nat                 -- the issuing strand, which holds the token
  order : Nat                  -- mx.go order
  fmt : Word
  param : List Byte            -- the parameter block as read
  acc : List RegRun
  aReg : List RegRun
  undef : List (Nat × Nat)     -- registers read unpublished (R231): frame and register
  waited : List Nat            -- strands that have returned from mx.wait
  raced : Bool                 -- a store touched A, its scales or side lists, a held slot or B (R231)
  abort : Bool
  posS : Nat                   -- next wavefront to be admitted
  posM : Nat
  slot : Option Nat            -- A slot held in queue mode: its offset
  kdone : Nat
  ug : Nat
  um : Nat
  dcause : Nat
  resumed : Bool
  pushClosed : Bool
  qclosed : Bool
  ovf : Bool
  miss : Bool
  darg : Option (List Byte)
  rpart : NMap Word            -- row-reduction partials by stream
  final : NMap Word := []      -- accumulator elements as last promoted (R232, R241), keyed 128 m + n
  asum : NMap Int              -- ASUMs of an ARRAY operation that has been restored and not yet taken (R337)
  dgon : Bool
  faultAddr : Nat
  blk : Nat                    -- team-window offset of its parameter block
  deriving DecidableEq, Repr, Inhabited

/-- A wavefront in flight (R326): k-step and row, and what was read of A's row step, its scales and side lists. -/
structure Wave where
  s : Nat
  m : Nat
  a : List Byte
  scales : List Byte
  sides : List Byte
  deriving DecidableEq, Repr, Inhabited

/-- Why the array was asked to halt (R334). -/
inductive Halt where
  | preempt | abort | debug
  deriving DecidableEq, Repr, Inhabited

/-- The array (R325 to R335). ASUMs are keyed 128 m + n and hold codes of `Fmt.asum`, or integers for S8. -/
structure ArraySt where
  op : Option Nat              -- token of the operation in it
  inflight : List Wave         -- oldest first
  asum : NMap Int
  weights : Option Nat         -- k-step in the weight latches
  shadow : Option Nat
  halt : Option Halt
  haltAt : Nat
  held : Bool
  lastSlot : Nat               -- team slot served last
  begun : Bool := false        -- the operation has admitted a wavefront since the array took it
  admits : List Nat := []      -- cycles of the admissions of the last microsecond (R330)
  deriving DecidableEq, Repr, Inhabited

/-- The array without its operation; ASUM files are cleared (R335). -/
def ArraySt.leave (a : ArraySt) : ArraySt :=
  { a with op := none, inflight := [], asum := [], weights := none, shadow := none, halt := none, held := false, begun := false }

/-- A unit in flight in the drain engine (R245): what it commits. -/
structure DrainUnit where
  tok : Nat
  m : Nat
  g : Nat
  stores : List (List Host.Cell × List (Nat × Nat × Nat))   -- each store's bytes and digest items
  rows : List (Nat × Host.Cell)
  pushes : List (Nat × List Word)                -- pushes accepted
  more : List (Nat × List Word) := []            -- pushes that wait for room
  begun : Bool := false        -- it has begun to commit (R236)
  deriving DecidableEq, Repr, Inhabited

/-- The drain engine (R339 to R341): tokens in the order they entered DRAIN, and units in flight. -/
structure DrainEng where
  queue : List Nat
  units : List DrainUnit
  deriving DecidableEq, Repr, Inhabited

/-- A loaded drain slot (R238). -/
structure DrnSlot where
  team : Nat
  image : List Word
  deriving DecidableEq, Repr, Inhabited

/-- Copy token states but FREE (R253). -/
inductive CpSt where
  | busy | done | stopped
  deriving DecidableEq, Repr, Inhabited

/-- A copy token (R249 to R255). `form` is the CP function, 0 to 3. -/
structure CpTok where
  st : CpSt
  reported : Bool
  team : Nat
  strand : Nat
  form : Nat
  desc : List Byte
  rowdone : Nat
  later : List Nat             -- rows above ROWDONE already performed; for `cp.q`, rows of the slot at hand
  qclosed : Bool
  slot : Option Nat            -- slot allocated and not yet posted
  cause : Nat
  faultAddr : Nat
  dgon : Bool
  orig : NMap Byte := []       -- source bytes that the copy has written over, as they were (R252)
  parts : NMap (Nat × List Nat) := []  -- rows begun: source address, and the words that have been moved (R295)
  deriving DecidableEq, Repr, Inhabited

/-- A TLB or translation-cache entry (R360): a leaf of level 2 to 4, or a level-3 table pointer. -/
structure TlbEnt where
  ctx : Nat
  level : Nat
  vbase : Nat                  -- first virtual address it covers
  leaf : Bool
  entry : Nat
  addr : Nat                   -- where the entry lies
  deriving DecidableEq, Repr, Inhabited

/-- A saved team's reservation on the core it left (R364). -/
structure Resv where
  team : Nat
  mx : List Nat
  cp : List Nat
  drn : List Nat
  deriving DecidableEq, Repr, Inhabited

/-- Registers and conditions of a core (R315, R329, R434 to R436). -/
structure CoreRegs where
  wfcnt : Nat := 0
  rlstall : Nat := 0
  mxcap : Nat := 0
  aqpmax : Nat := 0
  wfrate : Nat := 0
  temp : Nat := 0
  band : Nat := 0
  hot : Bool := false
  resv : Bool := false
  energy : Nat := 0
  throttled : Bool := false
  gated : Bool := false
  idleSince : Nat := 0
  wasHot : Bool := false               -- hot as the clock at hand began (R324)
  wasThrottled : Bool := false         -- throttled then (R437)
  wakeAt : Nat := 0                    -- CYCLE from which its clocks run, after a restart from IDLE (R434)
  deriving DecidableEq, Repr, Inhabited

/-- A core. -/
structure Core where
  bins : NMap Bin := []
  rcache : NMap (List Byte) := []      -- lines of the tier-2 read cache that are not stale (R278)
  ibuf : NMap (List Word) := []        -- instruction lines by physical address (R83)
  tlb : List TlbEnt := []
  mx : NMap MxTok := []
  cp : NMap CpTok := []
  drn : NMap DrnSlot := []
  arr : ArraySt := ⟨none, [], [], none, none, none, 0, false, 0, false, []⟩
  dre : DrainEng := ⟨[], []⟩
  regs : CoreRegs := {}
  resvs : List Resv := []
  deriving DecidableEq, Repr, Inhabited

end Sys2Proof.Machine
end

