-- ==== Sys2Proof/Machine/SysTypes.lean ====
section
/-! DEFINITION. The state of the package outside its cores: user queues, slots and packets (11), saved teams (13), the
Chaend loop (14), fabric and host link (15), debug (16), firmware, supplies and heat (17). -/

namespace Sys2Proof.Machine

/-! Queues and packets. -/

/-- States of a registered user queue (R305). -/
inductive UqSt where
  | empty | pending | mapped | faulted
  deriving DecidableEq, Repr, Inhabited

/-- What a started packet or graph node still has to do (R309). -/
inductive Work where
  | grid (g : Nat)
  | copy (src dst bytes : Nat)
  | waitLsn (lsn : Nat)
  | waitWord (va : Nat)                -- a WAIT_LSN node: the LSN stands in a locket word
  | post (id : Nat)                    -- a SIGNAL to the locket, posted
  | barrier
  | graph
  | ended                              -- its work is done; its completion is still to be made
  deriving DecidableEq, Repr, Inhabited

/-- A graph node (R133). -/
structure GNode where
  kind : Nat
  args : List Nat
  preds : List Nat
  work : Option Work                   -- none before its start
  done : Bool
  deriving DecidableEq, Repr, Inhabited

/-- A started packet that is not complete (R309). -/
structure Started where
  ty : Nat
  cpl : Option (Nat × Nat)             -- CPLADDR and CPLVAL
  work : Work
  nodes : NMap GNode
  ktab : Nat
  mptab : Nat
  image : List Byte                    -- the packet's 64 bytes
  deriving DecidableEq, Repr, Inhabited

/-- A registered user queue (R304). -/
structure Uq where
  ring : Nat
  rlog : Nat
  prio : Nat
  slice : Nat
  ctx : Nat
  ridxAddr : Nat
  errAddr : Nat
  evq : Nat
  widx : Nat
  ridx : Nat
  st : UqSt
  started : NMap Started
  saved : List Nat                     -- saved teams, first to be resumed first
  since : Nat                          -- CYCLE when it became PENDING
  hist : List (Nat × Nat)              -- energy and share (in millionths) of its last mapped slices
  dereg : Bool                         -- UQDEREG waits for started packets
  killed : Bool                        -- has received the record of a kill (R354)
  afterWait : Bool                     -- the packet started last is a WAIT_LSN
  acquired : Bool                      -- a packet of it has started as an acquire at `.sys` (R309)
  deriving DecidableEq, Repr, Inhabited

/-- States of a hardware slot but FREE (R310). -/
inductive SlotSt where
  | active | idle | saving | error
  deriving DecidableEq, Repr, Inhabited

/-- A hardware slot that is not FREE. -/
structure Slot where
  st : SlotSt
  queue : Nat
  used : Nat                           -- clocks of the current slice that have passed while ACTIVE
  sliceEnergy : Nat                    -- microjoules within the current slice (R312)
  lastActive : Nat
  capped : Bool                        -- has reached its allowance in the current slice (R312)
  deriving DecidableEq, Repr, Inhabited

/-- A loop launch's share (R316). -/
structure Share where
  grid : Nat
  prio : Nat
  ctx : Nat
  doneOff : Nat
  since : Nat
  saved : List Nat
  deriving DecidableEq, Repr, Inhabited

/-- Head work that the sequencer may admit or resume: the next team or cluster of a grid, or a saved one (R317). -/
inductive Cand where
  | fresh (g : Nat)
  | saved (t : Nat)
  deriving DecidableEq, Repr, Inhabited

/-- Registers of the scheduler (R315). -/
structure Sched where
  clresv : Nat := 10
  starve : Nat := 8
  admitOn : Bool := false
  uqtbase : Word64 := 0
  pbudget : Nat := 1500
  hotlim : Nat := 95
  kickdrop : Word := 0
  rej : Bool := false
  qnum : Nat := 0
  queues : NMap Uq := []
  slots : NMap Slot := []
  energy : NMap Nat := []              -- ENERGYSs: microjoules since slot s was last mapped
  shares : NMap Share := []
  sharesNext : Nat := 0
  reserved : List (Nat × List Nat) := []   -- grid of a cluster and the cores reserved for it (R319)
  waiting : List (Cand × Nat) := []    -- clusters that are candidates, and the CYCLE since when (R319)
  above : Bool := false                -- package power has exceeded PBUDGET and has not fallen below it since (R312)
  deriving DecidableEq, Repr, Inhabited

/-! Saved teams. -/

/-- A saved team (R363 to R368): what its image holds, and where the image lies. Registers it does not name are undefined
after resumption. -/
structure Saved where
  team : Nat                           -- its number while it was resident
  info : Team
  strands : List (Nat × Strand)
  mx : NMap MxTok
  cp : NMap CpTok
  drn : NMap DrnSlot
  mem : List (Nat × List Byte)         -- team-window offset and bytes
  core : Nat
  image : Nat                          -- physical address of the image
  size : Nat
  lsn : Nat
  deriving DecidableEq, Repr, Inhabited

/-! The loop. -/

/-- A numbered record (R376, R377). -/
structure LRec where
  ty : Nat
  arg : Nat
  seq : Nat
  src : Nat
  len : Nat
  payload : List Byte
  deriving DecidableEq, Repr, Inhabited

/-- Who posted a record. -/
inductive PostBy where
  | strand (s h : Nat)
  | packet (queue pkt node : Nat)      -- node 0 is the packet itself, k + 1 is node k
  | kill (ctx : Nat)
  | share                              -- the DONEOFF add of a loop launch
  deriving DecidableEq, Repr, Inhabited

/-- A post in the post queue or on the ring (R258). -/
structure Post where
  r : LRec
  who : PostBy
  ctx : Nat
  deriving DecidableEq, Repr, Inhabited

/-- A record received and not yet applied (R381). `own` is the post it returns. -/
structure RxRec where
  r : LRec
  lsn : Nat
  own : Option Post
  deriving DecidableEq, Repr, Inhabited

/-- A tap's registers (R392): signed hundredths of a dBm. -/
structure Tap where
  power : Int := -32768
  guard : Int := -32768
  max : Int := -32768
  min : Int := 32767
  deriving DecidableEq, Repr, Inhabited

/-- A modulator (R393). -/
structure Mzm where
  heater : Nat := 0x800
  qalarm : Bool := false
  disturbed : Nat := 0                 -- CYCLE until which its heater settles after a write that disturbs the wavelength (R373)
  deriving DecidableEq, Repr, Inhabited

structure Optics where
  gain : Nat := 0x800                  -- SOACTL
  taps : NMap Tap := []
  mzms : NMap Mzm := []
  deriving DecidableEq, Repr, Inhabited

/-- An inbox (R394). -/
structure Inbox where
  base : Nat := 0
  lcnt : Nat := 0
  en : Bool := false
  drop : Word := 0
  dlsn : Nat := 0
  undef : Bool := false                -- IBBASE or LCNT changed while EN was set: ring contents undefined
  deriving DecidableEq, Repr, Inhabited

/-- States of the loop (R391). -/
inductive LoopState where
  | off | forming | run | down
  deriving DecidableEq, Repr, Inhabited

structure LoopCounts where
  grants : Word := 0
  regen : Word := 0
  crcerr : Word := 0
  deriving DecidableEq, Repr, Inhabited

structure Loop where
  join : Bool := false
  master : Bool := false
  st : LoopState := .off
  fault : Nat := 0
  hold : Bool := false
  lsn : Nat := 0                       -- numbered records received (R380)
  applied : Nat := 0
  circ : Nat := 0
  circs : Nat := 0                     -- circulations seen
  counts : LoopCounts := {}
  gen : Nat := 0                       -- generation last accepted
  seqs : NMap Nat := []                -- last SEQ of each source
  seq : Nat := 255                     -- SEQ of this package's last record
  postq : List Post := []
  flight : List Post := []             -- written and not returned
  rx : List RxRec := []
  slotSeen : Nat := 0                  -- number of the last slot that arrived
  noGrant : Nat := 0                   -- master: circulations, by its own IDLE records, without a GRANT
  grantSeen : Bool := false            -- master: a GRANT has arrived since its last IDLE
  idleOut : Option Nat := none         -- master: CYCLE of its last IDLE
  grantDue : Option Nat := none        -- master: generation of a GRANT that waits for an empty slot
  idleAt : Nat := 0                    -- CYCLE of the last valid IDLE
  lastGrant : Option Nat := none       -- slot, counted over circulations, of the last valid GRANT
  left : Nat := 0                      -- while it holds the grant: records still to be written before the new GRANT
  heldGen : Nat := 0                   -- generation of the grant it holds
  frames : Nat := 0                    -- master: IDLE records written
  numbered : Bool := false             -- a numbered record arrived while FORMING
  optics : Optics := {}
  inboxes : NMap Inbox := []
  digests : List (Nat × Nat × Nat × Nat × Nat) := []   -- source, context, STEP, RANK, digest, latest first (R422)
  deriving DecidableEq, Repr, Inhabited

/-! Fabric. -/

/-- A Vutos frame (R396). -/
structure Frm where
  op : Nat
  cls : Nat
  ece : Bool
  ctx : Nat
  src : Nat
  dst : Nat
  psn : Nat
  apsn : Nat
  addr : Nat
  tag : Nat
  cause : Nat
  data : List Byte
  deriving DecidableEq, Repr, Inhabited

/-- A numbered frame that is not acknowledged: the frame, transmissions made, CYCLE of the first. -/
structure Unacked where
  frm : Frm
  tries : Nat
  first : Nat
  deriving DecidableEq, Repr, Inhabited

/-- A connection (R398, R399). Its key is 4 p + c. -/
structure Conn where
  st : Nat := 0                        -- IDLE, OPEN, RESET
  rate : Nat := 800
  txPsn : Nat := 0
  unacked : List Unacked := []
  queued : List Frm := []              -- beyond the window of 1,024
  rxPsn : Nat := 0
  naked : Bool := false                -- NAKS sent since the last frame in order
  since : Nat := 0                     -- numbered frames since the last APSN sent
  ackAt : Nat := 0                     -- CYCLE of the first of them
  ece : Bool := false                  -- a CE mark to be echoed
  cutAt : Option Nat := none           -- CYCLE of the last rate cut
  calmAt : Nat := 0                    -- CYCLE of the last frame with ECE, or of the last rise of the rate
  kept : List (Nat × Frm) := []        -- PSN of a performed AADD or ACAS and its response, latest first
  progress : Nat := 0                  -- CYCLE of the last advance of APSN
  owe : Option Nat := none             -- OP of an ACK or NAKS that could not be sent yet
  asked : Nat := 0                     -- requests for a reset that have not been answered (R404)
  deriving DecidableEq, Repr, Inhabited

/-- A fabric operation (R262), kept once done for a failure that is still on its way. `frames` counts its unacknowledged or
unanswered frames. -/
structure FabOp where
  strand : Nat
  num : Nat
  op : Nat                             -- 1 put, 2 get, 4 add, 5 cas
  posted : Bool                        -- an atomic without destination
  conn : Nat
  ctx : Nat
  remote : Nat
  lane : Nat
  frames : Nat
  locals : List (Nat × Nat × Nat)      -- get: first remote virtual address of a run, physical address, bytes
  fence : Nat                          -- waits for the strand's operations below this number (R266)
  held : List Frm                      -- its frames while it waits
  evq : Nat                            -- event queue, and queue number, for a failure its strand no longer reports (R404)
  queue : Nat
  failed : Bool
  deriving DecidableEq, Repr, Inhabited

/-- A port's states (R402). -/
inductive PortState where
  | down | train | up | drain | sleep | waking
  deriving DecidableEq, Repr, Inhabited

/-- A transit frame that waits for its port, with its hop limit and CE mark. The frames of one input port and class that wait for a port
are a virtual output queue (R400). -/
structure Transit where
  frm : Frm
  hop : Nat
  ce : Bool
  input : Nat                          -- the port it came by
  deriving DecidableEq, Repr, Inhabited

structure FabPort where
  en : Bool := false
  lpreq : Bool := false
  st : PortState := .down
  lpabort : Word := 0
  drops : Word := 0
  paused : Nat := 0                    -- priorities the peer has paused
  sentPause : Nat := 0                 -- priorities this package has paused toward the peer
  peerSleep : Bool := false            -- the peer's SLEEP has been seen: its port sleeps
  acked : Bool := false                -- while draining: the ACK of its SLEEP has been seen
  oweSleep : Bool := false             -- its SLEEP waits for FABCTL.EN, or for the end of a pause
  oweAck : Bool := false               -- the ACK of its peer's SLEEP waits
  hintAt : Option Nat := none          -- CYCLE of the last wake hint (R402)
  queue : List Transit := []           -- transit frames waiting for this port
  deriving DecidableEq, Repr, Inhabited

structure Fab where
  en : Bool := false
  pfx : Word64 := 0
  fabto : Nat := 10000
  ecnthr : Nat := 256
  fwd : NMap Nat := []
  ports : NMap FabPort := []
  conns : NMap Conn := []
  ops : NMap FabOp := []               -- by TAG
  tag : Nat := 0
  halted : List (Nat × Frm) := []      -- local frames not performed, with the port they came by: the halt buffer (R401), and what lies behind it
  deriving DecidableEq, Repr, Inhabited

/-! Host link. -/

/-- An event queue (R408). -/
structure Evq where
  base : Nat := 0
  vec : Nat := 0
  lcnt : Nat := 0
  en : Bool := false
  head : Word := 0
  tail : Word := 0
  drop : Word := 0
  undef : Bool := false
  deriving DecidableEq, Repr, Inhabited

/-- A host-memory request outstanding: an AtomicOp of a lane (R406). -/
structure HostReq where
  strand : Nat
  lane : Nat
  rmw : Rmw
  since : Nat := 0                     -- CYCLE in which it was sent
  deriving DecidableEq, Repr, Inhabited

structure HostLink where
  atomok : Bool := false
  up : Bool := false
  width : Nat := 0
  speed : Nat := 0
  atomEn : Bool := false               -- Device Control 2: AtomicOp Requester Enable
  cto : Nat := 0                       -- Device Control 2: completion timeout value
  config : NMap Byte := []             -- the rest of configuration space as written
  bar4 : Nat := 19                     -- Resizable BAR: BAR 4 has 2^(20 + bar4) bytes
  evqs : NMap Evq := []
  reqs : List HostReq := []
  deriving DecidableEq, Repr, Inhabited

/-! Debug. -/

/-- A breakpoint (R412). -/
structure Bp where
  ord : Word := 0
  off : Word := 0
  ctx : Nat := 0
  en : Bool := false
  deriving DecidableEq, Repr, Inhabited

/-- What a partition's sampler follows (R415, R416): the strand chosen, then its tagged word: PC, word, lanes, ordinal, offset; and
its status once it is known. -/
structure Tag where
  strand : Nat
  ctx : Nat
  slot : Nat
  word : Option (Word64 × Word × Nat × Word × Word)
  status : Option Nat
  level : Nat                          -- the deepest memory the word has reached (R416)
  since : Nat                          -- CYCLE in which its strand was chosen
  deriving DecidableEq, Repr, Inhabited

structure Dbg where
  sampEn : Bool := false
  ilog : Nat := 10
  drbase : Nat := 0
  vec : Nat := 0
  lcnt : Nat := 0
  en : Bool := false
  head : Word := 0
  tail : Word := 0
  drop : Word := 0
  bps : NMap Bp := []
  tags : NMap Tag := []                -- by 4 core + partition
  due : NMap Nat := []                 -- issues left before a partition's next sample
  following : List Nat := []           -- the model's own: partitions whose tagged word this step executes
  deriving DecidableEq, Repr, Inhabited

/-- A kill whose records wait for its kill order (R354). -/
structure Kill where
  ctx : Nat
  reason : Nat
  pc : Word64
  addr : Word64
  cause : Nat
  lanes : Word
  core : Nat
  slot : Nat
  team : Nat
  queue : Option Nat                   -- queue that started the killed team; none: the system event queue
  cycle : Nat
  here : Bool                          -- it arose here
  deriving DecidableEq, Repr, Inhabited

/-! Firmware, supplies and heat. -/

/-- Package states (R431). -/
inductive PState where
  | reset | boot | run | fail | shut
  deriving DecidableEq, Repr, Inhabited

/-- A die's supply (R433). -/
structure Die where
  mv : Nat := 5                        -- as written
  want : Option Nat := none            -- a change that waits
  settling : Bool := false
  since : Nat := 0                     -- CYCLE of the change that settles
  supply : Nat := 5                    -- as supplied
  deriving DecidableEq, Repr, Inhabited

structure Fw where
  st : PState := .reset
  step : Nat := 0
  code : Nat := 0
  ver : Word := 0
  svn : Nat := 0
  flash : List Byte := []              -- the board's flash image (R428)
  failAt : Nat := 0                    -- the boot step, 3 or 4, whose training fails; 0 for none
  bootAt : Nat := 0                    -- CYCLE of the start of boot step 5
  patch : NMap Nat := []               -- control-store address and its 96-bit word (R427)
  image : List Byte := []              -- the firmware code that the sequencer runs, as boot step 2 loaded it (R428, R430)
  north : Die := {}
  south : Die := {}
  pkgpwr : Word := 0
  serrcnt : Word := 0
  serrunc : Word := 0
  energy : Nat := 0
  deriving DecidableEq, Repr, Inhabited

/-! What the package sends out. -/

/-- Something the package has sent: the model's own record of its outputs. -/
inductive Sent where
  | frame (port : Nat) (f : Frm) (hop : Nat) (ce : Bool) (pcp srcAddr dstAddr : Nat)   -- with its priority and its IPv6 addresses
  | pfc (port vec on : Nat)            -- 802.1Qbb: priorities named, and those paused among them
  | slot (n : Nat) (data : List Byte)  -- a slot as it leaves the package on the loop
  | gate (isOpen : Bool)                -- the SOA gate
  | msix (vec : Nat)
  | atomicOp (q : HostReq)
  | hostReply (data : List Byte)       -- completion of a host request
  | hostUr                             -- completion with Unsupported Request
  deriving DecidableEq, Repr, Inhabited

end Sys2Proof.Machine
end

