-- ==== Sys2Proof/Machine/State.lean ====
section
/-! DEFINITION. The machine's state as plain data, the reasons a step can stop, and the state after reset. -/

namespace Sys2Proof.Machine

/-- Why the machine stops. -/
inductive Fault where
  /-- Raised by the meaning of an instruction word when no path is issuing one (runs is empty, or names no strand). No
  step of the machine does that: a word is executed only for the path that issues it. Safe. -/
  | noPath
  deriving DecidableEq, Repr, Inhabited

/-- Why an instruction has no meaning. -/
inductive Refusal where
  /-- An instruction not modelled yet, by its mnemonic. Raised by Machine/Dispatch.lean only. Safe. -/
  | notModelled (mnemonic : String)
  deriving DecidableEq, Repr, Inhabited

/-- What an operation of the machine answers. -/
abbrev Out (σ : Type) := Host.Outcome σ Fault Refusal

/-- A path issuing words: its strand and itself. -/
structure Run where
  strand : Nat
  path : RunPath
  deriving DecidableEq, Repr, Inhabited

/-- What a clock still holds (R323, R324): a path's word, an event and what it carries, or a place at which what is due then comes
next: ends of teams and packets, packets in error (at most n), an admission. -/
inductive Turn where
  | run (r : Run)
  | event (i : Instr) (args : List Nat)
  | ends (n : Nat)
  | errors (n : Nat)
  | admission
  deriving DecidableEq, Repr, Inhabited

/-- What started a grid: a packet of a user queue, a graph node of one, a loop record, or the dump phase. -/
inductive GridSrc where
  | packet (queue pkt : Nat)
  | node (queue pkt node : Nat)
  | loop (share : Nat)
  | dump (ctx : Nat)
  deriving DecidableEq, Repr, Inhabited

/-- A grid on this package (R6, R35, R209, R307). -/
structure Grid where
  ctx : Nat
  kdescVa : Word64
  kd : KDesc
  param : Word64
  teams : Nat                  -- team count of the whole grid
  next : Nat                   -- next team to admit
  last : Nat                   -- teams from `next` to below `last` are still to be admitted
  share : Nat × Nat            -- teams of this package: from, to below
  ended : List Nat             -- cluster members and teams ended, by teamid
  tbase : Option Word64        -- the package's copy while a team is resident or saved (R35)
  tickets : NMap Ticket
  src : GridSrc
  ck : Option Nat              -- its launch checkpoint (R420)
  serial : Bool                -- under serialised re-execution (R420)
  since : Nat                  -- CYCLE of its launch, or of its last admission or save
  acquired : Bool := false     -- its launch is, or follows, an acquire at `.sys` (R133, R309)
  deriving DecidableEq, Repr, Inhabited

/-- A memory-plan allocation as loaded (R135). -/
structure Alloc where
  va : Nat
  region : Nat
  size : Nat
  fill : Bool
  image : Option (List Byte)
  kernel : Nat
  life : Option (Nat × Nat)    -- FIRST and LAST node; none for the whole graph
  lsn : Nat                    -- locket: LSN of its last WRITE record
  units : List Nat             -- region 2: the 64 KiB units of the lower 6 MiB of slices it takes, 96 core + unit
  deriving DecidableEq, Repr, Inhabited

/-- A checkpoint stored (R417): where its header lies, the teams of its images and their grids. -/
structure Ckpt where
  addr : Nat
  teams : List Saved
  grids : NMap Grid
  deriving DecidableEq, Repr, Inhabited

/-- A replay in progress (R419): the replica of the allotment, its LSN, and the log still to be read. -/
structure Replay where
  cells : List Host.Cell       -- replay replica by locket offset
  lsn : Nat
  pos : Nat                    -- byte offset in the order log of the next loop record
  ppos : Nat                   -- of the next entry a post may match
  hpos : Nat                   -- of the next host packet
  fpos : Nat                   -- of the next fabric arrival
  waits : List (Nat × Nat × Nat)   -- strand, handle and the log offset of its match
  deriving DecidableEq, Repr, Inhabited

/-- A dump phase in progress (R423): the kill it precedes, none for a DUMP command; and whether the teams are captured. -/
structure DumpSt where
  kill : Option Kill
  captured : Bool := false
  deriving DecidableEq, Repr, Inhabited

/-- Debug registers and state of a context (R412, R417 to R423). -/
structure CtxDbg where
  dgx : Bool := false
  reexec : Bool := false
  period : Nat := 0
  full : Bool := false
  count : Nat := 0
  ckbase : Nat := 0
  cksize : Nat := 0
  logsize : Nat := 0
  logbase : Nat := 0
  dumpva : Nat := 0
  dumpsize : Nat := 0
  halted : Bool := false
  why : Nat := 0
  bp : Nat := 0
  dump : Option DumpSt := none
  deriving DecidableEq, Repr, Inhabited

/-- Checkpoints, log and replay of a context. -/
structure CtxCk where
  next : Nat := 0              -- offset in the checkpoint area of the next checkpoint
  stored : NMap Ckpt := []
  logpos : Nat := 0            -- bytes of the order log written
  taking : Bool := false       -- teams are being saved for a checkpoint
  last : Nat := 0              -- CYCLE of the last checkpoint
  spec : NMap (Nat × Nat) := []    -- targets of speculative atomics by first address: bytes, and checkpoints stored then (R293)
  replay : Option Replay := none
  deriving DecidableEq, Repr, Inhabited

/-- The program the loader placed in a context (R130 to R135; notes/assumptions/8.md). -/
structure Prog where
  codeVa : Nat := 0
  drainVa : Nat := 0
  kdescVa : Nat := 0           -- where its KDESC section stands
  kernels : Nat := 0           -- kernel descriptors of that section
  plan : List Alloc := []
  deriving DecidableEq, Repr, Inhabited

/-- A context (R361), its locket allotment (R257) and program. -/
structure Ctx where
  root : Nat := 0
  save : Nat := 0
  ssize : Nat := 0
  pto : Nat := 0
  halted : Bool := false       -- CTXCTL.HALTED
  killed : Bool := false
  sys : Bool := false
  valid : Bool := false
  allot : List (Nat × Nat) := []   -- locket ranges [lo, hi)
  pool : List (Nat × Nat) := []    -- save-pool reservations: offset, bytes (R365)
  prog : Prog := {}
  dbg : CtxDbg := {}
  ck : CtxCk := {}
  deriving DecidableEq, Repr, Inhabited

/-- A store that outlives its strand (R45, R170, R353): the core it came from, its team, and the store. -/
structure Orphan where
  core : Nat
  team : Nat
  store : PendStore
  deriving DecidableEq, Repr, Inhabited

/-- Numbers the model gives out. -/
structure Ids where
  uid : Nat := 1               -- frames; 0 is the operand file
  sid : Nat := 0
  tid : Nat := 0
  gid : Nat := 0
  ord : Nat := 0               -- matrix operations
  deriving DecidableEq, Repr, Inhabited

/-- The machine: one package of the pod. -/
structure State where
  mem : Memory                 -- physical memory (R357), but for the control region
  cycle : Nat                  -- CYCLE (R32)
  tick : Nat                   -- the model's own: one more at every step, for the free values
  inputs : List (Instr × List Nat)   -- the model's own: events to take next, with what they carry
  args : List Nat              -- the model's own: what the event at hand carries
  round : List Turn            -- the model's own: what is still to come in this clock
  runs : List Run              -- paths issuing words, the next one first
  strands : NMap Strand
  orphans : List Orphan        -- stores of strands that are gone, not yet performed
  teams : NMap Team
  grids : NMap Grid
  ctxs : NMap Ctx
  cores : NMap Core
  xcache : List TlbEnt         -- the package's translation cache (R360)
  ids : Ids
  pkgid : Nat                  -- R370
  npkg : Nat                   -- packages of the pod
  sched : Sched
  saved : NMap Saved           -- saved teams
  loop : Loop
  fab : Fab
  host : HostLink
  dbg : Dbg
  kills : List Kill
  fw : Fw
  ctlq : List (Nat × Option Byte)    -- the model's own: accesses of engines to control registers in this step: a byte
                               -- written, or none where the word was read
  sent : List Sent             -- the model's own: what the package has sent, latest first
  deriving DecidableEq, Repr, Inhabited

/-- The machine right after reset. -/
def State.reset : State where
  mem := []
  cycle := 0
  tick := 0
  inputs := []
  args := []
  round := []
  runs := []
  strands := []
  orphans := []
  teams := []
  grids := []
  ctxs := []
  cores := []
  xcache := []
  ids := {}
  pkgid := 0
  npkg := 1
  sched := {}
  saved := []
  loop := {}
  fab := {}
  host := {}
  dbg := {}
  kills := []
  fw := {}
  ctlq := []
  sent := []

end Sys2Proof.Machine
end

