-- ==== Sys2Proof/Machine/Ops.lean ====
section
/-! DEFINITION. Named operations over the state: reading and changing its parts, lane sets, threads, frames and the
registers a thread reaches (01_machine_state.md R10, R21, R22, R26; 03_fetch_and_formats.md R90). -/

namespace Sys2Proof.Machine

/-- Core clocks in a microsecond (00_scope.md: the synchronous clock is 2.0 GHz). -/
def cyclesPerUs : Nat := 2000

/-! Lane sets. -/

/-- The lanes of a 32-bit mask, ascending. -/
def lanesOf (m : Nat) : List Nat := (List.range 32).filter (bitOf m)

/-- The mask of a set of lanes. -/
def laneMask (ls : List Nat) : Nat := ((List.range 32).filter (ls.contains ·)).foldl (fun m l => m + 2 ^ l) 0

/-- The mask as a register value. -/
def laneWord (ls : List Nat) : Word := BitVec.ofNat 32 (laneMask ls)

/-- The lowest lane. -/
def lowest (ls : List Nat) : Nat := ls.headD 0

/-- Insert into an ascending list without repeats. -/
def insertNat (x : Nat) : List Nat → List Nat
  | [] => [x]
  | y :: ys => if x < y then x :: y :: ys else if x = y then y :: ys else y :: insertNat x ys

/-- The union of two lists as an ascending list. -/
def unionNat (a b : List Nat) : List Nat := a.foldr insertNat b

/-- The elements of a list that another does not hold. -/
def lessNat (a b : List Nat) : List Nat := a.filter fun x => !b.contains x

/-! Parts of the state. A part that does not exist reads as its type's default, and a change to it does nothing, but for
cores and contexts, which always exist. -/

def State.str (s : State) (i : Nat) : Strand := (nget s.strands i).getD default
def State.team (s : State) (i : Nat) : Team := (nget s.teams i).getD default
def State.grid (s : State) (i : Nat) : Grid := (nget s.grids i).getD default
def State.core (s : State) (i : Nat) : Core := (nget s.cores i).getD {}
def State.ctx (s : State) (i : Nat) : Ctx := (nget s.ctxs i).getD {}
def State.modStr (s : State) (i : Nat) (f : Strand → Strand) : State := { s with strands := nmod s.strands i f }
def State.modTeam (s : State) (i : Nat) (f : Team → Team) : State := { s with teams := nmod s.teams i f }
def State.modGrid (s : State) (i : Nat) (f : Grid → Grid) : State := { s with grids := nmod s.grids i f }
def State.modCore (s : State) (i : Nat) (f : Core → Core) : State := { s with cores := nset s.cores i (f (s.core i)) }
def State.modCtx (s : State) (i : Nat) (f : Ctx → Ctx) : State := { s with ctxs := nset s.ctxs i (f (s.ctx i)) }
def State.setMem (s : State) (m : Memory) : State := { s with mem := m }
def State.modIds (s : State) (f : Ids → Ids) : State := { s with ids := f s.ids }
def State.modSched (s : State) (f : Sched → Sched) : State := { s with sched := f s.sched }
def State.modLoop (s : State) (f : Loop → Loop) : State := { s with loop := f s.loop }
def State.modFab (s : State) (f : Fab → Fab) : State := { s with fab := f s.fab }
def State.modHost (s : State) (f : HostLink → HostLink) : State := { s with host := f s.host }
def State.modDbg (s : State) (f : Dbg → Dbg) : State := { s with dbg := f s.dbg }
def State.modFw (s : State) (f : Fw → Fw) : State := { s with fw := f s.fw }
/-- Record something the package sends. -/
def State.send (s : State) (x : Sent) : State := { s with sent := x :: s.sent }
def State.addRun (s : State) (r : Run) : State := { s with runs := r :: s.runs }

/-- What the event at hand carries at a place; 0 where it carries nothing. -/
def State.arg (s : State) (i : Nat) : Nat := s.args.getD i 0

/-- Change the core of a strand. -/
def State.coreOf (s : State) (sid : Nat) : Core := s.core (s.str sid).core
def State.modCoreOf (s : State) (sid : Nat) (f : Core → Core) : State := s.modCore (s.str sid).core f
def State.teamOf (s : State) (sid : Nat) : Team := s.team (s.str sid).team
def State.gridOf (s : State) (sid : Nat) : Grid := s.grid (s.teamOf sid).grid
def State.ctxOf (s : State) (sid : Nat) : Ctx := s.ctx (s.gridOf sid).ctx
def State.modTeamOf (s : State) (sid : Nat) (f : Team → Team) : State := s.modTeam (s.str sid).team f

/-! Free values of a step, told apart by their place in it (notes/assumptions/6.md). -/

def State.freeW (s : State) (site : Nat) : Word := Config.freeWord s.tick site
def State.freeW64 (s : State) (site : Nat) : Word64 := Config.freeBits s.tick site
def State.freeB (s : State) (site : Nat) : Bool := Config.freeBool s.tick site
/-- One of a list's elements, chosen freely; the only one when there is one. -/
def State.freeOf {α : Type} (s : State) (site : Nat) (d : α) : List α → α
  | [] => d
  | [x] => x
  | l => (l[Config.freeChoice s.tick site l.length]?).getD d

/-- A write of a control register from outside: until RUN it is discarded (17_firmware_power_conformance.md R431). -/
def State.ifRun (s : State) (f : State → State) : State := if s.fw.st = .run then f s else s

/-- A read of a control register from outside, which reaches it from boot step 1 on, and no longer where boot has failed (R431). -/
def State.ifShown (s : State) (f : State → State) : State := if s.fw.st = .run ∨ s.fw.st = .boot then f s else s

/-- A list in an order chosen freely (at most n moves). -/
def State.freeOrder {α : Type} (s : State) (site : Nat) : Nat → List α → List α
  | _, [] => []
  | 0, l => l
  | n + 1, l =>
    match l with
    | [x] => [x]
    | l =>
      let k := Config.freeChoice s.tick (site + n) l.length
      match l[k]? with
      | some x => x :: s.freeOrder site n (l.eraseIdx k)
      | none => l

/-! Threads. -/

def Strand.th (st : Strand) (l : Nat) : Thread := (nget st.lanes l).getD default
def Strand.modTh (st : Strand) (l : Nat) (f : Thread → Thread) : Strand := { st with lanes := nmod st.lanes l f }
def Strand.modThs (st : Strand) (ls : List Nat) (f : Nat → Thread → Thread) : Strand :=
  { st with lanes := st.lanes.map fun (l, t) => if ls.contains l then (l, f l t) else (l, t) }

/-- A thread still in the strand. -/
def Thread.live (t : Thread) : Bool :=
  match t.st with
  | .filed | .exited => false
  | _ => true

/-- The strand's threads that are ready, waiting or parked (R173). -/
def Strand.liveLanes (st : Strand) : List Nat := (st.lanes.filter fun (_, t) => t.live).map (·.1)

/-- A strand without such threads is finished (R10). -/
def Strand.finished (st : Strand) : Bool := st.liveLanes.isEmpty

/-- The group of a lane (R343): 0 outside S1, 1 in S1 alone, 2 in S2. -/
def Strand.group (st : Strand) (l : Nat) : Nat :=
  if st.csr.s2.contains l then 2 else if st.csr.s1.contains l then 1 else 0

def Strand.isLead (st : Strand) : Bool := st.role == 4

/-- The partition that issues for a strand of a core's register file: its own, or for a lead slot's file the slot's (R323). -/
def homeOf (core part : Nat) : Nat := 4 * core + (if part < 4 then part else (part - 4) / 2)
def Strand.home (st : Strand) : Nat := homeOf st.core st.part

/-- The next sequence number of a partition's strands (R323). -/
def State.nextSeq (s : State) (core part : Nat) : Nat :=
  ((s.strands.filter fun x => x.2.home == homeOf core part).map (·.2.seq + 1)).foldl max 0

/-! Frames and registers. -/

/-- A cell of a frame. -/
def Frame.cell (f : Frame) (r l : Nat) : Word :=
  match nget f.cells (32 * r + l) with
  | some v => v
  | none =>
    match f.fill with
    | some k => Config.freeFrame k r l
    | none => 0

/-- The current frame (R21). -/
def Strand.frame (st : Strand) : Frame := st.frames.headD default

def Strand.frameOf (st : Strand) (uid : Nat) : Option Frame := st.frames.find? (·.uid == uid)

/-- Size of the current frame in registers; number 0 names no frame. -/
def Strand.frameSize (st : Strand) : Nat := if st.frame.uid = 0 then 0 else st.frame.size

/-- Put a value into an operand register. -/
def setOpnd (o : List Word) (k : Nat) (v : Word) : List Word := (o ++ List.replicate (k + 1 - o.length) 0).set k v

/-- The register j of a lane's window (R22), none at or beyond the end of the current frame. -/
def Strand.winLoc (st : Strand) (l j : Nat) : Option RegLoc :=
  let r := (st.th l).wb + j
  if r < st.frameSize then some ⟨st.frame.uid, r, l⟩ else none

/-- The register k places after the one a selector names; none for other selectors and beyond the frame. -/
def Strand.loc (st : Strand) (l : Nat) (sel : Sel) (k : Nat) : Option RegLoc :=
  match sel with
  | .v n => st.winLoc l (n.val + k)
  | .o n => if n.val + k < 8 then some ⟨0, n.val + k, l⟩ else none
  | _ => none

/-- What a register holds. -/
def Strand.peek (st : Strand) (r : RegLoc) : Word :=
  if r.frame = 0 then (st.th r.lane).o.getD r.reg 0
  else match st.frameOf r.frame with
    | some f => f.cell r.reg r.lane
    | none => 0

/-- Put a value into a register; a register of a frame is then unpublished to the matrix engine (R206). A frame the strand
no longer holds takes nothing. A register written holds no soft error any more (R352). -/
def Strand.poke (st : Strand) (r : RegLoc) (v : Word) : Strand :=
  let st := if st.softRegs.isEmpty then st else { st with softRegs := st.softRegs.filter (· != r) }
  if r.frame = 0 then st.modTh r.lane fun t => { t with o := setOpnd t.o r.reg v }
  else { st with frames := st.frames.map fun f =>
    if f.uid = r.frame then { f with cells := nset f.cells (32 * r.reg + r.lane) v, pubs := nset f.pubs r.reg .unfenced } else f }

/-- The values that pending loads are to write to a register and that are known (R90). -/
def Strand.pendingFor (st : Strand) (r : RegLoc) : List Word :=
  (st.fl.loads.filter fun p => p.on == .ready || p.on == .host).flatMap fun p =>
    (p.writes.filter fun w => w.1 == r).map (·.2)

/-- Read a register (R90): of a pending one the old or a new value. -/
def State.regRead (s : State) (sid : Nat) (r : RegLoc) (site : Nat) : Word :=
  let st := s.str sid
  s.freeOf site 0 (st.peek r :: st.pendingFor r)

/-- Write a register (R90): a pending one ends with this value or the pending one. -/
def State.regWrite (s : State) (sid : Nat) (r : RegLoc) (v : Word) (site : Nat) : State :=
  s.modStr sid fun st =>
    let st := st.poke r v
    if st.fl.loads.all (fun p => p.writes.all fun w => w.1 != r) then st
    else if s.freeB site then st
    else { st with fl := { st.fl with loads := st.fl.loads.map fun p => { p with writes := p.writes.filter fun w => w.1 != r } } }

/-- A number that tells registers apart. -/
def RegLoc.code (r : RegLoc) : Nat := (r.frame * 256 + r.reg) * 32 + r.lane
def regOfCode (c : Nat) : RegLoc := ⟨c / 8192, c / 32 % 256, c % 32⟩

/-- Write a list of registers. -/
def State.regWrites (s : State) (sid : Nat) : List (RegLoc × Word) → State
  | [] => s
  | (r, v) :: ws => (s.regWrite sid r v (0x100000 + r.code)).regWrites sid ws

/-- Give every active lane's `lr` its value (R27). -/
def Strand.setLr (st : Strand) (vals : NMap Word64) : Strand :=
  { st with lanes := st.lanes.map fun (l, t) =>
      match nget vals l with
      | some v => (l, { t with lr := v })
      | none => (l, t) }

end Sys2Proof.Machine
end

