-- ==== Sys2Proof/Machine/Space.lean ====
section
/-! DEFINITION. Address spaces: the physical map (13_traps_preemption.md R357), page tables, walks and what may stay cached
of them (R358 to R360), windows and thread stacks (01_machine_state.md R36 to R39), and reads and writes of physical bytes
with the tier-2 read cache (10_memory_model.md R278). -/

namespace Sys2Proof.Machine

/-- The regions of the physical map (R357). -/
inductive Region where
  | tier1 | locket | control | tier2 | host | nowhere
  deriving DecidableEq, Repr, Inhabited

def regionOf (pa : Nat) : Region :=
  if pa < 0x80000000 then .tier1
  else if pa < 0x81000000 then .locket
  else if 0x90000000 ≤ pa ∧ pa < 0x91000000 then .control
  else if 0x1000000000 ≤ pa ∧ pa < 0x7000000000 then .tier2
  else if 2 ^ 55 ≤ pa ∧ pa < 2 ^ 56 then .host
  else .nowhere

def locketBase : Nat := 0x80000000
def controlBase : Nat := 0x90000000
def tier2Base : Nat := 0x1000000000
def hostBase : Nat := 2 ^ 55

/-! Walks. -/

/-- What ends a walk but a leaf that serves (R359). -/
inductive XErr where
  | notPresent (malformed : Bool)
  | writeProtect
  | noExec
  deriving DecidableEq, Repr, Inhabited

/-- A leaf reached: its level, where its entry lies, the entry, and the physical address translated; and the level-3 table
pointer the walk went through, if it went through one: where it lies, and the entry. -/
structure Xlat where
  level : Nat
  at' : Nat
  entry : Nat
  pa : Nat
  via : Option (Nat × Nat) := none
  deriving DecidableEq, Repr, Inhabited

/-- Cause code and SUB of a walk's failure (R349, R351). -/
def XErr.cause : XErr → Nat
  | .notPresent _ => 0x20
  | .writeProtect => 0x21
  | .noExec => 0x22
def XErr.sub (fetch : Bool) : XErr → Nat
  | .notPresent m => (if m then 0x40 else 0) + (if fetch then 0x80 else 0)
  | _ => if fetch then 0x80 else 0

/-- The levels of a walk (R358): level, lowest bit indexed, bits indexed. -/
def walkLevels : List (Nat × Nat × Nat) := [(0, 48, 8), (1, 39, 9), (2, 30, 9), (3, 21, 9), (4, 16, 5)]

/-- log2 of what a leaf of a level maps, or of what an entry there covers. -/
def levelShift (l : Nat) : Nat := if l = 2 then 30 else if l = 3 then 21 else if l = 4 then 16 else if l = 1 then 39 else 48

/-- log2 of the size of the table an entry of level l points to. -/
def nextTableShift (l : Nat) : Nat := if l = 3 then 8 else 12

/-- The address field of an entry. -/
def entryAddr (e : Nat) : Nat := bitsOf e 55 8 * 256

/-- A present entry is malformed (R358). -/
def entryMalformed (l e : Nat) : Bool :=
  bitsOf e 63 56 != 0 || bitOf e 7 || bitOf e 4 ||
  (bitOf e 1 && decide (l < 2)) || (!bitOf e 1 && l == 4) ||
  (bitOf e 1 && entryAddr e % 2 ^ levelShift l != 0) ||
  (!bitOf e 1 && (entryAddr e % 2 ^ nextTableShift l != 0 || bitOf e 2 || bitOf e 3 || bitOf e 5 || bitOf e 6 ||
    !(regionOf (entryAddr e) == .tier1 || regionOf (entryAddr e) == .tier2)))

/-- Walk the levels left from a table (R358, R359). -/
def walkFrom (m : Memory) (va : Nat) : List (Nat × Nat × Nat) → Nat → Except XErr Xlat
  | [], _ => .error (.notPresent true)
  | (l, lo, n) :: ls, tbl =>
    let a := tbl + 8 * bitsOf va (lo + n - 1) lo
    let e := m.readLe a 8
    if !bitOf e 0 then .error (.notPresent false)
    else if entryMalformed l e then .error (.notPresent true)
    else if bitOf e 1 then .ok { level := l, at' := a, entry := e, pa := entryAddr e + va % 2 ^ levelShift l }
    else match walkFrom m va ls (entryAddr e) with
      | .ok x => .ok (if l = 3 then { x with via := some (a, e) } else x)
      | .error e => .error e

/-- What cached entries of a context may translate an address to (R360). -/
def cachedXlats (m : Memory) (ctx va : Nat) (es : List TlbEnt) : List Xlat :=
  es.filterMap fun e =>
    if e.ctx = ctx ∧ va / 2 ^ levelShift e.level * 2 ^ levelShift e.level = e.vbase then
      if e.leaf then some { level := e.level, at' := e.addr, entry := e.entry, pa := entryAddr e.entry + va % 2 ^ levelShift e.level }
      else match walkFrom m va [(4, 16, 5)] (entryAddr e.entry) with
        | .ok x => some x
        | .error _ => none
    else none

/-- Which permission a translation needs. -/
inductive Need where
  | read | write | exec
  deriving DecidableEq, Repr, Inhabited

/-- The faults a leaf gives (R359). -/
def Xlat.grant (x : Xlat) : Need → Except XErr Xlat
  | .read => .ok x
  | .write => if bitOf x.entry 2 then .ok x else .error .writeProtect
  | .exec => if bitOf x.entry 3 then .ok x else .error .noExec

/-- Translate (R359, R360): the walk of the tables `m`, or while a cached entry differs from it, freely one of the two. -/
def State.xlate (s : State) (m : Memory) (ctx core : Nat) (va : Nat) (need : Need) (site : Nat) : Except XErr Xlat :=
  let fresh := walkFrom m va walkLevels (s.ctx ctx).root
  let old := cachedXlats m ctx va ((s.core core).tlb ++ s.xcache)
  let all : List (Except XErr Xlat) := fresh :: (old.filterMap fun x =>
    match fresh with
    | .ok y => if { x with entry := 0, via := none } == { y with entry := 0, via := none } && x.entry % 32 == y.entry % 32 then none
      else some (.ok x)
    | .error _ => some (.ok x))
  match s.freeOf site fresh all with
  | .ok x => x.grant need
  | .error e => .error e

/-- Two cached entries hold the same leaf or the same level-3 pointer. -/
def TlbEnt.alike (e f : TlbEnt) : Bool := f.ctx == e.ctx && f.level == e.level && f.vbase == e.vbase && f.leaf == e.leaf

/-- Keep an entry in a core's TLB and the package's cache (R360): 2,048 and 65,536 entries. -/
def State.keepEnt (s : State) (core : Nat) (e : TlbEnt) : State :=
  if (s.core core).tlb.contains e then s
  else { (if core < 256 then s.modCore core fun c => { c with tlb := (e :: c.tlb.filter (!e.alike ·)).take 2048 } else s) with
         xcache := (e :: s.xcache.filter (!e.alike ·)).take 65536 }

/-- Keep the leaf of a walk, and the level-3 table pointer it went through (R360). -/
def State.keepXlat (s : State) (ctx core va : Nat) (x : Xlat) : State :=
  let s := match x.via with
    | some (a, e) => s.keepEnt core ⟨ctx, 3, va / 2 ^ levelShift 3 * 2 ^ levelShift 3, false, e, a⟩
    | none => s
  s.keepEnt core ⟨ctx, x.level, va / 2 ^ levelShift x.level * 2 ^ levelShift x.level, true, x.entry, x.at'⟩

/-- Set A, and D for a write, in the leaf an access goes through (R359), and keep the leaf cached. -/
def State.useXlat (s : State) (ctx core va : Nat) (x : Xlat) (need : Need) : State :=
  let want := if need = .write then 0x60 else 0x20
  let e := x.entry ||| want
  let s := if e = x.entry then s
    else s.setMem (s.mem.writeLe x.at' 8 (s.mem.readLe x.at' 8 ||| want))
  s.keepXlat ctx core va { x with entry := e }

/-- The pending stores of a strand take the bits of an atomic OR into the lowest byte of an entry they are still to write: the walk
has seen them, so the OR follows them (R359). -/
def Strand.orCells (st : Strand) (a : Nat) (want : Byte) : Strand :=
  if st.fl.stores.any fun p => p.cells.any fun c => c.1 == a then
    { st with fl := { st.fl with stores := st.fl.stores.map fun p =>
      { p with cells := p.cells.map fun c => if c.1 = a then (c.1, c.2 ||| want) else c } } }
  else st

/-- The same for an access of a strand, whose walk sees the strand's pending stores. -/
def State.useXlatOf (s : State) (sid va : Nat) (x : Xlat) (need : Need) : State :=
  let st := s.str sid
  let s := s.useXlat (s.grid (s.team st.team).grid).ctx st.core va x need
  if st.fl.stores.isEmpty then s
  else s.modStr sid (·.orCells x.at' (if need = .write then 0x60 else 0x20))

/-- The parts of a range of virtual addresses between multiples of 64 KiB, the smallest page: first address and bytes. -/
def pageParts (va n : Nat) : List (Nat × Nat) :=
  if n = 0 then []
  else (List.range ((va + n - 1) / 65536 - va / 65536 + 1)).map fun i =>
    let lo := max va ((va / 65536 + i) * 65536)
    (lo, min (va + n) ((va / 65536 + i + 1) * 65536) - lo)

/-- A translated part: virtual and physical address, bytes, and the leaf. -/
structure XPart where
  va : Nat
  pa : Nat
  len : Nat
  x : Xlat
  deriving DecidableEq, Repr, Inhabited

/-- Translate the parts of a range in ascending order; the first that fails gives its address. -/
def State.xlateParts (s : State) (m : Memory) (ctx core : Nat) (need : Need) (site : Nat) :
    List (Nat × Nat) → Except (Nat × XErr) (List XPart)
  | [] => .ok []
  | (va, n) :: ps =>
    match s.xlate m ctx core va need (site + va) with
    | .error e => .error (va, e)
    | .ok x =>
      match s.xlateParts m ctx core need site ps with
      | .error e => .error e
      | .ok r => .ok (⟨va, x.pa, n, x⟩ :: r)

def State.useParts (s : State) (ctx core : Nat) (need : Need) (ps : List XPart) : State :=
  ps.foldl (fun s p => s.useXlat ctx core p.va p.x need) s
def State.usePartsOf (s : State) (sid : Nat) (need : Need) (ps : List XPart) : State :=
  ps.foldl (fun s p => s.useXlatOf sid p.va p.x need) s

/-! The locket. -/

/-- The locket ranges a context is allotted, [lo, hi): a system context has the whole locket (R257). -/
def Ctx.ranges (c : Ctx) : List (Nat × Nat) := if c.sys then [(0, 2 ^ 24)] else c.allot

/-- A locket offset lies in a context's allotment. -/
def Ctx.allots (c : Ctx) (o : Nat) : Bool := c.ranges.any fun q => decide (q.1 ≤ o) && decide (o < q.2)

/-- A locket byte as a context reads it: of the replay replica of its allotment while the context is replayed (R419). -/
def State.locketByte (s : State) (ctx pa : Nat) : Byte :=
  match (s.ctx ctx).ck.replay with
  | some r => if (s.ctx ctx).allots (pa - locketBase) then (nget r.cells (pa - locketBase)).getD 0 else s.mem.read pa
  | none => s.mem.read pa

/-! Samplers (R415, R416). -/

/-- The word at hand has reached a level of memory. -/
def State.reached (s : State) (level : Nat) : State :=
  if s.dbg.following.isEmpty then s
  else s.modDbg fun d => { d with tags := nall d.tags fun k t => if d.following.contains k then { t with level := max t.level level } else t }

/-- The level of a physical address, seen from a core (R416). Control registers have none. -/
def levelOf (core pa : Nat) : Nat :=
  match regionOf pa with
  | .tier1 => if pa / 0x800000 = core then 1 else 2
  | .tier2 => 4
  | .host => 5
  | .locket => 6
  | .control | .nowhere => 0

/-- The word at hand has reached the places of some parts. -/
def State.reachedParts (s : State) (core : Nat) (ps : List XPart) : State := ps.foldl (fun s p => s.reached (levelOf core p.pa)) s

/-! Windows (R37, R38). -/

/-- A byte of the team window that the team may reach (R37). -/
def teamByte (kd : KDesc) (off : Nat) : Bool :=
  decide (off < kd.spSize) ||
  (decide (0x800000 ≤ off) && decide (off < 0xA00000) && decide (kd.csLo ≤ off % 0x4000) && decide (off % 0x4000 < kd.csHi))

/-- Every byte of a range is (the column view takes whole ranges only inside one column's part, or all columns whole). -/
def teamRange (kd : KDesc) (off n : Nat) : Bool :=
  n == 0 || decide (off + n ≤ kd.spSize) ||
  (teamByte kd off && teamByte kd (off + n - 1) && decide (0x800000 ≤ off) &&
    (off / 0x4000 == (off + n - 1) / 0x4000 || (kd.csLo == 0 && kd.csHi == 0x4000)))

/-- Where an offset of a team's window lies. -/
def Team.phys (t : Team) (off : Nat) : Nat :=
  if off < 0x800000 then t.spBase + off else t.core * 0x800000 + 0x600000 + (off - 0x800000)

/-- log2 ceiling. -/
def clog2 (n : Nat) : Nat := if n ≤ 1 then 0 else (n - 1).log2 + 1

/-- The stride S of the cluster window (R38). -/
def cluStride (sp : Nat) : Nat := 2 ^ clog2 (max sp 0x10000)

/-- The team slot index of a strand (R347). -/
def slotIndex (kd : KDesc) (role strandid : Nat) : Nat :=
  if role = 4 then (kd.roles.map (·.strands)).sum else ((kd.roles.take role).map (·.strands)).sum + strandid

/-- U of R39. -/
def slotCount (kd : KDesc) : Nat := (kd.roles.map (·.strands)).sum + (if kd.lead.isSome then 1 else 0)

/-- The virtual address of a lane's thread stack (R39). -/
def State.stackVa (s : State) (sid lane : Nat) : Nat :=
  let st := s.str sid
  let t := s.team st.team
  let kd := (s.grid t.grid).kd
  let pool := ((s.ctx (s.grid t.grid).ctx).prog.plan.getD kd.stkPlan default).va
  pool + t.stackBlk * (32 * slotCount kd * kd.stack) + (32 * slotIndex kd st.role st.strandid + lane) * kd.stack

/-! Bytes. -/

/-- The bytes a thread's own pending stores put over memory (R282): for a lane, those of its own stores; for no lane,
those of the whole strand. -/
def Strand.overCells (st : Strand) (lane : Option Nat) : List Host.Cell :=
  st.fl.stores.flatMap fun p =>
    match lane with
    | none => p.cells
    | some l => p.cells.filter fun c => p.parts.any fun q => q.1 == l && decide (q.2.1 ≤ c.1) && decide (c.1 < q.2.1 + q.2.2)

/-- Memory as a walk for an access of a strand sees it (R359). -/
def State.walkMem (s : State) (sid : Nat) : Memory := s.mem.writeCells ((s.str sid).overCells none)

/-- The addresses of a 128-byte line. -/
def lineOf (pa : Nat) : Nat := pa / 128 * 128

/-- Read a byte at its point of coherence or, in tier 2, through a core's read cache (R278): a line that differs from
memory gives the old byte or is left for the new one. -/
def State.cachedByte (s : State) (core pa : Nat) (site : Nat) : Byte :=
  match nget (s.core core).rcache (lineOf pa) with
  | some bs => if s.freeB (site + lineOf pa) then bs.getD (pa % 128) 0 else s.mem.read pa
  | none => s.mem.read pa

/-- The level at which a line is read by an LD form (R416). -/
def State.cachedLevel (s : State) (core pa site : Nat) : Nat :=
  if regionOf pa = .tier2 ∧ nhas (s.core core).rcache (lineOf pa) ∧ s.freeB (site + lineOf pa) then 3 else levelOf core pa

/-- The lines a read touches. -/
def linesOf (pa n : Nat) : List Nat := (List.range ((pa + n - 1) / 128 - pa / 128 + 1)).map fun i => lineOf pa + 128 * i

/-- A line enters a read cache; where 2,048 are held, one of them, chosen freely, gives way (R2). -/
def State.fillLine (s : State) (site : Nat) (c : NMap (List Byte)) (l : Nat) (bs : List Byte) : NMap (List Byte) :=
  nset (if c.length < 2048 then c else ndel c (s.freeOf (site + l + 1) 0 (nkeys c))) l bs

/-- What a read of an LD form leaves of the read cache: a line read at the point of coherence goes, a line not held may be
filled. -/
def State.touchLines (s : State) (core pa n site : Nat) : State :=
  let s := s.reached (s.cachedLevel core pa site)
  if regionOf pa = .tier2 then
    (linesOf pa n).foldl (fun s l => s.modCore core fun c =>
      match nget c.rcache l with
      | some _ => if s.freeB (site + l) then c else { c with rcache := ndel c.rcache l }
      | none => if s.freeB (site + l) then { c with rcache := s.fillLine site c.rcache l (s.mem.readN l 128) } else c) s
  else s

/-- Every line of a core's read cache becomes stale (R278). -/
def State.staleCache (s : State) (core : Nat) : State := s.modCore core fun c => { c with rcache := [] }

/-- Drop the lines of a core's read cache that a write of its engines touches (R278). -/
def State.dropLines (s : State) (core : Nat) (cells : List Host.Cell) : State :=
  if (s.core core).rcache.isEmpty then s
  else s.modCore core fun c => { c with rcache := c.rcache.filter fun l => cells.all fun x => lineOf x.1 != l.1 }

/-- Bytes from an address up, as cells. -/
def cellsAt (a : Nat) (bs : List Byte) : List Host.Cell := bs.zipIdx.map fun (b, i) => (a + i, b)

end Sys2Proof.Machine
end

