-- ==== Sys2Proof/Machine/Digest.lean ====
section
/-! DEFINITION. Store digests (09_isa_async_system.md R268 to R270). -/

namespace Sys2Proof.Machine

/-- The mixing function of R269. -/
def mix64 (x : Word64) : Word64 :=
  let x := (x ^^^ (x >>> 31)) * 0xBF58476D1CE4E5B9
  let x := (x ^^^ (x >>> 27)) * 0x94D049BB133111EB
  x ^^^ (x >>> 31)

/-- A digest item: address, width code and value. -/
structure DgItem where
  addr : Nat
  code : Nat
  val : Nat
  deriving DecidableEq, Repr, Inhabited

/-- What an item adds to DGVAL. -/
def DgItem.term (x : DgItem) : Word64 :=
  mix64 ((BitVec.ofNat 64 x.addr ^^^ (BitVec.ofNat 64 x.code <<< 58)) + BitVec.ofNat 64 x.val * 0x9E3779B97F4A7C15)

/-- Fold items into a team's digest; DGCNT saturates (R32). -/
def Team.fold (t : Team) (xs : List DgItem) : Team :=
  { t with dgval := xs.foldl (fun a x => a + x.term) t.dgval,
           dgcnt := BitVec.ofNat 32 (min (t.dgcnt.toNat + xs.length) 0xFFFFFFFF) }

/-- The keyed digest K. -/
def Team.keyed (t : Team) : Word64 := mix64 (t.dgval ^^^ (BitVec.ofNat 64 t.teamid * 0x9E3779B97F4A7C15))

/-- The width code of a width in bytes. -/
def widthCode (w : Nat) : Nat := if w = 1 then 1 else if w = 2 then 2 else if w = 4 then 3 else 4

/-- The address of an item in an address space (R269): space 0 as it stands. -/
def digestAddr (space off : Nat) : Nat := if space = 0 then off else space * 2 ^ 62 + off

/-- The items of words of four bytes from an address up. -/
def wordItems (addr : Nat) (bs : List Byte) : List DgItem :=
  (List.range (bs.length / 4)).map fun i => ⟨addr + 4 * i, 3, leNat ((bs.drop (4 * i)).take 4)⟩

end Sys2Proof.Machine
end

