-- ==== Sys2Proof/Machine/Fields.lean ====
section
/-! DEFINITION. What check 8 of R105 asks of an instruction's fields, per instruction (R30, R31, R29, R138 and the limits
each entry states), and which selectors an instruction reads and writes. -/

namespace Sys2Proof

/-- A 32-bit destination: v, o, zero or a queue port (R30). -/
def Sel.isDst : Sel → Bool
  | .v _ | .o _ | .zero | .q _ => true
  | _ => false

/-- A 32-bit destination where no queue port may stand. -/
def Sel.isDstReg : Sel → Bool
  | .v _ | .o _ | .zero => true
  | _ => false

/-- An even register of v or o. -/
def Sel.isPair : Sel → Bool
  | .v n => n.val % 2 == 0
  | .o n => n.val % 2 == 0
  | _ => false

/-- A 64-bit destination: an even pair or zero (R29). -/
def Sel.isDst64 : Sel → Bool
  | .zero => true
  | s => s.isPair

/-- A 32-bit source where no queue port may stand. -/
def Sel.isSrcNoPort : Sel → Bool
  | .q _ => false
  | _ => true

/-- A 64-bit source (R29): an even pair, lr, a special operand or an inline constant; no queue port. -/
def Sel.isSrc64 : Sel → Bool
  | .q _ => false
  | .v n => n.val % 2 == 0
  | .o n => n.val % 2 == 0
  | _ => true

/-- The address field a of a memory word (R184): with base 0 an even pair or lr, else a 32-bit source but no port. -/
def Sel.isAddr (s : Sel) (base : Base) : Bool :=
  match base with
  | .virt => s.isPair || s == .lr
  | _ => s.isSrcNoPort

/-- A run of n registers within v63 or o7. -/
def Sel.isRun (s : Sel) (n : Nat) : Bool :=
  match s with
  | .v i => decide (i.val + n ≤ 64)
  | .o i => decide (i.val + n ≤ 8)
  | _ => false

/-- A run of four (R190): v with index a multiple of 4, o0 or o4. -/
def Sel.isSrc128 : Sel → Bool
  | .v n => n.val % 4 == 0
  | .o n => n.val % 4 == 0
  | _ => false

/-- The destination of a 16-byte load (R188). -/
def Sel.isDst128 : Sel → Bool
  | .zero => true
  | s => s.isSrc128

/-- The first of the twelve registers of lp.msg (R256): v0 to v52. -/
def Sel.isMsgRun : Sel → Bool
  | .v n => decide (n.val ≤ 52)
  | _ => false

/-- A selector the c field of a four-operand form can name (R31). -/
def Sel.isC : Sel → Bool
  | .v n => decide (n.val < 32)
  | .o _ | .lr | .q _ | .zero => true
  | _ => false

/-- The CSR numbers of R32's table. -/
def csrNumber (n : Nat) : Bool :=
  decide (n ≤ 0x05 ∨ (0x08 ≤ n ∧ n ≤ 0x0D) ∨ (0x10 ≤ n ∧ n ≤ 0x15) ∨ (0x18 ≤ n ∧ n ≤ 0x1C) ∨
    (0x20 ≤ n ∧ n ≤ 0x23) ∨ (0x40 ≤ n ∧ n < 0x80))

/-- The cause codes that R351 assigns; swtrap takes no other (R181). -/
def assignedCause (c : Nat) : Bool :=
  [0x00, 0x01, 0x02, 0x03, 0x04, 0x10, 0x20, 0x21, 0x22, 0x30, 0x31, 0x32, 0x40, 0x41, 0x42, 0x50, 0x52, 0x53, 0x54,
   0x60, 0x61, 0x62, 0x70, 0x80, 0x90, 0x91, 0xA0, 0xB0, 0xB2].contains c

namespace Machine

/-- Check 8 of R105 on the fields of one instruction. An event carries no fields of a word. In a pair position lr, the specials and
the constants keep the 64-bit reading of R29, so they are legal there: DEDUCED against R165 (log 81). -/
def fieldsOk (i : Instr) : Bool :=
  match i with
  | .nop => true
  | .loop _ off => decide (off.toNat ≠ 0)
  | .brk _ => true
  | .swtrap _ c => assignedCause c.toNat
  | .yield => true
  | .sleep _ => true
  | .iadd d _ _ => d.isDst
  | .isub d _ _ => d.isDst
  | .imul d _ _ => d.isDst
  | .imulhS32 d _ _ => d.isDst
  | .imulhN32 d _ _ => d.isDst
  | .idivS32 d a b => d.isDstReg && a.isSrcNoPort && b.isSrcNoPort
  | .idivN32 d a b => d.isDstReg && a.isSrcNoPort && b.isSrcNoPort
  | .iremS32 d a b => d.isDstReg && a.isSrcNoPort && b.isSrcNoPort
  | .iremN32 d a b => d.isDstReg && a.isSrcNoPort && b.isSrcNoPort
  | .iminS32 d _ _ => d.isDst
  | .iminN32 d _ _ => d.isDst
  | .imaxS32 d _ _ => d.isDst
  | .imaxN32 d _ _ => d.isDst
  | .iabs d _ => d.isDst
  | .iaddsS32 d _ _ => d.isDst
  | .isubsS32 d _ _ => d.isDst
  | .iaddsN32 d _ _ => d.isDst
  | .isubsN32 d _ _ => d.isDst
  | .add64 d a b => d.isDst64 && a.isSrc64 && b.isSrc64
  | .sub64 d a b => d.isDst64 && a.isSrc64 && b.isSrc64
  | .mulwS32 d _ _ => d.isDst64
  | .mulwN32 d _ _ => d.isDst64
  | .iaddi d _ _ => d.isDst
  | .iandi d _ _ => d.isDst
  | .iori d _ _ => d.isDst
  | .ixori d _ _ => d.isDst
  | .ishli d _ i => d.isDst && decide (i.toNat < 32)
  | .ishri d _ i => d.isDst && decide (i.toNat < 32)
  | .israi d _ i => d.isDst && decide (i.toNat < 32)
  | .icmpiLt d _ _ => d.isDst
  | .and d _ _ => d.isDst
  | .or d _ _ => d.isDst
  | .xor d _ _ => d.isDst
  | .andn d _ _ => d.isDst
  | .orn d _ _ => d.isDst
  | .shl d _ _ => d.isDst
  | .shr d _ _ => d.isDst
  | .sra d _ _ => d.isDst
  | .rotl d _ _ => d.isDst
  | .shl64 d a _ => d.isDst64 && a.isSrc64
  | .shr64 d a _ => d.isDst64 && a.isSrc64
  | .sra64 d a _ => d.isDst64 && a.isSrc64
  | .popc d _ => d.isDst
  | .clz d _ => d.isDst
  | .ctz d _ => d.isDst
  | .brev d _ => d.isDst
  | .bfxS d _ _ => d.isDst
  | .bfxN d _ _ => d.isDst
  | .bfi d _ _ => d.isDstReg
  | .perm d _ _ => d.isDst
  | .ceq d _ _ => d.isDst
  | .cne d _ _ => d.isDst
  | .cltS d _ _ => d.isDst
  | .cleS d _ _ => d.isDst
  | .cltN d _ _ => d.isDst
  | .cleN d _ _ => d.isDst
  | .fceq d _ _ => d.isDst
  | .fcne d _ _ => d.isDst
  | .fclt d _ _ => d.isDst
  | .fcle d _ _ => d.isDst
  | .fcun d _ _ => d.isDst
  | .fclass d _ _ => d.isDst
  | .ceq64 d a b => d.isDst && a.isSrc64 && b.isSrc64
  | .clt64S d a b => d.isDst && a.isSrc64 && b.isSrc64
  | .clt64N d a b => d.isDst && a.isSrc64 && b.isSrc64
  | .fadd d _ _ => d.isDst
  | .fsub d _ _ => d.isDst
  | .fmul d _ _ => d.isDst
  | .fmin d _ _ => d.isDst
  | .fmax d _ _ => d.isDst
  | .fabs d _ => d.isDst
  | .fneg d _ => d.isDst
  | .fdiv d _ _ => d.isDst
  | .fsqrt d _ => d.isDst
  | .frcp d _ => d.isDst
  | .frsqrt d _ => d.isDst
  | .fexp2 d _ => d.isDst
  | .flog2 d _ => d.isDst
  | .fsinpi d _ => d.isDst
  | .fcospi d _ => d.isDst
  | .ftanh d _ => d.isDst
  | .faddF16x2 d _ _ => d.isDst
  | .fmulF16x2 d _ _ => d.isDst
  | .faddBf16x2 d _ _ => d.isDst
  | .fmulBf16x2 d _ _ => d.isDst
  | .fminF16x2 d _ _ => d.isDst
  | .fmaxF16x2 d _ _ => d.isDst
  | .fscl d _ _ => d.isDst
  | .frnd d _ => d.isDst
  | .ffmaF16x2 d _ _ => d.isDstReg
  | .ffmaBf16x2 d _ _ => d.isDstReg
  | .fdot2Bf16 d _ _ => d.isDstReg
  | .idp4S8 d _ _ => d.isDstReg
  | .idp4N8 d _ _ => d.isDstReg
  | .cvtF32S32 d _ _ => d.isDst
  | .cvtF32N32 d _ _ => d.isDst
  | .cvtS32F32 d _ _ _ => d.isDst
  | .cvtN32F32 d _ _ _ => d.isDst
  | .cvtF32F16 d _ el => d.isDst && decide (el.toNat < 2)
  | .cvtF32Bf16 d _ el => d.isDst && decide (el.toNat < 2)
  | .pkF16 d _ el _ _ => d.isDstReg && decide (el.toNat < 2)
  | .pkBf16 d _ el _ _ => d.isDstReg && decide (el.toNat < 2)
  | .pkE4m3 d _ _ _ _ => d.isDstReg
  | .pkE5m2 d _ _ _ _ => d.isDstReg
  | .pkE2m1 d a _ _ _ => d.isDstReg && a.isSrc64
  | .pkF8d d _ _ _ => d.isDstReg
  | .upkE4m3 d _ _ => d.isDst
  | .upkE5m2 d _ _ => d.isDst
  | .upkE2m1 d _ _ => d.isDst64
  | .upkF8d d _ _ _ => d.isDst
  | .cvtE8m0 d _ _ _ _ => d.isDstReg
  | .frint d _ _ => d.isDst
  | .ffma d _ _ c => d.isDst && c.isC
  | .sel d _ _ c => d.isDst && c.isC
  | .imad d _ _ c => d.isDst && c.isC
  | .ldN8 d a base _ => d.isDstReg && a.isAddr base
  | .ldS8 d a base _ => d.isDstReg && a.isAddr base
  | .ldN16 d a base _ => d.isDstReg && a.isAddr base
  | .ldS16 d a base _ => d.isDstReg && a.isAddr base
  | .ldB32 d a base _ => d.isDstReg && a.isAddr base
  | .ldB64 d a base _ => d.isDst64 && a.isAddr base
  | .ldB128 d a base _ => d.isDst128 && a.isAddr base
  | .ldBlk d a base n => d.isRun (n.toNat + 1) && a.isAddr base
  | .stB8 d a base _ => d.isSrcNoPort && a.isAddr base
  | .stB16 d a base _ => d.isSrcNoPort && a.isAddr base
  | .stB32 d a base _ => d.isSrcNoPort && a.isAddr base
  | .stB64 d a base _ => d.isSrc64 && a.isAddr base
  | .stB128 d a base _ => d.isSrc128 && a.isAddr base
  | .stBlk d a base n => d.isRun (n.toNat + 1) && a.isAddr base
  | .aadd d a b base => d.isDstReg && a.isAddr base && b.isSrcNoPort
  | .aand d a b base => d.isDstReg && a.isAddr base && b.isSrcNoPort
  | .aor d a b base => d.isDstReg && a.isAddr base && b.isSrcNoPort
  | .axor d a b base => d.isDstReg && a.isAddr base && b.isSrcNoPort
  | .aminS32 d a b base => d.isDstReg && a.isAddr base && b.isSrcNoPort
  | .amaxS32 d a b base => d.isDstReg && a.isAddr base && b.isSrcNoPort
  | .aminN32 d a b base => d.isDstReg && a.isAddr base && b.isSrcNoPort
  | .amaxN32 d a b base => d.isDstReg && a.isAddr base && b.isSrcNoPort
  | .axchg d a b base => d.isDstReg && a.isAddr base && b.isSrcNoPort
  | .acas d a b base => d.isDstReg && a.isAddr base && b.isSrcNoPort
  | .aadd64 d a b base => d.isDst64 && a.isAddr base && b.isSrc64
  | .acas64 d a b base => d.isDst64 && a.isAddr base && b.isSrc64
  | .afadd d a b base => d.isDstReg && a.isAddr base && b.isSrcNoPort
  | .afaddBf16x2 d a b base => d.isDstReg && a.isAddr base && b.isSrcNoPort
  | .aincWrap d a b base => d.isDstReg && a.isAddr base && b.isSrcNoPort
  | .bra _ => true
  | .bz _ _ => true
  | .bnz _ _ => true
  | .blz _ _ => true
  | .bgez _ _ => true
  | .call a _ => a.isDst64
  | .bany _ _ => true
  | .ball _ _ => true
  | .jr a => a.isSrc64
  | .callr d a => d.isDst64 && a.isSrc64
  | .ret a => a.isSrc64
  | .exit => true
  | .reform _ => true
  | .spawn c a b => decide (c.toNat ≤ 4) && a.isSrc64 && (if c.toNat = 0 then b == .v 0 else b.isRun c.toNat)
  | .rbar => true
  | .lxPick d _ _ => d.isDst
  | .lxShift d _ _ => d.isDst
  | .lxRot d _ _ => d.isDst
  | .lxSwap d _ _ => d.isDst
  | .lxAny d _ => d.isDst
  | .lxAll d _ => d.isDst
  | .lxMask d _ => d.isDst
  | .lxActive d => d.isDst
  | .lxFirst d _ => d.isDst
  | .lxSumS32 d _ => d.isDst
  | .lxMinS32 d _ => d.isDst
  | .lxMaxS32 d _ => d.isDst
  | .lxFsum d _ => d.isDst
  | .lxPrefixS32 d _ => d.isDst
  | .lxSame d _ => d.isDst
  | .lxLead d => d.isDst
  | .barArrive _ => true
  | .barWait _ => true
  | .barSync _ => true
  | .barInit e _ => decide (1 ≤ e.toNat ∧ e.toNat ≤ 1025)
  | .fence k s => decide (k.toNat ≠ 0) && decide (s.toNat < 6)
  | .fenceOpnd => true
  | .fenceIfetch => true
  | .wait _ => true
  | .tktWait _ => true
  | .tktPass _ => true
  | .mxGo d _ _ => d.isDst
  | .mxWait d _ _ => d.isDstReg
  | .mxTest d _ => d.isDstReg
  | .mxStat d _ => d.isDst64
  | .mxAbort _ => true
  | .drnLoad s a => decide (s.toNat < 32) && a.isAddr .virt
  | .qBind _ _ => true
  | .qUnbind _ => true
  | .qTake d _ => d.isDstReg
  | .qGive _ => true
  | .qAlloc d _ => d.isDstReg
  | .qPost _ => true
  | .qCnt d _ => d.isDstReg
  | .qClose _ => true
  | .cpGo d _ => d.isDstReg
  | .cpFill d _ => d.isDstReg
  | .cpGather d _ => d.isDstReg
  | .cpQ d _ => d.isDstReg
  | .cpWait d _ _ => d.isDstReg
  | .cpTest d _ => d.isDstReg
  | .lpLd d _ => d.isDst64
  | .lpPut d _ b => d.isDstReg && b.isPair
  | .lpAdd d _ b => d.isDst64 && b.isSrc64
  | .lpCas d _ b => d.isDst64 && b.isSrc64
  | .lpMsg d _ b => d.isDstReg && b.isMsgRun
  | .lpFence a => a.isSrc64
  | .lpGate => true
  | .lpNow d => d.isDst64
  | .lpSeq d _ => d.isDst64
  | .lpLaunch d a => d.isDstReg && a.isSrc64
  | .fabPut d _ => d.isDstReg
  | .fabGet d _ => d.isDstReg
  | .fabAadd d a b => d.isDst64 && a.isSrc64 && b.isSrc64
  | .fabAcas d a b => d.isDst64 && a.isSrc64 && b.isSrc64
  | .fabFence => true
  | .fabWait _ => true
  | .movi d _ => d.isDst
  | .movh d _ => d.isDstReg
  | .scopeOpen n => decide (8 ≤ n.toNat ∧ n.toNat ≤ 256 ∧ n.toNat % 8 = 0)
  | .scopeClose => true
  | .wbase _ => true
  | .safept _ => true
  | .dgOn _ => true
  | .dgOff => true
  | .dgChk d a _ => d.isDst64 && a.isSrc64
  | .dgFold d a => d.isDst64 && a.isSrc64
  | .csrRd d n => d.isDstReg && csrNumber n.toNat
  | .csrWr _ n => csrNumber n.toNat
  | .tret => true
  | .tkill _ => true
  | .tlbInv a _ _ => a.isSrc64
  | .tlbProbe d a => d.isDst64 && a.isSrc64
  | .dbgHalt _ => true
  | .mattr scope _ use hint => decide (scope.toNat < 6) && decide (use.toNat < 5) && decide (hint.toNat < 3)
  | .clauseIssue => true
  | .waitConditionMet => true
  | .variableLatencyResult => true
  | .storeAcknowledge => true
  | .pushLatchWrite => true
  | .quantumPublishDeadline => true
  | .sleepIntervalElapsed => true
  | .watchdogExpiry => true
  | .binAgeTimerExpiry => true
  | .binLaunch => true
  | .compactorMove => true
  | .teamEnd => true
  | .atomicopCompletion => true
  | .copyRow => true
  | .cpQSlotFill => true
  | .wavefrontAdmission => true
  | .wavefrontComplete => true
  | .weightReloadComplete => true
  | .arrayQuiescentPoint => true
  | .drainUnitEntry => true
  | .drainUnitCommit => true
  | .mxcapWrite => true
  | .rlstallRead => true
  | .aqpmaxRead => true
  | .kick => true
  | .kickPageOtherWrite => true
  | .uqregWrite => true
  | .uqderegWrite => true
  | .uqclrWrite => true
  | .uqstatRejClear => true
  | .kickdropRead => true
  | .launchPacket => true
  | .clusterLaunchPacket => true
  | .copyPacket => true
  | .waitLsnPacket => true
  | .signalPacket => true
  | .barrierPacket => true
  | .graphPacket => true
  | .graphNodeStart => true
  | .packetCompletion => true
  | .sliceExpiry => true
  | .teamAdmission => true
  | .clusterReservationDelay => true
  | .saveComplete => true
  | .preemptionTimeout => true
  | .teamResumption => true
  | .coreHot => true
  | .coreCool => true
  | .coreThrottle => true
  | .coreUnthrottle => true
  | .packageOvertempShut => true
  | .coreIdleTimeout => true
  | .ctxkillWrite => true
  | .ctxctlKilledClear => true
  | .loopGrantArrival => true
  | .loopIdleArrival => true
  | .numberedRecordReceive => true
  | .recordWriteApply => true
  | .recordAtomicApply => true
  | .recordMsgApply => true
  | .recordLaunchApply => true
  | .recordKillOrderApply => true
  | .recordXlateApply => true
  | .recordDigestApply => true
  | .grantRegeneration => true
  | .lossOfSignal => true
  | .missingIdleTimeout => true
  | .loopctlJoinWrite => true
  | .loopctlMasterWrite => true
  | .loopctlStartWrite => true
  | .mzmHeaterWrite => true
  | .qalarmClear => true
  | .tapMinmaxRead => true
  | .grantsRead => true
  | .regenRead => true
  | .crcerrRead => true
  | .ibdropRead => true
  | .loopFormationTimeout => true
  | .framePutReceive => true
  | .frameGetreqReceive => true
  | .frameGetrespReceive => true
  | .frameAaddReceive => true
  | .frameAcasReceive => true
  | .frameAtomrespReceive => true
  | .frameAckReceive => true
  | .frameNaksReceive => true
  | .frameNakfReceive => true
  | .frameSleepReceive => true
  | .frameWakeReceive => true
  | .pfcPauseReceive => true
  | .ackDelayExpiry => true
  | .retransmitTimeout => true
  | .fabOperationTimeout => true
  | .rateRecoveryTimer => true
  | .portctlEnWrite => true
  | .portctlLpreqWrite => true
  | .portctlWakeWrite => true
  | .portLinkUp => true
  | .portLinkLost => true
  | .portDrainComplete => true
  | .portLanesReady => true
  | .lpabortRead => true
  | .dropsRead => true
  | .hostWindowRead => true
  | .hostWindowWrite => true
  | .hostAtomicopRequest => true
  | .hostCompletionTimeout => true
  | .hostLinkDown => true
  | .hostLinkUp => true
  | .eqdropRead => true
  | .controlRegisterWrite => true
  | .dbgcmdHalt => true
  | .dbgcmdResume => true
  | .dbgcmdDump => true
  | .dbgcmdCheckpoint => true
  | .dbgcmdReplay => true
  | .checkpointPeriodExpiry => true
  | .sampleIntervalExpiry => true
  | .sampleRecordAppend => true
  | .drdropRead => true
  | .packageReset => true
  | .suppliesGood => true
  | .powerCycle => true
  | .dievWrite => true
  | .dievSupplyChange => true
  | .dievSupplySettled => true
  | .serrcntRead => true
  | .serruncRead => true
  | .pcieConfigWrite => true
  | .tapPowerSample => true

/-- The selectors an instruction reads as sources when it issues. Register runs (spawn's b, lp.put, lp.msg, block and
16-byte stores) are named by their first register. -/
def sources (i : Instr) : List Sel :=
  match i with
  | .nop => []
  | .loop a _ => [a]
  | .brk _ => []
  | .swtrap _ _ => []
  | .yield => []
  | .sleep _ => []
  | .iadd _ a b => [a, b]
  | .isub _ a b => [a, b]
  | .imul _ a b => [a, b]
  | .imulhS32 _ a b => [a, b]
  | .imulhN32 _ a b => [a, b]
  | .idivS32 _ a b => [a, b]
  | .idivN32 _ a b => [a, b]
  | .iremS32 _ a b => [a, b]
  | .iremN32 _ a b => [a, b]
  | .iminS32 _ a b => [a, b]
  | .iminN32 _ a b => [a, b]
  | .imaxS32 _ a b => [a, b]
  | .imaxN32 _ a b => [a, b]
  | .iabs _ a => [a]
  | .iaddsS32 _ a b => [a, b]
  | .isubsS32 _ a b => [a, b]
  | .iaddsN32 _ a b => [a, b]
  | .isubsN32 _ a b => [a, b]
  | .add64 _ a b => [a, b]
  | .sub64 _ a b => [a, b]
  | .mulwS32 _ a b => [a, b]
  | .mulwN32 _ a b => [a, b]
  | .iaddi _ a _ => [a]
  | .iandi _ a _ => [a]
  | .iori _ a _ => [a]
  | .ixori _ a _ => [a]
  | .ishli _ a _ => [a]
  | .ishri _ a _ => [a]
  | .israi _ a _ => [a]
  | .icmpiLt _ a _ => [a]
  | .and _ a b => [a, b]
  | .or _ a b => [a, b]
  | .xor _ a b => [a, b]
  | .andn _ a b => [a, b]
  | .orn _ a b => [a, b]
  | .shl _ a b => [a, b]
  | .shr _ a b => [a, b]
  | .sra _ a b => [a, b]
  | .rotl _ a b => [a, b]
  | .shl64 _ a b => [a, b]
  | .shr64 _ a b => [a, b]
  | .sra64 _ a b => [a, b]
  | .popc _ a => [a]
  | .clz _ a => [a]
  | .ctz _ a => [a]
  | .brev _ a => [a]
  | .bfxS _ a b => [a, b]
  | .bfxN _ a b => [a, b]
  | .bfi d a b => [d, a, b]
  | .perm _ a b => [a, b]
  | .ceq _ a b => [a, b]
  | .cne _ a b => [a, b]
  | .cltS _ a b => [a, b]
  | .cleS _ a b => [a, b]
  | .cltN _ a b => [a, b]
  | .cleN _ a b => [a, b]
  | .fceq _ a b => [a, b]
  | .fcne _ a b => [a, b]
  | .fclt _ a b => [a, b]
  | .fcle _ a b => [a, b]
  | .fcun _ a b => [a, b]
  | .fclass _ a b => [a, b]
  | .ceq64 _ a b => [a, b]
  | .clt64S _ a b => [a, b]
  | .clt64N _ a b => [a, b]
  | .fadd _ a b => [a, b]
  | .fsub _ a b => [a, b]
  | .fmul _ a b => [a, b]
  | .fmin _ a b => [a, b]
  | .fmax _ a b => [a, b]
  | .fabs _ a => [a]
  | .fneg _ a => [a]
  | .fdiv _ a b => [a, b]
  | .fsqrt _ a => [a]
  | .frcp _ a => [a]
  | .frsqrt _ a => [a]
  | .fexp2 _ a => [a]
  | .flog2 _ a => [a]
  | .fsinpi _ a => [a]
  | .fcospi _ a => [a]
  | .ftanh _ a => [a]
  | .faddF16x2 _ a b => [a, b]
  | .fmulF16x2 _ a b => [a, b]
  | .faddBf16x2 _ a b => [a, b]
  | .fmulBf16x2 _ a b => [a, b]
  | .fminF16x2 _ a b => [a, b]
  | .fmaxF16x2 _ a b => [a, b]
  | .fscl _ a b => [a, b]
  | .frnd _ a => [a]
  | .ffmaF16x2 d a b => [d, a, b]
  | .ffmaBf16x2 d a b => [d, a, b]
  | .fdot2Bf16 d a b => [d, a, b]
  | .idp4S8 d a b => [d, a, b]
  | .idp4N8 d a b => [d, a, b]
  | .cvtF32S32 _ a _ => [a]
  | .cvtF32N32 _ a _ => [a]
  | .cvtS32F32 _ a _ _ => [a]
  | .cvtN32F32 _ a _ _ => [a]
  | .cvtF32F16 _ a _ => [a]
  | .cvtF32Bf16 _ a _ => [a]
  | .pkF16 d a _ _ _ => [d, a]
  | .pkBf16 d a _ _ _ => [d, a]
  | .pkE4m3 d a _ _ _ => [d, a]
  | .pkE5m2 d a _ _ _ => [d, a]
  | .pkE2m1 d a _ _ _ => [d, a]
  | .pkF8d d a _ _ => [d, a]
  | .upkE4m3 _ a _ => [a]
  | .upkE5m2 _ a _ => [a]
  | .upkE2m1 _ a _ => [a]
  | .upkF8d _ a _ _ => [a]
  | .cvtE8m0 d a _ _ _ => [d, a]
  | .frint _ a _ => [a]
  | .ffma _ a b c => [a, b, c]
  | .sel _ a b c => [a, b, c]
  | .imad _ a b c => [a, b, c]
  | .ldN8 _ a _ _ => [a]
  | .ldS8 _ a _ _ => [a]
  | .ldN16 _ a _ _ => [a]
  | .ldS16 _ a _ _ => [a]
  | .ldB32 _ a _ _ => [a]
  | .ldB64 _ a _ _ => [a]
  | .ldB128 _ a _ _ => [a]
  | .ldBlk _ a _ _ => [a]
  | .stB8 d a _ _ => [d, a]
  | .stB16 d a _ _ => [d, a]
  | .stB32 d a _ _ => [d, a]
  | .stB64 d a _ _ => [d, a]
  | .stB128 d a _ _ => [d, a]
  | .stBlk d a _ _ => [d, a]
  | .aadd _ a b _ => [a, b]
  | .aand _ a b _ => [a, b]
  | .aor _ a b _ => [a, b]
  | .axor _ a b _ => [a, b]
  | .aminS32 _ a b _ => [a, b]
  | .amaxS32 _ a b _ => [a, b]
  | .aminN32 _ a b _ => [a, b]
  | .amaxN32 _ a b _ => [a, b]
  | .axchg _ a b _ => [a, b]
  | .acas d a b _ => [d, a, b]
  | .aadd64 _ a b _ => [a, b]
  | .acas64 d a b _ => [d, a, b]
  | .afadd _ a b _ => [a, b]
  | .afaddBf16x2 _ a b _ => [a, b]
  | .aincWrap _ a b _ => [a, b]
  | .bra _ => []
  | .bz a _ => [a]
  | .bnz a _ => [a]
  | .blz a _ => [a]
  | .bgez a _ => [a]
  | .call _ _ => []
  | .bany a _ => [a]
  | .ball a _ => [a]
  | .jr a => [a]
  | .callr _ a => [a]
  | .ret a => [a]
  | .exit => []
  | .reform _ => []
  | .spawn _ a _ => [a]
  | .rbar => []
  | .lxPick _ a b => [a, b]
  | .lxShift _ a b => [a, b]
  | .lxRot _ a b => [a, b]
  | .lxSwap _ a b => [a, b]
  | .lxAny _ a => [a]
  | .lxAll _ a => [a]
  | .lxMask _ a => [a]
  | .lxActive _ => []
  | .lxFirst _ a => [a]
  | .lxSumS32 _ a => [a]
  | .lxMinS32 _ a => [a]
  | .lxMaxS32 _ a => [a]
  | .lxFsum _ a => [a]
  | .lxPrefixS32 _ a => [a]
  | .lxSame _ a => [a]
  | .lxLead _ => []
  | .barArrive _ => []
  | .barWait _ => []
  | .barSync _ => []
  | .barInit _ _ => []
  | .fence _ _ => []
  | .fenceOpnd => []
  | .fenceIfetch => []
  | .wait _ => []
  | .tktWait _ => []
  | .tktPass _ => []
  | .mxGo _ a b => [a, b]
  | .mxWait _ a _ => [a]
  | .mxTest _ a => [a]
  | .mxStat _ a => [a]
  | .mxAbort a => [a]
  | .drnLoad _ a => [a]
  | .qBind _ b => [b]
  | .qUnbind _ => []
  | .qTake _ _ => []
  | .qGive _ => []
  | .qAlloc _ _ => []
  | .qPost _ => []
  | .qCnt _ _ => []
  | .qClose _ => []
  | .cpGo _ a => [a]
  | .cpFill _ a => [a]
  | .cpGather _ a => [a]
  | .cpQ _ a => [a]
  | .cpWait _ a _ => [a]
  | .cpTest _ a => [a]
  | .lpLd _ a => [a]
  | .lpPut _ a b => [a, b]
  | .lpAdd _ a b => [a, b]
  | .lpCas d a b => [d, a, b]
  | .lpMsg _ a b => [a, b]
  | .lpFence a => [a]
  | .lpGate => []
  | .lpNow _ => []
  | .lpSeq _ a => [a]
  | .lpLaunch _ a => [a]
  | .fabPut _ a => [a]
  | .fabGet _ a => [a]
  | .fabAadd _ a b => [a, b]
  | .fabAcas d a b => [d, a, b]
  | .fabFence => []
  | .fabWait a => [a]
  | .movi _ _ => []
  | .movh d _ => [d]
  | .scopeOpen _ => []
  | .scopeClose => []
  | .wbase _ => []
  | .safept _ => []
  | .dgOn _ => []
  | .dgOff => []
  | .dgChk _ a _ => [a]
  | .dgFold d a => [d, a]
  | .csrRd _ _ => []
  | .csrWr a _ => [a]
  | .tret => []
  | .tkill a => [a]
  | .tlbInv a _ _ => [a]
  | .tlbProbe _ a => [a]
  | .dbgHalt a => [a]
  | .mattr _ _ _ _ => []
  | .clauseIssue => []
  | .waitConditionMet => []
  | .variableLatencyResult => []
  | .storeAcknowledge => []
  | .pushLatchWrite => []
  | .quantumPublishDeadline => []
  | .sleepIntervalElapsed => []
  | .watchdogExpiry => []
  | .binAgeTimerExpiry => []
  | .binLaunch => []
  | .compactorMove => []
  | .teamEnd => []
  | .atomicopCompletion => []
  | .copyRow => []
  | .cpQSlotFill => []
  | .wavefrontAdmission => []
  | .wavefrontComplete => []
  | .weightReloadComplete => []
  | .arrayQuiescentPoint => []
  | .drainUnitEntry => []
  | .drainUnitCommit => []
  | .mxcapWrite => []
  | .rlstallRead => []
  | .aqpmaxRead => []
  | .kick => []
  | .kickPageOtherWrite => []
  | .uqregWrite => []
  | .uqderegWrite => []
  | .uqclrWrite => []
  | .uqstatRejClear => []
  | .kickdropRead => []
  | .launchPacket => []
  | .clusterLaunchPacket => []
  | .copyPacket => []
  | .waitLsnPacket => []
  | .signalPacket => []
  | .barrierPacket => []
  | .graphPacket => []
  | .graphNodeStart => []
  | .packetCompletion => []
  | .sliceExpiry => []
  | .teamAdmission => []
  | .clusterReservationDelay => []
  | .saveComplete => []
  | .preemptionTimeout => []
  | .teamResumption => []
  | .coreHot => []
  | .coreCool => []
  | .coreThrottle => []
  | .coreUnthrottle => []
  | .packageOvertempShut => []
  | .coreIdleTimeout => []
  | .ctxkillWrite => []
  | .ctxctlKilledClear => []
  | .loopGrantArrival => []
  | .loopIdleArrival => []
  | .numberedRecordReceive => []
  | .recordWriteApply => []
  | .recordAtomicApply => []
  | .recordMsgApply => []
  | .recordLaunchApply => []
  | .recordKillOrderApply => []
  | .recordXlateApply => []
  | .recordDigestApply => []
  | .grantRegeneration => []
  | .lossOfSignal => []
  | .missingIdleTimeout => []
  | .loopctlJoinWrite => []
  | .loopctlMasterWrite => []
  | .loopctlStartWrite => []
  | .mzmHeaterWrite => []
  | .qalarmClear => []
  | .tapMinmaxRead => []
  | .grantsRead => []
  | .regenRead => []
  | .crcerrRead => []
  | .ibdropRead => []
  | .loopFormationTimeout => []
  | .framePutReceive => []
  | .frameGetreqReceive => []
  | .frameGetrespReceive => []
  | .frameAaddReceive => []
  | .frameAcasReceive => []
  | .frameAtomrespReceive => []
  | .frameAckReceive => []
  | .frameNaksReceive => []
  | .frameNakfReceive => []
  | .frameSleepReceive => []
  | .frameWakeReceive => []
  | .pfcPauseReceive => []
  | .ackDelayExpiry => []
  | .retransmitTimeout => []
  | .fabOperationTimeout => []
  | .rateRecoveryTimer => []
  | .portctlEnWrite => []
  | .portctlLpreqWrite => []
  | .portctlWakeWrite => []
  | .portLinkUp => []
  | .portLinkLost => []
  | .portDrainComplete => []
  | .portLanesReady => []
  | .lpabortRead => []
  | .dropsRead => []
  | .hostWindowRead => []
  | .hostWindowWrite => []
  | .hostAtomicopRequest => []
  | .hostCompletionTimeout => []
  | .hostLinkDown => []
  | .hostLinkUp => []
  | .eqdropRead => []
  | .controlRegisterWrite => []
  | .dbgcmdHalt => []
  | .dbgcmdResume => []
  | .dbgcmdDump => []
  | .dbgcmdCheckpoint => []
  | .dbgcmdReplay => []
  | .checkpointPeriodExpiry => []
  | .sampleIntervalExpiry => []
  | .sampleRecordAppend => []
  | .drdropRead => []
  | .packageReset => []
  | .suppliesGood => []
  | .powerCycle => []
  | .dievWrite => []
  | .dievSupplyChange => []
  | .dievSupplySettled => []
  | .serrcntRead => []
  | .serruncRead => []
  | .pcieConfigWrite => []
  | .tapPowerSample => []

/-- The selectors an instruction writes. -/
def dests (i : Instr) : List Sel :=
  match i with
  | .nop => []
  | .loop _ _ => []
  | .brk _ => []
  | .swtrap _ _ => []
  | .yield => []
  | .sleep _ => []
  | .iadd d _ _ => [d]
  | .isub d _ _ => [d]
  | .imul d _ _ => [d]
  | .imulhS32 d _ _ => [d]
  | .imulhN32 d _ _ => [d]
  | .idivS32 d _ _ => [d]
  | .idivN32 d _ _ => [d]
  | .iremS32 d _ _ => [d]
  | .iremN32 d _ _ => [d]
  | .iminS32 d _ _ => [d]
  | .iminN32 d _ _ => [d]
  | .imaxS32 d _ _ => [d]
  | .imaxN32 d _ _ => [d]
  | .iabs d _ => [d]
  | .iaddsS32 d _ _ => [d]
  | .isubsS32 d _ _ => [d]
  | .iaddsN32 d _ _ => [d]
  | .isubsN32 d _ _ => [d]
  | .add64 d _ _ => [d]
  | .sub64 d _ _ => [d]
  | .mulwS32 d _ _ => [d]
  | .mulwN32 d _ _ => [d]
  | .iaddi d _ _ => [d]
  | .iandi d _ _ => [d]
  | .iori d _ _ => [d]
  | .ixori d _ _ => [d]
  | .ishli d _ _ => [d]
  | .ishri d _ _ => [d]
  | .israi d _ _ => [d]
  | .icmpiLt d _ _ => [d]
  | .and d _ _ => [d]
  | .or d _ _ => [d]
  | .xor d _ _ => [d]
  | .andn d _ _ => [d]
  | .orn d _ _ => [d]
  | .shl d _ _ => [d]
  | .shr d _ _ => [d]
  | .sra d _ _ => [d]
  | .rotl d _ _ => [d]
  | .shl64 d _ _ => [d]
  | .shr64 d _ _ => [d]
  | .sra64 d _ _ => [d]
  | .popc d _ => [d]
  | .clz d _ => [d]
  | .ctz d _ => [d]
  | .brev d _ => [d]
  | .bfxS d _ _ => [d]
  | .bfxN d _ _ => [d]
  | .bfi d _ _ => [d]
  | .perm d _ _ => [d]
  | .ceq d _ _ => [d]
  | .cne d _ _ => [d]
  | .cltS d _ _ => [d]
  | .cleS d _ _ => [d]
  | .cltN d _ _ => [d]
  | .cleN d _ _ => [d]
  | .fceq d _ _ => [d]
  | .fcne d _ _ => [d]
  | .fclt d _ _ => [d]
  | .fcle d _ _ => [d]
  | .fcun d _ _ => [d]
  | .fclass d _ _ => [d]
  | .ceq64 d _ _ => [d]
  | .clt64S d _ _ => [d]
  | .clt64N d _ _ => [d]
  | .fadd d _ _ => [d]
  | .fsub d _ _ => [d]
  | .fmul d _ _ => [d]
  | .fmin d _ _ => [d]
  | .fmax d _ _ => [d]
  | .fabs d _ => [d]
  | .fneg d _ => [d]
  | .fdiv d _ _ => [d]
  | .fsqrt d _ => [d]
  | .frcp d _ => [d]
  | .frsqrt d _ => [d]
  | .fexp2 d _ => [d]
  | .flog2 d _ => [d]
  | .fsinpi d _ => [d]
  | .fcospi d _ => [d]
  | .ftanh d _ => [d]
  | .faddF16x2 d _ _ => [d]
  | .fmulF16x2 d _ _ => [d]
  | .faddBf16x2 d _ _ => [d]
  | .fmulBf16x2 d _ _ => [d]
  | .fminF16x2 d _ _ => [d]
  | .fmaxF16x2 d _ _ => [d]
  | .fscl d _ _ => [d]
  | .frnd d _ => [d]
  | .ffmaF16x2 d _ _ => [d]
  | .ffmaBf16x2 d _ _ => [d]
  | .fdot2Bf16 d _ _ => [d]
  | .idp4S8 d _ _ => [d]
  | .idp4N8 d _ _ => [d]
  | .cvtF32S32 d _ _ => [d]
  | .cvtF32N32 d _ _ => [d]
  | .cvtS32F32 d _ _ _ => [d]
  | .cvtN32F32 d _ _ _ => [d]
  | .cvtF32F16 d _ _ => [d]
  | .cvtF32Bf16 d _ _ => [d]
  | .pkF16 d _ _ _ _ => [d]
  | .pkBf16 d _ _ _ _ => [d]
  | .pkE4m3 d _ _ _ _ => [d]
  | .pkE5m2 d _ _ _ _ => [d]
  | .pkE2m1 d _ _ _ _ => [d]
  | .pkF8d d _ _ _ => [d]
  | .upkE4m3 d _ _ => [d]
  | .upkE5m2 d _ _ => [d]
  | .upkE2m1 d _ _ => [d]
  | .upkF8d d _ _ _ => [d]
  | .cvtE8m0 d _ _ _ _ => [d]
  | .frint d _ _ => [d]
  | .ffma d _ _ _ => [d]
  | .sel d _ _ _ => [d]
  | .imad d _ _ _ => [d]
  | .ldN8 d _ _ _ => [d]
  | .ldS8 d _ _ _ => [d]
  | .ldN16 d _ _ _ => [d]
  | .ldS16 d _ _ _ => [d]
  | .ldB32 d _ _ _ => [d]
  | .ldB64 d _ _ _ => [d]
  | .ldB128 d _ _ _ => [d]
  | .ldBlk d _ _ _ => [d]
  | .stB8 _ _ _ _ => []
  | .stB16 _ _ _ _ => []
  | .stB32 _ _ _ _ => []
  | .stB64 _ _ _ _ => []
  | .stB128 _ _ _ _ => []
  | .stBlk _ _ _ _ => []
  | .aadd d _ _ _ => [d]
  | .aand d _ _ _ => [d]
  | .aor d _ _ _ => [d]
  | .axor d _ _ _ => [d]
  | .aminS32 d _ _ _ => [d]
  | .amaxS32 d _ _ _ => [d]
  | .aminN32 d _ _ _ => [d]
  | .amaxN32 d _ _ _ => [d]
  | .axchg d _ _ _ => [d]
  | .acas d _ _ _ => [d]
  | .aadd64 d _ _ _ => [d]
  | .acas64 d _ _ _ => [d]
  | .afadd d _ _ _ => [d]
  | .afaddBf16x2 d _ _ _ => [d]
  | .aincWrap d _ _ _ => [d]
  | .bra _ => []
  | .bz _ _ => []
  | .bnz _ _ => []
  | .blz _ _ => []
  | .bgez _ _ => []
  | .call a _ => [a]
  | .bany _ _ => []
  | .ball _ _ => []
  | .jr _ => []
  | .callr d _ => [d]
  | .ret _ => []
  | .exit => []
  | .reform _ => []
  | .spawn _ _ _ => []
  | .rbar => []
  | .lxPick d _ _ => [d]
  | .lxShift d _ _ => [d]
  | .lxRot d _ _ => [d]
  | .lxSwap d _ _ => [d]
  | .lxAny d _ => [d]
  | .lxAll d _ => [d]
  | .lxMask d _ => [d]
  | .lxActive d => [d]
  | .lxFirst d _ => [d]
  | .lxSumS32 d _ => [d]
  | .lxMinS32 d _ => [d]
  | .lxMaxS32 d _ => [d]
  | .lxFsum d _ => [d]
  | .lxPrefixS32 d _ => [d]
  | .lxSame d _ => [d]
  | .lxLead d => [d]
  | .barArrive _ => []
  | .barWait _ => []
  | .barSync _ => []
  | .barInit _ _ => []
  | .fence _ _ => []
  | .fenceOpnd => []
  | .fenceIfetch => []
  | .wait _ => []
  | .tktWait _ => []
  | .tktPass _ => []
  | .mxGo d _ _ => [d]
  | .mxWait d _ _ => [d]
  | .mxTest d _ => [d]
  | .mxStat d _ => [d]
  | .mxAbort _ => []
  | .drnLoad _ _ => []
  | .qBind _ _ => []
  | .qUnbind _ => []
  | .qTake d _ => [d]
  | .qGive _ => []
  | .qAlloc d _ => [d]
  | .qPost _ => []
  | .qCnt d _ => [d]
  | .qClose _ => []
  | .cpGo d _ => [d]
  | .cpFill d _ => [d]
  | .cpGather d _ => [d]
  | .cpQ d _ => [d]
  | .cpWait d _ _ => [d]
  | .cpTest d _ => [d]
  | .lpLd d _ => [d]
  | .lpPut d _ _ => [d]
  | .lpAdd d _ _ => [d]
  | .lpCas d _ _ => [d]
  | .lpMsg d _ _ => [d]
  | .lpFence _ => []
  | .lpGate => []
  | .lpNow d => [d]
  | .lpSeq d _ => [d]
  | .lpLaunch d _ => [d]
  | .fabPut d _ => [d]
  | .fabGet d _ => [d]
  | .fabAadd d _ _ => [d]
  | .fabAcas d _ _ => [d]
  | .fabFence => []
  | .fabWait _ => []
  | .movi d _ => [d]
  | .movh d _ => [d]
  | .scopeOpen _ => []
  | .scopeClose => []
  | .wbase _ => []
  | .safept _ => []
  | .dgOn _ => []
  | .dgOff => []
  | .dgChk d _ _ => [d]
  | .dgFold d _ => [d]
  | .csrRd d _ => [d]
  | .csrWr _ _ => []
  | .tret => []
  | .tkill _ => []
  | .tlbInv _ _ _ => []
  | .tlbProbe d _ => [d]
  | .dbgHalt _ => []
  | .mattr _ _ _ _ => []
  | .clauseIssue => []
  | .waitConditionMet => []
  | .variableLatencyResult => []
  | .storeAcknowledge => []
  | .pushLatchWrite => []
  | .quantumPublishDeadline => []
  | .sleepIntervalElapsed => []
  | .watchdogExpiry => []
  | .binAgeTimerExpiry => []
  | .binLaunch => []
  | .compactorMove => []
  | .teamEnd => []
  | .atomicopCompletion => []
  | .copyRow => []
  | .cpQSlotFill => []
  | .wavefrontAdmission => []
  | .wavefrontComplete => []
  | .weightReloadComplete => []
  | .arrayQuiescentPoint => []
  | .drainUnitEntry => []
  | .drainUnitCommit => []
  | .mxcapWrite => []
  | .rlstallRead => []
  | .aqpmaxRead => []
  | .kick => []
  | .kickPageOtherWrite => []
  | .uqregWrite => []
  | .uqderegWrite => []
  | .uqclrWrite => []
  | .uqstatRejClear => []
  | .kickdropRead => []
  | .launchPacket => []
  | .clusterLaunchPacket => []
  | .copyPacket => []
  | .waitLsnPacket => []
  | .signalPacket => []
  | .barrierPacket => []
  | .graphPacket => []
  | .graphNodeStart => []
  | .packetCompletion => []
  | .sliceExpiry => []
  | .teamAdmission => []
  | .clusterReservationDelay => []
  | .saveComplete => []
  | .preemptionTimeout => []
  | .teamResumption => []
  | .coreHot => []
  | .coreCool => []
  | .coreThrottle => []
  | .coreUnthrottle => []
  | .packageOvertempShut => []
  | .coreIdleTimeout => []
  | .ctxkillWrite => []
  | .ctxctlKilledClear => []
  | .loopGrantArrival => []
  | .loopIdleArrival => []
  | .numberedRecordReceive => []
  | .recordWriteApply => []
  | .recordAtomicApply => []
  | .recordMsgApply => []
  | .recordLaunchApply => []
  | .recordKillOrderApply => []
  | .recordXlateApply => []
  | .recordDigestApply => []
  | .grantRegeneration => []
  | .lossOfSignal => []
  | .missingIdleTimeout => []
  | .loopctlJoinWrite => []
  | .loopctlMasterWrite => []
  | .loopctlStartWrite => []
  | .mzmHeaterWrite => []
  | .qalarmClear => []
  | .tapMinmaxRead => []
  | .grantsRead => []
  | .regenRead => []
  | .crcerrRead => []
  | .ibdropRead => []
  | .loopFormationTimeout => []
  | .framePutReceive => []
  | .frameGetreqReceive => []
  | .frameGetrespReceive => []
  | .frameAaddReceive => []
  | .frameAcasReceive => []
  | .frameAtomrespReceive => []
  | .frameAckReceive => []
  | .frameNaksReceive => []
  | .frameNakfReceive => []
  | .frameSleepReceive => []
  | .frameWakeReceive => []
  | .pfcPauseReceive => []
  | .ackDelayExpiry => []
  | .retransmitTimeout => []
  | .fabOperationTimeout => []
  | .rateRecoveryTimer => []
  | .portctlEnWrite => []
  | .portctlLpreqWrite => []
  | .portctlWakeWrite => []
  | .portLinkUp => []
  | .portLinkLost => []
  | .portDrainComplete => []
  | .portLanesReady => []
  | .lpabortRead => []
  | .dropsRead => []
  | .hostWindowRead => []
  | .hostWindowWrite => []
  | .hostAtomicopRequest => []
  | .hostCompletionTimeout => []
  | .hostLinkDown => []
  | .hostLinkUp => []
  | .eqdropRead => []
  | .controlRegisterWrite => []
  | .dbgcmdHalt => []
  | .dbgcmdResume => []
  | .dbgcmdDump => []
  | .dbgcmdCheckpoint => []
  | .dbgcmdReplay => []
  | .checkpointPeriodExpiry => []
  | .sampleIntervalExpiry => []
  | .sampleRecordAppend => []
  | .drdropRead => []
  | .packageReset => []
  | .suppliesGood => []
  | .powerCycle => []
  | .dievWrite => []
  | .dievSupplyChange => []
  | .dievSupplySettled => []
  | .serrcntRead => []
  | .serruncRead => []
  | .pcieConfigWrite => []
  | .tapPowerSample => []

/-- The major of an instruction word (R92); an event has none. -/
def majorOf (i : Instr) : Option Nat :=
  match i with
  | .nop => some 0
  | .loop _ _ => some 0
  | .brk _ => some 0
  | .swtrap _ _ => some 0
  | .yield => some 0
  | .sleep _ => some 0
  | .iadd _ _ _ => some 1
  | .isub _ _ _ => some 1
  | .imul _ _ _ => some 1
  | .imulhS32 _ _ _ => some 1
  | .imulhN32 _ _ _ => some 1
  | .idivS32 _ _ _ => some 1
  | .idivN32 _ _ _ => some 1
  | .iremS32 _ _ _ => some 1
  | .iremN32 _ _ _ => some 1
  | .iminS32 _ _ _ => some 1
  | .iminN32 _ _ _ => some 1
  | .imaxS32 _ _ _ => some 1
  | .imaxN32 _ _ _ => some 1
  | .iabs _ _ => some 1
  | .iaddsS32 _ _ _ => some 1
  | .isubsS32 _ _ _ => some 1
  | .iaddsN32 _ _ _ => some 1
  | .isubsN32 _ _ _ => some 1
  | .add64 _ _ _ => some 1
  | .sub64 _ _ _ => some 1
  | .mulwS32 _ _ _ => some 1
  | .mulwN32 _ _ _ => some 1
  | .iaddi _ _ _ => some 2
  | .iandi _ _ _ => some 2
  | .iori _ _ _ => some 2
  | .ixori _ _ _ => some 2
  | .ishli _ _ _ => some 2
  | .ishri _ _ _ => some 2
  | .israi _ _ _ => some 2
  | .icmpiLt _ _ _ => some 2
  | .and _ _ _ => some 3
  | .or _ _ _ => some 3
  | .xor _ _ _ => some 3
  | .andn _ _ _ => some 3
  | .orn _ _ _ => some 3
  | .shl _ _ _ => some 3
  | .shr _ _ _ => some 3
  | .sra _ _ _ => some 3
  | .rotl _ _ _ => some 3
  | .shl64 _ _ _ => some 3
  | .shr64 _ _ _ => some 3
  | .sra64 _ _ _ => some 3
  | .popc _ _ => some 3
  | .clz _ _ => some 3
  | .ctz _ _ => some 3
  | .brev _ _ => some 3
  | .bfxS _ _ _ => some 3
  | .bfxN _ _ _ => some 3
  | .bfi _ _ _ => some 3
  | .perm _ _ _ => some 3
  | .ceq _ _ _ => some 4
  | .cne _ _ _ => some 4
  | .cltS _ _ _ => some 4
  | .cleS _ _ _ => some 4
  | .cltN _ _ _ => some 4
  | .cleN _ _ _ => some 4
  | .fceq _ _ _ => some 4
  | .fcne _ _ _ => some 4
  | .fclt _ _ _ => some 4
  | .fcle _ _ _ => some 4
  | .fcun _ _ _ => some 4
  | .fclass _ _ _ => some 4
  | .ceq64 _ _ _ => some 4
  | .clt64S _ _ _ => some 4
  | .clt64N _ _ _ => some 4
  | .fadd _ _ _ => some 5
  | .fsub _ _ _ => some 5
  | .fmul _ _ _ => some 5
  | .fmin _ _ _ => some 5
  | .fmax _ _ _ => some 5
  | .fabs _ _ => some 5
  | .fneg _ _ => some 5
  | .fdiv _ _ _ => some 5
  | .fsqrt _ _ => some 5
  | .frcp _ _ => some 5
  | .frsqrt _ _ => some 5
  | .fexp2 _ _ => some 5
  | .flog2 _ _ => some 5
  | .fsinpi _ _ => some 5
  | .fcospi _ _ => some 5
  | .ftanh _ _ => some 5
  | .faddF16x2 _ _ _ => some 5
  | .fmulF16x2 _ _ _ => some 5
  | .faddBf16x2 _ _ _ => some 5
  | .fmulBf16x2 _ _ _ => some 5
  | .fminF16x2 _ _ _ => some 5
  | .fmaxF16x2 _ _ _ => some 5
  | .fscl _ _ _ => some 5
  | .frnd _ _ => some 5
  | .ffmaF16x2 _ _ _ => some 5
  | .ffmaBf16x2 _ _ _ => some 5
  | .fdot2Bf16 _ _ _ => some 5
  | .idp4S8 _ _ _ => some 5
  | .idp4N8 _ _ _ => some 5
  | .cvtF32S32 _ _ _ => some 6
  | .cvtF32N32 _ _ _ => some 6
  | .cvtS32F32 _ _ _ _ => some 6
  | .cvtN32F32 _ _ _ _ => some 6
  | .cvtF32F16 _ _ _ => some 6
  | .cvtF32Bf16 _ _ _ => some 6
  | .pkF16 _ _ _ _ _ => some 6
  | .pkBf16 _ _ _ _ _ => some 6
  | .pkE4m3 _ _ _ _ _ => some 6
  | .pkE5m2 _ _ _ _ _ => some 6
  | .pkE2m1 _ _ _ _ _ => some 6
  | .pkF8d _ _ _ _ => some 6
  | .upkE4m3 _ _ _ => some 6
  | .upkE5m2 _ _ _ => some 6
  | .upkE2m1 _ _ _ => some 6
  | .upkF8d _ _ _ _ => some 6
  | .cvtE8m0 _ _ _ _ _ => some 6
  | .frint _ _ _ => some 6
  | .ffma _ _ _ _ => some 7
  | .sel _ _ _ _ => some 8
  | .imad _ _ _ _ => some 9
  | .ldN8 _ _ _ _ => some 10
  | .ldS8 _ _ _ _ => some 10
  | .ldN16 _ _ _ _ => some 10
  | .ldS16 _ _ _ _ => some 10
  | .ldB32 _ _ _ _ => some 10
  | .ldB64 _ _ _ _ => some 10
  | .ldB128 _ _ _ _ => some 10
  | .ldBlk _ _ _ _ => some 10
  | .stB8 _ _ _ _ => some 11
  | .stB16 _ _ _ _ => some 11
  | .stB32 _ _ _ _ => some 11
  | .stB64 _ _ _ _ => some 11
  | .stB128 _ _ _ _ => some 11
  | .stBlk _ _ _ _ => some 11
  | .aadd _ _ _ _ => some 12
  | .aand _ _ _ _ => some 12
  | .aor _ _ _ _ => some 12
  | .axor _ _ _ _ => some 12
  | .aminS32 _ _ _ _ => some 12
  | .amaxS32 _ _ _ _ => some 12
  | .aminN32 _ _ _ _ => some 12
  | .amaxN32 _ _ _ _ => some 12
  | .axchg _ _ _ _ => some 12
  | .acas _ _ _ _ => some 12
  | .aadd64 _ _ _ _ => some 12
  | .acas64 _ _ _ _ => some 12
  | .afadd _ _ _ _ => some 12
  | .afaddBf16x2 _ _ _ _ => some 12
  | .aincWrap _ _ _ _ => some 12
  | .bra _ => some 13
  | .bz _ _ => some 13
  | .bnz _ _ => some 13
  | .blz _ _ => some 13
  | .bgez _ _ => some 13
  | .call _ _ => some 13
  | .bany _ _ => some 13
  | .ball _ _ => some 13
  | .jr _ => some 14
  | .callr _ _ => some 14
  | .ret _ => some 14
  | .exit => some 14
  | .reform _ => some 14
  | .spawn _ _ _ => some 14
  | .rbar => some 14
  | .lxPick _ _ _ => some 15
  | .lxShift _ _ _ => some 15
  | .lxRot _ _ _ => some 15
  | .lxSwap _ _ _ => some 15
  | .lxAny _ _ => some 15
  | .lxAll _ _ => some 15
  | .lxMask _ _ => some 15
  | .lxActive _ => some 15
  | .lxFirst _ _ => some 15
  | .lxSumS32 _ _ => some 15
  | .lxMinS32 _ _ => some 15
  | .lxMaxS32 _ _ => some 15
  | .lxFsum _ _ => some 15
  | .lxPrefixS32 _ _ => some 15
  | .lxSame _ _ => some 15
  | .lxLead _ => some 15
  | .barArrive _ => some 16
  | .barWait _ => some 16
  | .barSync _ => some 16
  | .barInit _ _ => some 16
  | .fence _ _ => some 16
  | .fenceOpnd => some 16
  | .fenceIfetch => some 16
  | .wait _ => some 16
  | .tktWait _ => some 16
  | .tktPass _ => some 16
  | .mxGo _ _ _ => some 17
  | .mxWait _ _ _ => some 17
  | .mxTest _ _ => some 17
  | .mxStat _ _ => some 17
  | .mxAbort _ => some 17
  | .drnLoad _ _ => some 17
  | .qBind _ _ => some 18
  | .qUnbind _ => some 18
  | .qTake _ _ => some 18
  | .qGive _ => some 18
  | .qAlloc _ _ => some 18
  | .qPost _ => some 18
  | .qCnt _ _ => some 18
  | .qClose _ => some 18
  | .cpGo _ _ => some 19
  | .cpFill _ _ => some 19
  | .cpGather _ _ => some 19
  | .cpQ _ _ => some 19
  | .cpWait _ _ _ => some 19
  | .cpTest _ _ => some 19
  | .lpLd _ _ => some 20
  | .lpPut _ _ _ => some 20
  | .lpAdd _ _ _ => some 20
  | .lpCas _ _ _ => some 20
  | .lpMsg _ _ _ => some 20
  | .lpFence _ => some 20
  | .lpGate => some 20
  | .lpNow _ => some 20
  | .lpSeq _ _ => some 20
  | .lpLaunch _ _ => some 20
  | .fabPut _ _ => some 21
  | .fabGet _ _ => some 21
  | .fabAadd _ _ _ => some 21
  | .fabAcas _ _ _ => some 21
  | .fabFence => some 21
  | .fabWait _ => some 21
  | .movi _ _ => some 22
  | .movh _ _ => some 23
  | .scopeOpen _ => some 24
  | .scopeClose => some 24
  | .wbase _ => some 24
  | .safept _ => some 24
  | .dgOn _ => some 25
  | .dgOff => some 25
  | .dgChk _ _ _ => some 25
  | .dgFold _ _ => some 25
  | .csrRd _ _ => some 26
  | .csrWr _ _ => some 26
  | .tret => some 26
  | .tkill _ => some 26
  | .tlbInv _ _ _ => some 26
  | .tlbProbe _ _ => some 26
  | .dbgHalt _ => some 26
  | .mattr _ _ _ _ => some 27
  | .clauseIssue => none
  | .waitConditionMet => none
  | .variableLatencyResult => none
  | .storeAcknowledge => none
  | .pushLatchWrite => none
  | .quantumPublishDeadline => none
  | .sleepIntervalElapsed => none
  | .watchdogExpiry => none
  | .binAgeTimerExpiry => none
  | .binLaunch => none
  | .compactorMove => none
  | .teamEnd => none
  | .atomicopCompletion => none
  | .copyRow => none
  | .cpQSlotFill => none
  | .wavefrontAdmission => none
  | .wavefrontComplete => none
  | .weightReloadComplete => none
  | .arrayQuiescentPoint => none
  | .drainUnitEntry => none
  | .drainUnitCommit => none
  | .mxcapWrite => none
  | .rlstallRead => none
  | .aqpmaxRead => none
  | .kick => none
  | .kickPageOtherWrite => none
  | .uqregWrite => none
  | .uqderegWrite => none
  | .uqclrWrite => none
  | .uqstatRejClear => none
  | .kickdropRead => none
  | .launchPacket => none
  | .clusterLaunchPacket => none
  | .copyPacket => none
  | .waitLsnPacket => none
  | .signalPacket => none
  | .barrierPacket => none
  | .graphPacket => none
  | .graphNodeStart => none
  | .packetCompletion => none
  | .sliceExpiry => none
  | .teamAdmission => none
  | .clusterReservationDelay => none
  | .saveComplete => none
  | .preemptionTimeout => none
  | .teamResumption => none
  | .coreHot => none
  | .coreCool => none
  | .coreThrottle => none
  | .coreUnthrottle => none
  | .packageOvertempShut => none
  | .coreIdleTimeout => none
  | .ctxkillWrite => none
  | .ctxctlKilledClear => none
  | .loopGrantArrival => none
  | .loopIdleArrival => none
  | .numberedRecordReceive => none
  | .recordWriteApply => none
  | .recordAtomicApply => none
  | .recordMsgApply => none
  | .recordLaunchApply => none
  | .recordKillOrderApply => none
  | .recordXlateApply => none
  | .recordDigestApply => none
  | .grantRegeneration => none
  | .lossOfSignal => none
  | .missingIdleTimeout => none
  | .loopctlJoinWrite => none
  | .loopctlMasterWrite => none
  | .loopctlStartWrite => none
  | .mzmHeaterWrite => none
  | .qalarmClear => none
  | .tapMinmaxRead => none
  | .grantsRead => none
  | .regenRead => none
  | .crcerrRead => none
  | .ibdropRead => none
  | .loopFormationTimeout => none
  | .framePutReceive => none
  | .frameGetreqReceive => none
  | .frameGetrespReceive => none
  | .frameAaddReceive => none
  | .frameAcasReceive => none
  | .frameAtomrespReceive => none
  | .frameAckReceive => none
  | .frameNaksReceive => none
  | .frameNakfReceive => none
  | .frameSleepReceive => none
  | .frameWakeReceive => none
  | .pfcPauseReceive => none
  | .ackDelayExpiry => none
  | .retransmitTimeout => none
  | .fabOperationTimeout => none
  | .rateRecoveryTimer => none
  | .portctlEnWrite => none
  | .portctlLpreqWrite => none
  | .portctlWakeWrite => none
  | .portLinkUp => none
  | .portLinkLost => none
  | .portDrainComplete => none
  | .portLanesReady => none
  | .lpabortRead => none
  | .dropsRead => none
  | .hostWindowRead => none
  | .hostWindowWrite => none
  | .hostAtomicopRequest => none
  | .hostCompletionTimeout => none
  | .hostLinkDown => none
  | .hostLinkUp => none
  | .eqdropRead => none
  | .controlRegisterWrite => none
  | .dbgcmdHalt => none
  | .dbgcmdResume => none
  | .dbgcmdDump => none
  | .dbgcmdCheckpoint => none
  | .dbgcmdReplay => none
  | .checkpointPeriodExpiry => none
  | .sampleIntervalExpiry => none
  | .sampleRecordAppend => none
  | .drdropRead => none
  | .packageReset => none
  | .suppliesGood => none
  | .powerCycle => none
  | .dievWrite => none
  | .dievSupplyChange => none
  | .dievSupplySettled => none
  | .serrcntRead => none
  | .serruncRead => none
  | .pcieConfigWrite => none
  | .tapPowerSample => none

end Machine

/-- The instruction has a 32-bit encoding; the other constructors are steps and events. -/
def Instr.isWord (i : Instr) : Bool := (Machine.majorOf i).isSome

end Sys2Proof
end

