-- ==== Sys2Proof/WellFormed.lean ====
section
/-! DEFINITION. Well-formed instructions: the words that pass check 8 of R105. What each instruction's fields must meet
stands in Machine/Fields.lean. -/

namespace Sys2Proof

/-- The instruction is a word whose fields meet check 8 of R105. -/
def Instr.WellFormed (i : Instr) : Bool := i.isWord && Machine.fieldsOk i

end Sys2Proof
end

