-- ==== Sys2Proof/Decode.lean ====
section
/-! DEFINITION. Decoding a 32-bit word into an instruction, rejecting by name, and encoding an instruction as its word
(03_fetch_and_formats.md R92 to R101, 04_opcode_map_assembly.md R110). Numbers stand for words; bit 0 is the least
significant bit. -/

namespace Sys2Proof

/-- Why a word is no instruction: checks 3, 4 and 8 of R105. -/
inductive DecodeErr where
  | reservedMajor      -- check 3: majors 28 to 31, ILL 0x00
  | unassigned         -- check 4: function, kind, op or condition not assigned, ILL 0x00
  | reservedField      -- check 8: a reserved field or bit is nonzero, ILL 0x01
  | illegalSelector    -- check 8: a selector code that names nothing (R30, R31), ILL 0x01
  | illegalField       -- check 8: a selector or value outside the instruction's limits, ILL 0x01
  | notAWord           -- fewer than four bytes, or more than 32 bits
  deriving DecidableEq, Repr

/-- What decoding answers. -/
abbrev Decoded := Except DecodeErr Instr

/-- The 7-bit selector code (R30). -/
def selCode : Sel → Nat
  | .v n => n.val
  | .o n => 0x40 + n.val
  | .lr => 0x48
  | .q n => 0x50 + n.val
  | .zero => 0x58 | .laneid => 0x59 | .strandid => 0x5A | .roleid => 0x5B
  | .teamid => 0x5C | .coreid => 0x5D | .pkgid => 0x5E | .ones => 0x5F
  | .imm c => 0x60 + c.toNat

/-- The selector a 7-bit code names (R30). -/
def selOfCode (c : Nat) : Option Sel :=
  if c < 0x40 then some (.v (Fin.ofNat 64 c))
  else if c < 0x48 then some (.o (Fin.ofNat 8 (c - 0x40)))
  else if c = 0x48 then some .lr
  else if c < 0x50 then none
  else if c < 0x58 then some (.q (Fin.ofNat 8 (c - 0x50)))
  else if c = 0x58 then some .zero
  else if c = 0x59 then some .laneid
  else if c = 0x5A then some .strandid
  else if c = 0x5B then some .roleid
  else if c = 0x5C then some .teamid
  else if c = 0x5D then some .coreid
  else if c = 0x5E then some .pkgid
  else if c = 0x5F then some .ones
  else if c < 0x80 then some (.imm (.ofNat 5 (c - 0x60)))
  else none

/-- The 6-bit code of the c field (R31); only selectors of `Sel.isC` have one. -/
def selCodeC : Sel → Nat
  | .v n => n.val
  | .o n => 0x20 + n.val
  | .lr => 0x28
  | .q n => 0x30 + n.val
  | .zero => 0x38
  | _ => 0x3F

/-- The selector a c field names (R31). -/
def selOfCodeC (c : Nat) : Option Sel :=
  if c < 0x20 then some (.v (Fin.ofNat 64 c))
  else if c < 0x28 then some (.o (Fin.ofNat 8 (c - 0x20)))
  else if c = 0x28 then some .lr
  else if c < 0x30 then none
  else if c < 0x38 then some (.q (Fin.ofNat 8 (c - 0x30)))
  else if c = 0x38 then some .zero
  else none

/-- The two bits of an address base (R36). -/
def baseCode : Base → Nat
  | .virt => 0 | .team => 1 | .clu => 2 | .stk => 3

/-- The address base two bits name. -/
def baseOfCode (c : Nat) : Base :=
  match c with
  | 0 => .virt | 1 => .team | 2 => .clu | _ => .stk

/-- Fields of format X3 (R93). -/
def fldD (w : Nat) : Nat := w / 0x4000 % 128
def fldA (w : Nat) : Nat := w / 0x80 % 128
def fldB (w : Nat) : Nat := w % 128

/-- The 21-bit immediate of format S (R99). -/
def fldImm21 (w : Nat) : Nat := w % 0x200000

/-- Accept an instruction whose fields meet check 8. -/
def accept (i : Instr) : Decoded := if Machine.fieldsOk i then .ok i else .error .illegalField

/-- A field that the form does not use must be zero (R92). -/
def zero (f : Nat) (k : Decoded) : Decoded := if f = 0 then k else .error .reservedField

/-- Read a 7-bit selector. -/
def withSel (c : Nat) (k : Sel → Decoded) : Decoded :=
  match selOfCode c with
  | some s => k s
  | none => .error .illegalSelector

/-- Read the literal port of a QU form (R221): codes 0x50 to 0x57. -/
def withPort (c : Nat) (k : BitVec 3 → Decoded) : Decoded :=
  if 0x50 ≤ c ∧ c < 0x58 then k (.ofNat 3 (c - 0x50)) else .error .illegalField

def decDAB (w : Nat) (mk : Sel → Sel → Sel → Instr) : Decoded :=
  withSel (fldD w) fun d => withSel (fldA w) fun a => withSel (fldB w) fun b => accept (mk d a b)
def decDA (w : Nat) (mk : Sel → Sel → Instr) : Decoded :=
  withSel (fldD w) fun d => withSel (fldA w) fun a => zero (fldB w) <| accept (mk d a)
def decD (w : Nat) (mk : Sel → Instr) : Decoded :=
  withSel (fldD w) fun d => zero (fldA w) <| zero (fldB w) <| accept (mk d)
def decA (w : Nat) (mk : Sel → Instr) : Decoded :=
  zero (fldD w) <| withSel (fldA w) fun a => zero (fldB w) <| accept (mk a)
def decNone (w : Nat) (i : Instr) : Decoded :=
  zero (fldD w) <| zero (fldA w) <| zero (fldB w) <| accept i
def decDAFlag (w : Nat) (mk : Sel → Sel → Bool → Instr) : Decoded :=
  withSel (fldD w) fun d => withSel (fldA w) fun a => zero (fldB w / 2) <| accept (mk d a (fldB w % 2 == 1))

/-- The mode literal of a conversion (R154): rounding [1:0], sat [2], el [4:3]; the F8D bias is [6:5] and [1:0] (R58). -/
def modeRm (w : Nat) : BitVec 2 := .ofNat 2 w
def modeSat (w : Nat) : Bool := w / 4 % 2 == 1
def modeEl (w : Nat) : BitVec 2 := .ofNat 2 (w / 8)
def decModeR (w : Nat) (mk : Sel → Sel → BitVec 2 → Instr) : Decoded :=
  withSel (fldD w) fun d => withSel (fldA w) fun a => zero (fldB w / 4) <| accept (mk d a (modeRm w))
def decModeSR (w : Nat) (mk : Sel → Sel → Bool → BitVec 2 → Instr) : Decoded :=
  withSel (fldD w) fun d => withSel (fldA w) fun a => zero (fldB w / 8) <| accept (mk d a (modeSat w) (modeRm w))
def decModeE (w : Nat) (mk : Sel → Sel → BitVec 2 → Instr) : Decoded :=
  withSel (fldD w) fun d => withSel (fldA w) fun a => zero (fldB w / 32) <| zero (fldB w % 8) <| accept (mk d a (modeEl w))
def decModeESR (w : Nat) (mk : Sel → Sel → BitVec 2 → Bool → BitVec 2 → Instr) : Decoded :=
  withSel (fldD w) fun d => withSel (fldA w) fun a => zero (fldB w / 32) <|
    accept (mk d a (modeEl w) (modeSat w) (modeRm w))
def decF8D (w : Nat) (mk : Sel → Sel → BitVec 4 → BitVec 2 → Instr) : Decoded :=
  withSel (fldD w) fun d => withSel (fldA w) fun a => zero (fldB w / 4 % 2) <|
    accept (mk d a (.ofNat 4 (fldB w / 32 * 4 + w % 4)) (modeEl w))

def decX4 (w : Nat) (mk : Sel → Sel → Sel → Sel → Instr) : Decoded :=
  withSel (bitsOf w 26 20) fun d => withSel (bitsOf w 19 13) fun a => withSel (bitsOf w 12 6) fun b =>
    match selOfCodeC (bitsOf w 5 0) with
    | some c => accept (mk d a b c)
    | none => .error .illegalSelector
def decFmtI (w : Nat) (mk : Sel → Sel → BitVec 10 → Instr) : Decoded :=
  withSel (bitsOf w 23 17) fun d => withSel (bitsOf w 16 10) fun a => accept (mk d a (.ofNat 10 w))
def decFmtM (w : Nat) (mk : Sel → Sel → Base → BitVec 8 → Instr) : Decoded :=
  withSel (bitsOf w 23 17) fun d => withSel (bitsOf w 16 10) fun a =>
    accept (mk d a (baseOfCode (bitsOf w 9 8)) (.ofNat 8 w))
def decBlk (w : Nat) (mk : Sel → Sel → Base → BitVec 5 → Instr) : Decoded :=
  withSel (bitsOf w 23 17) fun d => withSel (bitsOf w 16 10) fun a => zero (bitsOf w 7 5) <|
    accept (mk d a (baseOfCode (bitsOf w 9 8)) (.ofNat 5 w))
def decFmtA (w : Nat) (mk : Sel → Sel → Sel → Base → Instr) : Decoded :=
  withSel (bitsOf w 22 16) fun d => withSel (bitsOf w 15 9) fun a => withSel (bitsOf w 8 2) fun b =>
    accept (mk d a b (baseOfCode (bitsOf w 1 0)))
def decFmtB (w : Nat) (mk : Sel → BitVec 17 → Instr) : Decoded :=
  withSel (bitsOf w 23 17) fun a => accept (mk a (.ofNat 17 w))

/-- Major 0, SYS (R110). -/
def decSys (w : Nat) : Decoded :=
  match bitsOf w 26 21 with
  | 0 => zero (fldImm21 w) <| accept .nop
  | 1 => withSel (bitsOf w 20 14) fun a => accept (.loop a (.ofNat 14 w))
  | 2 => accept (.brk (.ofNat 21 w))
  | 3 => accept (.swtrap (.ofNat 13 (bitsOf w 20 8)) (.ofNat 8 w))
  | 4 => zero (fldImm21 w) <| accept .yield
  | 5 => accept (.sleep (.ofNat 21 w))
  | _ => .error .unassigned

/-- Major 1, ALU (R110). -/
def decAlu (w : Nat) : Decoded :=
  match bitsOf w 26 21 with
  | 0 => decDAB w .iadd
  | 1 => decDAB w .isub
  | 2 => decDAB w .imul
  | 3 => decDAB w .imulhS32
  | 4 => decDAB w .imulhN32
  | 5 => decDAB w .idivS32
  | 6 => decDAB w .idivN32
  | 7 => decDAB w .iremS32
  | 8 => decDAB w .iremN32
  | 9 => decDAB w .iminS32
  | 10 => decDAB w .iminN32
  | 11 => decDAB w .imaxS32
  | 12 => decDAB w .imaxN32
  | 13 => decDA w .iabs
  | 14 => decDAB w .iaddsS32
  | 15 => decDAB w .isubsS32
  | 16 => decDAB w .iaddsN32
  | 17 => decDAB w .isubsN32
  | 18 => decDAB w .add64
  | 19 => decDAB w .sub64
  | 20 => decDAB w .mulwS32
  | 21 => decDAB w .mulwN32
  | _ => .error .unassigned

/-- Major 2, ALUI (R110). -/
def decAlui (w : Nat) : Decoded :=
  match bitsOf w 26 24 with
  | 0 => decFmtI w .iaddi
  | 1 => decFmtI w .iandi
  | 2 => decFmtI w .iori
  | 3 => decFmtI w .ixori
  | 4 => decFmtI w .ishli
  | 5 => decFmtI w .ishri
  | 6 => decFmtI w .israi
  | 7 => decFmtI w .icmpiLt
  | _ => .error .unassigned

/-- Major 3, BIT (R110). -/
def decBit (w : Nat) : Decoded :=
  match bitsOf w 26 21 with
  | 0 => decDAB w .and
  | 1 => decDAB w .or
  | 2 => decDAB w .xor
  | 3 => decDAB w .andn
  | 4 => decDAB w .orn
  | 5 => decDAB w .shl
  | 6 => decDAB w .shr
  | 7 => decDAB w .sra
  | 8 => decDAB w .rotl
  | 9 => decDAB w .shl64
  | 10 => decDAB w .shr64
  | 11 => decDAB w .sra64
  | 12 => decDA w .popc
  | 13 => decDA w .clz
  | 14 => decDA w .ctz
  | 15 => decDA w .brev
  | 16 => decDAB w .bfxS
  | 17 => decDAB w .bfxN
  | 18 => decDAB w .bfi
  | 19 => decDAB w .perm
  | _ => .error .unassigned

/-- Major 4, CMP (R110). -/
def decCmp (w : Nat) : Decoded :=
  match bitsOf w 26 21 with
  | 0 => decDAB w .ceq
  | 1 => decDAB w .cne
  | 2 => decDAB w .cltS
  | 3 => decDAB w .cleS
  | 4 => decDAB w .cltN
  | 5 => decDAB w .cleN
  | 6 => decDAB w .fceq
  | 7 => decDAB w .fcne
  | 8 => decDAB w .fclt
  | 9 => decDAB w .fcle
  | 10 => decDAB w .fcun
  | 11 => decDAB w .fclass
  | 12 => decDAB w .ceq64
  | 13 => decDAB w .clt64S
  | 14 => decDAB w .clt64N
  | _ => .error .unassigned

/-- Major 5, FPU (R110). -/
def decFpu (w : Nat) : Decoded :=
  match bitsOf w 26 21 with
  | 0 => decDAB w .fadd
  | 1 => decDAB w .fsub
  | 2 => decDAB w .fmul
  | 3 => decDAB w .fmin
  | 4 => decDAB w .fmax
  | 5 => decDA w .fabs
  | 6 => decDA w .fneg
  | 7 => decDAB w .fdiv
  | 8 => decDA w .fsqrt
  | 9 => decDA w .frcp
  | 10 => decDA w .frsqrt
  | 11 => decDA w .fexp2
  | 12 => decDA w .flog2
  | 13 => decDA w .fsinpi
  | 14 => decDA w .fcospi
  | 15 => decDA w .ftanh
  | 16 => decDAB w .faddF16x2
  | 17 => decDAB w .fmulF16x2
  | 18 => decDAB w .faddBf16x2
  | 19 => decDAB w .fmulBf16x2
  | 20 => decDAB w .fminF16x2
  | 21 => decDAB w .fmaxF16x2
  | 22 => decDAB w .fscl
  | 23 => decDA w .frnd
  | 24 => decDAB w .ffmaF16x2
  | 25 => decDAB w .ffmaBf16x2
  | 26 => decDAB w .fdot2Bf16
  | 27 => decDAB w .idp4S8
  | 28 => decDAB w .idp4N8
  | _ => .error .unassigned

/-- Major 6, CVT (R110). -/
def decCvt (w : Nat) : Decoded :=
  match bitsOf w 26 21 with
  | 0 => decModeR w .cvtF32S32
  | 1 => decModeR w .cvtF32N32
  | 2 => decModeSR w .cvtS32F32
  | 3 => decModeSR w .cvtN32F32
  | 4 => decModeE w .cvtF32F16
  | 5 => decModeE w .cvtF32Bf16
  | 6 => decModeESR w .pkF16
  | 7 => decModeESR w .pkBf16
  | 8 => decModeESR w .pkE4m3
  | 9 => decModeESR w .pkE5m2
  | 10 => decModeESR w .pkE2m1
  | 11 => decF8D w .pkF8d
  | 12 => decModeE w .upkE4m3
  | 13 => decModeE w .upkE5m2
  | 14 => decModeE w .upkE2m1
  | 15 => decF8D w .upkF8d
  | 16 => decModeESR w .cvtE8m0
  | 17 => decModeR w .frint
  | _ => .error .unassigned

/-- Major 7, FFMA (R110). -/
def decFfma (w : Nat) : Decoded :=
  decX4 w .ffma

/-- Major 8, SEL (R110). -/
def decSel (w : Nat) : Decoded :=
  decX4 w .sel

/-- Major 9, IMAD (R110). -/
def decImad (w : Nat) : Decoded :=
  decX4 w .imad

/-- Major 10, LD (R110). -/
def decLd (w : Nat) : Decoded :=
  match bitsOf w 26 24 with
  | 0 => decFmtM w .ldN8
  | 1 => decFmtM w .ldS8
  | 2 => decFmtM w .ldN16
  | 3 => decFmtM w .ldS16
  | 4 => decFmtM w .ldB32
  | 5 => decFmtM w .ldB64
  | 6 => decFmtM w .ldB128
  | 7 => decBlk w .ldBlk
  | _ => .error .unassigned

/-- Major 11, ST (R110). -/
def decSt (w : Nat) : Decoded :=
  match bitsOf w 26 24 with
  | 0 => decFmtM w .stB8
  | 1 => decFmtM w .stB16
  | 2 => decFmtM w .stB32
  | 3 => decFmtM w .stB64
  | 4 => decFmtM w .stB128
  | 5 => decBlk w .stBlk
  | _ => .error .unassigned

/-- Major 12, ATOM (R110). -/
def decAtom (w : Nat) : Decoded :=
  match bitsOf w 26 23 with
  | 0 => decFmtA w .aadd
  | 1 => decFmtA w .aand
  | 2 => decFmtA w .aor
  | 3 => decFmtA w .axor
  | 4 => decFmtA w .aminS32
  | 5 => decFmtA w .amaxS32
  | 6 => decFmtA w .aminN32
  | 7 => decFmtA w .amaxN32
  | 8 => decFmtA w .axchg
  | 9 => decFmtA w .acas
  | 10 => decFmtA w .aadd64
  | 11 => decFmtA w .acas64
  | 12 => decFmtA w .afadd
  | 13 => decFmtA w .afaddBf16x2
  | 14 => decFmtA w .aincWrap
  | _ => .error .unassigned

/-- Major 13, BR (R110). -/
def decBr (w : Nat) : Decoded :=
  match bitsOf w 26 24 with
  | 0 => zero (bitsOf w 23 17) <| accept (.bra (.ofNat 17 w))
  | 1 => decFmtB w .bz
  | 2 => decFmtB w .bnz
  | 3 => decFmtB w .blz
  | 4 => decFmtB w .bgez
  | 5 => decFmtB w .call
  | 6 => decFmtB w .bany
  | 7 => decFmtB w .ball
  | _ => .error .unassigned

/-- Major 14, CTL (R110). -/
def decCtl (w : Nat) : Decoded :=
  match bitsOf w 26 21 with
  | 0 => decA w .jr
  | 1 => decDA w .callr
  | 2 => decA w .ret
  | 3 => decNone w .exit
  | 4 => zero (fldD w) <| zero (fldA w) <| accept (.reform (.ofNat 7 (fldB w)))
  | 5 => zero (fldD w / 8) <| withSel (fldA w) fun a => withSel (fldB w) fun b => accept (.spawn (.ofNat 3 (fldD w)) a b)
  | 6 => decNone w .rbar
  | _ => .error .unassigned

/-- Major 15, XLN (R110). -/
def decXln (w : Nat) : Decoded :=
  match bitsOf w 26 21 with
  | 0 => decDAB w .lxPick
  | 1 => decDAB w .lxShift
  | 2 => decDAB w .lxRot
  | 3 => decDAB w .lxSwap
  | 4 => decDA w .lxAny
  | 5 => decDA w .lxAll
  | 6 => decDA w .lxMask
  | 7 => decD w .lxActive
  | 8 => decDA w .lxFirst
  | 9 => decDA w .lxSumS32
  | 10 => decDA w .lxMinS32
  | 11 => decDA w .lxMaxS32
  | 12 => decDA w .lxFsum
  | 13 => decDA w .lxPrefixS32
  | 14 => decDA w .lxSame
  | 15 => decD w .lxLead
  | _ => .error .unassigned

/-- Major 16, SYNC (R110). -/
def decSync (w : Nat) : Decoded :=
  match bitsOf w 26 21 with
  | 0 => zero (bitsOf w 20 7) <| accept (.barArrive (.ofNat 7 w))
  | 1 => zero (bitsOf w 20 7) <| accept (.barWait (.ofNat 7 w))
  | 2 => zero (bitsOf w 20 7) <| accept (.barSync (.ofNat 7 w))
  | 3 => zero (bitsOf w 20 18) <| accept (.barInit (.ofNat 11 (bitsOf w 17 7)) (.ofNat 7 w))
  | 4 => zero (bitsOf w 20 5) <| accept (.fence (.ofNat 2 (bitsOf w 4 3)) (.ofNat 3 w))
  | 5 => zero (fldImm21 w) <| accept .fenceOpnd
  | 6 => zero (fldImm21 w) <| accept .fenceIfetch
  | 7 => zero (bitsOf w 20 7) <| accept (.wait (.ofNat 7 w))
  | 8 => zero (bitsOf w 20 3) <| accept (.tktWait (.ofNat 3 w))
  | 9 => zero (bitsOf w 20 3) <| accept (.tktPass (.ofNat 3 w))
  | _ => .error .unassigned

/-- Major 17, MX (R110). -/
def decMx (w : Nat) : Decoded :=
  match bitsOf w 26 21 with
  | 0 => decDAB w .mxGo
  | 1 => decDAFlag w .mxWait
  | 2 => decDA w .mxTest
  | 3 => decDA w .mxStat
  | 4 => decA w .mxAbort
  | 5 => withSel (fldA w) fun a => zero (fldB w) <| accept (.drnLoad (.ofNat 7 (fldD w)) a)
  | _ => .error .unassigned

/-- Major 18, QU (R110). -/
def decQu (w : Nat) : Decoded :=
  match bitsOf w 26 21 with
  | 0 => zero (fldD w) <| withPort (fldA w) fun p => withSel (fldB w) fun b => accept (.qBind p b)
  | 1 => zero (fldD w) <| withPort (fldA w) fun p => zero (fldB w) <| accept (.qUnbind p)
  | 2 => withSel (fldD w) fun d => withPort (fldA w) fun p => zero (fldB w) <| accept (.qTake d p)
  | 3 => zero (fldD w) <| withPort (fldA w) fun p => zero (fldB w) <| accept (.qGive p)
  | 4 => withSel (fldD w) fun d => withPort (fldA w) fun p => zero (fldB w) <| accept (.qAlloc d p)
  | 5 => zero (fldD w) <| withPort (fldA w) fun p => zero (fldB w) <| accept (.qPost p)
  | 6 => withSel (fldD w) fun d => withPort (fldA w) fun p => zero (fldB w) <| accept (.qCnt d p)
  | 7 => zero (fldD w) <| withPort (fldA w) fun p => zero (fldB w) <| accept (.qClose p)
  | _ => .error .unassigned

/-- Major 19, CP (R110). -/
def decCp (w : Nat) : Decoded :=
  match bitsOf w 26 21 with
  | 0 => decDA w .cpGo
  | 1 => decDA w .cpFill
  | 2 => decDA w .cpGather
  | 3 => decDA w .cpQ
  | 4 => decDAFlag w .cpWait
  | 5 => decDA w .cpTest
  | _ => .error .unassigned

/-- Major 20, LP (R110). -/
def decLp (w : Nat) : Decoded :=
  match bitsOf w 26 21 with
  | 0 => decDA w .lpLd
  | 1 => decDAB w .lpPut
  | 2 => decDAB w .lpAdd
  | 3 => decDAB w .lpCas
  | 4 => decDAB w .lpMsg
  | 5 => decA w .lpFence
  | 6 => decNone w .lpGate
  | 7 => decD w .lpNow
  | 8 => decDA w .lpSeq
  | 9 => decDA w .lpLaunch
  | _ => .error .unassigned

/-- Major 21, FAB (R110). -/
def decFab (w : Nat) : Decoded :=
  match bitsOf w 26 21 with
  | 0 => decDA w .fabPut
  | 1 => decDA w .fabGet
  | 2 => decDAB w .fabAadd
  | 3 => decDAB w .fabAcas
  | 4 => decNone w .fabFence
  | 5 => decA w .fabWait
  | _ => .error .unassigned

/-- Major 22, MOVI (R110). -/
def decMovi (w : Nat) : Decoded :=
  withSel (bitsOf w 26 20) fun d => accept (.movi d (.ofNat 20 w))

/-- Major 23, MOVH (R110). -/
def decMovh (w : Nat) : Decoded :=
  withSel (bitsOf w 26 20) fun d => zero (bitsOf w 19 12) <| accept (.movh d (.ofNat 12 w))

/-- Major 24, SCOPE (R110). -/
def decScope (w : Nat) : Decoded :=
  match bitsOf w 26 21 with
  | 0 => accept (.scopeOpen (.ofNat 21 w))
  | 1 => zero (fldImm21 w) <| accept .scopeClose
  | 2 => accept (.wbase (.ofNat 21 w))
  | 3 => accept (.safept (.ofNat 21 w))
  | _ => .error .unassigned

/-- Major 25, DG (R110). -/
def decDg (w : Nat) : Decoded :=
  match bitsOf w 26 21 with
  | 0 => zero (fldD w) <| zero (fldA w) <| zero (fldB w / 2) <| accept (.dgOn (fldB w % 2 == 1))
  | 1 => decNone w .dgOff
  | 2 => decDAFlag w .dgChk
  | 3 => decDA w .dgFold
  | _ => .error .unassigned

/-- Major 26, PRIV (R110). -/
def decPriv (w : Nat) : Decoded :=
  match bitsOf w 26 21 with
  | 0 => withSel (fldD w) fun d => zero (fldA w) <| accept (.csrRd d (.ofNat 7 (fldB w)))
  | 1 => zero (fldD w) <| withSel (fldA w) fun a => accept (.csrWr a (.ofNat 7 (fldB w)))
  | 2 => decNone w .tret
  | 3 => decA w .tkill
  | 4 => zero (fldD w) <| withSel (fldA w) fun a => zero (fldB w / 8) <| accept (.tlbInv a (fldB w / 4 % 2 == 1) (.ofNat 2 (fldB w)))
  | 5 => decDA w .tlbProbe
  | 6 => decA w .dbgHalt
  | _ => .error .unassigned

/-- Major 27, MATTR (R110). -/
def decMattr (w : Nat) : Decoded :=
  zero (bitsOf w 16 0) <| accept (.mattr (.ofNat 3 (bitsOf w 26 24)) (.ofNat 2 (bitsOf w 23 22)) (.ofNat 3 (bitsOf w 21 19)) (.ofNat 2 (bitsOf w 18 17)))

/-- Decode one word (checks 3, 4 and 8 of R105). Total: a number past 32 bits has no assigned major. -/
def decodeWord (w : Nat) : Decoded :=
  match w / 2 ^ 27 with
  | 0 => decSys w
  | 1 => decAlu w
  | 2 => decAlui w
  | 3 => decBit w
  | 4 => decCmp w
  | 5 => decFpu w
  | 6 => decCvt w
  | 7 => decFfma w
  | 8 => decSel w
  | 9 => decImad w
  | 10 => decLd w
  | 11 => decSt w
  | 12 => decAtom w
  | 13 => decBr w
  | 14 => decCtl w
  | 15 => decXln w
  | 16 => decSync w
  | 17 => decMx w
  | 18 => decQu w
  | 19 => decCp w
  | 20 => decLp w
  | 21 => decFab w
  | 22 => decMovi w
  | 23 => decMovh w
  | 24 => decScope w
  | 25 => decDg w
  | 26 => decPriv w
  | 27 => decMattr w
  | _ => .error .reservedMajor

/-- Decode the first instruction word of a byte string, little-endian (R3), and give the bytes after it. -/
def decodeBytes : List Byte → Except DecodeErr (Instr × List Byte)
  | b0 :: b1 :: b2 :: b3 :: rest =>
    match decodeWord (b0.toNat + 0x100 * b1.toNat + 0x10000 * b2.toNat + 0x1000000 * b3.toNat) with
    | .ok i => .ok (i, rest)
    | .error e => .error e
  | _ => .error .notAWord

/-- The decoder on a word numbered as spec/opcode_table.json numbers it. Every encoded row has 32 bits. -/
def decodeTableWord (nbits w : Nat) : Option Instr :=
  if nbits ≤ 32 ∧ w < 2 ^ 32 then
    match decodeWord w with
    | .ok i => some i
    | .error _ => none
  else none

/-- The formats' words from their fields (R137, R164, R184). -/
def wordX3 (major func d a b : Nat) : Nat := major * 0x8000000 + func * 0x200000 + d * 0x4000 + a * 0x80 + b
def wordX4 (major d a b c : Nat) : Nat := major * 0x8000000 + d * 0x100000 + a * 0x2000 + b * 0x40 + c
def wordI (major func d a i : Nat) : Nat := major * 0x8000000 + func * 0x1000000 + d * 0x20000 + a * 0x400 + i
def wordM (major kind d a base off : Nat) : Nat :=
  major * 0x8000000 + kind * 0x1000000 + d * 0x20000 + a * 0x400 + base * 0x100 + off
def wordA (op d a b base : Nat) : Nat := 0x60000000 + op * 0x800000 + d * 0x10000 + a * 0x200 + b * 0x4 + base
def wordB (cond a off : Nat) : Nat := 0x68000000 + cond * 0x1000000 + a * 0x20000 + off
def wordS (major func imm : Nat) : Nat := major * 0x8000000 + func * 0x200000 + imm
def wordW (major d imm : Nat) : Nat := major * 0x8000000 + d * 0x100000 + imm
def wordP (scope order use hint : Nat) : Nat :=
  0xD8000000 + scope * 0x1000000 + order * 0x400000 + use * 0x80000 + hint * 0x20000

/-- The word of an instruction; an event has none and answers 0. -/
def encode (i : Instr) : Nat :=
  match i with
  | .nop => wordS 0 0 0
  | .loop a off => wordS 0 1 (selCode a * 0x4000 + off.toNat)
  | .brk n => wordS 0 2 n.toNat
  | .swtrap t c => wordS 0 3 (t.toNat * 256 + c.toNat)
  | .yield => wordS 0 4 0
  | .sleep n => wordS 0 5 n.toNat
  | .iadd d a b => wordX3 1 0 (selCode d) (selCode a) (selCode b)
  | .isub d a b => wordX3 1 1 (selCode d) (selCode a) (selCode b)
  | .imul d a b => wordX3 1 2 (selCode d) (selCode a) (selCode b)
  | .imulhS32 d a b => wordX3 1 3 (selCode d) (selCode a) (selCode b)
  | .imulhN32 d a b => wordX3 1 4 (selCode d) (selCode a) (selCode b)
  | .idivS32 d a b => wordX3 1 5 (selCode d) (selCode a) (selCode b)
  | .idivN32 d a b => wordX3 1 6 (selCode d) (selCode a) (selCode b)
  | .iremS32 d a b => wordX3 1 7 (selCode d) (selCode a) (selCode b)
  | .iremN32 d a b => wordX3 1 8 (selCode d) (selCode a) (selCode b)
  | .iminS32 d a b => wordX3 1 9 (selCode d) (selCode a) (selCode b)
  | .iminN32 d a b => wordX3 1 10 (selCode d) (selCode a) (selCode b)
  | .imaxS32 d a b => wordX3 1 11 (selCode d) (selCode a) (selCode b)
  | .imaxN32 d a b => wordX3 1 12 (selCode d) (selCode a) (selCode b)
  | .iabs d a => wordX3 1 13 (selCode d) (selCode a) 0
  | .iaddsS32 d a b => wordX3 1 14 (selCode d) (selCode a) (selCode b)
  | .isubsS32 d a b => wordX3 1 15 (selCode d) (selCode a) (selCode b)
  | .iaddsN32 d a b => wordX3 1 16 (selCode d) (selCode a) (selCode b)
  | .isubsN32 d a b => wordX3 1 17 (selCode d) (selCode a) (selCode b)
  | .add64 d a b => wordX3 1 18 (selCode d) (selCode a) (selCode b)
  | .sub64 d a b => wordX3 1 19 (selCode d) (selCode a) (selCode b)
  | .mulwS32 d a b => wordX3 1 20 (selCode d) (selCode a) (selCode b)
  | .mulwN32 d a b => wordX3 1 21 (selCode d) (selCode a) (selCode b)
  | .iaddi d a i => wordI 2 0 (selCode d) (selCode a) i.toNat
  | .iandi d a i => wordI 2 1 (selCode d) (selCode a) i.toNat
  | .iori d a i => wordI 2 2 (selCode d) (selCode a) i.toNat
  | .ixori d a i => wordI 2 3 (selCode d) (selCode a) i.toNat
  | .ishli d a i => wordI 2 4 (selCode d) (selCode a) i.toNat
  | .ishri d a i => wordI 2 5 (selCode d) (selCode a) i.toNat
  | .israi d a i => wordI 2 6 (selCode d) (selCode a) i.toNat
  | .icmpiLt d a i => wordI 2 7 (selCode d) (selCode a) i.toNat
  | .and d a b => wordX3 3 0 (selCode d) (selCode a) (selCode b)
  | .or d a b => wordX3 3 1 (selCode d) (selCode a) (selCode b)
  | .xor d a b => wordX3 3 2 (selCode d) (selCode a) (selCode b)
  | .andn d a b => wordX3 3 3 (selCode d) (selCode a) (selCode b)
  | .orn d a b => wordX3 3 4 (selCode d) (selCode a) (selCode b)
  | .shl d a b => wordX3 3 5 (selCode d) (selCode a) (selCode b)
  | .shr d a b => wordX3 3 6 (selCode d) (selCode a) (selCode b)
  | .sra d a b => wordX3 3 7 (selCode d) (selCode a) (selCode b)
  | .rotl d a b => wordX3 3 8 (selCode d) (selCode a) (selCode b)
  | .shl64 d a b => wordX3 3 9 (selCode d) (selCode a) (selCode b)
  | .shr64 d a b => wordX3 3 10 (selCode d) (selCode a) (selCode b)
  | .sra64 d a b => wordX3 3 11 (selCode d) (selCode a) (selCode b)
  | .popc d a => wordX3 3 12 (selCode d) (selCode a) 0
  | .clz d a => wordX3 3 13 (selCode d) (selCode a) 0
  | .ctz d a => wordX3 3 14 (selCode d) (selCode a) 0
  | .brev d a => wordX3 3 15 (selCode d) (selCode a) 0
  | .bfxS d a b => wordX3 3 16 (selCode d) (selCode a) (selCode b)
  | .bfxN d a b => wordX3 3 17 (selCode d) (selCode a) (selCode b)
  | .bfi d a b => wordX3 3 18 (selCode d) (selCode a) (selCode b)
  | .perm d a b => wordX3 3 19 (selCode d) (selCode a) (selCode b)
  | .ceq d a b => wordX3 4 0 (selCode d) (selCode a) (selCode b)
  | .cne d a b => wordX3 4 1 (selCode d) (selCode a) (selCode b)
  | .cltS d a b => wordX3 4 2 (selCode d) (selCode a) (selCode b)
  | .cleS d a b => wordX3 4 3 (selCode d) (selCode a) (selCode b)
  | .cltN d a b => wordX3 4 4 (selCode d) (selCode a) (selCode b)
  | .cleN d a b => wordX3 4 5 (selCode d) (selCode a) (selCode b)
  | .fceq d a b => wordX3 4 6 (selCode d) (selCode a) (selCode b)
  | .fcne d a b => wordX3 4 7 (selCode d) (selCode a) (selCode b)
  | .fclt d a b => wordX3 4 8 (selCode d) (selCode a) (selCode b)
  | .fcle d a b => wordX3 4 9 (selCode d) (selCode a) (selCode b)
  | .fcun d a b => wordX3 4 10 (selCode d) (selCode a) (selCode b)
  | .fclass d a b => wordX3 4 11 (selCode d) (selCode a) (selCode b)
  | .ceq64 d a b => wordX3 4 12 (selCode d) (selCode a) (selCode b)
  | .clt64S d a b => wordX3 4 13 (selCode d) (selCode a) (selCode b)
  | .clt64N d a b => wordX3 4 14 (selCode d) (selCode a) (selCode b)
  | .fadd d a b => wordX3 5 0 (selCode d) (selCode a) (selCode b)
  | .fsub d a b => wordX3 5 1 (selCode d) (selCode a) (selCode b)
  | .fmul d a b => wordX3 5 2 (selCode d) (selCode a) (selCode b)
  | .fmin d a b => wordX3 5 3 (selCode d) (selCode a) (selCode b)
  | .fmax d a b => wordX3 5 4 (selCode d) (selCode a) (selCode b)
  | .fabs d a => wordX3 5 5 (selCode d) (selCode a) 0
  | .fneg d a => wordX3 5 6 (selCode d) (selCode a) 0
  | .fdiv d a b => wordX3 5 7 (selCode d) (selCode a) (selCode b)
  | .fsqrt d a => wordX3 5 8 (selCode d) (selCode a) 0
  | .frcp d a => wordX3 5 9 (selCode d) (selCode a) 0
  | .frsqrt d a => wordX3 5 10 (selCode d) (selCode a) 0
  | .fexp2 d a => wordX3 5 11 (selCode d) (selCode a) 0
  | .flog2 d a => wordX3 5 12 (selCode d) (selCode a) 0
  | .fsinpi d a => wordX3 5 13 (selCode d) (selCode a) 0
  | .fcospi d a => wordX3 5 14 (selCode d) (selCode a) 0
  | .ftanh d a => wordX3 5 15 (selCode d) (selCode a) 0
  | .faddF16x2 d a b => wordX3 5 16 (selCode d) (selCode a) (selCode b)
  | .fmulF16x2 d a b => wordX3 5 17 (selCode d) (selCode a) (selCode b)
  | .faddBf16x2 d a b => wordX3 5 18 (selCode d) (selCode a) (selCode b)
  | .fmulBf16x2 d a b => wordX3 5 19 (selCode d) (selCode a) (selCode b)
  | .fminF16x2 d a b => wordX3 5 20 (selCode d) (selCode a) (selCode b)
  | .fmaxF16x2 d a b => wordX3 5 21 (selCode d) (selCode a) (selCode b)
  | .fscl d a b => wordX3 5 22 (selCode d) (selCode a) (selCode b)
  | .frnd d a => wordX3 5 23 (selCode d) (selCode a) 0
  | .ffmaF16x2 d a b => wordX3 5 24 (selCode d) (selCode a) (selCode b)
  | .ffmaBf16x2 d a b => wordX3 5 25 (selCode d) (selCode a) (selCode b)
  | .fdot2Bf16 d a b => wordX3 5 26 (selCode d) (selCode a) (selCode b)
  | .idp4S8 d a b => wordX3 5 27 (selCode d) (selCode a) (selCode b)
  | .idp4N8 d a b => wordX3 5 28 (selCode d) (selCode a) (selCode b)
  | .cvtF32S32 d a rm => wordX3 6 0 (selCode d) (selCode a) (rm.toNat)
  | .cvtF32N32 d a rm => wordX3 6 1 (selCode d) (selCode a) (rm.toNat)
  | .cvtS32F32 d a sat rm => wordX3 6 2 (selCode d) (selCode a) (natOf sat * 4 + rm.toNat)
  | .cvtN32F32 d a sat rm => wordX3 6 3 (selCode d) (selCode a) (natOf sat * 4 + rm.toNat)
  | .cvtF32F16 d a el => wordX3 6 4 (selCode d) (selCode a) (el.toNat * 8)
  | .cvtF32Bf16 d a el => wordX3 6 5 (selCode d) (selCode a) (el.toNat * 8)
  | .pkF16 d a el sat rm => wordX3 6 6 (selCode d) (selCode a) (el.toNat * 8 + natOf sat * 4 + rm.toNat)
  | .pkBf16 d a el sat rm => wordX3 6 7 (selCode d) (selCode a) (el.toNat * 8 + natOf sat * 4 + rm.toNat)
  | .pkE4m3 d a el sat rm => wordX3 6 8 (selCode d) (selCode a) (el.toNat * 8 + natOf sat * 4 + rm.toNat)
  | .pkE5m2 d a el sat rm => wordX3 6 9 (selCode d) (selCode a) (el.toNat * 8 + natOf sat * 4 + rm.toNat)
  | .pkE2m1 d a el sat rm => wordX3 6 10 (selCode d) (selCode a) (el.toNat * 8 + natOf sat * 4 + rm.toNat)
  | .pkF8d d a bias el => wordX3 6 11 (selCode d) (selCode a) (bias.toNat / 4 * 32 + el.toNat * 8 + bias.toNat % 4)
  | .upkE4m3 d a el => wordX3 6 12 (selCode d) (selCode a) (el.toNat * 8)
  | .upkE5m2 d a el => wordX3 6 13 (selCode d) (selCode a) (el.toNat * 8)
  | .upkE2m1 d a el => wordX3 6 14 (selCode d) (selCode a) (el.toNat * 8)
  | .upkF8d d a bias el => wordX3 6 15 (selCode d) (selCode a) (bias.toNat / 4 * 32 + el.toNat * 8 + bias.toNat % 4)
  | .cvtE8m0 d a el sat rm => wordX3 6 16 (selCode d) (selCode a) (el.toNat * 8 + natOf sat * 4 + rm.toNat)
  | .frint d a rm => wordX3 6 17 (selCode d) (selCode a) (rm.toNat)
  | .ffma d a b c => wordX4 7 (selCode d) (selCode a) (selCode b) (selCodeC c)
  | .sel d a b c => wordX4 8 (selCode d) (selCode a) (selCode b) (selCodeC c)
  | .imad d a b c => wordX4 9 (selCode d) (selCode a) (selCode b) (selCodeC c)
  | .ldN8 d a base off => wordM 10 0 (selCode d) (selCode a) (baseCode base) off.toNat
  | .ldS8 d a base off => wordM 10 1 (selCode d) (selCode a) (baseCode base) off.toNat
  | .ldN16 d a base off => wordM 10 2 (selCode d) (selCode a) (baseCode base) off.toNat
  | .ldS16 d a base off => wordM 10 3 (selCode d) (selCode a) (baseCode base) off.toNat
  | .ldB32 d a base off => wordM 10 4 (selCode d) (selCode a) (baseCode base) off.toNat
  | .ldB64 d a base off => wordM 10 5 (selCode d) (selCode a) (baseCode base) off.toNat
  | .ldB128 d a base off => wordM 10 6 (selCode d) (selCode a) (baseCode base) off.toNat
  | .ldBlk d a base n => wordM 10 7 (selCode d) (selCode a) (baseCode base) n.toNat
  | .stB8 d a base off => wordM 11 0 (selCode d) (selCode a) (baseCode base) off.toNat
  | .stB16 d a base off => wordM 11 1 (selCode d) (selCode a) (baseCode base) off.toNat
  | .stB32 d a base off => wordM 11 2 (selCode d) (selCode a) (baseCode base) off.toNat
  | .stB64 d a base off => wordM 11 3 (selCode d) (selCode a) (baseCode base) off.toNat
  | .stB128 d a base off => wordM 11 4 (selCode d) (selCode a) (baseCode base) off.toNat
  | .stBlk d a base n => wordM 11 5 (selCode d) (selCode a) (baseCode base) n.toNat
  | .aadd d a b base => wordA 0 (selCode d) (selCode a) (selCode b) (baseCode base)
  | .aand d a b base => wordA 1 (selCode d) (selCode a) (selCode b) (baseCode base)
  | .aor d a b base => wordA 2 (selCode d) (selCode a) (selCode b) (baseCode base)
  | .axor d a b base => wordA 3 (selCode d) (selCode a) (selCode b) (baseCode base)
  | .aminS32 d a b base => wordA 4 (selCode d) (selCode a) (selCode b) (baseCode base)
  | .amaxS32 d a b base => wordA 5 (selCode d) (selCode a) (selCode b) (baseCode base)
  | .aminN32 d a b base => wordA 6 (selCode d) (selCode a) (selCode b) (baseCode base)
  | .amaxN32 d a b base => wordA 7 (selCode d) (selCode a) (selCode b) (baseCode base)
  | .axchg d a b base => wordA 8 (selCode d) (selCode a) (selCode b) (baseCode base)
  | .acas d a b base => wordA 9 (selCode d) (selCode a) (selCode b) (baseCode base)
  | .aadd64 d a b base => wordA 10 (selCode d) (selCode a) (selCode b) (baseCode base)
  | .acas64 d a b base => wordA 11 (selCode d) (selCode a) (selCode b) (baseCode base)
  | .afadd d a b base => wordA 12 (selCode d) (selCode a) (selCode b) (baseCode base)
  | .afaddBf16x2 d a b base => wordA 13 (selCode d) (selCode a) (selCode b) (baseCode base)
  | .aincWrap d a b base => wordA 14 (selCode d) (selCode a) (selCode b) (baseCode base)
  | .bra off => wordB 0 0 off.toNat
  | .bz a off => wordB 1 (selCode a) off.toNat
  | .bnz a off => wordB 2 (selCode a) off.toNat
  | .blz a off => wordB 3 (selCode a) off.toNat
  | .bgez a off => wordB 4 (selCode a) off.toNat
  | .call a off => wordB 5 (selCode a) off.toNat
  | .bany a off => wordB 6 (selCode a) off.toNat
  | .ball a off => wordB 7 (selCode a) off.toNat
  | .jr a => wordX3 14 0 0 (selCode a) 0
  | .callr d a => wordX3 14 1 (selCode d) (selCode a) 0
  | .ret a => wordX3 14 2 0 (selCode a) 0
  | .exit => wordX3 14 3 0 0 0
  | .reform n => wordX3 14 4 0 0 n.toNat
  | .spawn c a b => wordX3 14 5 c.toNat (selCode a) (selCode b)
  | .rbar => wordX3 14 6 0 0 0
  | .lxPick d a b => wordX3 15 0 (selCode d) (selCode a) (selCode b)
  | .lxShift d a b => wordX3 15 1 (selCode d) (selCode a) (selCode b)
  | .lxRot d a b => wordX3 15 2 (selCode d) (selCode a) (selCode b)
  | .lxSwap d a b => wordX3 15 3 (selCode d) (selCode a) (selCode b)
  | .lxAny d a => wordX3 15 4 (selCode d) (selCode a) 0
  | .lxAll d a => wordX3 15 5 (selCode d) (selCode a) 0
  | .lxMask d a => wordX3 15 6 (selCode d) (selCode a) 0
  | .lxActive d => wordX3 15 7 (selCode d) 0 0
  | .lxFirst d a => wordX3 15 8 (selCode d) (selCode a) 0
  | .lxSumS32 d a => wordX3 15 9 (selCode d) (selCode a) 0
  | .lxMinS32 d a => wordX3 15 10 (selCode d) (selCode a) 0
  | .lxMaxS32 d a => wordX3 15 11 (selCode d) (selCode a) 0
  | .lxFsum d a => wordX3 15 12 (selCode d) (selCode a) 0
  | .lxPrefixS32 d a => wordX3 15 13 (selCode d) (selCode a) 0
  | .lxSame d a => wordX3 15 14 (selCode d) (selCode a) 0
  | .lxLead d => wordX3 15 15 (selCode d) 0 0
  | .barArrive n => wordS 16 0 n.toNat
  | .barWait n => wordS 16 1 n.toNat
  | .barSync n => wordS 16 2 n.toNat
  | .barInit e n => wordS 16 3 (e.toNat * 128 + n.toNat)
  | .fence k s => wordS 16 4 (k.toNat * 8 + s.toNat)
  | .fenceOpnd => wordS 16 5 0
  | .fenceIfetch => wordS 16 6 0
  | .wait m => wordS 16 7 m.toNat
  | .tktWait t => wordS 16 8 t.toNat
  | .tktPass t => wordS 16 9 t.toNat
  | .mxGo d a b => wordX3 17 0 (selCode d) (selCode a) (selCode b)
  | .mxWait d a retire => wordX3 17 1 (selCode d) (selCode a) (natOf retire)
  | .mxTest d a => wordX3 17 2 (selCode d) (selCode a) 0
  | .mxStat d a => wordX3 17 3 (selCode d) (selCode a) 0
  | .mxAbort a => wordX3 17 4 0 (selCode a) 0
  | .drnLoad s a => wordX3 17 5 s.toNat (selCode a) 0
  | .qBind p b => wordX3 18 0 0 (0x50 + p.toNat) (selCode b)
  | .qUnbind p => wordX3 18 1 0 (0x50 + p.toNat) 0
  | .qTake d p => wordX3 18 2 (selCode d) (0x50 + p.toNat) 0
  | .qGive p => wordX3 18 3 0 (0x50 + p.toNat) 0
  | .qAlloc d p => wordX3 18 4 (selCode d) (0x50 + p.toNat) 0
  | .qPost p => wordX3 18 5 0 (0x50 + p.toNat) 0
  | .qCnt d p => wordX3 18 6 (selCode d) (0x50 + p.toNat) 0
  | .qClose p => wordX3 18 7 0 (0x50 + p.toNat) 0
  | .cpGo d a => wordX3 19 0 (selCode d) (selCode a) 0
  | .cpFill d a => wordX3 19 1 (selCode d) (selCode a) 0
  | .cpGather d a => wordX3 19 2 (selCode d) (selCode a) 0
  | .cpQ d a => wordX3 19 3 (selCode d) (selCode a) 0
  | .cpWait d a retire => wordX3 19 4 (selCode d) (selCode a) (natOf retire)
  | .cpTest d a => wordX3 19 5 (selCode d) (selCode a) 0
  | .lpLd d a => wordX3 20 0 (selCode d) (selCode a) 0
  | .lpPut d a b => wordX3 20 1 (selCode d) (selCode a) (selCode b)
  | .lpAdd d a b => wordX3 20 2 (selCode d) (selCode a) (selCode b)
  | .lpCas d a b => wordX3 20 3 (selCode d) (selCode a) (selCode b)
  | .lpMsg d a b => wordX3 20 4 (selCode d) (selCode a) (selCode b)
  | .lpFence a => wordX3 20 5 0 (selCode a) 0
  | .lpGate => wordX3 20 6 0 0 0
  | .lpNow d => wordX3 20 7 (selCode d) 0 0
  | .lpSeq d a => wordX3 20 8 (selCode d) (selCode a) 0
  | .lpLaunch d a => wordX3 20 9 (selCode d) (selCode a) 0
  | .fabPut d a => wordX3 21 0 (selCode d) (selCode a) 0
  | .fabGet d a => wordX3 21 1 (selCode d) (selCode a) 0
  | .fabAadd d a b => wordX3 21 2 (selCode d) (selCode a) (selCode b)
  | .fabAcas d a b => wordX3 21 3 (selCode d) (selCode a) (selCode b)
  | .fabFence => wordX3 21 4 0 0 0
  | .fabWait a => wordX3 21 5 0 (selCode a) 0
  | .movi d i => wordW 22 (selCode d) i.toNat
  | .movh d i => wordW 23 (selCode d) i.toNat
  | .scopeOpen n => wordS 24 0 n.toNat
  | .scopeClose => wordS 24 1 0
  | .wbase k => wordS 24 2 k.toNat
  | .safept n => wordS 24 3 n.toNat
  | .dgOn clear => wordX3 25 0 0 0 (natOf clear)
  | .dgOff => wordX3 25 1 0 0 0
  | .dgChk d a cmp => wordX3 25 2 (selCode d) (selCode a) (natOf cmp)
  | .dgFold d a => wordX3 25 3 (selCode d) (selCode a) 0
  | .csrRd d n => wordX3 26 0 (selCode d) 0 n.toNat
  | .csrWr a n => wordX3 26 1 0 (selCode a) n.toNat
  | .tret => wordX3 26 2 0 0 0
  | .tkill a => wordX3 26 3 0 (selCode a) 0
  | .tlbInv a pod size => wordX3 26 4 0 (selCode a) (natOf pod * 4 + size.toNat)
  | .tlbProbe d a => wordX3 26 5 (selCode d) (selCode a) 0
  | .dbgHalt a => wordX3 26 6 0 (selCode a) 0
  | .mattr scope order use hint => wordP scope.toNat order.toNat use.toNat hint.toNat
  | .clauseIssue => 0
  | .waitConditionMet => 0
  | .variableLatencyResult => 0
  | .storeAcknowledge => 0
  | .pushLatchWrite => 0
  | .quantumPublishDeadline => 0
  | .sleepIntervalElapsed => 0
  | .watchdogExpiry => 0
  | .binAgeTimerExpiry => 0
  | .binLaunch => 0
  | .compactorMove => 0
  | .teamEnd => 0
  | .atomicopCompletion => 0
  | .copyRow => 0
  | .cpQSlotFill => 0
  | .wavefrontAdmission => 0
  | .wavefrontComplete => 0
  | .weightReloadComplete => 0
  | .arrayQuiescentPoint => 0
  | .drainUnitEntry => 0
  | .drainUnitCommit => 0
  | .mxcapWrite => 0
  | .rlstallRead => 0
  | .aqpmaxRead => 0
  | .kick => 0
  | .kickPageOtherWrite => 0
  | .uqregWrite => 0
  | .uqderegWrite => 0
  | .uqclrWrite => 0
  | .uqstatRejClear => 0
  | .kickdropRead => 0
  | .launchPacket => 0
  | .clusterLaunchPacket => 0
  | .copyPacket => 0
  | .waitLsnPacket => 0
  | .signalPacket => 0
  | .barrierPacket => 0
  | .graphPacket => 0
  | .graphNodeStart => 0
  | .packetCompletion => 0
  | .sliceExpiry => 0
  | .teamAdmission => 0
  | .clusterReservationDelay => 0
  | .saveComplete => 0
  | .preemptionTimeout => 0
  | .teamResumption => 0
  | .coreHot => 0
  | .coreCool => 0
  | .coreThrottle => 0
  | .coreUnthrottle => 0
  | .packageOvertempShut => 0
  | .coreIdleTimeout => 0
  | .ctxkillWrite => 0
  | .ctxctlKilledClear => 0
  | .loopGrantArrival => 0
  | .loopIdleArrival => 0
  | .numberedRecordReceive => 0
  | .recordWriteApply => 0
  | .recordAtomicApply => 0
  | .recordMsgApply => 0
  | .recordLaunchApply => 0
  | .recordKillOrderApply => 0
  | .recordXlateApply => 0
  | .recordDigestApply => 0
  | .grantRegeneration => 0
  | .lossOfSignal => 0
  | .missingIdleTimeout => 0
  | .loopctlJoinWrite => 0
  | .loopctlMasterWrite => 0
  | .loopctlStartWrite => 0
  | .mzmHeaterWrite => 0
  | .qalarmClear => 0
  | .tapMinmaxRead => 0
  | .grantsRead => 0
  | .regenRead => 0
  | .crcerrRead => 0
  | .ibdropRead => 0
  | .loopFormationTimeout => 0
  | .framePutReceive => 0
  | .frameGetreqReceive => 0
  | .frameGetrespReceive => 0
  | .frameAaddReceive => 0
  | .frameAcasReceive => 0
  | .frameAtomrespReceive => 0
  | .frameAckReceive => 0
  | .frameNaksReceive => 0
  | .frameNakfReceive => 0
  | .frameSleepReceive => 0
  | .frameWakeReceive => 0
  | .pfcPauseReceive => 0
  | .ackDelayExpiry => 0
  | .retransmitTimeout => 0
  | .fabOperationTimeout => 0
  | .rateRecoveryTimer => 0
  | .portctlEnWrite => 0
  | .portctlLpreqWrite => 0
  | .portctlWakeWrite => 0
  | .portLinkUp => 0
  | .portLinkLost => 0
  | .portDrainComplete => 0
  | .portLanesReady => 0
  | .lpabortRead => 0
  | .dropsRead => 0
  | .hostWindowRead => 0
  | .hostWindowWrite => 0
  | .hostAtomicopRequest => 0
  | .hostCompletionTimeout => 0
  | .hostLinkDown => 0
  | .hostLinkUp => 0
  | .eqdropRead => 0
  | .controlRegisterWrite => 0
  | .dbgcmdHalt => 0
  | .dbgcmdResume => 0
  | .dbgcmdDump => 0
  | .dbgcmdCheckpoint => 0
  | .dbgcmdReplay => 0
  | .checkpointPeriodExpiry => 0
  | .sampleIntervalExpiry => 0
  | .sampleRecordAppend => 0
  | .drdropRead => 0
  | .packageReset => 0
  | .suppliesGood => 0
  | .powerCycle => 0
  | .dievWrite => 0
  | .dievSupplyChange => 0
  | .dievSupplySettled => 0
  | .serrcntRead => 0
  | .serruncRead => 0
  | .pcieConfigWrite => 0
  | .tapPowerSample => 0

end Sys2Proof
end

