-- ==== Sys2Proof/Machine/CtlRead.lean ====
section
/-! DEFINITION. What the registers of the control region read as (offsets: 11 R315, 12 R329, 13 R361, 14 R390 to R394, 15 R403
and R408, 16 R412, 17 R436), and bytes of physical memory as an engine reads them. -/

namespace Sys2Proof.Machine

/-- A half of a 64-bit register: high for an odd word. -/
def half (x : Nat) (hi : Bool) : Nat := if hi then x / 2 ^ 32 % 2 ^ 32 else x % 2 ^ 32

/-- A signed 16-bit field. -/
def field16 (x : Int) : Nat := (BitVec.ofInt 16 x).toNat

/-- Scheduler registers (R315). -/
def State.schedWord (s : State) (o : Nat) : Nat :=
  let d := s.sched
  if 0x10000 ≤ o ∧ o < 0x10400 then
    let c := (o - 0x10000) / 4
    let r := (s.core c).regs
    r.wfrate % 65536 * 65536 + r.temp % 256 * 256 + r.band % 4 * 64 + natOf r.hot * 32 + natOf r.resv * 16 +
      (s.teams.filter fun t => t.2.core == c && !(s.grid t.2.grid).ended.contains t.2.teamid).length % 16
  else match o with
    | 0x00 => d.clresv % 65536 * 65536 + d.starve % 256 * 256 + natOf d.admitOn
    | 0x08 => half d.uqtbase.toNat false
    | 0x0C => half d.uqtbase.toNat true
    | 0x10 => d.pbudget
    | 0x14 => d.hotlim
    | 0x18 => d.kickdrop.toNat
    | 0x30 => natOf d.rej * 65536 + d.qnum
    | _ => 0

/-- Matrix registers of a core (R329). -/
def State.matrixWord (s : State) (o : Nat) : Nat :=
  let c := s.core (o / 32)
  match o % 32 with
  | 0x00 => half c.regs.wfcnt false
  | 0x04 => half c.regs.wfcnt true
  | 0x08 => c.regs.rlstall
  | 0x0C => c.regs.mxcap
  | 0x10 => c.regs.aqpmax
  | 0x14 =>
    match c.arr.op with
    | some k => k * 256 + (s.team ((nget c.mx k).getD default).team).slot * 16 + natOf c.arr.held * 2 + 1
    | none => 0xFF00
  | _ => 0

/-- Context table (R361). -/
def State.ctxWord (s : State) (o : Nat) : Nat :=
  let c := s.ctx (o / 32)
  match o % 32 with
  | 0x00 => half c.root false
  | 0x04 => half c.root true
  | 0x08 => half c.save false
  | 0x0C => half c.save true
  | 0x10 => c.ssize
  | 0x14 => c.pto
  | 0x18 => natOf c.halted * 8 + natOf c.killed * 4 + natOf c.sys * 2 + natOf c.valid
  | _ => 0

def LoopState.code : LoopState → Nat
  | .off => 0 | .forming => 1 | .run => 2 | .down => 3

/-- Loop and optics registers (R390 to R394). -/
def State.loopWord (s : State) (o : Nat) : Nat :=
  let l := s.loop
  if 0x100 ≤ o ∧ o < 0x300 then
    let b := (nget l.inboxes ((o - 0x100) / 32)).getD {}
    match o % 32 with
    | 0x00 => half b.base false
    | 0x04 => half b.base true
    | 0x08 => b.lcnt * 16 + natOf b.en
    | 0x0C => b.drop.toNat
    | 0x10 => half b.dlsn false
    | 0x14 => half b.dlsn true
    | _ => 0
  else if 0x1000 ≤ o ∧ o < 0x1130 then
    let t := (nget l.optics.taps ((o - 0x1000) / 8)).getD {}
    if o % 8 = 0 then field16 t.guard * 65536 + field16 t.power else field16 t.max * 65536 + field16 t.min
  else if 0x1200 ≤ o ∧ o < 0x1240 then
    let m := (nget l.optics.mzms ((o - 0x1200) / 4)).getD {}
    natOf m.qalarm * 2 ^ 31 + m.heater
  else match o with
    | 0x00 => natOf l.master * 2 + natOf l.join
    | 0x04 => l.fault * 256 + natOf l.hold * 8 + l.st.code
    | 0x08 => half l.applied false
    | 0x0C => half l.applied true
    | 0x10 => l.circ % 512
    | 0x14 => l.postq.length
    | 0x18 => l.counts.grants.toNat
    | 0x1C => l.counts.regen.toNat
    | 0x20 => l.counts.crcerr.toNat
    | 0x24 => l.optics.gain
    | _ => 0

def PortState.code : PortState → Nat
  | .down => 0 | .train => 1 | .up => 2 | .drain => 3 | .sleep => 4 | .waking => 5

/-- Fabric registers (R403). -/
def State.fabWord (s : State) (o : Nat) : Nat :=
  let f := s.fab
  if 0x100 ≤ o ∧ o < 0x180 then (nget f.fwd ((o - 0x100) / 4)).getD 0
  else if 0x1000 ≤ o ∧ o < 0x1200 then
    let p := (nget f.ports ((o - 0x1000) / 64)).getD {}
    match o % 64 with
    | 0x0 => natOf p.lpreq * 2 + natOf p.en
    | 0x4 => p.st.code
    | 0x8 => p.lpabort.toNat
    | 0xC => p.drops.toNat
    | _ => 0
  else if 0x2000 ≤ o ∧ o < 0x2200 then
    let c := (nget f.conns ((o - 0x2000) / 4)).getD {}
    c.st * 2 ^ 30 + c.rate % 1024
  else match o with
    | 0x00 => natOf f.en
    | 0x08 => half f.pfx.toNat false
    | 0x0C => half f.pfx.toNat true
    | 0x10 => f.fabto
    | 0x14 => f.ecnthr
    | _ => 0

/-- Host-link and event registers (R408). -/
def State.hostWord (s : State) (o : Nat) : Nat :=
  if 0x1000 ≤ o ∧ o < 0x1800 then
    let q := (nget s.host.evqs ((o - 0x1000) / 32)).getD {}
    match o % 32 with
    | 0x00 => half q.base false
    | 0x04 => half q.base true
    | 0x08 => q.vec * 256 + q.lcnt * 16 + natOf q.en
    | 0x0C => q.head.toNat
    | 0x10 => q.tail.toNat
    | 0x14 => q.drop.toNat
    | _ => 0
  else match o with
    | 0x00 => natOf s.host.atomok
    | 0x04 => s.host.speed % 16 * 256 + s.host.width % 128 * 2 + natOf s.host.up
    | _ => 0

/-- Debug registers (R412). -/
def State.debugWord (s : State) (o : Nat) : Nat :=
  let d := s.dbg
  if 0x1000 ≤ o ∧ o < 0x5000 then
    let c := (s.ctx ((o - 0x1000) / 64)).dbg
    match o % 64 with
    | 0x00 => natOf c.dgx * 2 ^ 17 + natOf c.reexec * 2 ^ 16 + c.period
    | 0x04 => natOf c.full * 2 ^ 31 + c.count % 65536
    | 0x08 => half c.ckbase false
    | 0x0C => half c.ckbase true
    | 0x10 => c.cksize
    | 0x14 => c.logsize
    | 0x18 => half c.logbase false
    | 0x1C => half c.logbase true
    | 0x20 => half c.dumpva false
    | 0x24 => half c.dumpva true
    | 0x28 => c.dumpsize
    | 0x2C => natOf c.halted * 2 ^ 31 + c.why * 2 ^ 28 + c.bp
    | _ => 0
  else if 0x40 ≤ o ∧ o < 0xC0 then
    let b := (nget d.bps ((o - 0x40) / 16)).getD {}
    match o % 16 with
    | 0x0 => b.off.toNat
    | 0x4 => b.ord.toNat
    | 0x8 => b.ctx * 256 + natOf b.en
    | _ => 0
  else match o with
    | 0x04 => d.ilog * 2 + natOf d.sampEn
    | 0x08 => half d.drbase false
    | 0x0C => half d.drbase true
    | 0x10 => d.vec * 256 + d.lcnt * 16 + natOf d.en
    | 0x14 => d.head.toNat
    | 0x18 => d.tail.toNat
    | 0x1C => d.drop.toNat
    | _ => 0

def PState.code : PState → Nat
  | .reset => 0 | .boot => 1 | .run => 2 | .fail => 3 | .shut => 0

def Die.word (d : Die) : Nat := natOf (d.settling || d.want.isSome) * 2 ^ 31 + d.mv

/-- Firmware and power registers (R436). -/
def State.fwWord (s : State) (o : Nat) : Nat :=
  let f := s.fw
  if 0x1000 ≤ o ∧ o < 0x1800 then half (s.core ((o - 0x1000) / 8)).regs.energy (o % 8 == 4)
  else if 0x1800 ≤ o ∧ o < 0x1A00 then half ((nget s.sched.energy ((o - 0x1800) / 8)).getD 0) (o % 8 == 4)
  else match o with
    | 0x00 => f.st.code * 2 ^ 28 + f.step * 2 ^ 24 + f.code * 2 ^ 16
    | 0x04 => f.ver.toNat
    | 0x08 => Config.fuseSvn % 65536 * 65536 + f.svn % 65536
    | 0x10 => f.north.word
    | 0x14 => f.south.word
    | 0x18 => f.pkgpwr.toNat
    | 0x20 => f.serrcnt.toNat
    | 0x24 => f.serrunc.toNat
    | 0x28 => (s.cores.map (·.2.regs.temp)).foldl max 0 % 256 * 256 + natOf (s.cores.any (·.2.regs.throttled))
    | 0x30 => half f.energy false
    | 0x34 => half f.energy true
    | _ => 0

/-- The aligned 32-bit word at a control offset; reserved places read zero. -/
def State.ctlWord (s : State) (o : Nat) : Nat :=
  (if o < 0x400000 then 0
  else if o < 0x440000 then s.schedWord (o - 0x400000)
  else if o < 0x442000 then s.matrixWord (o - 0x440000)
  else if 0x480000 ≤ o ∧ o < 0x482000 then s.ctxWord (o - 0x480000)
  else if 0x4C0000 ≤ o ∧ o < 0x500000 then s.loopWord (o - 0x4C0000)
  else if 0x500000 ≤ o ∧ o < 0x540000 then s.fabWord (o - 0x500000)
  else if 0x540000 ≤ o ∧ o < 0x580000 then s.hostWord (o - 0x540000)
  else if 0x580000 ≤ o ∧ o < 0x5C0000 then s.debugWord (o - 0x580000)
  else if 0x5C0000 ≤ o ∧ o < 0x600000 then s.fwWord (o - 0x5C0000)
  else 0) % 2 ^ 32

/-- A byte of the control region. -/
def State.ctlByte (s : State) (pa : Nat) : Byte :=
  let o := pa - controlBase
  BitVec.ofNat 8 (s.ctlWord (o / 4 * 4) / 256 ^ (o % 4))

/-- A physical byte as an engine reads it. -/
def State.physByte (s : State) (pa : Nat) : Byte := if regionOf pa = .control then s.ctlByte pa else s.mem.read pa

def State.physBytes (s : State) (pa n : Nat) : List Byte :=
  if regionOf pa = .control then (List.range n).map fun i => s.ctlByte (pa + i) else s.mem.readN pa n

/-- Note that an engine has read control words: some registers change when they are read. -/
def State.noteRead (s : State) (pa n : Nat) : State :=
  if regionOf pa = .control then
    { s with ctlq := s.ctlq ++ (List.range ((pa + n + 3) / 4 - pa / 4)).map fun i => ((pa / 4 + i) * 4, none) }
  else s

end Sys2Proof.Machine
end

