-- ==== Sys2Proof/Machine/MxPar.lean ====
section
/-! DEFINITION. A matrix operation's parameter block and formats (02_number_formats.md R65 to R67; 08 R226 to R229), the
bytes and registers it reads, what a store or a register access in the meantime does (R231), and writes of physical bytes
with the tier-2 read cache (10_memory_model.md R278). -/

namespace Sys2Proof.Machine

/-! Formats. -/

/-- The groups of R66: float-8/4, decimal, integer, float-16. -/
def fmtGroup (c : Nat) : Nat := if c = 3 then 1 else if c = 4 then 2 else if c = 5 ∨ c = 6 then 3 else 0
def fmtBits (c : Nat) : Nat := if c = 2 then 4 else if c = 5 ∨ c = 6 then 16 else 8
def fmtScaled (c : Nat) : Bool := c == 2 || c == 7 || c == 8

def afmt (f : Nat) : Nat := bitsOf f 3 0
def bfmt (f : Nat) : Nat := bitsOf f 7 4
def aesc (f : Nat) : Bool := bitOf f 17

/-- Elements in a k-step (R67). -/
def kstep (f : Nat) : Nat :=
  match max (fmtBits (afmt f)) (fmtBits (bfmt f)) with
  | 4 => 256
  | 8 => 128
  | _ => 64

/-- Bytes of a row step that hold elements of a format (R441). -/
def usedBytes (f c : Nat) : Nat := kstep f * fmtBits c / 8

/-- Scale blocks in a k-step. -/
def blocksOf (f : Nat) : Nat := kstep f / 32

/-! The parameter block. -/

/-- Word i of a parameter block. -/
def parWord (b : List Byte) (i : Nat) : Nat := leNat ((b.drop (4 * i)).take 4)

/-- Its fields (R226). -/
structure MxPar where
  dslot : Nat
  p : Nat
  areg : Bool
  aq : Bool
  last : Bool
  first : Bool
  ks : Nat
  ng : Nat
  m : Nat
  aaddr : Nat
  apitch : Nat
  boff : Nat
  accbase : Nat
  accrole : Nat
  accfirst : Nat
  darg : Nat
  ascale : Nat
  aside : Nat
  bscale : Nat
  deriving DecidableEq, Repr, Inhabited

def mxPar (b : List Byte) : MxPar :=
  let w := parWord b
  { dslot := bitsOf (w 0) 23 16, p := bitsOf (w 0) 15 12 + 1, areg := bitOf (w 0) 11, aq := bitOf (w 0) 10,
    last := bitOf (w 0) 9, first := bitOf (w 0) 8, ks := bitsOf (w 1) 31 16, ng := bitsOf (w 1) 10 8, m := bitsOf (w 1) 7 0,
    aaddr := w 2, apitch := w 3, boff := w 4, accbase := bitsOf (w 5) 15 8, accrole := bitsOf (w 5) 6 5,
    accfirst := bitsOf (w 5) 4 0, darg := w 6 + 2 ^ 32 * w 7, ascale := w 8, aside := w 9, bscale := w 10 }

def MxTok.par (t : MxTok) : MxPar := mxPar t.param
def MxTok.f (t : MxTok) : Nat := t.fmt.toNat

def MxSt.code : MxSt → Nat
  | .queued => 1 | .array => 2 | .drain => 3 | .done => 4 | .stopped => 5 | .aborted => 6

/-- The completion record (R237). -/
def MxTok.record (t : MxTok) : Word64 :=
  BitVec.ofNat 64 (t.kdone * 2 ^ 48 + t.ug * 2 ^ 40 + t.um * 2 ^ 32 + t.dcause * 2 ^ 16 + natOf t.resumed * 2 ^ 12 +
    natOf t.pushClosed * 2 ^ 11 + natOf t.qclosed * 2 ^ 10 + natOf t.ovf * 2 ^ 9 + natOf t.miss * 2 ^ 8 + t.st.code)

/-- Columns used. -/
def MxPar.n (q : MxPar) : Nat := 32 * q.ng
/-- Rows of owner strand i: 16, and the rest in the last. -/
def MxPar.ownerRows (q : MxPar) (i : Nat) : Nat := min 16 (q.m - 16 * i)
def MxPar.owners (q : MxPar) : Nat := (q.m + 15) / 16

/-! What an operation reads. -/

/-- Offset x lies in one of the rows of A in memory mode. -/
def MxPar.inA (q : MxPar) (f x : Nat) : Bool :=
  (List.range q.m).any fun m =>
    let lo := q.aaddr + m * q.apitch
    decide (lo ≤ x) && decide (x < lo + 128 * q.ks) && decide ((x - lo) % 128 < usedBytes f (afmt f))

/-- Offset x lies in the scales or side lists of A. -/
def MxPar.inScales (q : MxPar) (f x : Nat) : Bool :=
  let nb := q.m * q.ks * blocksOf f
  (fmtScaled (afmt f) && decide (q.ascale ≤ x) && decide (x < q.ascale + nb)) ||
  (aesc f && decide (q.aside ≤ x) && decide (x < q.aside + 12 * nb))

/-- Column-slice offset x lies in B or its scales. -/
def MxPar.inB (q : MxPar) (f x : Nat) : Bool :=
  (decide (q.boff ≤ x) && decide (x < q.boff + 128 * q.ks) && decide ((x - q.boff) % 128 < usedBytes f (bfmt f))) ||
  (fmtScaled (bfmt f) && decide (q.bscale ≤ x) && decide (x < q.bscale + q.ks * blocksOf f))

/-- A physical byte that an operation which has not ended reads (R231). -/
def State.mxReads (s : State) (t : MxTok) (pa : Nat) : Bool :=
  let tm := s.team t.team
  let q := t.par
  let sp := (s.grid tm.grid).kd.spSize
  let csBase := tm.core * 0x800000 + 0x600000
  if t.st = .done ∨ t.st = .aborted then false
  else
    (decide (tm.spBase ≤ pa) && decide (pa < tm.spBase + sp) &&
      (let x := pa - tm.spBase
       (!q.areg && !q.aq && q.inA t.f x) || (!q.aq && q.inScales t.f x) ||
       (match t.slot, nget tm.queues q.aaddr with
        | some o, some lq => decide (o ≤ x) && decide (x < o + 2 ^ bitsOf lq.shape 3 0)
        | _, _ => false))) ||
    (decide (csBase ≤ pa) && decide (pa < csBase + 0x200000) &&
      (let x := pa - csBase
       decide (x / 0x4000 < q.n) && q.inB t.f (x % 0x4000)))

/-! Undefined registers. -/

/-- Put a value into a register of a frame for an engine. -/
def Strand.engPoke (st : Strand) (uid r l : Nat) (v : Word) : Strand :=
  { st with frames := st.frames.map fun f => if f.uid = uid then { f with cells := nset f.cells (32 * r + l) v } else f }

/-- All lanes of a register become undefined. -/
def State.scramble (s : State) (sid uid r : Nat) : State :=
  s.modStr sid fun st => (List.range 32).foldl (fun st l => st.engPoke uid r l (s.freeW (0x4000000 + (uid * 256 + r) * 32 + l))) st

/-- The registers of a run. -/
def RegRun.regs (x : RegRun) : List Nat :=
  (List.range x.count).filterMap fun i => if i % x.stride < x.used then some (x.first + i) else none

def RegRun.holds (x : RegRun) (uid r : Nat) : Bool :=
  x.frame == uid && decide (x.first ≤ r) && decide (r < x.first + x.count) && decide ((r - x.first) % x.stride < x.used)

/-- Every accumulator register of an operation becomes undefined. -/
def State.scrambleAcc (s : State) (t : MxTok) : State :=
  t.acc.foldl (fun s x => x.regs.foldl (fun s r => s.scramble x.strand x.frame r) s) s

/-- Accesses of a strand to registers of operations for which it has not returned from `mx.wait` (R231): the registers become
undefined. -/
def State.mxTouch (s : State) (sid : Nat) (locs : List RegLoc) : State :=
  if (s.coreOf sid).mx.isEmpty && (s.str sid).unread.isEmpty then s
  else locs.foldl (fun s r =>
    let hit (t : MxTok) : Bool := !t.waited.contains sid && (t.acc ++ t.aReg).any (·.holds r.frame r.reg)
    if r.frame ≠ 0 ∧ ((s.coreOf sid).mx.any (fun x => hit x.2) ∨ (s.str sid).unread.contains (r.frame, r.reg)) then
      (s.scramble sid r.frame r.reg).modCoreOf sid fun c => { c with
        mx := nall c.mx fun _ t => if hit t then { t with undef := (r.frame, r.reg) :: t.undef } else t }
    else s) s

/-! Live queues: kind, entries, bytes of an entry (R212). -/

def LiveQ.kind (q : LiveQ) : Nat := bitsOf q.shape 9 8
def LiveQ.count (q : LiveQ) : Nat := 2 ^ bitsOf q.shape 7 4
def LiveQ.size (q : LiveQ) : Nat := 2 ^ bitsOf q.shape 3 0

/-- The ring entry of a live queue that holds a byte: its first byte and its size. -/
def State.liveEntry (s : State) (pa : Nat) : Option (Nat × Nat) :=
  s.teams.findSome? fun (_, t) => t.queues.findSome? fun (_, q) =>
    let a := t.phys q.base
    if q.kind != 3 && decide (a ≤ pa) && decide (pa < a + q.count * q.size) then some (a + (pa - a) / q.size * q.size, q.size) else none

/-- A byte of a team's memory is a live queue's descriptor, or an entry of its ring other than a slot (R215). -/
def State.liveByte (s : State) (pa : Nat) : Bool :=
  s.teams.any fun (_, t) => t.queues.any fun (d, q) =>
    (decide (t.phys d ≤ pa) && decide (pa < t.phys d + 32)) ||
    (q.kind != 3 && decide (t.phys q.base ≤ pa) && decide (pa < t.phys q.base + q.count * q.size))

/-! Writes of physical bytes. -/

/-- Writes to bytes that an operation reads leave its accumulator undefined (R231). -/
def State.mxRace (s : State) (cells : List Host.Cell) : State :=
  s.cores.foldl (fun s (c, _) =>
    (s.core c).mx.foldl (fun s (k, t) =>
      if !t.raced && cells.any (fun x => s.mxReads t x.1) then
        (s.scrambleAcc t).modCore c fun c => { c with mx := nmod c.mx k fun t => { t with raced := true } }
      else s) s) s

/-- Write bytes at their points of coherence; those of control registers take effect at the end of the step. -/
def State.putCells (s : State) (cells : List Host.Cell) : State :=
  let ctl := cells.filter fun c => regionOf c.1 == .control
  let cells := cells.filter fun c => regionOf c.1 != .control
  let s := (s.setMem (s.mem.writeCells cells)).mxRace cells
  if ctl.isEmpty then s else { s with ctlq := s.ctlq ++ ctl.map fun c => (c.1, some c.2) }

/-- What a store writes where it meets a live queue (R215): the descriptor's bytes are undefined, and every ring entry it touches. -/
def State.liveCells (s : State) (site : Nat) (cells : List Host.Cell) : List Host.Cell :=
  let free (a : Nat) : Host.Cell := (a, Config.freeByte s.tick (site + a))
  cells.flatMap fun c =>
    if s.liveByte c.1 then
      match s.liveEntry c.1 with
      | some (a, n) => (List.range n).map fun i => free (a + i)
      | none => [free c.1]
    else [c]

/-- Write bytes for the sequencer or from outside a core. -/
def State.outerCells (s : State) (cells : List Host.Cell) : State := s.putCells (s.liveCells 0x7B00000 cells)

/-- Write bytes for a store of a core's strand: it updates lines its core holds (R278). -/
def State.storeCells (s : State) (core : Nat) (cells : List Host.Cell) : State :=
  let s := s.putCells cells
  if (s.core core).rcache.isEmpty then s
  else
    let line (l : Nat) (bs : List Byte) : List Byte :=
      cells.foldl (fun bs x => if lineOf x.1 = l then bs.set (x.1 % 128) x.2 else bs) bs
    s.modCore core fun c => { c with rcache := nall c.rcache line }

/-- Write bytes for an engine of a core: lines they touch are dropped (R278). -/
def State.engineCells (s : State) (core : Nat) (cells : List Host.Cell) : State :=
  let cells := s.liveCells 0x7A00000 cells
  (s.putCells cells).dropLines core cells

end Sys2Proof.Machine
end

