-- ==== Sys2Proof/Machine/Events.lean ====
section
/-! DEFINITION. What the package itself writes: accesses of the sequencer through a context's translation, events to the
host's event queues (15_fabric_host.md R407), records of the debug ring (16_debug_determinism.md R414), and posts to the
Chaend loop (09_isa_async_system.md R258). -/

namespace Sys2Proof.Machine

/-- The number under which the sequencer and the fabric use translations; no core has it. -/
def noCore : Nat := 256

/-- Read bytes at a virtual address of a context, at their points of coherence. -/
def State.readVa (s : State) (ctx va n : Nat) : Except (Nat × XErr) (List Byte × State) :=
  if 2 ^ 56 < va + n then .error (va, .notPresent false)
  else match s.xlateParts s.mem ctx noCore .read 0x7000000 (pageParts va n) with
  | .error e => .error e
  | .ok ps => .ok (ps.flatMap fun p => s.physBytes p.pa p.len,
      ps.foldl (fun s p => s.noteRead p.pa p.len) (s.useParts ctx noCore .read ps))

/-- Write bytes at a virtual address of a context, as the sequencer does. -/
def State.writeVa (s : State) (ctx va : Nat) (bs : List Byte) : Except (Nat × XErr) State :=
  if 2 ^ 56 < va + bs.length then .error (va, .notPresent false)
  else match s.xlateParts s.mem ctx noCore .write 0x7100000 (pageParts va bs.length) with
  | .error e => .error e
  | .ok ps =>
    let s := s.useParts ctx noCore .write ps
    .ok (s.outerCells ((ps.flatMap fun p => cellsAt p.pa ((bs.drop (p.va - va)).take p.len))))

/-- The same where the spec names no effect of a fault: nothing is written then. -/
def State.tryWriteVa (s : State) (ctx va : Nat) (bs : List Byte) : State :=
  match s.writeVa ctx va bs with
  | .ok s => s
  | .error _ => s

/-- Bytes of an event (R407). -/
def eventBytes (kind queue ctx code detail cycle : Nat) : List Byte :=
  leBytes 2 kind ++ leBytes 2 0 ++ leBytes 4 queue ++ leBytes 4 ctx ++ leBytes 4 code ++ leBytes 8 detail ++ leBytes 8 cycle

/-- Free bytes, for a ring whose contents are undefined (R408). -/
def State.freeBytes (s : State) (site n : Nat) : List Byte := (List.range n).map fun i => Config.freeByte s.tick (site + i)

/-- Append 32 bytes to an event queue (R407). -/
def State.append (s : State) (e : Nat) (bs : List Byte) : State :=
  let q := (nget s.host.evqs e).getD {}
  let put (q : Evq) := s.modHost fun h => { h with evqs := nset h.evqs e q }
  if !q.en || (q.tail - q.head).toNat == 2 ^ q.lcnt then put { q with drop := q.drop + 1 }
  else
    let bs := if q.undef then s.freeBytes 0x7200000 32 else bs
    let s := put { q with tail := q.tail + 1 }
    (s.setMem (s.mem.writeN (hostBase + q.base + 32 * (q.tail.toNat % 2 ^ q.lcnt)) bs)).send (.msix q.vec)

/-- Append an event (R407). -/
def State.event (s : State) (e kind queue ctx code detail : Nat) : State :=
  s.append e (eventBytes kind queue ctx code detail s.cycle)

/-- The number that names no queue or no context in an event. -/
def none32 : Nat := 0xFFFFFFFF

/-- The head of a debug record (R414). -/
def debugHead (kind core slot ctx cycle : Nat) : List Byte :=
  leBytes 2 kind ++ leBytes 1 core ++ leBytes 1 slot ++ leBytes 4 ctx ++ leBytes 8 cycle

/-- Append a debug record by the procedure of R407 (R414). -/
def State.debugRecord (s : State) (kind core slot ctx : Nat) (body : List Byte) : State :=
  let d := s.dbg
  if !d.en || (d.tail - d.head).toNat == 2 ^ d.lcnt then s.modDbg fun d => { d with drop := d.drop + 1 }
  else
    let bs := debugHead kind core slot ctx s.cycle ++ (body ++ leBytes 48 0).take 48
    let s := s.modDbg fun d => { d with tail := d.tail + 1 }
    (s.setMem (s.mem.writeN (hostBase + d.drbase + 64 * (d.tail.toNat % 2 ^ d.lcnt)) bs)).send (.msix d.vec)

/-- Put a record into the post queue (R258). While the loop is DOWN it is discarded (R385). -/
def State.post (s : State) (ty arg len : Nat) (payload : List Byte) (who : PostBy) (ctx : Nat) : State :=
  if s.loop.st = .down then s
  else s.modLoop fun l =>
    { l with postq := l.postq ++ [⟨⟨ty, arg, 0, s.pkgid, len, (payload ++ leBytes 48 0).take 48⟩, who, ctx⟩] }

/-- The queue that started a grid, if a user queue did. -/
def GridSrc.queue : GridSrc → Option Nat
  | .packet q _ => some q
  | .node q _ _ => some q
  | _ => none

/-- The event queue a grid's events go to: its user queue's, or the system event queue. -/
def State.evqOf (s : State) (src : GridSrc) : Nat :=
  match src.queue with
  | some q => match nget s.sched.queues q with
    | some u => u.evq
    | none => 0
  | none => 0

def State.modQueue (s : State) (q : Nat) (f : Uq → Uq) : State := s.modSched fun d => { d with queues := nmod d.queues q f }
def State.modSlot (s : State) (k : Nat) (f : Slot → Slot) : State := s.modSched fun d => { d with slots := nmod d.slots k f }

/-! Slices (R312, R313). -/

/-- Weight of a queue (R312). -/
def Uq.weight (u : Uq) : Nat := 8 - u.prio

def State.uq (s : State) (q : Nat) : Uq := (nget s.sched.queues q).getD default

/-- The sum of the weights of the ACTIVE slots. -/
def State.weights (s : State) : Nat := ((s.sched.slots.filter fun x => x.2.st == .active).map fun x => (s.uq x.2.queue).weight).sum

/-- The share of a slot, in millionths (R312). A slot that is not ACTIVE as its slice ends is counted among those that are (DESIGN CHOICE,
notes/assumptions/72.md). -/
def State.share (s : State) (k : Slot) : Nat :=
  let w := (s.uq k.queue).weight
  w * 1000000 / max 1 (if k.st = .active then s.weights else s.weights + w)

/-- A slice ends: the queue keeps its energy and its share (R313). -/
def State.endSlice (s : State) (k : Nat) : State :=
  match nget s.sched.slots k with
  | none => s
  | some x =>
    let sh := s.share x
    (s.modQueue x.queue fun u => { u with hist := ((x.sliceEnergy, sh) :: u.hist).take 16 }).modSlot k
      fun x => { x with used := 0, sliceEnergy := 0, capped := false }

/-- The slot a queue is mapped to. -/
def State.slotOf (s : State) (q : Nat) : Option Nat := (s.sched.slots.find? fun x => x.2.queue == q).map (·.1)

end Sys2Proof.Machine
end

