-- ==== Sys2Proof/Machine/QTab.lean ====
section
/-! DEFINITION. Live queues: descriptors, the queue table, rings and slots (08_isa_queues_matrix_drain.md R212 to R220,
R223). -/

namespace Sys2Proof.Machine

/-- a - b modulo 2^32. -/
def sub32 (a b : Nat) : Nat := (a + 2 ^ 32 - b % 2 ^ 32) % 2 ^ 32

/-- Entries in the ring, or filled slots. -/
def LiveQ.used (q : LiveQ) : Nat := if q.kind = 3 then sub32 q.c1 q.c2 else sub32 q.c0 q.c1

/-- Team-window offset of entry or slot c. -/
def LiveQ.entryOff (q : LiveQ) (c : Nat) : Nat := q.base + (c % q.count) * q.size

/-- A descriptor as read from memory. -/
def liveOfBytes (b : List Byte) : LiveQ :=
  let w (i : Nat) := leNat ((b.drop (4 * i)).take 4)
  ⟨w 0, w 1, w 2, w 3, w 4, w 5, bitOf (w 6) 0, []⟩

/-- A descriptor's bytes as a write-back stores them (R215). -/
def LiveQ.bytes (q : LiveQ) : List Byte :=
  leBytes 4 q.base ++ leBytes 4 q.shape ++ leBytes 4 q.c0 ++ leBytes 4 q.c1 ++ leBytes 4 q.c2 ++ leBytes 4 q.c3 ++
    leBytes 4 (natOf q.closed) ++ leBytes 4 0

/-- A valid descriptor (R214). -/
def validDescriptor (sp : Nat) (b : List Byte) : Bool :=
  let q := liveOfBytes b
  let w (i : Nat) := leNat ((b.drop (4 * i)).take 4)
  let esz := bitsOf q.shape 3 0
  decide (q.shape < 1024) && decide (bitsOf q.shape 7 4 ≤ 12) && decide (w 6 < 2) && w 7 == 0 &&
  (match q.kind with
   | 0 => esz == 7
   | 3 => decide (2 ≤ esz) && decide (esz ≤ 14)
   | _ => esz == 2) &&
  decide (q.base + q.count * q.size ≤ sp) && q.base % q.size == 0 &&
  (if q.kind = 3 then
     decide (sub32 q.c1 q.c2 + sub32 q.c0 q.c1 + sub32 q.c2 q.c3 ≤ q.count)
   else decide (sub32 q.c0 q.c1 ≤ q.count) && q.c2 == 0 && q.c3 == 0)

def State.liveQ (s : State) (tid desc : Nat) : Option LiveQ := nget (s.team tid).queues desc
def State.modQ (s : State) (tid desc : Nat) (f : LiveQ → LiveQ) : State :=
  s.modTeam tid fun t => { t with queues := nmod t.queues desc f }

/-- A team that has ended. Its cluster may still reach its scratchpad. -/
def State.hasEnded (s : State) (tid : Nat) : Bool := (s.grid (s.team tid).grid).ended.contains (s.team tid).teamid

/-- The strands of a team. -/
def State.teamStrands (s : State) (tid : Nat) : List (Nat × Strand) := s.strands.filter fun x => x.2.team == tid

/-- Make a queue live from its descriptor, for a strand whose earlier stores the read observes (R222). -/
def State.makeLive (s : State) (tid desc : Nat) (m : Memory) : State :=
  let t := s.team tid
  if nhas t.queues desc then s
  else s.modTeam tid fun t => { t with queues := nset t.queues desc (liveOfBytes (m.readN (t.phys desc) 32)) }

/-- A descriptor can be made live by the team: it is valid and the team holds fewer than 16 (R215, R222). -/
def State.canLive (s : State) (tid desc : Nat) (m : Memory) : Bool :=
  let t := s.team tid
  nhas t.queues desc ||
  (validDescriptor (s.grid t.grid).kd.spSize (m.readN (t.phys desc) 32) && decide (t.queues.length < 16))

/-- Something refers to the queue (R215). -/
def State.queueUsed (s : State) (tid desc : Nat) : Bool :=
  (s.teamStrands tid).any (fun x => x.2.ports.any fun p => p.2.desc == desc) ||
  (match s.liveQ tid desc with
   | some q => !q.engines.isEmpty
   | none => false)

/-- A store without what it writes to bytes lo to hi - 1. -/
def PendStore.without (x : PendStore) (lo hi : Nat) : PendStore :=
  { x with
    cells := x.cells.filter fun c => !(decide (lo ≤ c.1) && decide (c.1 < hi))
    rmws := x.rmws.filter fun r => !(decide (lo ≤ r.addr) && decide (r.addr < hi)) }

/-- Write a live queue back into its descriptor (R215). Stores to the descriptor that are still to be performed are lost with it. -/
def State.writeBack (s : State) (tid desc : Nat) (q : LiveQ) : State :=
  let a := (s.team tid).phys desc
  let hits (x : PendStore) : Bool := x.cells.any (fun c => decide (a ≤ c.1) && decide (c.1 < a + 32)) ||
    x.rmws.any fun r => decide (a ≤ r.addr) && decide (r.addr < a + 32)
  let lose (xs : List PendStore) : List PendStore := if xs.any hits then xs.map (·.without a (a + 32)) else xs
  { s.setMem (s.mem.writeN a q.bytes) with
    strands := nall s.strands fun _ st => { st with fl := { st.fl with stores := lose st.fl.stores } }
    orphans := s.orphans.map fun o => if hits o.store then { o with store := o.store.without a (a + 32) } else o }

/-- End liveness where the last reference has ended: write back (R215). -/
def State.settleQueue (s : State) (tid desc : Nat) : State :=
  if s.queueUsed tid desc then s
  else match s.liveQ tid desc with
    | none => s
    | some q => (s.writeBack tid desc q).modTeam tid fun t => { t with queues := ndel t.queues desc }

/-- An engine starts or stops referring to a queue. -/
def State.refEngine (s : State) (tid desc e : Nat) : State := s.modQ tid desc fun q => { q with engines := e :: q.engines }
def State.unrefEngine (s : State) (tid desc e : Nat) : State :=
  (s.modQ tid desc fun q => { q with engines := q.engines.erase e }).settleQueue tid desc

/-- Entries a push latch holds. -/
def LiveQ.entriesIn (q : LiveQ) (latch : List Word) : Nat :=
  if q.kind = 0 then (if latch.isEmpty then 0 else 1) else latch.length

/-- Entries held in the latches of every port bound to the queue and of the drain units that push to it (R218). -/
def State.latched (s : State) (tid desc : Nat) (q : LiveQ) : Nat :=
  ((s.teamStrands tid).map fun x => (x.2.ports.map fun p =>
    if p.2.desc = desc then q.entriesIn (p.2.latch.getD []) else 0).sum).sum +
  ((s.core (s.team tid).core).dre.units.map fun u =>
    if ((nget (s.core (s.team tid).core).mx u.tok).map (·.team)) = some tid then
      (u.pushes.map fun p => if p.1 = desc then q.entriesIn p.2 else 0).sum
    else 0).sum

/-- A push of n entries has room (R218). -/
def State.hasRoom (s : State) (tid desc n : Nat) : Bool :=
  match s.liveQ tid desc with
  | none => false
  | some q => decide (q.used + s.latched tid desc q + n ≤ q.count)

/-- Entries one push or pop of an active set takes (R217). -/
def LiveQ.per (q : LiveQ) (active : Nat) : Nat := if q.kind = 1 then active else 1

/-- The words of an entry in the ring. -/
def State.entryWords (s : State) (tid : Nat) (q : LiveQ) (c : Nat) : List Word :=
  let a := (s.team tid).phys (q.entryOff c)
  (List.range (q.size / 4)).map fun i => BitVec.ofNat 32 (s.mem.readLe (a + 4 * i) 4)

/-- Put words into an entry of the ring. -/
def State.putEntry (s : State) (tid : Nat) (q : LiveQ) (c : Nat) (ws : List Word) : State :=
  s.setMem (s.mem.writeN ((s.team tid).phys (q.entryOff c)) (ws.flatMap fun w => leBytes 4 w.toNat))

/-- A pop of an active set can be satisfied (R218, R220). -/
def LiveQ.canPop (q : LiveQ) (active : Nat) : Bool := q.closed || decide (q.per active ≤ q.used)

/-- Pop for an active set (R217, R220): the value of each lane, and the queue after. -/
def State.popQ (s : State) (tid desc : Nat) (lanes : List Nat) : NMap Word × State :=
  match s.liveQ tid desc with
  | none => ([], s)
  | some q =>
    let n := min (q.per lanes.length) q.used
    let after := s.modQ tid desc fun q => { q with c1 := (q.c1 + n) % 2 ^ 32 }
    let vals :=
      if q.kind = 1 then lanes.zipIdx.map fun (l, i) => (l, if i < n then (s.entryWords tid q (q.c1 + i)).headD 0 else 0)
      else
        let ws := if n = 0 then [] else s.entryWords tid q q.c1
        lanes.map fun l => (l, if q.kind = 0 then ws.getD l 0 else ws.headD 0)
    (vals, after)

/-- The words a push of an active set puts into the latch (R217). -/
def LiveQ.pushWords (q : LiveQ) (vals : NMap Word) : List Word :=
  match q.kind with
  | 0 => (List.range 32).map fun l => (nget vals l).getD 0
  | 1 => vals.map (·.2)
  | _ => (vals.map (·.2)).take 1

/-- Write latched words into the ring and advance TAIL (R219). -/
def State.writePush (s : State) (tid desc : Nat) (ws : List Word) : State :=
  match s.liveQ tid desc with
  | none => s
  | some q =>
    let s := if q.kind = 0 then s.putEntry tid q q.c0 ws
      else ws.zipIdx.foldl (fun s w => s.putEntry tid q (q.c0 + w.2) [w.1]) s
    s.modQ tid desc fun q => { q with c0 := (q.c0 + q.entriesIn ws) % 2 ^ 32 }

/-! Slots (R223): ALLOC, POST, TAKE, GIVE are c0 to c3. -/

def LiveQ.canAlloc (q : LiveQ) : Bool := decide (sub32 q.c0 q.c3 < q.count)
def LiveQ.canTake (q : LiveQ) : Bool := q.c1 != q.c2

end Sys2Proof.Machine
end

