-- ==== Sys2Proof/Machine/CopyEng.lean ====
section
/-! DEFINITION. The copy engine: descriptors, the reach of its rows, and performing a row (09_isa_async_system.md R249 to
R255). -/

namespace Sys2Proof.Machine

/-- A copy descriptor's fields (R249). -/
structure CpDesc where
  src : Nat
  dst : Nat
  rowBytes : Nat
  rows : Nat
  spitch : Nat
  dpitch : Nat
  ctrl : Nat
  fill : Nat
  index : Nat
  sstep : Nat
  nslot : Nat
  rsv : Nat
  deriving DecidableEq, Repr, Inhabited

def cpDesc (b : List Byte) : CpDesc :=
  let w (o n : Nat) := leNat ((b.drop o).take n)
  ⟨w 0 8, w 8 8, w 16 4, w 20 4, w 24 4, w 28 4, w 32 4, w 36 4, w 40 8, w 48 8, w 56 4, w 60 4⟩

def CpDesc.ssp (d : CpDesc) : Nat := bitsOf d.ctrl 1 0
def CpDesc.dsp (d : CpDesc) : Nat := bitsOf d.ctrl 3 2

/-- Team-window offset of a cluster-window offset within the team that owns it (R38), as team and offset. -/
def State.cluster (s : State) (tid off : Nat) : Option (Nat × Nat) :=
  let t := s.team tid
  let sp := (s.grid t.grid).kd.spSize
  let st := cluStride sp
  match t.cluster[off / st]? with
  | some c => if off % st < sp then some (c, off % st) else none
  | none => none

/-- A range of a window space lies inside it (R37, R38). -/
def State.windowRange (s : State) (tid space off n : Nat) : Bool :=
  if space = 1 then teamRange (s.grid (s.team tid).grid).kd off n
  else (pageParts off n).all fun p => match s.cluster tid p.1 with
    | some (_, o) => decide (o + p.2 ≤ (s.grid (s.team tid).grid).kd.spSize)
    | none => false

/-- Where a window offset lies. -/
def State.windowPhys (s : State) (tid space off : Nat) : Nat :=
  if space = 1 then (s.team tid).phys off
  else match s.cluster tid off with
    | some (c, o) => (s.team c).phys o
    | none => 0

/-- The physical parts of a range of a window, between multiples of 64 KiB. -/
def State.windowParts (s : State) (tid space off n : Nat) : List XPart :=
  (pageParts off n).map fun p => ⟨p.1, s.windowPhys tid space p.1, p.2, default⟩

/-- Why an engine's access fails: cause and address. -/
abbrev EngFault := Nat × Nat

/-- An engine may reach a region (R187, R252, R357). -/
def engineReach (sys : Bool) (pa : Nat) (need : Need) : Option Nat :=
  match regionOf pa with
  | .tier1 | .tier2 | .host => none
  | .locket => if need = .write then some 0x21 else none
  | .control => if sys then none else some 0x32
  | .nowhere => some 0x32

/-- The physical parts of a range in a space (R186 orders 2 and 5 to 7, R254), page by page. -/
def State.enginePart (s : State) (tid space addr n : Nat) (need : Need) (site : Nat) : Except EngFault (List XPart) :=
  if space = 0 then
    if addr / 2 ^ 56 % 256 ≠ 0 then .error (0x32, addr)
    else
      let t := s.team tid
      (pageParts addr n).foldr (fun p acc =>
        match s.xlate s.mem (s.grid t.grid).ctx t.core p.1 need (site + p.1) with
        | .error e => .error (e.cause, p.1)
        | .ok x =>
          match engineReach (s.ctx (s.grid t.grid).ctx).sys x.pa need with
          | some c => .error (c, p.1)
          | none => match acc with
            | .error e => .error e
            | .ok r => .ok (⟨p.1, x.pa, p.2, x⟩ :: r)) (.ok [])
  else if s.windowRange tid space addr n then .ok (s.windowParts tid space addr n)
  else .error (0x30, addr)

/-- Set A and D for the parts of a virtual range. -/
def State.enginePartUse (s : State) (tid space : Nat) (need : Need) (ps : List XPart) : State :=
  if space = 0 then
    let s := s.useParts (s.grid (s.team tid).grid).ctx (s.team tid).core need ps
    if need = .read then ps.foldl (fun s p => s.noteRead p.pa p.len) s else s
  else s

/-- A byte as an engine reads it for a context: a live queue's is undefined (R215). -/
def State.engineByte (s : State) (ctx pa : Nat) : Byte :=
  if s.liveByte pa then Config.freeByte s.tick (0x7800000 + pa)
  else if regionOf pa = .locket then s.locketByte ctx pa else s.mem.read pa

/-- The bytes of translated parts as an engine reads them for a context; those of a control register are read as they stand. -/
def State.partBytes (s : State) (ctx : Nat) (ps : List XPart) : List Byte :=
  ps.flatMap fun p => if regionOf p.pa = .control then s.physBytes p.pa p.len
    else (List.range p.len).map fun i => s.engineByte ctx (p.pa + i)

/-- The context of a team. -/
def State.teamCtx (s : State) (tid : Nat) : Nat := (s.grid (s.team tid).grid).ctx

/-- Cells of bytes laid over parts. -/
def partCells : List XPart → List Byte → List Host.Cell
  | [], _ => []
  | p :: ps, bs => cellsAt p.pa (bs.take p.len) ++ partCells ps (bs.drop p.len)

/-- The address of row r, of a space's width. -/
def rowAddr (space base r pitch : Nat) : Nat := if space = 0 then (base + r * pitch) % 2 ^ 64 else (base + r * pitch) % 2 ^ 32

/-- The source address of row r (R250); `cp.gather` reads its index at once. -/
def State.srcRow (s : State) (c : CpTok) (d : CpDesc) (r slot : Nat) : Nat :=
  match c.form with
  | 2 =>
    let idx := leNat (s.partBytes (s.teamCtx c.team) (s.windowParts c.team 1 (d.index % 2 ^ 32 + 4 * r) 4))
    rowAddr d.ssp d.src idx d.spitch
  | 3 => rowAddr d.ssp (d.src + slot * d.sstep) r d.spitch
  | _ => rowAddr d.ssp d.src r d.spitch

/-- The source bytes of a whole copy, of every slot of `cp.q`, overlap a byte (R252). -/
def State.overlaps (s : State) (c : CpTok) (d : CpDesc) (pa : Nat) : Bool :=
  c.form != 1 && (List.range (if c.form = 3 then d.nslot else 1)).any fun slot => (List.range d.rows).any fun r =>
    match s.enginePart c.team d.ssp (s.srcRow c d r slot) d.rowBytes .read 0x7300000 with
    | .ok ps => ps.any fun p => decide (p.pa ≤ pa) && decide (pa < p.pa + p.len)
    | .error _ => false

def State.modCp (s : State) (core tok : Nat) (f : CpTok → CpTok) : State :=
  s.modCore core fun c => { c with cp := nmod c.cp tok f }

/-- The bytes a copy reads: those it has itself written over are read as they were (R252: only the bytes of its destination that overlap
its sources are undefined). -/
def State.copySource (s : State) (ctx : Nat) (orig : NMap Byte) (ps : List XPart) : List Byte :=
  if orig.isEmpty then s.partBytes ctx ps
  else (ps.flatMap fun p => (List.range p.len).map (p.pa + ·)).zip (s.partBytes ctx ps) |>.map fun x => (nget orig x.1).getD x.2

/-- Write a copy's bytes: where they overlap its own sources they are undefined, and what stood there is kept for its reads. -/
def State.copyWrite (s : State) (core tok : Nat) (c : CpTok) (d : CpDesc) (cells : List Host.Cell) : State :=
  let hit := cells.filter fun x => s.overlaps c d x.1
  let was := hit.map fun x => (x.1, s.engineByte (s.teamCtx c.team) x.1)
  let s' := if hit.isEmpty then s
    else s.modCp core tok fun c => { c with orig := was.foldl (fun m x => if nhas m x.1 then m else nset m x.1 x.2) c.orig }
  s'.engineCells core (cells.map fun x => if hit.contains x then (x.1, Config.freeByte s.tick (0x7500000 + x.1)) else x)

/-- The words of a translated part, whose address and length are multiples of 4. -/
def XPart.words (p : XPart) : List XPart := (List.range (p.len / 4)).map fun i => ⟨p.va + 4 * i, p.pa + 4 * i, 4, p.x⟩

/-- Some words of a row's move (R250, R252), by their places in the row: what becomes of memory, or the fault. -/
def State.copyRow (s : State) (tok : Nat) (c : CpTok) (d : CpDesc) (src dspace dst : Nat) (words : List Nat) :
    Except (EngFault × State) State :=
  let t := s.team c.team
  let orig := ((nget (s.core t.core).cp tok).map (·.orig)).getD []
  let pick (ws : List Nat) (ps : List XPart) : List XPart := ws.filterMap fun i => (ps.flatMap XPart.words)[i]?
  let got : Except EngFault ((Nat → List Byte) × State) :=
    if c.form = 1 then .ok (fun _ => leBytes 4 d.fill, s)
    else match s.enginePart c.team d.ssp src d.rowBytes .read 0x7400000 with
      | .error e => .error e
      | .ok ps => .ok (fun i => s.copySource (s.teamCtx c.team) orig (pick [i] ps), s.enginePartUse c.team d.ssp .read (pick words ps))
  match got with
  | .error e => .error (e, s)
  | .ok (word, s) =>
    let finish (ps : List XPart) (ws : List Nat) : State :=
      let parts := pick ws ps
      let s := (s.enginePartUse c.team dspace .write parts).copyWrite t.core tok c d (partCells parts (ws.flatMap word))
      if c.dgon then s.modTeam c.team fun t => t.fold (ws.flatMap fun i => wordItems (digestAddr dspace dst + 4 * i) (word i)) else s
    match s.enginePart c.team dspace dst d.rowBytes .write 0x7600000 with
    | .ok ps => .ok (finish ps words)
    | .error e =>
      -- words below the faulting page may have been written (R254)
      let n := (e.2 - dst) / 4 * 4
      match s.enginePart c.team dspace dst n .write 0x7600000 with
      | .ok ps => .error (e, finish ps (words.filter fun i => decide (4 * i < n) && s.freeB (0x7700000 + i)))
      | .error _ => .error (e, s)

/-- The words of a row that a step moves: all that are left, or one of them (R252, R295: words are unordered). -/
def State.rowWords (s : State) (d : CpDesc) (done : List Nat) (whole : Bool) : List Nat :=
  let left := lessNat (List.range (d.rowBytes / 4)) done
  if whole || s.freeB 0x7900000 then left else [s.freeOf 0x7980000 0 left]

/-- Move on in row r, of a slot for `cp.q`: whether the row is complete, and the state. The source of a row is found at its first word. -/
def State.stepRow (s : State) (core tok : Nat) (c : CpTok) (d : CpDesc) (r slot dspace dst : Nat) (whole : Bool) :
    Except (EngFault × State) (Bool × State) :=
  let (src, done) := (nget c.parts r).getD (s.srcRow c d r slot, [])
  let words := s.rowWords d done whole
  let last := decide (d.rowBytes / 4 ≤ done.length + words.length)
  match s.copyRow tok c d src dspace dst words with
  | .error e => .error e
  | .ok s => .ok (last, s.modCp core tok fun c => { c with parts := if last then ndel c.parts r else nset c.parts r (src, done ++ words) })

/-- ROWDONE after a row is performed: the least row not done. -/
def CpTok.rowDone (c : CpTok) (r rows : Nat) : CpTok :=
  let done := insertNat r c.later
  let rec climb (n : Nat) : Nat → Nat
    | 0 => n
    | f + 1 => if done.contains n then climb (n + 1) f else n
  let n := climb c.rowdone done.length
  { c with rowdone := n, later := done.filter (n < ·), st := if n = rows then .done else .busy }

/-- Stop a token at a fault (R254). -/
def CpTok.stop (c : CpTok) (e : EngFault) : CpTok :=
  { c with st := .stopped, reported := false, cause := e.1, faultAddr := e.2, later := [], parts := [] }

/-- Move on in row r of a BUSY copy that is no `cp.q`. -/
def State.stepCopy (s : State) (core tok r : Nat) (whole : Bool) : State :=
  match nget (s.core core).cp tok with
  | none => s
  | some c =>
    let d := cpDesc c.desc
    if c.st != .busy || c.form == 3 || decide (r < c.rowdone) || c.later.contains r || decide (d.rows ≤ r) then s
    else match s.stepRow core tok c d r 0 d.dsp (rowAddr d.dsp d.dst r d.dpitch) whole with
      | .ok (last, s) => if last then s.modCp core tok fun c => c.rowDone r d.rows else s
      | .error (e, s) => s.modCp core tok fun c => c.stop e

/-- Move on in the next slot of a `cp.q` (R255), in one of its rows; a slot that is full is posted. -/
def State.stepCopyQ (s : State) (core tok : Nat) (whole : Bool) : State :=
  match nget (s.core core).cp tok with
  | none => s
  | some c =>
    let d := cpDesc c.desc
    let desc := d.dst % 2 ^ 32
    match s.liveQ c.team desc with
    | none => s
    | some q =>
      if c.st != .busy || c.form != 3 then s
      else if c.slot.isNone && q.closed then
        (s.modCp core tok fun c => { c with st := .done, qclosed := true }).unrefEngine c.team desc (64 + tok)
      else if c.slot.isNone && !q.canAlloc then s
      else
        let (off, s) := match c.slot with
          | some o => (o, s)
          | none => (q.entryOff q.c0, s.modQ c.team desc fun q => { q with c0 := (q.c0 + 1) % 2 ^ 32 })
        let r := s.freeOf 0x7A00000 0 (lessNat (List.range d.rows) c.later)
        match s.stepRow core tok c d r c.rowdone 1 (off + r * d.dpitch) whole with
        | .error (e, s) => s.modCp core tok fun c => { c.stop e with slot := some off }
        | .ok (last, s) =>
          let later := if last then insertNat r c.later else c.later
          if later.length < d.rows then s.modCp core tok fun c => { c with slot := some off, later := later }
          else
            let s := s.modQ c.team desc fun q => { q with c1 := (q.c1 + 1) % 2 ^ 32 }
            let fin := decide (c.rowdone + 1 = d.nslot)
            let s := s.modCp core tok fun c =>
              { c with rowdone := c.rowdone + 1, later := [], slot := none, st := if fin then .done else .busy }
            if fin then s.unrefEngine c.team desc (64 + tok) else s

/-- Run a BUSY copy until it is DONE or STOPPED, or waits for a queue (R253, R423); each round moves a row. -/
def State.runCopy (s : State) (core tok : Nat) : Nat → State
  | 0 => s
  | n + 1 =>
    match nget (s.core core).cp tok with
    | none => s
    | some c =>
      if c.st = .busy then
        (if c.form = 3 then s.stepCopyQ core tok true else s.stepCopy core tok c.rowdone true).runCopy core tok n
      else s

/-- Rounds that a copy can take. -/
def CpTok.rounds (c : CpTok) : Nat :=
  let d := cpDesc c.desc
  if c.form = 3 then (d.nslot - c.rowdone) * d.rows + 1 else d.rows - c.rowdone

/-- Every BUSY copy of some teams runs to its end. -/
def State.drainCopies (s : State) (core : Nat) (teams : List Nat) : State :=
  ((s.core core).cp).foldl (fun s (k, c) => if teams.contains c.team then s.runCopy core k c.rounds else s) s

/-- The status word of a copy token (R254). -/
def CpSt.code : CpSt → Nat
  | .busy => 1 | .done => 2 | .stopped => 3
def CpTok.status (c : CpTok) : Word := BitVec.ofNat 32 (c.rowdone * 2048 + natOf c.qclosed * 1024 + c.st.code)

/-! What the drain engine stores. -/

/-- Drain stores are performed, and folded where the operation was issued with DGON (R269). -/
def State.drainStores (s : State) (core : Nat) (t : MxTok) (xs : List (List Host.Cell × List (Nat × Nat × Nat))) : State :=
  let s := s.engineCells core (xs.flatMap (·.1))
  if t.dgon then s.modTeam t.team fun tm => tm.fold ((xs.flatMap (·.2)).map fun d => ⟨d.1, d.2.1, d.2.2⟩) else s

/-- Stores of a list of which each is either performed or not. -/
def State.someStores {α : Type} (s : State) (site : Nat) (xs : List α) : List α :=
  xs.zipIdx.filterMap fun (x, i) => if s.freeB (site + i) then some x else none

end Sys2Proof.Machine
end

