-- ==== Sys2Proof/Machine/Fetch.lean ====
section
/-! DEFINITION. Fetching code: lines, their headers, sequential successors and the check of transfer targets
(03_fetch_and_formats.md R77 to R83, R442; 10_memory_model.md R300). -/

namespace Sys2Proof.Machine

/-- The start word of quad q (R77). -/
def startWord (q : Nat) : Nat := if q = 0 then 1 else 4 * q

/-- The quad whose start word is w. -/
def quadOf (w : Nat) : Option Nat := if w = 1 then some 0 else if w % 4 = 0 ∧ 0 < w ∧ w < 32 then some (w / 4) else none

def lineSmap (line : List Word) : Nat := bitsOf (line.getD 0 0).toNat 7 0
def lineTmap (line : List Word) : Nat := bitsOf (line.getD 0 0).toNat 15 8
def wordAt (line : List Word) (w : Nat) : Nat := (line.getD w 0).toNat
/-- COUNT of a header (R84). -/
def hdrCount (h : Nat) : Nat := h % 16

/-- A line fetched at a virtual address is well formed (R79). -/
def lineOk (va : Nat) (line : List Word) : Bool :=
  let h := wordAt line 0
  bitsOf h 31 24 == 0 && bitsOf h 23 16 == bitsOf va 14 7 &&
  (List.range 8).all fun q =>
    let marked := bitOf (lineSmap line) q
    (!bitOf (lineTmap line) q || marked) &&
    (!marked ||
      (let n := hdrCount (wordAt line (startWord q))
       (n == 0 || decide (startWord q + n ≤ 31)) &&
       (List.range q).all fun p => !bitOf (lineSmap line) p || decide (startWord p + hdrCount (wordAt line (startWord p)) < startWord q)))

/-- The sequential successor of a clause at word w of count n in a line at va (R81). A count-0 header is skipped by rule 3 there
whatever its other fields hold; check 2 of R105 meets them only where a transfer names that header (DESIGN CHOICE,
notes/assumptions/20.md). -/
def seqSucc (va : Nat) (line : List Word) (w n : Nat) : Nat :=
  match (List.range 8).find? fun q => bitOf (lineSmap line) q && decide (w + n < startWord q) with
  | some q => if hdrCount (wordAt line (startWord q)) = 0 then va + 128 + 4 else va + 4 * startWord q
  | none => va + 128 + 4

/-- A fetch's failure: cause and SUB. -/
abbrev FetchErr := Nat × Nat

/-- Fetch the line at a virtual address for a strand: its words, each the buffered one or memory's (R300). The spec names no
cause for an executable page that maps to the control region or to no region: XLATE 0x20 with SUB bit 7 (DESIGN CHOICE,
notes/assumptions/21.md). -/
def State.fetchLine (s : State) (sid : Nat) (va : Nat) : Except FetchErr (List Word) × State :=
  let st := s.str sid
  let ctx := (s.gridOf sid).ctx
  match s.xlate (s.walkMem sid) ctx st.core va .exec (0x2000000 + va) with
  | .error e => (.error (e.cause, e.sub true), s)
  | .ok x =>
    match regionOf x.pa with
    | .nowhere | .control => (.error (0x20, 0x80), s)
    | _ =>
      let mem : List Word := (List.range 32).map fun i => BitVec.ofNat 32 (s.mem.readLe (x.pa + 4 * i) 4)
      let line := match nget (s.core st.core).ibuf x.pa with
        | none => mem
        | some old => if old = mem then mem
          else (List.range 32).map fun i => s.freeOf (0x2200000 + i) 0
            (if old.getD i 0 = mem.getD i 0 then [mem.getD i 0] else [old.getD i 0, mem.getD i 0])
      (.ok line, (s.useXlatOf sid va x .exec).modCore st.core fun c => { c with ibuf := nset c.ibuf x.pa line })

/-- Where a transfer to a target ends. -/
inductive Target where
  | ok
  | bad                    -- ILL 0x03 (R82)
  | fault (e : FetchErr)   -- the line's fetch faults (R442)
  deriving DecidableEq, Repr, Inhabited

/-- Check a target (R82, R165): SMAP, and TMAP but for `ret`. -/
def State.target (s : State) (sid : Nat) (tgt : Word64) (tmap : Bool) : Target × State :=
  let a := tgt.toNat
  if 2 ^ 56 ≤ a ∨ a % 4 ≠ 0 then (.bad, s)
  else match quadOf (a % 128 / 4) with
    | none => (.bad, s)
    | some q =>
      match s.fetchLine sid (a / 128 * 128) with
      | (.error e, s) => (.fault e, s)
      | (.ok line, s) => (if bitOf (lineSmap line) q && (!tmap || bitOf (lineTmap line) q) then .ok else .bad, s)

/-! Places in a clause. -/

/-- The address of the word at hand. -/
def RunPath.wordPc (p : RunPath) : Word64 := p.hdrAddr + BitVec.ofNat 64 (4 * p.pos)

/-- The word that a path executes is one that samplers follow. -/
def Tag.follows (t : Tag) (sid : Nat) (p : RunPath) : Bool :=
  t.strand == sid && t.status.isNone && t.word.any fun w => w.1 == p.wordPc && p.lanes.any ((lanesOf w.2.2.1).contains ·)

/-- This step executes a path's word: the samplers that follow it. -/
def State.follow (s : State) (sid : Nat) (p : RunPath) : State :=
  if s.dbg.tags.isEmpty then s
  else s.modDbg fun d => { d with following := (d.tags.filter fun t => t.2.follows sid p).map (·.1) }

/-- The recorded PC of a trap at the word at hand: its prefix if it has one (R102). -/
def RunPath.recPc (p : RunPath) : Word64 := if p.pfx.isSome then p.wordPc - 4 else p.wordPc

def RunPath.count (p : RunPath) : Nat := hdrCount p.hdr.toNat

/-- Where a lane goes at the end of the clause without a loop step or a transfer. A lane whose `loop` count was zero goes past the
loop's end clause also where a branch that it does not take follows in the clause: R166 gives that lane the clause's successor,
R171 the end clause's (DESIGN CHOICE, notes/assumptions/22.md). -/
def RunPath.out (p : RunPath) (l : Nat) : Word64 := (nget p.skips l).getD p.nxt

/-- A lane's next PC: the next word's, or its way out of the clause after the last. -/
def RunPath.nextPc (p : RunPath) (l : Nat) : Word64 := if p.pos < p.count then p.wordPc + 4 else p.out l

/-- The recorded PC of a thread in a path that waits (R356). -/
def WaitPath.pc (w : WaitPath) (l : Nat) : Word64 :=
  match w.on with
  | .mask _ => w.path.hdrAddr
  | .switch => if w.path.pos ≤ w.path.count then w.path.recPc else w.path.out l
  | .leave taken => (nget taken l).getD (w.path.out l)
  | _ => w.path.recPc

/-- The recorded PC of a live thread wherever it stands. -/
def State.pcOf (s : State) (sid l : Nat) : Word64 :=
  let st := s.str sid
  match st.waits.find? (·.path.lanes.contains l) with
  | some w => w.pc l
  | none => match s.runs.find? fun r => r.strand == sid && r.path.lanes.contains l with
    | some r => r.path.recPc
    | none => (st.th l).pc

end Sys2Proof.Machine
end

