-- ==== Sys2Proof/Machine/Fp.lean ====
section
/-! DEFINITION. Number formats and exact arithmetic (02_number_formats.md R46 to R64): a value is an exact fraction, an
infinity or NaN; every operation is computed exactly and rounded once. -/

namespace Sys2Proof.Machine

/-- A value of a floating-point format: NaN, an infinity, or the exact fraction n / d with its sign (zeros keep theirs). -/
inductive Ext where
  | nan
  | inf (neg : Bool)
  | fin (neg : Bool) (n d : Nat)
  deriving DecidableEq, Repr

/-- A binary format (R46): width, precision p with the leading bit, exponent of the smallest subnormal, the magnitude code
of the largest finite value, whether an infinity follows it, and the default NaN. -/
structure Fmt where
  width : Nat
  p : Nat
  qmin : Int
  maxFin : Nat
  hasInf : Bool
  nan : Nat
  deriving DecidableEq, Repr

def Fmt.f32 : Fmt := ⟨32, 24, -149, 0x7F7FFFFF, true, 0x7FC00000⟩
def Fmt.f16 : Fmt := ⟨16, 11, -24, 0x7BFF, true, 0x7E00⟩
def Fmt.bf16 : Fmt := ⟨16, 8, -133, 0x7F7F, true, 0x7FC0⟩
def Fmt.e4m3 : Fmt := ⟨8, 4, -9, 0x7E, false, 0x7F⟩
def Fmt.e5m2 : Fmt := ⟨8, 3, -16, 0x7B, true, 0x7E⟩
def Fmt.e2m1 : Fmt := ⟨4, 2, -1, 0x7, false, 0⟩
/-- The ASUM of R71, with its leading bit implied: 30 significant bits, biased exponents to 0x3FE. Which of the NaN images of R71 a
NaN has, SIGN 0 and SIG 0x1000_0000, is DESIGN CHOICE (log 76). -/
def Fmt.asum : Fmt := ⟨40, 30, -539, 0x3FE * 2 ^ 29 + (2 ^ 29 - 1), true, 0x3FF * 2 ^ 29 + 2 ^ 28⟩

/-- The fraction m * 2^e. -/
def scaled (neg : Bool) (m : Nat) (e : Int) : Ext :=
  if e < 0 then .fin neg m (2 ^ e.natAbs) else .fin neg (m * 2 ^ e.natAbs) 1

/-- The value a code has (R46). -/
def Fmt.value (f : Fmt) (code : Nat) : Ext :=
  let neg := bitOf code (f.width - 1)
  let mag := code % 2 ^ (f.width - 1)
  if mag > f.maxFin then
    if f.hasInf && mag == f.maxFin + 1 then .inf neg else .nan
  else
    let h := 2 ^ (f.p - 1)
    let e := mag / h
    if e = 0 then scaled neg (mag % h) f.qmin
    else scaled neg (h + mag % h) (f.qmin + e - 1)

/-- The rounding modes of R56. -/
inductive Rm where
  | rne | rtz | rdn | rup
  deriving DecidableEq, Repr

def rmOf (b : BitVec 2) : Rm :=
  match b.toNat with
  | 0 => .rne | 1 => .rtz | 2 => .rdn | _ => .rup

/-- floor(log2 (n/d)) for n, d > 0. -/
def log2Frac (n d : Nat) : Int :=
  let e : Int := (Nat.log2 n : Int) - Nat.log2 d
  if e < 0 then (if n * 2 ^ e.natAbs < d then e - 1 else e)
  else (if n < d * 2 ^ e.natAbs then e - 1 else e)

/-- n/d divided by 2^q: quotient, remainder and divisor. -/
def quantum (n d : Nat) (q : Int) : Nat × Nat × Nat :=
  let (n', d') := if q < 0 then (n * 2 ^ q.natAbs, d) else (n, d * 2 ^ q.natAbs)
  (n' / d', n' % d', d')

/-- Whether the magnitude steps up from the candidate below, given the remainder rem of divisor d. On a tie RNE goes up
when `odd`. -/
def roundsUp (m : Rm) (neg odd : Bool) (rem d : Nat) : Bool :=
  if rem = 0 then false
  else match m with
    | .rne => decide (2 * rem > d) || (decide (2 * rem = d) && odd)
    | .rtz => false
    | .rdn => neg
    | .rup => !neg

/-- The magnitude code nearest n/d under a mode, or none for overflow (R56): past the largest finite value RTZ never
overflows, RDN only below it and RUP only above it; RNE overflows from largest + half an ulp. -/
def Fmt.roundMag (f : Fmt) (m : Rm) (neg : Bool) (n d : Nat) : Option Nat :=
  if n = 0 then some 0
  else
    let q := max (log2Frac n d - ((f.p : Int) - 1)) f.qmin
    let (k, rem, d') := quantum n d q
    let code := (q - f.qmin).toNat * 2 ^ (f.p - 1) + k
    let code' := code + natOf (roundsUp m neg (code % 2 == 1 || code == f.maxFin) rem d')
    if code' ≤ f.maxFin then some code'
    else match m with
      | .rne => none
      | .rtz => some f.maxFin
      | .rdn => if neg then none else some f.maxFin
      | .rup => if neg then some f.maxFin else none

/-- The code of a sign and a magnitude. -/
def Fmt.signed (f : Fmt) (neg : Bool) (mag : Nat) : Nat := natOf neg * 2 ^ (f.width - 1) + mag

/-- Round once into a format with IEEE overflow (R60): to an infinity. -/
def Fmt.roundNE (f : Fmt) (x : Ext) : Nat :=
  match x with
  | .nan => f.nan
  | .inf s => f.signed s (f.maxFin + 1)
  | .fin s n d =>
    match f.roundMag .rne s n d with
    | some c => f.signed s c
    | none => f.signed s (f.maxFin + 1)

namespace Ext

def isNan : Ext → Bool
  | .nan => true
  | _ => false

def isInf : Ext → Bool
  | .inf _ => true
  | _ => false

def isZero : Ext → Bool
  | .fin _ n _ => n == 0
  | _ => false

def neg : Ext → Ext
  | .nan => .nan
  | .inf s => .inf !s
  | .fin s n d => .fin (!s) n d

def sign : Ext → Bool
  | .nan => false
  | .inf s => s
  | .fin s _ _ => s

/-- The exact product. -/
def mul : Ext → Ext → Ext
  | .nan, _ | _, .nan => .nan
  | .inf a, .inf b => .inf (a != b)
  | .inf a, .fin b n _ => if n = 0 then .nan else .inf (a != b)
  | .fin a n _, .inf b => if n = 0 then .nan else .inf (a != b)
  | .fin a n d, .fin b m e => .fin (a != b) (n * m) (d * e)

/-- The exact sum (R61): an exact zero is +0, except that of two negative zeros. -/
def add : Ext → Ext → Ext
  | .nan, _ | _, .nan => .nan
  | .inf a, .inf b => if a = b then .inf a else .nan
  | .inf a, .fin _ _ _ => .inf a
  | .fin _ _ _, .inf b => .inf b
  | .fin a n d, .fin b m e =>
    let x := n * e
    let y := m * d
    if a = b then .fin a (x + y) (d * e)
    else if x = y then .fin false 0 (d * e)
    else if y < x then .fin a (x - y) (d * e)
    else .fin b (y - x) (d * e)

/-- The exact quotient (R63, fdiv). -/
def div : Ext → Ext → Ext
  | .nan, _ | _, .nan => .nan
  | .inf _, .inf _ => .nan
  | .inf a, .fin b _ _ => .inf (a != b)
  | .fin a _ _, .inf b => .fin (a != b) 0 1
  | .fin a n d, .fin b m e =>
    if m = 0 then (if n = 0 then .nan else .inf (a != b))
    else .fin (a != b) (n * e) (d * m)

/-- a < b on ordered values. -/
def lt : Ext → Ext → Bool
  | .nan, _ | _, .nan => false
  | .inf a, .inf b => a && !b
  | .inf a, .fin _ _ _ => a
  | .fin _ _ _, .inf b => !b
  | .fin a n d, .fin b m e =>
    let x : Int := if a then -((n * e : Nat) : Int) else (n * e : Nat)
    let y : Int := if b then -((m * d : Nat) : Int) else (m * d : Nat)
    decide (x < y)

/-- a = b on ordered values; +0 equals -0 (R148). -/
def eqv (a b : Ext) : Bool := !a.isNan && !b.isNan && !a.lt b && !b.lt a

end Ext

/-- fmin and fmax (R62): NaN wins, and -0 orders below +0. -/
def Fmt.minmax (f : Fmt) (wantMax : Bool) (a b : Nat) : Nat :=
  let x := f.value a
  let y := f.value b
  if x.isNan || y.isNan then f.nan
  else
    let aFirst := x.lt y || (x.isZero && y.isZero && x.sign)
    if aFirst == wantMax then b else a

/-- The operations of R60 on codes of one format. -/
def Fmt.fadd (f : Fmt) (a b : Nat) : Nat := f.roundNE ((f.value a).add (f.value b))
def Fmt.fsub (f : Fmt) (a b : Nat) : Nat := f.roundNE ((f.value a).add (f.value b).neg)
def Fmt.fmul (f : Fmt) (a b : Nat) : Nat := f.roundNE ((f.value a).mul (f.value b))
def Fmt.ffma (f : Fmt) (a b c : Nat) : Nat := f.roundNE (((f.value a).mul (f.value b)).add (f.value c))
def Fmt.fdiv (f : Fmt) (a b : Nat) : Nat := f.roundNE ((f.value a).div (f.value b))

/-- Overflow of a conversion (R57). -/
def Fmt.overflow (f : Fmt) (neg sat : Bool) : Nat :=
  if f.width = 4 then f.signed neg f.maxFin
  else if sat then f.signed neg f.maxFin
  else f.signed neg (f.maxFin + 1)

/-- Conversion of FP32 into a narrower format (R56, R57). -/
def Fmt.convert (f : Fmt) (m : Rm) (sat : Bool) (v : Nat) : Nat :=
  let r := match Fmt.f32.value v with
    | .nan => f.nan
    | .inf s => f.overflow s sat
    | .fin s n d =>
      match f.roundMag m s n d with
      | some c => f.signed s c
      | none => f.overflow s sat
  if f.width = 4 ∧ r % 8 = 0 then 0 else r

/-- Widening to FP32 is exact (R54). -/
def Fmt.widen (f : Fmt) (code : Nat) : Nat := Fmt.f32.roundNE (f.value code)

/-! Integers and FP32 (R156, R161, R152). -/

/-- Rounding of a magnitude n/d to an integer under a mode. -/
def roundInt (m : Rm) (neg : Bool) (n d : Nat) : Nat :=
  let k := n / d
  k + natOf (roundsUp m neg (k % 2 == 1) (n % d) d)

/-- Integer to FP32 (R156). -/
def intToF32 (m : Rm) (x : Int) : Nat :=
  match Fmt.f32.roundMag m (decide (x < 0)) x.natAbs 1 with
  | some c => Fmt.f32.signed (decide (x < 0)) c
  | none => Fmt.f32.nan

/-- FP32 to an integer of a range (R156). -/
def f32ToInt (m : Rm) (sat : Bool) (lo hi : Int) (indef : Nat) (width : Nat) (a : Nat) : Nat :=
  let wrap (x : Int) : Nat := (x % (2 ^ width : Int)).toNat
  match Fmt.f32.value a with
  | .nan => if sat then 0 else indef
  | .inf s => if sat then wrap (if s then lo else hi) else indef
  | .fin s n d =>
    let k : Int := roundInt m s n d
    let v := if s then -k else k
    if lo ≤ v ∧ v ≤ hi then wrap v
    else if sat then wrap (if v < 0 then lo else hi) else indef

def f32ToS32 (m : Rm) (sat : Bool) (a : Nat) : Nat := f32ToInt m sat (-2147483648) 2147483647 0x80000000 32 a
def f32ToN32 (m : Rm) (sat : Bool) (a : Nat) : Nat := f32ToInt m sat 0 4294967295 0xFFFFFFFF 32 a

/-- frint (R161): an integral FP32 value, keeping the sign of zero. -/
def frintCode (m : Rm) (a : Nat) : Nat :=
  match Fmt.f32.value a with
  | .nan => Fmt.f32.nan
  | .inf s => Fmt.f32.roundNE (.inf s)
  | .fin s n d => Fmt.f32.roundNE (.fin s (roundInt m s n d) 1)

/-- fscl (R152): a * 2^s(b), rounded once. Exponents past 1,000 round as 1,000 does. -/
def fsclCode (a : Nat) (b : Int) : Nat :=
  let e := max (-1000) (min 1000 b)
  match Fmt.f32.value a with
  | .fin s n d => Fmt.f32.roundNE (if e < 0 then .fin s n (d * 2 ^ e.natAbs) else .fin s (n * 2 ^ e.natAbs) d)
  | x => Fmt.f32.roundNE x

/-! Facet-8 (R52 to R55, R58). -/

/-- The value of an F8D code (R52). -/
def f8dValue (bias : Int) (code : Nat) : Ext :=
  let s := bitOf code 7
  let pay := code % 128
  if pay = 0 then (if s then .nan else .fin false 0 1)
  else
    let z := 6 - Nat.log2 pay
    let w := 2 ^ (6 - z)
    let j := pay - w
    let e : Int := (z : Int) - 3 + bias
    if e < 0 then .fin s (w + 9 * j) (w * 10 ^ e.natAbs) else .fin s ((w + 9 * j) * 10 ^ e.natAbs) w

/-- The distance of n/d from a payload's magnitude, as a fraction. -/
def f8dDist (bias : Int) (n d pay : Nat) : Nat × Nat :=
  match f8dValue bias pay with
  | .fin _ m e => (((n * e : Nat) : Int) - (m * d : Nat)).natAbs |> fun x => (x, d * e)
  | _ => (n, d)

/-- A payload that counts as even on a tie (R58). -/
def f8dEven (pay : Nat) : Bool := pay % 2 == 0 || pay == 1

/-- The payload nearest n/d (R58). Payload 0 stands for zero, which wins a tie of two even payloads. -/
def f8dNearest (bias : Int) (n d : Nat) : Nat :=
  (List.range 128).foldl (fun best pay =>
    let (x, dx) := f8dDist bias n d pay
    let (y, dy) := f8dDist bias n d best
    if x * dy < y * dx then pay
    else if x * dy = y * dx ∧ f8dEven pay ∧ ¬ f8dEven best then pay
    else best) 0

/-- FP32 into F8D (R58): nearest, saturating. -/
def f8dOfF32 (bias : Int) (v : Nat) : Nat :=
  match Fmt.f32.value v with
  | .nan => 0x80
  | .inf s => natOf s * 128 + 1
  | .fin s n d =>
    let p := f8dNearest bias n d
    if p = 0 then 0 else natOf s * 128 + p

/-- F8D into FP32 (R55). -/
def f32OfF8d (bias : Int) (code : Nat) : Nat := Fmt.f32.roundNE (f8dValue bias code)

/-- A 4-bit decade bias, signed. -/
def biasOf (b : Nat) : Int := if b < 8 then b else (b : Int) - 16

/-! E8M0 (R48, R59, R160). -/

/-- The value of an E8M0 code. -/
def e8m0Value (c : Nat) : Ext := if c = 0xFF then .nan else scaled false 1 ((c : Int) - 127)

/-- cvt.e8m0 (R160). A tie of RNE at 1.5 times 2^127 goes to the code with bit 0 clear, 0xFE, as at every lower power (DESIGN CHOICE,
notes/assumptions/32.md: R160 gives its ties up to 2^127, and R56 would call this one overflow). -/
def e8m0OfF32 (m : Rm) (sat : Bool) (v : Nat) : Nat :=
  match Fmt.f32.value v with
  | .nan => 0xFF
  | .inf s => if s then 0xFF else if sat then 0xFE else 0xFF
  | .fin s n d =>
    if n = 0 then 0
    else if s then 0xFF
    else
      let k := log2Frac n d
      if k < -127 then 0
      else
        let (one, rem, d') := quantum n d k
        let code := (k + 127).toNat
        let code' := code + natOf (roundsUp m false (code % 2 == 1) (rem + (one - 1)) d')
        if code' ≤ 0xFE then code' else if sat then 0xFE else 0xFF

/-- The block scale rule (R59) on a magnitude. -/
def blockScale (emax : Int) (v : Nat) : Nat :=
  match Fmt.f32.value (v % 2 ^ 31) with
  | .nan => 0xFF
  | .inf _ => 0xFF
  | .fin _ n d =>
    if n = 0 then 0
    else
      let e := log2Frac n d - emax + 127
      if e < 0 then 0 else e.toNat

/-! Correctly rounded functions (R63). Roots are exact or bracketed; the others are evaluated in fixed point with 320
fraction bits, far past the precision any FP32 argument needs. -/

/-- floor(sqrt n), one bit at a time from bit k down. -/
def isqrtBits (n : Nat) : Nat → Nat → Nat
  | 0, r => if (r + 1) * (r + 1) ≤ n then r + 1 else r
  | k + 1, r =>
    let c := r + 2 ^ (k + 1)
    isqrtBits n k (if c * c ≤ n then c else r)

def isqrt (n : Nat) : Nat := isqrtBits n (Nat.log2 n / 2 + 1) 0

/-- The square root of n/d as a fraction that rounds as the root does: exact, or strictly between two neighbours of 2^-130. -/
def sqrtFrac (n d : Nat) : Ext :=
  let y := n * 2 ^ 260
  let s := isqrt (y / d)
  if s * s * d = y then .fin false s (2 ^ 130) else .fin false (2 * s + 1) (2 ^ 131)

def fsqrtExt : Ext → Ext
  | .nan => .nan
  | .inf s => if s then .nan else .inf false
  | .fin s n d => if n = 0 then .fin s 0 1 else if s then .nan else sqrtFrac n d

def frsqrtExt : Ext → Ext
  | .nan => .nan
  | .inf s => if s then .nan else .fin false 0 1
  | .fin s n d => if n = 0 then .inf s else if s then .nan else sqrtFrac d n

/-- The fixed-point one: 2^320. -/
def fxOne : Nat := 2 ^ 320

/-- ln 2 in fixed point: the sum of 1 / (k 2^k). -/
def fxLn2Sum : Nat → Nat
  | 0 => 0
  | k + 1 => fxOne / ((k + 1) * 2 ^ (k + 1)) + fxLn2Sum k
def fxLn2 : Nat := fxLn2Sum 330

/-- arctan (1/x) in fixed point: alternating terms 1 / ((2k+1) x^(2k+1)). -/
def fxAtanInv (x : Nat) : Nat → Int
  | 0 => 0
  | k + 1 =>
    let t : Int := (fxOne / ((2 * k + 1) * x ^ (2 * k + 1)) : Nat)
    fxAtanInv x k + (if k % 2 = 0 then t else -t)
/-- pi by Machin's formula. -/
def fxPi : Nat := (16 * fxAtanInv 5 150 - 4 * fxAtanInv 239 50).toNat

/-- The sum of z^k / k! from term number k on, with t the current term. -/
def fxExpTail (z : Nat) : Nat → Nat → Nat → Nat
  | 0, _, t => t
  | j + 1, k, t => t + fxExpTail z j (k + 1) (t * z / fxOne / (k + 1))
/-- exp z for a fixed-point z below 1. -/
def fxExp (z : Nat) : Nat := fxExpTail z 80 0 fxOne

/-- 2^(n/d) or 2^-(n/d). Past exponent 1,000 the result overflows or rounds to zero alike. -/
def fexp2Ext : Ext → Ext
  | .nan => .nan
  | .inf s => if s then .fin false 0 1 else .inf false
  | .fin s n d =>
    let k := n / d
    if k ≥ 1000 then scaled false 1 (if s then -1000 else 1000)
    else if n % d = 0 then scaled false 1 (if s then -(k : Int) else k)
    else
      let f := n % d * fxOne / d
      if s then
        let y := fxExp ((fxOne - f) * fxLn2 / fxOne)
        .fin false y (fxOne * 2 ^ (k + 1))
      else
        let y := fxExp (f * fxLn2 / fxOne)
        .fin false (y * 2 ^ k) fxOne

/-- The sum of t^(2k+1) / (2k+1), the inverse hyperbolic tangent of t. -/
def fxAtanh (t2 : Nat) : Nat → Nat → Nat → Nat
  | 0, _, _ => 0
  | j + 1, k, t => t / (2 * k + 1) + fxAtanh t2 j (k + 1) (t * t2 / fxOne)

/-- log2 of n/d. -/
def flog2Ext : Ext → Ext
  | .nan => .nan
  | .inf s => if s then .nan else .inf false
  | .fin s n d =>
    if n = 0 then .inf true
    else if s then .nan
    else
      let e := log2Frac n d
      let (one, rem, d') := quantum n d e
      let m := (one * d' + rem)  -- n/d = m/d' * 2^e with 1 <= m/d' < 2
      if m = d' then scaled (decide (e < 0)) e.natAbs 0
      else
        let t := (m - d') * fxOne / (m + d')
        let l := 2 * fxAtanh (t * t / fxOne) 110 0 t * fxOne / fxLn2
        let r : Int := e * (fxOne : Int) + l
        .fin (decide (r < 0)) r.natAbs fxOne

/-- Alternating Taylor terms of sine from z^(2k+1) / (2k+1)!. -/
def fxSinTail (z2 : Nat) : Nat → Nat → Nat → Int
  | 0, _, _ => 0
  | j + 1, k, t => (t : Int) - fxSinTail z2 j (k + 1) (t * z2 / fxOne / ((2 * k + 2) * (2 * k + 3)))

/-- sin (pi n/d) of a fraction in 0 to 1/2, as a fraction. -/
def sinQuarter (n d : Nat) : Nat × Nat :=
  if n = 0 then (0, 1)
  else if 2 * n = d then (1, 1)
  else
    let z := n * fxPi / d
    ((fxSinTail (z * z / fxOne) 60 0 z).toNat, fxOne)

/-- sin (pi n/d) for n, d > 0: sign and magnitude. -/
def sinPiFrac (n d : Nat) : Bool × Nat × Nat :=
  let r := n % (2 * d)
  let neg := decide (d ≤ r)
  let r := r % d
  let (a, b) := sinQuarter (if 2 * r ≤ d then r else d - r) d
  (neg, a, b)

def fsinpiExt : Ext → Ext
  | .nan => .nan
  | .inf _ => .nan
  | .fin s n d =>
    if n % d = 0 then .fin s 0 1
    else
      let (neg, a, b) := sinPiFrac n d
      .fin (neg != s) a b

def fcospiExt : Ext → Ext
  | .nan => .nan
  | .inf _ => .nan
  | .fin _ n d =>
    let (neg, a, b) := sinPiFrac (2 * n + d) (2 * d)
    if a = 0 then .fin false 0 1 else .fin neg a b

/-- tanh (n/d) = (1 - u) / (1 + u) with u = exp (-2 n/d); from 64 on it rounds to 1. -/
def ftanhExt : Ext → Ext
  | .nan => .nan
  | .inf s => .fin s 1 1
  | .fin s n d =>
    if n = 0 then .fin s 0 1
    else if n ≥ 64 * d then .fin s 1 1
    else if n * 2 ^ 40 < d then .fin s n d
    else
      let z := 2 * n * fxOne / d
      let k := z / fxLn2
      let u := fxOne * fxOne / fxExp (z % fxLn2) / 2 ^ k
      .fin s (fxOne - u) (fxOne + u)

/-- A function of R63 on an FP32 code. -/
def f32Fn (g : Ext → Ext) (a : Nat) : Nat := Fmt.f32.roundNE (g (Fmt.f32.value a))

/-- The class number of an FP32 value (R149). -/
def fclassOf (a : Nat) : Nat :=
  match Fmt.f32.value a with
  | .nan => 8
  | .inf s => if s then 0 else 7
  | .fin s n _ =>
    if n = 0 then (if s then 3 else 4)
    else if a % 2 ^ 31 < 2 ^ 23 then (if s then 2 else 5)
    else (if s then 1 else 6)

/-! Packed halves, dot products and tree sums. -/

/-- An operation on the two halves of a register (R140). -/
def perHalf (g : Nat → Nat → Nat) (a b : Nat) : Nat :=
  g (a % 65536) (b % 65536) + 65536 * g (a / 65536 % 65536) (b / 65536 % 65536)

def perHalf3 (g : Nat → Nat → Nat → Nat) (a b c : Nat) : Nat :=
  g (a % 65536) (b % 65536) (c % 65536) + 65536 * g (a / 65536 % 65536) (b / 65536 % 65536) (c / 65536 % 65536)

/-- fdot2.bf16 (R153): one rounding of d + lo product + hi product. -/
def fdot2Code (a b d : Nat) : Nat :=
  let v (x : Nat) := Fmt.bf16.value (x % 65536)
  let x := (v a).mul (v b)
  let y := (v (a / 65536)).mul (v (b / 65536))
  let sum := (x.add y).add (Fmt.f32.value d)
  let allNegZero := [x, y, Fmt.f32.value d].all fun t => t.isZero && t.sign
  Fmt.f32.roundNE (match sum with
    | .fin _ 0 e => .fin allNegZero 0 e
    | t => t)

/-- One level of the tree sum of R64. -/
def fsumLevel : List Nat → List Nat
  | a :: b :: rest => Fmt.f32.fadd a b :: fsumLevel rest
  | l => l

/-- The tree sum of R64 on FP32 codes. -/
def fsumTree : Nat → List Nat → Nat
  | 0, l => l.headD 0
  | k + 1, l => fsumTree k (fsumLevel l)

def fsumCode (l : List Nat) : Nat :=
  let r := fsumTree l.length l
  if (Fmt.f32.value r).isNan then Fmt.f32.nan else r

end Sys2Proof.Machine
end

