-- ==== Sys2Proof/Machine/Image.lean ====
section
/-! DEFINITION. The image of a team: its layout (13_traps_preemption.md R365, R366; 12_matrix_engine.md R336), as a save and
as the capture of a dump write it (16_debug_determinism.md R423). -/

namespace Sys2Proof.Machine

/-- SSW (R33). -/
def State.ssw (s : State) (sid : Nat) : Nat :=
  let st := s.str sid
  st.frames.length * 65536 + natOf st.isLead * 32 + natOf (s.ctxOf sid).sys * 16 + natOf st.csr.dgon * 8 +
    natOf st.csr.sstep * 4 + natOf st.csr.dzt

/-- Pad bytes to a multiple of n. -/
def padTo (n : Nat) (bs : List Byte) : List Byte := bs ++ leBytes ((n - bs.length % n) % n) 0

/-- 32 values, one a lane; those without a thread get a default. -/
def Strand.perLane (st : Strand) (n d : Nat) (f : Nat → Thread → Nat) : List Byte :=
  (List.range 32).flatMap fun l => leBytes n (match nget st.lanes l with
    | some t => if t.live then f l t else d
    | none => d)

/-! Registers. -/

/-- The safe-point entries at which a strand's threads stopped. -/
def Strand.stopEntries (st : Strand) (kd : KDesc) : List SafePt :=
  (unionNat (st.liveLanes.map fun l => (st.th l).safeOrd.toNat) []).filterMap (nget kd.safePts)

def State.stopEntries (s : State) (sid : Nat) : List SafePt := (s.str sid).stopEntries (s.gridOf sid).kd

/-- Ascending numbers as runs: first and count. -/
def runsOf : List Nat → List (Nat × Nat)
  | [] => []
  | x :: xs =>
    match runsOf xs with
    | (y, n) :: rest => if x + 1 = y then (x, n + 1) :: rest else (x, 1) :: (y, n) :: rest
    | [] => [(x, 1)]

/-- Accumulator frames of the team's operations, which are saved whole (R336). -/
def State.accFrames (s : State) (tid : Nat) : List Nat :=
  (((s.core (s.team tid).core).mx.filter fun t => t.2.team == tid && t.2.st != .done && t.2.st != .aborted).flatMap fun t =>
    t.2.acc.map (·.frame))

/-- The register ranges an image holds: frame index from the base frame, first register, count. -/
def Strand.imageRanges (st : Strand) (kd : KDesc) (capture : Bool) : List (Nat × Nat × Nat) :=
  let es := st.stopEntries kd
  st.frames.reverse.zipIdx.flatMap fun (f, i) =>
    if capture then [(i, 0, f.size)]
    else (runsOf ((List.range f.size).filter fun r =>
      es.any fun e => e.regs.any fun q => q.1 == i && decide (q.2.1 ≤ r) && decide (r < q.2.1 + q.2.2))).map fun q => (i, q.1, q.2)

/-- The operand registers an image holds. -/
def Strand.imageOpnds (st : Strand) (kd : KDesc) (capture : Bool) : List Nat :=
  (List.range 8).filter fun j => capture || (st.stopEntries kd).any fun e => bitOf e.opMask j

/-- A push latch as a record of 136 bytes. -/
def State.latchRecord (s : State) (sid port : Nat) : List Byte :=
  let st := s.str sid
  match nget st.ports port with
  | none => leBytes 4 none32 ++ leBytes 132 0
  | some b =>
    let ws := b.latch.getD []
    let n := match s.liveQ st.team b.desc with
      | some q => q.entriesIn ws
      | none => 0
    leBytes 4 b.desc ++ leBytes 4 n ++ ((ws.flatMap fun w => leBytes 4 w.toNat) ++ leBytes 128 0).take 128

/-- A strand record (R366). -/
def State.strandRecord (s : State) (sid : Nat) (capture : Bool) : List Byte :=
  let st := s.str sid
  let kd := (s.gridOf sid).kd
  let fs := st.frames.reverse
  let loops (t : Thread) : List Byte :=
    (List.range 2).flatMap fun i => match t.loops[i]? with
      | some e => leBytes 4 e.count.toNat ++ leBytes 8 e.start.toNat ++ leBytes 8 e.e.toNat
      | none => leBytes 20 0
  let arrive (t : Thread) : Nat :=
    (match t.arrival with
     | some (b, ph) => b + 65536 * ph
     | none => 0xFF) + 256 * natOf t.resumeWait
  let fixed :=
    leBytes 1 (slotIndex kd st.role st.strandid) ++ leBytes 1 st.role ++ leBytes 1 st.strandid ++ leBytes 1 0 ++
    leBytes 4 (laneMask st.liveLanes) ++ leBytes 4 (s.ssw sid) ++ leBytes 4 st.csr.safept.toNat ++ leBytes 8 st.csr.tsave.toNat ++
    leBytes 4 st.fl.postCount ++ leBytes 4 st.fl.fabCount ++
    ((List.range 16).flatMap fun i => leBytes 2 (match fs[i]? with
      | some f => f.size / 8
      | none => 0)) ++
    ((List.range 8).flatMap fun p => leBytes 4 (match nget st.ports p with
      | some b => b.desc
      | none => none32)) ++
    leBytes 32 0 ++ st.perLane 8 0 (fun l _ => (s.pcOf sid l).toNat) ++ st.perLane 1 0 (fun _ t => t.wb) ++
    st.perLane 4 0 (fun _ t => t.anchorOrd.toNat) ++
    ((List.range 32).flatMap fun l => match nget st.lanes l with
      | some t => if t.live then loops t else leBytes 40 0
      | none => leBytes 40 0) ++
    st.perLane 4 0xFF (fun _ t => arrive t) ++ leBytes 96 0
  let cellRow (f : Frame) (r : Nat) : List Byte := (List.range 32).flatMap fun l => leBytes 4 (f.cell r l).toNat
  fixed ++ ((List.range 8).flatMap (s.latchRecord sid)) ++
    ((st.imageOpnds kd capture).flatMap fun j => (List.range 32).flatMap fun l =>
      leBytes 4 (((nget st.lanes l).map fun t => (t.o.getD j 0).toNat).getD 0)) ++
    ((st.imageRanges kd capture).flatMap fun (i, r, n) =>
      leBytes 1 i ++ leBytes 1 r ++ leBytes 2 n ++ (List.range n).flatMap fun k => cellRow (fs.getD i default) (r + k)) ++
    ((fs.filter fun f => (s.accFrames st.team).contains f.uid).flatMap fun f => (List.range f.size).flatMap (cellRow f))

/-! Team, array and memory. -/

/-- A barrier word (R365). -/
def Barrier.word (b : Barrier) : Nat := natOf b.init + 2 * b.expect + 2 ^ 12 * b.arrived + 2 ^ 32 * b.phase

/-- The barrier words of a team. -/
def State.barrierBytes (s : State) (tid : Nat) : List Byte :=
  (List.range (s.grid (s.team tid).grid).kd.nbar).flatMap fun n => leBytes 8 ((nget (s.team tid).bars n).getD {}).word

/-- A copy-token record. -/
def copyRecord (k : Nat) (t : CpTok) : List Byte :=
  leBytes 1 k ++ leBytes 1 t.st.code ++ leBytes 1 (natOf t.reported) ++ leBytes 1 0 ++ leBytes 4 t.rowdone ++ leBytes 8 0 ++
    (t.desc ++ leBytes 64 0).take 64

def State.teamCp (s : State) (tid : Nat) : NMap CpTok := (s.core (s.team tid).core).cp.filter fun t => t.2.team == tid
def State.teamMx (s : State) (tid : Nat) : NMap MxTok := (s.core (s.team tid).core).mx.filter fun t => t.2.team == tid
def State.teamDrn (s : State) (tid : Nat) : NMap DrnSlot := (s.core (s.team tid).core).drn.filter fun t => t.2.team == tid

def State.copyBytes (s : State) (tid : Nat) : List Byte := (s.teamCp tid).flatMap fun t => copyRecord t.1 t.2

/-- The team section (R365). -/
def State.teamSection (s : State) (tid : Nat) : List Byte :=
  let t := s.team tid
  s.barrierBytes tid ++
  ((List.range 16).flatMap fun i => match t.queues[i]? with
    | some (d, q) => leBytes 4 d ++ leBytes 4 q.c0 ++ leBytes 4 q.c1 ++ leBytes 4 q.c2 ++ leBytes 4 q.c3 ++ leBytes 4 (natOf q.closed)
    | none => leBytes 4 none32 ++ leBytes 20 0) ++
  s.copyBytes tid ++
  ((s.teamDrn tid).flatMap fun d => leBytes 4 d.1 ++ d.2.image.flatMap fun w => leBytes 4 w.toNat) ++
  leBytes 8 t.dgval.toNat ++ leBytes 4 t.dgcnt.toNat ++ leBytes 4 0

/-- The fields of R71's image: sign, exponent and the whole significand. -/
def asumFields (sign e sig : Nat) : Nat := sign * 2 ^ 40 + e * 2 ^ 30 + sig

/-- The image of an ASUM (R71). An S8 operation's sum is an integer of at most 26 bits (R75), which the image holds exactly. -/
def asumImage (f : Nat) (x : Int) : Nat :=
  if fmtGroup (afmt f) = 2 then
    let m := x.natAbs
    let n := m.log2
    if m = 0 then 0 else asumFields (natOf (decide (x < 0))) (511 + n) (m * 2 ^ 29 / 2 ^ n)
  else
    let c := x.toNat
    let e := c / 2 ^ 29 % 2 ^ 10
    asumFields (c / 2 ^ 39) e ((if 1 ≤ e ∧ e ≤ 0x3FE then 2 ^ 29 else 0) + c % 2 ^ 29)

/-- ASUMs of an operation: in the array, or restored and not yet taken. -/
def State.asumOf (s : State) (core k : Nat) (t : MxTok) : NMap Int :=
  if (s.core core).arr.op = some k then (s.core core).arr.asum else t.asum

/-- An array-state record (R336), padded to a multiple of 64 bytes. A program has at most two row reductions (R239): their partials stand
in ascending order of stream. -/
def State.arrayRecord (s : State) (core k : Nat) (t : MxTok) : List Byte :=
  let q := t.par
  let asum := s.asumOf core k t
  padTo 64 (leBytes 4 (k + 256 * t.st.code + 65536 * natOf t.reported + 2 ^ 24 * q.dslot) ++ leBytes 4 t.f ++ leBytes 8 t.record.toNat ++
    leBytes 4 (t.posS * 65536 + t.posM * 256) ++ leBytes 4 (t.slot.getD none32) ++
    leBytes 8 (((nvals t.rpart)[0]?.getD 0).toNat + 2 ^ 32 * ((nvals t.rpart)[1]?.getD 0).toNat) ++ leBytes 32 0 ++
    (t.param ++ leBytes 64 0).take 64 ++ (t.darg.getD [] ++ leBytes 192 0).take 192 ++
    (if t.st = .array then (List.range q.m).flatMap fun m => (List.range q.n).flatMap fun n =>
      leBytes 8 (asumImage t.f ((nget asum (128 * m + n)).getD 0)) else []))

/-- Tokens that have a record. -/
def MxSt.recorded : MxSt → Bool
  | .queued | .array | .drain | .stopped => true
  | _ => false

def State.arraySection (s : State) (tid : Nat) : List Byte :=
  ((s.teamMx tid).filter (·.2.st.recorded)).flatMap fun t => s.arrayRecord (s.team tid).core t.1 t.2

/-- Scratchpad ranges of the safe-point entries, as runs of bytes merged where they meet. -/
def mergeRanges (l : List (Nat × Nat)) : List (Nat × Nat) :=
  (sortBy (fun a b => decide (a.1 ≤ b.1)) l).foldl (fun acc r => match acc.getLast? with
    | some (o, n) => if r.1 ≤ o + n then acc.dropLast ++ [(o, max (o + n) (r.1 + r.2) - o)] else acc ++ [r]
    | none => [r]) []

/-- Team-window ranges the memory section holds (R365): offset and length, the column store as one range. -/
def State.imageMem (s : State) (tid : Nat) (capture : Bool) : List (Nat × Nat) :=
  let t := s.team tid
  let kd := (s.grid t.grid).kd
  let cols := if kd.csLo < kd.csHi then [(0x800000 + kd.csLo, 128 * (kd.csHi - kd.csLo))] else []
  let sps := if capture then (if kd.spSize = 0 then [] else [(0, kd.spSize)])
    else mergeRanges (((s.teamStrands tid).flatMap fun x => (s.stopEntries x.1).flatMap (·.sps)).filter fun r => r.2 != 0)
  let rings := t.queues.map fun x => (x.2.base, x.2.count * x.2.size)
  let ops := (s.teamMx tid).filter fun x => x.2.st == .queued || x.2.st == .array
  cols ++ sps ++ rings ++ ops.flatMap fun (_, x) =>
    let q := x.par
    let bpk := blocksOf x.f
    [(x.blk, 64)] ++ (if q.areg || q.aq then [] else [(q.aaddr, (q.m - 1) * q.apitch + 128 * q.ks)]) ++
    (if fmtScaled (afmt x.f) && !q.aq then [(q.ascale, q.m * q.ks * bpk)] else []) ++
    (if aesc x.f && !q.aq then [(q.aside, 12 * (q.m * q.ks * bpk))] else [])

/-- The bytes of a range; of the column store, column by column. -/
def State.rangeBytes (s : State) (tid : Nat) (r : Nat × Nat) : List Byte :=
  let t := s.team tid
  if 0x800000 ≤ r.1 then (List.range 128).flatMap fun n => s.mem.readN (t.phys (r.1 + 0x4000 * n)) (r.2 / 128)
  else s.mem.readN (t.phys r.1) r.2

/-- Put the bytes of a range back. -/
def State.putRange (s : State) (tid : Nat) (r : Nat × List Byte) : State :=
  let t := s.team tid
  if 0x800000 ≤ r.1 then
    let w := r.2.length / 128
    (List.range 128).foldl (fun s n => s.setMem (s.mem.writeN (t.phys (r.1 + 0x4000 * n)) ((r.2.drop (w * n)).take w))) s
  else s.setMem (s.mem.writeN (t.phys r.1) r.2)

/-- The whole image of a team (R365). -/
def State.teamImage (s : State) (tid : Nat) (capture : Bool) : List Byte :=
  let t := s.team tid
  let g := s.grid t.grid
  let team := padTo 64 (s.teamSection tid)
  let live := (s.teamStrands tid).filter fun x => !x.2.finished
  let strands := padTo 64 (live.flatMap fun x => s.strandRecord x.1 capture)
  let array := s.arraySection tid
  let mem := (s.imageMem tid capture).flatMap fun r =>
    let bs := s.rangeBytes tid r
    padTo 8 (leBytes 4 r.1 ++ leBytes 4 bs.length ++ bs)
  let o1 := 128
  let o2 := o1 + team.length
  let o3 := o2 + strands.length
  let o4 := o3 + array.length
  leBytes 4 0x45564153 ++ leBytes 4 (o4 + mem.length) ++ leBytes 8 g.kdescVa.toNat ++ leBytes 8 g.param.toNat ++ leBytes 4 t.teamid ++
    leBytes 4 t.cluIdx ++ leBytes 4 g.ctx ++ leBytes 1 live.length ++ leBytes 1 (((s.teamMx tid).filter (·.2.st.recorded)).length) ++
    leBytes 1 (s.teamCp tid).length ++ leBytes 1 (s.teamDrn tid).length ++ leBytes 4 o1 ++ leBytes 4 o2 ++ leBytes 4 o3 ++ leBytes 4 o4 ++
    leBytes 8 s.loop.applied ++ leBytes 64 0 ++ team ++ strands ++ array ++ mem

/-- The bytes a team of a kernel reserves in the save pool (R365): every count at its most. -/
def KDesc.imageMax (kd : KDesc) : Nat :=
  let strand (r : Role) : Nat := r.strands * (2048 + 8 * 136 + 1024 + 16 * 4 + 128 * r.budget)
  let up (n : Nat) : Nat := (n + 63) / 64 * 64
  128 + up (8 * kd.nbar + 16 * 24 + 64 * 80 + 32 * 132 + 16) + up ((kd.roles ++ kd.lead.toList).map strand).sum +
    (32 * 0x140 + 8 * 128 * 128) + (8 + 128 * (kd.csHi - kd.csLo)) + (8 + kd.spSize) + 16 * (16 + kd.spSize) +
    32 * (4 * 16 + 3 * kd.spSize)

end Sys2Proof.Machine
end

