-- ==== Sys2Proof/Machine/Perform.lean ====
section
/-! DEFINITION. Stores and read-modify-writes as their targets perform them (07_isa_memory_sync.md R190, R191, R197, R198). -/

namespace Sys2Proof.Machine

/-! Read-modify-writes (R197). -/

def rmwBytes (op : Nat) : Nat := if op = 10 ∨ op = 11 then 8 else 4

/-- The new value from the old value m, the operand b and the expected value x. -/
def rmwNew (op m b x : Nat) : Nat :=
  let s32 (v : Nat) : Int := (BitVec.ofNat 32 v).toInt
  match op with
  | 0 => (m + b) % 2 ^ 32
  | 1 => m &&& b
  | 2 => m ||| b
  | 3 => m ^^^ b
  | 4 => if s32 m ≤ s32 b then m else b
  | 5 => if s32 m ≤ s32 b then b else m
  | 6 => min m b
  | 7 => max m b
  | 8 => b
  | 9 | 11 => if m = x then b else m
  | 10 => (m + b) % 2 ^ 64
  | 12 => Fmt.f32.fadd m b
  | 13 => Fmt.bf16.fadd (m % 65536) (b % 65536) + 65536 * Fmt.bf16.fadd (m / 65536) (b / 65536)
  | 14 => if b ≤ m then 0 else m + 1
  | _ => m

/-- Perform a read-modify-write at the location's point of coherence: the old value (R198). -/
def State.performRmw (s : State) (core : Nat) (r : Rmw) (site : Nat) : Nat × State :=
  let n := rmwBytes r.op
  let m := leNat ((List.range n).map fun i =>
    if s.liveByte (r.addr + i) then Config.freeByte s.tick (site + r.addr + i) else s.mem.read (r.addr + i))
  let new := rmwNew r.op m (r.b.toNat % 256 ^ n) (r.x.toNat % 256 ^ n)
  (m, s.engineCells core (cellsAt r.addr (leBytes n new)))

/-- Perform several in an order chosen freely: the old values by lane. -/
def State.performRmws (s : State) (core site : Nat) (rs : List Rmw) : NMap Word64 × State :=
  (s.freeOrder site 32 rs).foldl (fun acc r =>
    let (m, s) := acc.2.performRmw core r (site + 0x100000 * r.lane)
    (nset acc.1 r.lane (BitVec.ofNat 64 m), s)) ([], s)

/-- A store loses its bytes in host memory, the link being down: its lanes with their addresses, and what is left of it (R352, R406). -/
def PendStore.dropHost (x : PendStore) : List (Nat × Nat) × PendStore :=
  ((x.parts.filter fun q => regionOf q.2.1 == .host).map fun q => (q.1, (nget x.vaddr q.1).getD 0),
   { x with cells := x.cells.filter fun c => regionOf c.1 != .host, parts := x.parts.filter fun q => regionOf q.2.1 != .host, host := false })

/-- Stores of a strand are issued; what they send to host memory while the link is down is lost. -/
def State.addStores (s : State) (sid : Nat) (xs : List PendStore) : State :=
  let ys := xs.map fun x => if x.host && !s.host.up then x.dropHost else ([], x)
  s.modStr sid fun st => { st with fl := { st.fl with
    stores := st.fl.stores ++ ys.map (·.2), hostLost := st.fl.hostLost ++ ys.flatMap (·.1) } }

/-- Perform a store of a core's strand: the lanes whose bytes in host memory are lost, with their addresses (R352). The 16 bytes of a
`.b128` are performed in one step, as its loads are read in one: DESIGN CHOICE (log 82). -/
def State.performStore (s : State) (core : Nat) (x : PendStore) : List (Nat × Nat) × State :=
  let (lost, x) := if x.host && !s.host.up then x.dropHost else ([], x)
  let s := s.storeCells core (s.liveCells 0xC000000 x.cells)
  (lost, (s.performRmws core 0xC400000 x.rmws).2)

/-- Every outstanding access of a strand completes: values that are known land, stores are performed in order. -/
def State.finishAccesses (s : State) (sid : Nat) : State :=
  let st := s.str sid
  let known (x : PendLoad) : Bool := x.on == .ready || x.on == .host
  let s := (st.fl.loads.filter known).foldl (fun s x => s.regWrites sid x.writes)
    (s.modStr sid fun st => { st with fl := { st.fl with loads := st.fl.loads.filter (!known ·) } })
  let s := s.modStr sid fun st => { st with fl := { st.fl with stores := [] } }
  st.fl.stores.foldl (fun s x => (s.performStore st.core x).2) s

end Sys2Proof.Machine
end

