-- ==== Sys2Proof/Machine/Dump.lean ====
section
/-! DEFINITION. The dump of a context (16_debug_determinism.md R423 to R425): its phase halts the context, waits until what it has begun is
complete, captures its teams, and writes the dump (notes/assumptions/12.md). -/

namespace Sys2Proof.Machine

/-! Halting (R334, R410). -/

/-- A halt request to the arrays that hold an operation of some teams (R334). A pre-emption takes the place of a debug halt. -/
def State.haltArrays (s : State) (teams : Nat → Bool) (h : Halt) : State :=
  let ask (c : Core) : Core :=
    match c.arr.op.bind (nget c.mx) with
    | none => c
    | some t =>
      if teams t.team && (c.arr.halt.isNone || (h == .preempt && c.arr.halt == some .debug)) then
        { c with arr := { c.arr with halt := some h, haltAt := s.cycle, held := false } }
      else c
  { s with cores := nall s.cores fun _ c => ask c }

/-- A debug halt of some teams' operations ends. -/
def State.resumeArrays (s : State) (teams : Nat → Bool) : State :=
  let ask (c : Core) : Core :=
    match c.arr.op.bind (nget c.mx) with
    | none => c
    | some t => if teams t.team && c.arr.halt == some .debug then { c with arr := { c.arr with halt := none, held := false } } else c
  { s with cores := nall s.cores fun _ c => ask c }

/-- A team of a context. -/
def State.inCtx (s : State) (ctx tid : Nat) : Bool := (s.grid (s.team tid).grid).ctx == ctx

/-- Debug-halt a context (R410). -/
def State.debugHalt (s : State) (ctx why bp : Nat) : State :=
  if (s.ctx ctx).dbg.halted then s
  else (s.modCtx ctx fun c => { c with dbg := { c.dbg with halted := true, why := why, bp := bp } }).haltArrays (s.inCtx ctx) .debug

/-! The dump. -/

/-- A kill record (R354). -/
def Kill.bytes (k : Kill) (pkg lsn : Nat) : List Byte :=
  leBytes 4 0x10 ++ leBytes 4 k.reason ++ leBytes 8 k.pc.toNat ++ leBytes 8 k.addr.toNat ++ leBytes 4 k.cause ++
  leBytes 4 k.lanes.toNat ++ leBytes 1 pkg ++ leBytes 1 k.core ++ leBytes 1 k.slot ++ leBytes 1 0 ++ leBytes 4 k.team ++
  leBytes 4 k.ctx ++ leBytes 4 0 ++ leBytes 8 lsn ++ leBytes 8 k.cycle

/-- A section of the dump (R424). -/
structure DumpSec where
  ty : Nat
  team : Nat
  body : List Byte
  deriving DecidableEq, Repr, Inhabited

/-- The sections of a team. -/
def State.dumpSecs (s : State) (tid : Nat) : List DumpSec :=
  let t := s.team tid
  let kd := (s.grid t.grid).kd
  let sec (ty : Nat) (b : List Byte) : DumpSec := ⟨ty, t.teamid, b⟩
  [sec 1 (((s.teamStrands tid).filter fun x => !x.2.finished).flatMap fun x => s.strandRecord x.1 true),
   sec 2 (s.barrierBytes tid), sec 3 (s.mem.readN t.spBase kd.spSize)] ++
  (if (s.teamMx tid).any (·.2.st.recorded) then [sec 4 (s.arraySection tid)] else []) ++
  (if (s.teamCp tid).any (·.2.st == .stopped) then [sec 5 (s.copyBytes tid)] else [])

/-- Offsets of the sections: each at the next multiple of 64. -/
def placeSecs : Nat → List DumpSec → List (Nat × DumpSec)
  | _, [] => []
  | o, x :: xs => (o, x) :: placeSecs ((o + x.body.length + 63) / 64 * 64) xs

/-- Write bytes page by page up to the first that faults: how many were written (R425). -/
def State.dumpWrite (s : State) (ctx va : Nat) (bs : List Byte) : Nat × State :=
  (pageParts va bs.length).foldl (fun (acc : Nat × State) p =>
    if acc.1 = p.1 - va then
      match acc.2.writeVa ctx p.1 ((bs.drop (p.1 - va)).take p.2) with
      | .ok s => (acc.1 + p.2, s)
      | .error _ => acc
    else acc) (0, s)

/-- Write the sections: their table entries, and whether one was truncated or omitted. -/
def State.dumpAll (s : State) (ctx va limit : Nat) : List (Nat × DumpSec) → List Byte × Bool × Bool × State
  | [] => ([], false, false, s)
  | (o, x) :: rest =>
    let omit' := decide (limit < o + x.body.length)
    let (n, s) := if omit' then (0, s) else s.dumpWrite ctx (va + o) x.body
    let trunc := !omit' && decide (n < x.body.length)
    let entry := leBytes 2 x.ty ++ leBytes 2 (natOf trunc) ++ leBytes 4 x.team ++ leBytes 8 o ++ leBytes 8 x.body.length ++ leBytes 8 n
    let (es, t, om, s) := s.dumpAll ctx va limit rest
    (entry ++ es, trunc || t, omit' || om, s)

/-- The teams of a context here, by ascending teamid. -/
def State.ctxTeams (s : State) (ctx : Nat) : List Nat :=
  (sortBy (fun a b => decide (a.2.teamid ≤ b.2.teamid)) (s.teams.filter fun t => (s.grid t.2.grid).ctx == ctx && !s.hasEnded t.1)).map (·.1)

/-! The phase (R423). -/

/-- A dump phase begins: the context is halted on this package, on every core at once. A context that was halted already is now so for the
kill. -/
def State.dumpPhase (s : State) (ctx : Nat) (k : Option Kill) : State :=
  (s.debugHalt ctx 3 0).modCtx ctx fun c => { c with dbg := { c.dbg with why := if k.isSome then 3 else c.dbg.why, dump := some { kill := k } } }

/-- A copy of a dump phase has come to its end: it is no longer BUSY, or it is a `cp.q` that waits for a queue whose readers are halted. -/
def State.copyOver (s : State) (c : CpTok) : Bool :=
  c.st != .busy || (c.form == 3 && c.slot.isNone && !((s.liveQ c.team (cpDesc c.desc).dst).map fun q => q.closed || q.canAlloc).getD false)

/-- What a context has begun is complete (R302, R423): no path is inside a clause but one that waits; accesses and fabric operations have
ended, but for loads that wait for a post; its copies are over; its operation in the array stands at AQP, and no unit of its drains is in
progress. -/
def State.dumpReady (s : State) (ctx : Nat) : Bool :=
  let mine (tid : Nat) : Bool := s.inCtx ctx tid
  let posted (x : PendLoad) : Bool := match x.on with
    | .posts _ | .post _ => true
    | _ => false
  let open' (w : WaitPath) : Bool := match w.on with
    | .words _ _ _ _ _ _ => true
    | .host _ _ todo _ _ => !todo.isEmpty
    | _ => false
  (s.runs.all fun r => !mine (s.str r.strand).team || (r.path.resume.isNone && r.path.lanes.all fun l => ((s.str r.strand).th l).pass == some r.path.wordPc)) &&
  (s.strands.all fun x => !mine x.2.team ||
    (x.2.fl.loads.all posted && x.2.fl.stores.isEmpty && (x.2.fl.fabs.all fun f => f.2.done) && x.2.waits.all fun w => !open' w)) &&
  (s.orphans.all fun o => !mine o.team) &&
  s.cores.all fun c =>
    let team (k : Nat) : Nat := ((nget c.2.mx k).getD default).team
    (c.2.cp.all fun k => !mine k.2.team || s.copyOver k.2) && (c.2.arr.op.all fun k => !mine (team k) || c.2.arr.held) &&
    c.2.dre.units.all fun u => !mine (team u.tok)

/-- Every team is captured into its reservation; nothing is released. -/
def State.captureTeams (s : State) (ctx : Nat) : State :=
  ((s.ctxTeams ctx).foldl (fun s t => s.putCells (cellsAt ((s.ctx ctx).save + (s.team t).saveOff) (s.teamImage t true))) s).modCtx ctx
    fun c => { c with dbg := { c.dbg with dump := c.dbg.dump.map fun d => { d with captured := true } } }

/-- The DUMP record of a kill (R414, R423). -/
def State.dumpRecord (s : State) (ctx : Nat) (k : Kill) (size flags : Nat) : State :=
  s.debugRecord 5 k.core k.slot ctx (leBytes 8 (s.ctx ctx).dbg.dumpva ++ leBytes 8 size ++ leBytes 2 flags)

/-- The dump kernel writes the dump, its header last: the size of its layout and the FLAGS of a DUMP record. -/
def State.writeDump (s : State) (ctx : Nat) (k : Option Kill) : Nat × Nat × State :=
  let d := (s.ctx ctx).dbg
  let secs := (s.ctxTeams ctx).flatMap s.dumpSecs
  let first := (0x80 + 32 * secs.length + 63) / 64 * 64
  let placed := placeSecs first secs
  let size := match placed.getLast? with
    | some (o, x) => o + x.body.length
    | none => first
  let (table, trunc, om, s) := s.dumpAll ctx d.dumpva (d.dumpsize * 65536) placed
  let flags := natOf trunc + 2 * natOf om
  let head := leBytes 4 0x504D5544 ++ leBytes 2 1 ++ leBytes 2 flags ++ leBytes 8 size ++
    (match k with
     | some k => k.bytes s.pkgid 0
     | none => leBytes 64 0) ++ leBytes 4 secs.length ++ leBytes 44 0 ++ table
  match s.writeVa ctx d.dumpva head with
  | .ok s => (size, flags, s)
  | .error _ => (size, flags + 4, s)

/-- A dump phase is over. -/
def State.dumpOver (s : State) (ctx : Nat) : State := s.modCtx ctx fun c => { c with dbg := { c.dbg with dump := none } }

/-- A kill that no dump precedes meets a dump phase: the dump is abandoned, without a header (R426). -/
def State.dumpDropped (s : State) (ctx : Nat) : State :=
  match (s.ctx ctx).dbg.dump with
  | none => s
  | some d =>
    let k : Kill := d.kill.getD ⟨ctx, 0, 0, 0, 0, 0, 0xFF, 0xFF, 0, none, 0, true⟩
    (s.dumpRecord ctx k 0 4).dumpOver ctx

/-- The dump kernel may be admitted: some core has a free team slot (R423). -/
def State.dumpSlot (s : State) : Bool := (List.range 256).any fun c => decide ((s.teams.filter fun t => t.2.core == c).length < 8)

end Sys2Proof.Machine
end

