-- ==== Sys2Proof/Machine/Kill.lean ====
section
/-! DEFINITION. Releasing what a team holds (01_machine_state.md R45) and killing a context (13_traps_preemption.md R353 to
R355). -/

namespace Sys2Proof.Machine

/-- Write back every live queue of a team (R215). -/
def State.writeBackAll (s : State) (tid : Nat) : State :=
  ((s.team tid).queues.foldl (fun s (d, q) => s.writeBack tid d q) s).modTeam tid
    fun t => { t with queues := [] }

/-- Free a team's tokens, drain slots and bins on its core. -/
def Core.dropTeam (c : Core) (tid : Nat) : Core :=
  let mine (k : Nat) : Bool := (nget c.mx k).map (·.team) == some tid
  { c with
    bins := c.bins.filter fun b => b.2.team != tid
    arr := match c.arr.op with
      | some k => if mine k then c.arr.leave else c.arr
      | none => c.arr
    dre := { c.dre with queue := c.dre.queue.filter (!mine ·), units := c.dre.units.filter fun u => !mine u.tok }
    mx := c.mx.filter fun t => t.2.team != tid
    cp := c.cp.filter fun t => t.2.team != tid
    drn := c.drn.filter fun d => d.2.team != tid }

/-- Of the drain units of a team that are in progress, each store is performed or not (R236). -/
def State.endUnits (s : State) (tid : Nat) : State :=
  let core := (s.team tid).core
  ((s.core core).dre.units.filter fun u => (nget (s.core core).mx u.tok).map (·.team) == some tid).foldl (fun s u =>
    s.drainStores core ((nget (s.core core).mx u.tok).getD default) (s.someStores (0xA100000 + 4096 * u.m + 64 * u.g) u.stores)) s

/-- Remove a team and its strands; matrix operations end as under `mx.abort` (R353). Stores its strands have issued are still to be
performed. -/
def State.removeTeam (s : State) (tid : Nat) : State :=
  let t := s.team tid
  let s := s.endUnits tid
  let mine := (s.teamStrands tid).map (·.1)
  let left := (s.teamStrands tid).flatMap fun x => x.2.fl.stores.map fun p => (⟨x.2.core, tid, p⟩ : Orphan)
  let s := { s with runs := s.runs.filter (fun r => !mine.contains r.strand),
                    strands := s.strands.filter (fun x => x.2.team != tid),
                    orphans := s.orphans ++ left }
  let s := s.modCore t.core fun c => { c.dropTeam tid with regs := { c.regs with idleSince := s.cycle } }
  { s with teams := ndel s.teams tid }

/-- Give back a team's part of its context's save pool (R365). -/
def State.freePool (s : State) (ctx off size : Nat) : State :=
  s.modCtx ctx fun c => { c with pool := c.pool.erase (off, size) }

/-- Discard a grid's TBASE copy once no team of it is resident or saved here (R35). -/
def State.settleGrid (s : State) (g : Nat) : State :=
  if s.teams.any (fun t => t.2.grid == g) || s.saved.any (fun x => x.2.info.grid == g) then s
  else s.modGrid g fun d => { d with tbase := none }

/-- The record of a kill that arose elsewhere (R354). -/
def killCode11 (reason pkg ctx lsn cycle : Nat) : List Byte :=
  leBytes 4 0x11 ++ leBytes 4 reason ++ leBytes 24 0 ++ leBytes 1 pkg ++ leBytes 3 0 ++ leBytes 4 0 ++ leBytes 4 ctx ++
  leBytes 4 0 ++ leBytes 8 lsn ++ leBytes 8 cycle

/-- The queues of a context. -/
def State.ctxQueues (s : State) (ctx : Nat) : List (Nat × Uq) := s.sched.queues.filter fun x => x.2.ctx == ctx

/-- Write the records and events of a kill on this package (R354). The kill record of a team that a loop record launched takes two
entries of the system event queue, before its event (DESIGN CHOICE, notes/assumptions/18.md: an entry holds 32 bytes). -/
def State.killRecords (s : State) (k : Kill) (lsn : Nat) : State :=
  let s :=
    if k.here then
      match k.queue with
      | some q =>
        match nget s.sched.queues q with
        | some u => ((s.tryWriteVa u.ctx u.errAddr (k.bytes s.pkgid lsn)).event u.evq 2 q k.ctx k.reason k.team).modQueue q
            fun u => { u with killed := true }
        | none => s
      | none =>
        let b := k.bytes s.pkgid lsn
        ((s.append 0 (b.take 32)).append 0 (b.drop 32)).event 0 2 none32 k.ctx k.reason k.team
    else s
  (s.ctxQueues k.ctx).foldl (fun s (q, u) =>
    if ((nget s.sched.queues q).map (·.killed)).getD true then s
    else ((s.tryWriteVa u.ctx u.errAddr (killCode11 k.reason s.pkgid k.ctx lsn k.cycle)).event u.evq 2 q k.ctx k.reason 0).modQueue q
      fun u => { u with killed := true }) s

/-- The effects of a kill on this package (R353). -/
def State.killHere (s : State) (ctx : Nat) : State :=
  let s := s.dumpDropped ctx
  let mine := (s.teams.filter fun t => (s.grid t.2.grid).ctx == ctx).map (·.1)
  let s := mine.foldl (fun s t => (s.writeBackAll t).removeTeam t) s
  let gone (g : Nat) : Bool := (s.grid g).ctx == ctx
  let s := { s with
    saved := s.saved.filter (fun x => !gone x.2.info.grid)
    cores := nall s.cores fun _ c => { c with resvs := c.resvs.filter fun r => !mine.contains r.team && (match nget s.saved r.team with
      | some x => !gone x.info.grid
      | none => true) } }
  let ours := s.sched.slots.filter fun x => ((nget s.sched.queues x.2.queue).map (·.ctx)) == some ctx
  let s := ours.foldl (fun s x => s.endSlice x.1) s
  let s := s.modSched fun d => { d with
    queues := nall d.queues fun _ u =>
      if u.ctx = ctx then { u with st := .faulted, started := [], saved := [], killed := false } else u
    slots := d.slots.filter fun x => ((nget d.queues x.2.queue).map (·.ctx)) != some ctx
    shares := d.shares.filter fun x => x.2.ctx != ctx
    reserved := d.reserved.filter fun x => !gone x.1 }
  let s := { s with grids := s.grids.filter fun g => g.2.ctx != ctx }
  s.modCtx ctx fun c => { c with
    killed := true, halted := false, pool := []
    dbg := { c.dbg with halted := false, why := 0 }
    ck := { c.ck with taking := false, replay := none } }

/-- The payload of a kill order (R355): KDESC zero, PKGMASK every package, CTX. -/
def killPayload (npkg ctx : Nat) : List Byte := leBytes 20 0 ++ leBytes 4 (2 ^ npkg - 1) ++ leBytes 4 ctx ++ leBytes 20 0

/-- The kill of a context that arises on this package takes effect (R353 to R355). -/
def State.killNow (s : State) (k : Kill) : State :=
  let down := s.loop.st == .down
  let s := s.post 4 0 48 (killPayload s.npkg k.ctx) (.kill k.ctx) k.ctx
  let s := s.killHere k.ctx
  if down then s.killRecords k 0 else { s with kills := s.kills ++ [k] }

/-- Kill a context, the kill arising on this package. A killed context is not killed again; a fatal trap during a dump phase has no effect
(R426); where dumps are enabled, a dump phase comes before a kill of reason 1 to 4 (R423). -/
def State.kill (s : State) (k : Kill) : State :=
  let d := (s.ctx k.ctx).dbg
  if (s.ctx k.ctx).killed then s
  else if k.reason ≤ 4 ∧ d.dump.isSome then
    (if (d.dump.bind (·.kill)).isSome then s else s.dumpPhase k.ctx (some k))
  else if k.reason ≤ 4 ∧ d.dumpsize ≠ 0 then s.dumpPhase k.ctx (some k)
  else s.killNow k

/-- A dump phase goes on: once all is complete the teams are captured; then, in a later step, the dump is written, and the kill proceeds, a
DUMP record being appended. Each comes at a free time (notes/assumptions/12.md). -/
def State.dumpGoes (s : State) (ctx : Nat) : State :=
  match (s.ctx ctx).dbg.dump with
  | none => s
  | some d =>
    if !(s.freeB (0x15400000 + ctx) || s.cycle % (Config.latency + 1) == 0) then s
    else if !d.captured then (if s.dumpReady ctx then s.captureTeams ctx else s)
    else if !s.dumpSlot then s
    else
      let (size, flags, s) := s.writeDump ctx d.kill
      let s := s.dumpOver ctx
      match d.kill with
      | none => s
      | some k => (s.killNow k).dumpRecord ctx k size flags

/-- Every dump phase. -/
def State.dumpsGo (s : State) : State := (nkeys s.ctxs).foldl State.dumpGoes s

/-- The kill that a strand's fatal trap or `tkill` causes. -/
def State.killBy (s : State) (sid reason : Nat) (pc addr : Word64) (cause : Nat) (lanes : Word) : State :=
  let st := s.str sid
  let t := s.team st.team
  let g := s.grid t.grid
  s.kill { ctx := g.ctx, reason := reason, pc := pc, addr := addr, cause := cause, lanes := lanes, core := st.core,
           slot := slotIndex g.kd st.role st.strandid, team := t.teamid, queue := g.src.queue, cycle := s.cycle, here := true }

end Sys2Proof.Machine
end

