-- ==== Sys2Proof/Machine/Trap.lean ====
section
/-! DEFINITION. Taking a trap and returning from one (13_traps_preemption.md R343 to R350). -/

namespace Sys2Proof.Machine

/-- What one lane's trap records: cause, SUB, the address TADDR would hold, and the recorded PC (R345, R348). -/
structure LaneTrap where
  lane : Nat
  cause : Nat
  sub : Nat
  addr : Word64
  pc : Word64
  deriving DecidableEq, Repr, Inhabited

/-- Lane detail as LDHI:LDLO (R348). -/
def LaneTrap.detail (t : LaneTrap) : Word64 :=
  BitVec.ofNat 64 (t.cause * 2 ^ 56 + t.sub % 256 * 2 ^ 48 + t.addr.toNat % 2 ^ 48)

/-- The bank entry to a level writes (R346). -/
def trapBank (st : Strand) (hits : List LaneTrap) : Bank :=
  let low := hits.headD default
  { cause := BitVec.ofNat 32 low.cause
    epc := low.pc
    addr := low.addr
    lanes := laneWord (hits.map (·.lane))
    epcWritten := false
    detail := hits.map fun t => (t.lane, t.detail)
    savedLr := hits.map fun t => (t.lane, (st.th t.lane).lr)
    resumePc := hits.map fun t => (t.lane, t.pc) }

/-- Where class c's handler begins (R82, R346). -/
def handlerPc (tbase : Word64) (cause : Nat) : Word64 := tbase + BitVec.ofNat 64 (128 * (cause / 16) + 4)

/-- POISON of every ticket the team holds (R211), where some thread enters level 1 from a class other than XLATE and DEBUG. -/
def State.poison (s : State) (sid : Nat) (causes : List Nat) : State :=
  if causes.all fun c => c / 16 == 2 || c / 16 == 9 then s
  else
    let t := s.teamOf sid
    s.modGrid t.grid fun g => { g with tickets := nall g.tickets fun _ k =>
      if k.value = t.teamid then { k with poison := true } else k }

/-- Raise traps in lanes of one group, ascending; the fuel is the number of entries it can lead to. -/
def State.trapN (s : State) (sid : Nat) (hits : List LaneTrap) : Nat → State
  | 0 => s
  | fuel + 1 =>
    let st := s.str sid
    let lanes := hits.map (·.lane)
    let low := hits.headD default
    let g := st.group low.lane
    let lv := st.csr.tlevel
    let hold (n : Nat) : State := s.modStr sid fun st =>
      { st with lanes := st.lanes.map fun (l, t) =>
          match hits.find? (·.lane == l) with
          | some h => (l, { t with st := .held n, pc := h.pc })
          | none => (l, t) }
    let s := s.modStr sid fun st =>
      { st with lanes := st.lanes.map fun (l, t) =>
          match hits.find? (·.lane == l) with
          | some h => (l, { t with pc := h.pc })
          | none => (l, t) }
    if lv = 2 ∧ g = 2 then (hold 3).killBy sid 1 low.pc low.addr low.cause (laneWord lanes)
    else if lv = 1 ∧ g = 0 ∨ lv = 2 ∧ g = 0 then hold 0
    else if lv = 2 then hold 1
    else
      let s := s.modStr sid fun st =>
        let b := trapBank st hits
        let c := st.csr
        { st with csr := if lv = 0 then { c with bankA := b, s1 := lanes, tlevel := 1, wdog := 0 }
                         else { c with bankB := b, s2 := lanes, tlevel := 2, wdog := 0 } }
      let s := if lv = 0 then s.poison sid (hits.map (·.cause)) else s
      let tbase := (s.gridOf sid).tbase.getD 0
      if tbase = 0 then (s.modStr sid fun st => st.modThs lanes fun _ t => { t with st := .held 3 }).killBy sid 2 low.pc low.addr low.cause (laneWord lanes)
      else
        let pc := handlerPc tbase low.cause
        let s := s.modStr sid fun st => st.modThs lanes fun _ t => { t with st := .ready, pc := pc }
        match s.target sid pc true with
        | (.ok, s) => s
        | (_, s) => s.trapN sid (lanes.map fun l => ⟨l, 0x03, 0, pc, pc⟩) fuel

/-- Raise traps in lanes of one group (R344). -/
def State.trap (s : State) (sid : Nat) (hits : List LaneTrap) : State := if hits.isEmpty then s else s.trapN sid hits 3

/-- The same trap in every lane of a set. -/
def State.trapAll (s : State) (sid : Nat) (lanes : List Nat) (cause sub : Nat) (addr pc : Word64) : State :=
  s.trap sid (lanes.map fun l => ⟨l, cause, sub, addr, pc⟩)

/-- Threads held until a level become ready (R345). -/
def Strand.releaseHeld (st : Strand) (level : Nat) : Strand :=
  { st with lanes := st.lanes.map fun (l, t) => if t.st = .held level then (l, { t with st := .ready }) else (l, t) }

/-- Poison takes effect for a grid's ticket once the holding team has no parked sub-strand (R211). -/
def State.settlePoison (s : State) (tid : Nat) : State :=
  let t := s.team tid
  if (s.teamStrands tid).any (fun x => x.2.csr.tlevel != 0) then s
  else s.modGrid t.grid fun g => { g with tickets := nall g.tickets fun _ k =>
    if k.value = t.teamid && k.poison then { k with effect := true } else k }

/-- A level ends: its sub-strand is gone, by its return or by the exit of its last thread; the watchdog's count restarts (R170, R344,
R350, R356). -/
def State.endLevel (s : State) (sid : Nat) : State :=
  let st := s.str sid
  let s := s.modStr sid fun st =>
    if st.csr.tlevel = 2 then ({ st with csr := { st.csr with s2 := [], tlevel := 1, wdog := 0 } } : Strand).releaseHeld 1
    else ({ st with csr := { st.csr with s1 := [], s2 := [], tlevel := 0, wdog := 0 } } : Strand).releaseHeld 0
  if st.csr.tlevel = 1 then s.settlePoison st.team else s

/-- The return of every thread of the current sub-strand (R350). The caller has made the waits. -/
def State.trapReturn (s : State) (sid : Nat) : State :=
  let st := s.str sid
  let lv := st.csr.tlevel
  let bank := if lv = 2 then st.csr.bankB else st.csr.bankA
  let lanes := (if lv = 2 then st.csr.s2 else st.csr.s1).filter (st.liveLanes.contains ·)
  let s := s.modStr sid fun st =>
    { st.modThs lanes (fun l t => { t with
        st := .ready
        lr := (nget bank.savedLr l).getD 0
        chk := if bank.epcWritten then none else t.chk
        pc := if bank.epcWritten then bank.epc else (nget bank.resumePc l).getD 0 }) with
      waits := st.waits.filter (fun w => !(w.on == .tret && w.path.lanes.all (lanes.contains ·))) }
  s.endLevel sid

end Sys2Proof.Machine
end

