-- ==== Sys2Proof/Machine/Operands.lean ====
section
/-! DEFINITION. A path's way through a clause, and the operand phase that every form shares: window check, queue ports,
pops, sources, destinations, `lr` (05_isa_arithmetic.md R137 to R139; 01_machine_state.md R22, R26 to R31; 06 R172). -/

namespace Sys2Proof.Machine

/-- Some lanes give back what a word popped for them. Where they are all that popped, and no later entry has been popped since, HEAD stands
again where it stood. Otherwise the entries are put at HEAD once more, while the queue has room for them: those of the lanes in a lane
queue; in a vector or uniform queue, whose entry is every lane's, only where all of them give back (DEDUCED,
notes/assumptions/56.md). -/
def State.giveBack (s : State) (tid : Nat) (lanes : List Nat) (u : Undo) : State :=
  match s.liveQ tid u.desc with
  | none => s
  | some q =>
    let all := u.lanes.all (lanes.contains ·)
    if all && q.c1 == u.after then s.modQ tid u.desc fun q => { q with c1 := u.before }
    else
      let back := if q.kind = 1 then ((u.lanes.zip u.entries).filter fun x => lanes.contains x.1).map (·.2) else if all then u.entries else []
      if back.isEmpty || !s.hasRoom tid u.desc back.length then s
      else
        let h := (q.c1 + 2 ^ 32 - back.length) % 2 ^ 32
        (back.zipIdx.foldl (fun s x => s.putEntry tid q (h + x.2) x.1) s).modQ tid u.desc fun q => { q with c1 := h }

/-- Take back the pops of a word that traps (R139, R222, R247, R345). -/
def State.unpop (s : State) (sid : Nat) (undo : List Undo) : State :=
  undo.foldl (fun s u => s.giveBack (s.str sid).team u.lanes u) s

/-- A trap by a lane would be held (R344, R345). -/
def Strand.holds (st : Strand) (lane : Nat) : Bool :=
  (st.csr.tlevel == 1 && st.group lane == 0) || (st.csr.tlevel == 2 && st.group lane < 2)

/-- Of some lanes that trap, those whose trap is held have popped nothing (R345). -/
def State.unpopHeld (s : State) (sid : Nat) (undo : List Undo) (lanes : List Nat) : State :=
  let held := lanes.filter (s.str sid).holds
  if held.isEmpty then s else undo.foldl (fun s u => s.giveBack (s.str sid).team held u) s

/-- Put a path into the waiting state (R10). -/
def State.await (s : State) (sid : Nat) (p : RunPath) (on : Wait) : State :=
  s.modStr sid fun st => { st with waits := st.waits ++ [⟨p, on⟩] }

/-- Trap some lanes of a path at its word. -/
def State.trapAt (s : State) (sid : Nat) (p : RunPath) (hits : List (Nat × Nat × Nat × Word64)) : State :=
  s.trap sid (hits.map fun (l, c, sub, a) => ⟨l, c, sub, a, p.recPc⟩)

/-- Trap a whole path at its word, which then has popped nothing. -/
def State.trapPath (s : State) (sid : Nat) (p : RunPath) (cause sub : Nat) (addr : Word64) : State :=
  (s.unpop sid p.undo).trapAll sid p.lanes cause sub addr p.recPc

/-- The same of `mx.wait` and `cp.wait`, which leave the entry popped (R234) unless the trap is held (R345). -/
def State.trapPopped (s : State) (sid : Nat) (p : RunPath) (cause sub : Nat) (addr : Word64) : State :=
  s.trapPath sid (if p.lanes.all (s.str sid).holds then p else { p with undo := [] }) cause sub addr

/-- Threads leave a clause at their next PCs; with SSW.SSTEP they then trap (R33). -/
def State.retire (s : State) (sid : Nat) (lanes : List Nat) (next : Nat → Word64) : State :=
  let s := s.modStr sid fun st => st.modThs lanes fun l t => { t with st := .ready, pc := next l }
  if (s.str sid).csr.sstep && !lanes.isEmpty then s.trap sid (lanes.map fun l => ⟨l, 0x91, 0, 0, next l⟩) else s

/-- The loop step (R172): the stack after it and the next PC. -/
def loopStep (stack : List LoopEnt) (hdr nxt : Word64) : List LoopEnt × Word64 :=
  match stack with
  | [] => ([], nxt)
  | t :: rest =>
    if t.e ≠ hdr then (stack, nxt)
    else if t.count - 1 ≠ 0 then ({ t with count := t.count - 1 } :: rest, t.start)
    else match rest with
      | [] => ([], nxt)
      | u :: rest' =>
        if u.e ≠ hdr then (rest, nxt)
        else if u.count - 1 ≠ 0 then ({ u with count := u.count - 1 } :: rest', u.start)
        else (rest', nxt)

/-- Threads leave a clause at its end: `taken` by a transfer, each to its own target; the others complete it (R172) with
the loop step, whose back edges are checked (R82, R442). A back edge has no transfer word: that TEPC of its ILL 0x03 is the clause's
last word, and that the lane keeps its loop stack, is DESIGN CHOICE (log 77). -/
def State.clauseExit (s : State) (sid : Nat) (p : RunPath) (taken : NMap Word64) (lanes : List Nat) : State :=
  let step (s : State) (l : Nat) := loopStep ((s.str sid).th l).loops p.hdrAddr (p.out l)
  let edges := lanes.filter fun l => ((s.str sid).th l).loops.head?.map (·.e) == some p.hdrAddr && (step s l).2 != p.out l
  let (s, bad, unchecked) := edges.foldl (fun (acc : State × List Nat × List Nat) l =>
    match acc.1.target sid (step acc.1 l).2 true with
    | (.ok, s) => (s, acc.2)
    | (.bad, s) => (s, acc.2.1 ++ [l], acc.2.2)
    | (.fault _, s) => (s, acc.2.1, acc.2.2 ++ [l])) (s, [], [])
  let good := lessNat lanes bad
  let next := (good.map fun l => (l, (step s l).2)) ++ taken
  let lastPc := p.hdrAddr + BitVec.ofNat 64 (4 * p.count)
  let hits := bad.map fun l => (⟨l, 0x03, 0, (step s l).2, lastPc⟩ : LaneTrap)
  let s := s.modStr sid fun st => st.modThs good fun l t =>
    { t with loops := (loopStep t.loops p.hdrAddr (p.out l)).1,
             chk := if unchecked.contains l then (next.find? (·.1 == l)).map (·.2) else t.chk }
  let s := s.trap sid hits
  if nhas s.strands sid then
    s.retire sid (p.lanes.filter fun l => next.any (·.1 == l)) fun l => ((next.find? (·.1 == l)).map (·.2)).getD (p.out l)
  else s

/-- Threads complete a clause without a taken transfer. -/
def State.clauseEnd (s : State) (sid : Nat) (p : RunPath) (lanes : List Nat) : State := s.clauseExit sid p [] lanes

/-- A marker stands after the word at hand (R89). -/
def RunPath.marked (p : RunPath) : Bool := bitOf p.hdr.toNat (6 + p.pos)

/-- Use of a word's prefix (R101), 0 without one. -/
def RunPath.use (p : RunPath) : Nat := (p.pfx.map (·.use)).getD 0

/-- A path inside a form with a variable-latency result that has not come to its registers yet: a host atomic with a destination, or
a block load between its words (R89, R192, R200). -/
def Wait.loading : Wait → Bool
  | .host _ d _ _ _ => d != .zero
  | .words _ _ _ _ _ _ => true
  | _ => false

/-- An atomic on host memory whose completions are outstanding: it is unacknowledged (R200). -/
def Wait.hostAtom : Wait → Bool
  | .host _ _ todo _ _ => !todo.isEmpty
  | _ => false

/-- An atomic on host memory that has not ended. -/
def Wait.inHost : Wait → Bool
  | .host _ _ _ _ _ => true
  | _ => false

/-- The strand has pending loads (R89). -/
def Strand.pending (st : Strand) : Bool := !st.fl.loads.isEmpty || st.waits.any (·.on.loading)

/-- Some path of the strand awaits the completion of a host atomic. -/
def Strand.hostAtoms (st : Strand) : Bool := st.waits.any (·.on.hostAtom)

/-- The same of an atomic that a release awaits: one that is not non-ordering (R292). -/
def Strand.hostOrdered (st : Strand) : Bool := st.waits.any fun w => w.on.hostAtom && w.path.use != 2

/-- A switch marker holds a path: loads are pending, or what came of them is due (R89, R352). -/
def Strand.switchHeld (st : Strand) : Bool := st.pending || !st.fl.soft.isEmpty || !st.fl.hostBad.isEmpty

/-- The path goes on past its word: to the next word, to a switch marker's wait, or out of the clause. `hi` is the word
`csr.rd` latched (R272). -/
def State.advanceHi (s : State) (sid : Nat) (p : RunPath) (hi : Option (Nat × Word)) : State :=
  if !nhas s.strands sid || p.lanes.isEmpty then s
  else
    let q := { p with pos := p.pos + 1, pfx := none, hi := hi, resume := none, got := none, undo := [], taken := none }
    if p.marked && (s.str sid).switchHeld then s.await sid { q with prev := p.recPc } .switch
    else if p.pos < p.count then s.addRun ⟨sid, q⟩
    else s.clauseEnd sid p p.lanes

def State.advance (s : State) (sid : Nat) (p : RunPath) : State := s.advanceHi sid p none

/-- A path that has passed a wait goes on at its word, or out of the clause. -/
def State.goOn (s : State) (sid : Nat) (p : RunPath) : State :=
  if p.pos ≤ p.count then s.addRun ⟨sid, p⟩ else s.clauseEnd sid p p.lanes

/-- Some lanes trap at the word, the others go on past it. Lanes whose trap is held have popped nothing (R345). -/
def State.splitOff (s : State) (sid : Nat) (p : RunPath) (hits : List (Nat × Nat × Nat × Word64)) : State :=
  let rest := lessNat p.lanes (hits.map (·.1))
  if hits.isEmpty then s.advance sid p
  else
    let s := s.unpopHeld sid p.undo (hits.map (·.1))
    ((s.modStr sid fun st => st.modThs rest fun l t => { t with pc := p.nextPc l }).trapAt sid p hits).advance sid { p with lanes := rest }

/-- Run a meaning on the path that issues. -/
def onPath (f : Nat → RunPath → State → State) (s : State) : Out State :=
  match s.runs with
  | [] => .fault .noPath
  | r :: rest => if nhas s.strands r.strand then .next (f r.strand r.path { s with runs := rest }) else .fault .noPath

/-! Operands. -/

/-- An operand: its selector and the registers it takes. -/
abbrev Opd := Sel × Nat

/-- Registers an operand names beyond the current frame in some lane (R22). -/
def Strand.outside (st : Strand) (lanes : List Nat) (x : Opd) : Bool :=
  match x.1 with
  | .v n => x.2 != 0 && lanes.any fun l => decide (st.frameSize ≤ (st.th l).wb + n.val + (x.2 - 1))
  | _ => false

/-- The port a selector names. -/
def portOf : Sel → Option Nat
  | .q n => some n.val
  | _ => none

def dedup (l : List Nat) : List Nat := l.foldr insertNat []

/-- The elements of a list, each where it first stands. -/
def firsts (l : List Nat) : List Nat := l.foldl (fun acc x => if acc.contains x then acc else acc ++ [x]) []

/-- What queue ports say of an instruction (R28, R217, R218, R220). -/
inductive PortGate where
  | go
  | wait
  | misuse (port desc : Nat)

/-- Check the ports an instruction pops, in the order of its sources (R137), and pushes. Where several of them fail, the trap names the
first that it pops, and the one it pushes to only where no pop fails (DESIGN CHOICE, notes/assumptions/70.md). -/
def State.portGate (s : State) (sid : Nat) (lanes : List Nat) (pops : List Nat) (push : Option Nat) : PortGate :=
  let st := s.str sid
  let bad (p : Nat) (isPush : Bool) : Option PortGate :=
    match nget st.ports p with
    | none => some (.misuse p 0)
    | some b =>
      match s.liveQ st.team b.desc with
      | none => some (.misuse p b.desc)
      | some q =>
        if q.kind = 3 ∨ (q.kind = 1 ∧ q.count < lanes.length) ∨ (isPush ∧ q.closed) then some (.misuse p b.desc) else none
  let pushes := push.toList
  match (pops.filterMap (bad · false) ++ pushes.filterMap (bad · true)).head? with
  | some g => g
  | none =>
    let popOk := pops.all fun p =>
      match (nget st.ports p).bind fun b => s.liveQ st.team b.desc with
      | some q =>
        -- ports bound to one queue pop one after another
        let same := (pops.filter fun o => (nget st.ports o).map (·.desc) == (nget st.ports p).map (·.desc)).length
        q.closed || decide (q.per lanes.length * same ≤ q.used)
      | none => false
    let pushOk := pushes.all fun p =>
      match nget st.ports p with
      | some b => b.latch.isNone && (match s.liveQ st.team b.desc with
        | some q => s.hasRoom st.team b.desc (q.per lanes.length)
        | none => false)
      | none => false
    if popOk && pushOk then .go else .wait

/-- Make the pops of an instruction: each port's values by lane. -/
def State.makePops (s : State) (sid : Nat) (lanes : List Nat) : List Nat → NMap (NMap Word) × State
  | [] => ([], s)
  | p :: ps =>
    let st := s.str sid
    let (v, s) := s.popQ st.team ((nget st.ports p).getD default).desc lanes
    let (r, s) := s.makePops sid lanes ps
    (nset r p v, s)

/-- The value of a 32-bit register or special operand; k is the place within a run. -/
def State.src (s : State) (sid : Nat) (pops : NMap (NMap Word)) (l : Nat) (sel : Sel) (k site : Nat) : Word :=
  let st := s.str sid
  match sel with
  | .v _ | .o _ => match st.loc l sel k with
    | some r => s.regRead sid r (site * 0x100000 + r.code)
    | none => 0
  | .lr => if k = 0 then ((st.th l).lr).setWidth 32 else ((st.th l).lr >>> 32).setWidth 32
  | .q n => if k = 0 then (nget ((nget pops n.val).getD []) l).getD 0 else 0
  | .zero => 0
  | .laneid => if k = 0 then BitVec.ofNat 32 l else 0
  | .strandid => if k = 0 then BitVec.ofNat 32 st.strandid else 0
  | .roleid => if k = 0 then BitVec.ofNat 32 st.role else 0
  | .teamid => if k = 0 then BitVec.ofNat 32 (s.team st.team).teamid else 0
  | .coreid => if k = 0 then BitVec.ofNat 32 st.core else 0
  | .pkgid => if k = 0 then BitVec.ofNat 32 s.pkgid else 0
  | .ones => if k = 0 then 0xFFFFFFFF else 0
  | .imm c => let v := BitVec.ofInt 32 (Int.ofNat c.toNat - 16); if k = 0 then v else BitVec.sshiftRight v 31

/-- The value of an operand of one or two registers (R29), zero-extended. -/
def State.srcVal (s : State) (sid : Nat) (pops : NMap (NMap Word)) (l : Nat) (x : Opd) (site : Nat) : Word64 :=
  if x.2 ≤ 1 then (s.src sid pops l x.1 0 site).setWidth 64
  else (s.src sid pops l x.1 1 (site + 64)) ++ (s.src sid pops l x.1 0 site)

/-- Every register of a run. -/
def State.srcRun (s : State) (sid : Nat) (l : Nat) (sel : Sel) (n site : Nat) : List Word :=
  (List.range n).map fun k => s.src sid [] l sel k (site + 64 * k)

/-- The source values of each active lane. -/
def State.srcVals (s : State) (sid : Nat) (pops : NMap (NMap Word)) (lanes : List Nat) (xs : List Opd) : NMap (List Word64) :=
  lanes.map fun l => (l, xs.zipIdx.map fun (x, i) => s.srcVal sid pops l x (i + 1))

/-- The registers an operand takes in some lanes. -/
def Strand.opdLocs (st : Strand) (lanes : List Nat) (x : Opd) : List RegLoc :=
  lanes.flatMap fun l => (List.range x.2).filterMap fun k => st.loc l x.1 k

/-- Reads of operands touch registers a matrix operation uses (R231). -/
def State.touchSrcs (s : State) (sid : Nat) (lanes : List Nat) (srcs : List Opd) : State :=
  if (s.coreOf sid).mx.isEmpty && (s.str sid).unread.isEmpty then s else s.mxTouch sid (srcs.flatMap ((s.str sid).opdLocs lanes))

/-- Write registers, which touches them as reads do. -/
def State.regPuts (s : State) (sid : Nat) (ws : List (RegLoc × Word)) : State := (s.regWrites sid ws).mxTouch sid (ws.map (·.1))

/-- The lanes in which some source register holds an uncorrectable soft error, each with the window index of the first (R352). -/
def Strand.softLanes (st : Strand) (lanes : List Nat) (srcs : List Opd) : List (Nat × Nat) :=
  if st.softRegs.isEmpty then []
  else lanes.filterMap fun l => (srcs.flatMap (st.opdLocs [l])).findSome? fun r =>
    if st.softRegs.contains r then some (l, if r.frame = 0 then r.reg else r.reg - (st.th l).wb) else none

/-- Lanes whose source registers hold a soft error trap; the others execute the word afterwards (R352). -/
def State.softGate (s : State) (sid : Nat) (p : RunPath) (srcs : List Opd) (k : State → State) : State :=
  let soft := (s.str sid).softLanes p.lanes srcs
  if soft.isEmpty then k s
  else
    let rest := lessNat p.lanes (soft.map (·.1))
    let s := (s.modFw fun f => { f with serrunc := f.serrunc + BitVec.ofNat 32 soft.length }).trapAt sid p
      (soft.map fun x => (x.1, 0x80, 1, BitVec.ofNat 64 x.2))
    if rest.isEmpty || !nhas s.strands sid then s else s.addRun ⟨sid, { p with lanes := rest }⟩

/-- The pops of an instruction, for their undoing. -/
def State.popsMade (s t : State) (sid : Nat) (lanes pops : List Nat) : List Undo :=
  (dedup (pops.map fun p => ((nget (s.str sid).ports p).getD default).desc)).filterMap fun d =>
    match s.liveQ (s.str sid).team d, t.liveQ (s.str sid).team d with
    | some a, some b => some ⟨d, a.c1, b.c1, lanes, (List.range (sub32 b.c1 a.c1)).map fun i => s.entryWords (s.str sid).team a (a.c1 + i)⟩
    | _, _ => none

/-- The operand phase (R139 steps 1 to 3): a window or port failure traps the whole path, a register with a soft error its lanes,
the others executing the word afterwards (R352); unmet pops or room hold the path; otherwise the pops are made and the form goes
on with each lane's source values. `at'` is the address a register failure reports in a lane: that of a memory form's access
(R186), else a free value. -/
def State.operandsAt (s : State) (sid : Nat) (p : RunPath) (srcs dsts : List Opd) (at' : Nat → Word64)
    (k : RunPath → State → NMap (List Word64) → State) : State :=
  let st := s.str sid
  if (srcs ++ dsts).any (st.outside p.lanes) then
    s.trap sid (p.lanes.map fun l => ⟨l, 0x30, 1, at' l, p.recPc⟩)
  else s.softGate sid p srcs fun s =>
    let pops := firsts (srcs.filterMap fun x => portOf x.1)
    let push := (dsts.filterMap fun x => portOf x.1).head?
    if pops.isEmpty && push.isNone then
      let s := s.touchSrcs sid p.lanes srcs
      k p s (s.srcVals sid [] p.lanes srcs)
    else match s.portGate sid p.lanes pops push with
      | .misuse port desc => s.trapPath sid p 0x61 port (BitVec.ofNat 64 desc)
      | .wait => s.await sid p (.ports pops push)
      | .go =>
        let (vals, t) := s.makePops sid p.lanes pops
        let t := t.touchSrcs sid p.lanes srcs
        k { p with undo := s.popsMade t sid p.lanes pops } t (t.srcVals sid vals p.lanes srcs)

/-- The operand phase of a form that is no memory form. -/
def State.operands (s : State) (sid : Nat) (p : RunPath) (srcs dsts : List Opd)
    (k : RunPath → State → NMap (List Word64) → State) : State :=
  s.operandsAt sid p srcs dsts (fun _ => s.freeW64 0x3000000) k

/-- The operand phase of a form that may wait after it: it is made once, and the path keeps its values. -/
def State.operandsOnce (s : State) (sid : Nat) (p : RunPath) (srcs dsts : List Opd)
    (k : RunPath → State → NMap (List Word64) → State) : State :=
  match p.got with
  | some v => k p s v
  | none => s.operands sid p srcs dsts fun p s v => k { p with got := some v } s v

/-- Registers of one lane's destination of n registers with their values. -/
def Strand.dstWrites (st : Strand) (l : Nat) (d : Sel) (vs : List Word) : List (RegLoc × Word) :=
  vs.zipIdx.filterMap fun (v, k) => (st.loc l d k).map fun r => (r, v)

/-- Write a one- or two-register result to a destination in some lanes; a queue port takes a push (R217). -/
def State.writeDst (s : State) (sid : Nat) (d : Opd) (res : NMap Word64) : State :=
  let st := s.str sid
  match d.1 with
  | .q n =>
    let desc := ((nget st.ports n.val).getD default).desc
    match s.liveQ st.team desc with
    | none => s
    | some q => s.modStr sid fun st => { st with ports := nmod st.ports n.val fun b =>
        { b with latch := some (q.pushWords (res.map fun (l, v) => (l, v.setWidth 32))) } }
  | sel => s.regPuts sid (res.flatMap fun (l, v) =>
      st.dstWrites l sel (if d.2 ≤ 1 then [v.setWidth 32] else [v.setWidth 32, (v >>> 32).setWidth 32]))

/-- A form that computes one result a lane (R137): `f` gives each lane its result or its trap (cause, SUB, address). -/
def State.compute (s : State) (sid : Nat) (p : RunPath) (srcs : List Opd) (d : Opd) (toLr : Bool)
    (f : NMap (List Word64) → Nat → Except (Nat × Nat × Word64) Word64) : State :=
  s.operands sid p srcs [d] fun p s vals =>
    let outs := p.lanes.map fun l => (l, f vals l)
    let res := outs.filterMap fun (l, r) => match r with
      | .ok v => some (l, v)
      | .error _ => none
    let hits := outs.filterMap fun (l, r) => match r with
      | .ok _ => none
      | .error (c, sub, a) => some (l, c, sub, a)
    let s := s.writeDst sid d res
    let s := if toLr then s.modStr sid (·.setLr (res.map fun (l, v) => (l, if d.2 ≤ 1 then (v.setWidth 32).setWidth 64 else v))) else s
    s.splitOff sid p hits

/-! The shapes of the arithmetic forms. All write `lr` (R27). -/

def arg (l : List Word64) (i : Nat) : Word64 := l.getD i 0
def arg32 (l : List Word64) (i : Nat) : Word := (l.getD i 0).setWidth 32

/-- A form whose lanes are independent. -/
def lanewise (srcs : List Opd) (d : Opd) (f : List Word64 → Word64) : State → Out State :=
  onPath fun sid p s => s.compute sid p srcs d true fun vals l => .ok (f ((nget vals l).getD []))

def op1 (f : Word → Word) (d a : Sel) : State → Out State :=
  lanewise [(a, 1)] (d, 1) fun x => (f (arg32 x 0)).setWidth 64
def op2 (f : Word → Word → Word) (d a b : Sel) : State → Out State :=
  lanewise [(a, 1), (b, 1)] (d, 1) fun x => (f (arg32 x 0) (arg32 x 1)).setWidth 64
def op3 (f : Word → Word → Word → Word) (d a b c : Sel) : State → Out State :=
  lanewise [(a, 1), (b, 1), (c, 1)] (d, 1) fun x => (f (arg32 x 0) (arg32 x 1) (arg32 x 2)).setWidth 64
/-- A form that reads its destination first. -/
def op1d (f : Word → Word → Word) (d a : Sel) : State → Out State :=
  lanewise [(d, 1), (a, 1)] (d, 1) fun x => (f (arg32 x 0) (arg32 x 1)).setWidth 64
def op2d (f : Word → Word → Word → Word) (d a b : Sel) : State → Out State :=
  lanewise [(d, 1), (a, 1), (b, 1)] (d, 1) fun x => (f (arg32 x 0) (arg32 x 1) (arg32 x 2)).setWidth 64
/-- 64-bit sources and result. -/
def op2w (f : Word64 → Word64 → Word64) (d a b : Sel) : State → Out State :=
  lanewise [(a, 2), (b, 2)] (d, 2) fun x => f (arg x 0) (arg x 1)

end Sys2Proof.Machine
end

