-- ==== Sys2Proof/Machine/Waits.lean ====
section
/-! DEFINITION. WAIT masks (03_fetch_and_formats.md R88) and the traps that fall due where a path waits for its loads,
stores or fabric operations (13_traps_preemption.md R352; 09_isa_async_system.md R267). -/

namespace Sys2Proof.Machine

/-- Scope and order of a word's prefix (R101); without one those given. -/
def RunPath.scopeOr (p : RunPath) (d : Nat) : Nat := (p.pfx.map (·.scope)).getD d
def RunPath.order (p : RunPath) : Nat := (p.pfx.map (·.order)).getD 0

/-- Copy and matrix tokens of the core that a strand holds. -/
def State.cpHeld (s : State) (sid : Nat) : List (Nat × CpTok) := (s.coreOf sid).cp.filter fun t => t.2.strand == sid
def State.mxHeld (s : State) (sid : Nat) : List (Nat × MxTok) := (s.coreOf sid).mx.filter fun t => t.2.strand == sid
def MxSt.busy : MxSt → Bool
  | .queued | .array | .drain => true
  | _ => false

/-- The LSN a strand sees applied: the package's, or that of its context's replay replica (R419). -/
def State.appliedLsn (s : State) (sid : Nat) : Nat :=
  match (s.ctxOf sid).ck.replay with
  | some r => r.lsn
  | none => s.loop.applied

/-- A post of a strand is complete (R258). -/
def State.postDone (s : State) (sid : Nat) (x : PostSt) : Bool :=
  match x.lsn with
  | some l => decide (l ≤ s.appliedLsn sid)
  | none => false

/-- The conditions of a WAIT mask hold for a strand (R88). -/
def State.maskHolds (s : State) (sid m : Nat) : Bool :=
  let st := s.str sid
  (!bitOf m 0 || !st.pending) &&
  (!bitOf m 1 || (st.fl.stores.isEmpty && !st.hostAtoms)) &&
  (!bitOf m 2 || (s.cpHeld sid).all fun t => t.2.st != .busy) &&
  (!bitOf m 3 || (s.mxHeld sid).all fun t => !t.2.st.busy) &&
  (!bitOf m 4 || st.fl.fabs.all fun f => f.2.done) &&
  (!bitOf m 5 || st.fl.posts.all fun x => s.postDone sid x.2) &&
  (!bitOf m 6 || ((st.ports.all fun p => p.2.latch.isNone) &&
    st.waits.all fun w => match w.on with
      | .ports (_ :: _) _ => false
      | _ => true))

/-- Passing a wait mask with bit 3 acquires what the strand's ended operations have written, as `mx.wait` does: it counts as the return from
`mx.wait` for them (R88, R231, R285; DEDUCED, notes/assumptions/71.md). -/
def State.passMask (s : State) (sid m : Nat) : State :=
  if !bitOf m 3 then s
  else s.modCoreOf sid fun c => { c with mx := nall c.mx fun _ t =>
    if t.strand = sid ∧ (t.st = .done ∨ t.st = .aborted) then { t with waited := unionNat [sid] t.waited } else t }

/-- Traps due in lanes that wait for loads (`ld`), for stores or at a release (`st'`), or at a fabric completion point. -/
def Strand.due (st : Strand) (lanes : List Nat) (ld st' fab : Bool) : List (Nat × Nat × Nat × Word64) :=
  let pick (c sub : Nat) (xs : List (Nat × Nat)) : List (Nat × Nat × Nat × Word64) :=
    lanes.filterMap fun l => (xs.find? (·.1 == l)).map fun x => (l, c, sub, BitVec.ofNat 64 x.2)
  let f := if fab then match st.fl.fabFails with
    | x :: _ => lanes.map fun l => (l, 0x54, x.cause, x.remote)
    | [] => []
    else []
  if !f.isEmpty then f
  else
    let a := if ld then pick 0x80 0x82 st.fl.soft else []
    let b := if ld then pick 0xB0 0 st.fl.hostBad else []
    let c := if st' then pick 0xB0 0 st.fl.hostLost else []
    lanes.filterMap fun l => (a ++ b ++ c).find? (·.1 == l)

/-- Forget what a trap that was not held has reported. -/
def Strand.clearDue (st : Strand) (lanes : List Nat) (ld st' fab : Bool) : Strand :=
  if lanes.any st.holds then st
  else
    let keep (xs : List (Nat × Nat)) := xs.filter fun x => !lanes.contains x.1
    if fab && !st.fl.fabFails.isEmpty then { st with fl := { st.fl with fabFails := [] } }
    else { st with fl := { st.fl with
      soft := if ld then keep st.fl.soft else st.fl.soft
      hostBad := if ld then keep st.fl.hostBad else st.fl.hostBad
      hostLost := if st' then keep st.fl.hostLost else st.fl.hostLost } }

/-- Raise what is due at a path; `pc` gives a cause's recorded PC in a lane. The other lanes go on. -/
def State.raiseDue (s : State) (sid : Nat) (p : RunPath) (pc : Nat → Nat → Word64) (ld st' fab : Bool)
    (k : RunPath → State → State) : State :=
  let hits := (s.str sid).due p.lanes ld st' fab
  if hits.isEmpty then k p s
  else
    let rest := lessNat p.lanes (hits.map (·.1))
    let s := if rest.isEmpty then s.unpop sid p.undo else s
    let s := s.modStr sid (·.clearDue (hits.map (·.1)) ld st' fab)
    let s := s.trap sid (hits.map fun (l, c, sub, a) => ⟨l, c, sub, a, pc c l⟩)
    if rest.isEmpty || !nhas s.strands sid then s else k { p with lanes := rest } s

/-- The recorded PC of what is due at a word (R352): the next word for a soft error, else the word. -/
def RunPath.duePc (p : RunPath) (cause l : Nat) : Word64 := if cause = 0x80 then p.nextPc l else p.recPc

/-! Waits inside an instruction. -/

/-- Go on with a word once a condition holds; until then the path waits. -/
def State.waitFor (s : State) (sid : Nat) (p : RunPath) (cond : Bool) (on : Wait) (k : State → State) : State :=
  if cond then k s else s.await sid p on

/-- A fabric operation that a release at a scope does not await: a get, one that is done or non-ordering; and below `.pod` every one but a
commutative atomic, which any release publishes (R196, R248, R291, R292). -/
def FabSt.passes (scope : Nat) (f : FabSt) : Bool := f.get || f.done || f.use == 2 || (decide (scope < 4) && f.use != 1)

/-- Every store and atomic of a strand is performed at a scope, but for non-ordering ones; at `.pod` and `.sys` its puts and
remote atomics are acknowledged too (R196, R205, R292). -/
def Strand.released (st : Strand) (scope : Nat) : Bool :=
  (st.fl.stores.all fun p => p.use == 2) && !st.hostOrdered && st.fl.fabs.all fun f => f.2.passes scope

/-- Every commutative and quantum atomic of a strand is published (R205, R291). -/
def Strand.merged (st : Strand) : Bool :=
  (st.fl.stores.all fun x => x.use != 1 && x.use != 3) && st.fl.fabs.all fun f => f.2.done || f.2.use != 1

/-- A release by a path at a scope, with the lost stores it reports (R352). -/
def State.releaseAt (s : State) (sid : Nat) (p : RunPath) (scope : Nat) (k : RunPath → State → State) : State :=
  s.waitFor sid p ((s.str sid).released scope) (.release scope) fun s => s.raiseDue sid p p.duePc false true (decide (4 ≤ scope)) k

/-- An acquire at a scope makes the core's read cache stale from `.pkg` on (R278). -/
def State.acquireAt (s : State) (core scope : Nat) : State := if 3 ≤ scope then s.staleCache core else s

/-- An acquire of the strand has not returned (R196). -/
def Strand.acqHeld (st : Strand) : Bool :=
  st.fl.loads.any (·.acq.isSome) || (st.fl.fabs.any fun f => f.2.acq.isSome && !f.2.done) ||
  st.waits.any fun w => (w.on.inHost || w.on.loading) && (w.path.order == 1 || w.path.order == 3)

/-- A release by an atomic: it also awaits the strand's earlier loads (R196). -/
def State.releaseAtomic (s : State) (sid : Nat) (p : RunPath) (scope : Nat) (k : RunPath → State → State) : State :=
  s.waitFor sid p (!(s.str sid).pending && (s.str sid).released scope) (.relAtom scope) fun s =>
    s.raiseDue sid p p.duePc false true (decide (4 ≤ scope)) k

/-- A form that an acquire of the strand holds until it has returned (R196). -/
def heldPath (f : Nat → RunPath → State → State) : State → Out State :=
  onPath fun sid p s =>
    match p.resume with
    | none | some .acqHold => s.waitFor sid p (!(s.str sid).acqHeld) .acqHold (f sid p)
    | some _ => f sid p s

/-- Outstanding requests of a strand: lanes of loads, stores and atomics that have not completed, and the words that its block loads are
still to read. -/
def Strand.requests (st : Strand) : Nat :=
  (st.fl.loads.map fun l => max 1 l.vaddr.length).sum + (st.fl.stores.map fun p => max 1 p.vaddr.length).sum +
  (st.waits.map fun w => match w.on with
    | .words _ left lanes _ _ _ => left.length * lanes.length
    | .host _ _ todo _ _ => todo.length
    | _ => 0).sum

/-- Outstanding memory requests of a core (R2), with those that strands have left behind. -/
def State.requests (s : State) (core : Nat) : Nat :=
  (s.strands.map fun x => if x.2.core = core then x.2.requests else 0).sum +
  (s.orphans.map fun o => if o.core = core then max 1 o.store.vaddr.length else 0).sum

/-- A memory word may issue: its n requests fit among the 8,192 a core can have outstanding. -/
def State.reqRoom (s : State) (core n : Nat) : Bool := decide (s.requests core + n ≤ 8192)

/-- A `fence full` of the strand waits for stores, which come before every later load of the strand (R205). -/
def Strand.fullHeld (st : Strand) : Bool :=
  st.waits.any fun w => match w.on with
    | .full sc => !st.released sc
    | _ => false

/-- A memory form: an acquire of the strand holds it, a load also a `fence full`, and so does a core without room for its requests,
`per` of each lane. -/
def memPath (ld : Bool) (per : Nat) (f : Nat → RunPath → State → State) : State → Out State :=
  onPath fun sid p s =>
    let st := s.str sid
    let n := per * p.lanes.length
    let go := s.waitFor sid p (s.reqRoom st.core n) (.reqRoom n) (f sid p)
    match p.resume with
    | none | some .acqHold | some .fenceHold =>
      s.waitFor sid p (!st.acqHeld) .acqHold fun _ => s.waitFor sid p (!(ld && st.fullHeld)) .fenceHold fun _ => go
    | some (.reqRoom _) => go
    | some _ => f sid p s

end Sys2Proof.Machine
end

