-- ==== Sys2Proof/Machine/Issue.lean ====
section
/-! DEFINITION. CLAUSE_ISSUE: choosing a path (01_machine_state.md R10 to R13), breakpoints (16 R413), the WAIT mask (03
R88), and the decode checks of a whole clause (03 R105, R106). -/

namespace Sys2Proof.Machine

/-! Raw fields of a word. -/

def rawMajor (w : Nat) : Nat := bitsOf w 31 27
def rawFunc (w : Nat) : Nat := bitsOf w 26 21

/-- A class admits a major (R85); `nop` is admitted by classes 0 to 6. -/
def admits (cls w : Nat) : Bool :=
  let m := rawMajor w
  if m = 0 ∧ rawFunc w = 0 then decide (cls ≤ 6)
  else match cls with
    | 0 => (1 ≤ m && m ≤ 9) || m == 15 || m == 22 || m == 23
    | 1 => m == 10 || m == 11 || m == 12 || m == 27
    | 2 => m == 17 || m == 18
    | 3 => m == 0 || m == 13 || m == 14 || m == 16 || m == 24
    | 4 => m == 19 || m == 20 || m == 21 || m == 27
    | 5 => m == 25 || m == 26
    | 6 => decide (m ≤ 27)
    | _ => false

/-- A control transfer (R86): any BR form, `jr`, `callr`, `ret`, `exit`, `reform`. -/
def isTransfer (w : Nat) : Bool := rawMajor w == 13 || (rawMajor w == 14 && decide (rawFunc w ≤ 4))

/-- Forms that must be the first word of their clause (R173, R174): `rbar`, `scope.open`, `scope.close`. -/
def isFirstOnly (w : Nat) : Bool := (rawMajor w == 14 && rawFunc w == 6) || (rawMajor w == 24 && decide (rawFunc w ≤ 1))

/-- A prefix and its target agree (R101 to R103, R199, R248). -/
def prefixFits (pw tw : Nat) : Bool :=
  let scope := bitsOf pw 26 24
  let order := bitsOf pw 23 22
  let use := bitsOf pw 21 19
  let hint := bitsOf pw 18 17
  let m := rawMajor tw
  let f := rawFunc tw
  let op := bitsOf tw 26 23
  scope < 6 && use < 5 && hint < 3 && bitsOf pw 16 0 == 0 &&
  (match m with
   | 10 => decide (order ≤ 1) && use == 0
   | 11 => (order == 0 || order == 2) && use == 0
   | 12 =>
     (use == 0 || order == 0) && (!(use == 1 || use == 3) || bitsOf tw 22 16 == 0x58) &&
     (match use with
      | 1 => op ≤ 7 || op == 10
      | 3 => op == 0 || op == 10
      | _ => true)
   | 20 =>
     scope == 4 && use == 0 && hint == 0 &&
     (match f with
      | 0 => decide (order ≤ 1)
      | 1 | 4 | 9 => order == 0 || order == 2
      | 2 | 3 => true
      | _ => false)
   | 21 =>
     (scope == 4 || scope == 5) &&
     (match f with
      | 0 => (order == 0 || order == 2) && use == 0
      | 1 => decide (order ≤ 1) && use == 0
      | 2 => hint == 0 && (use == 0 || (order == 0 && (use == 2 || use == 4 || (use == 1 && bitsOf tw 20 14 == 0x58))))
      | 3 => hint == 0 && (use == 0 || (order == 0 && (use == 2 || use == 4)))
      | _ => false)
   | _ => false)

/-- Privileged to system contexts (R111): `lp.launch`, `tlb.inv`, `tlb.probe`, `dbg.halt`. -/
def isPrivileged (w : Nat) : Bool :=
  (rawMajor w == 20 && rawFunc w == 9) || (rawMajor w == 26 && (rawFunc w == 4 || rawFunc w == 5 || rawFunc w == 6))

/-- Majors that write `lr` (R27). -/
def writesLr (w : Nat) : Bool :=
  let m := rawMajor w
  (1 ≤ m && m ≤ 9) || m == 15 || m == 22 || m == 23

/-- What the checks know of the strand that issues. -/
structure IssueCtx where
  lead : Bool
  sys : Bool
  maps : List Nat      -- live maps of the kernel

/-- The first of checks 3 to 10 that word k (1 to n) of a clause fails: its order number and cause (R105). -/
def wordFails (c : IssueCtx) (hdr : Nat) (ws : List Nat) (k : Nat) : Option (Nat × Nat) :=
  let n := ws.length
  let w := ws.getD (k - 1) 0
  let cls := bitsOf hdr 6 4
  let dec := decodeWord w
  if dec == .error .reservedMajor then some (3, 0x00)
  else if dec == .error .unassigned then some (4, 0x00)
  else if !admits cls w || (c.lead && rawMajor w == 14 && (rawFunc w == 4 || rawFunc w == 5)) then some (5, 0x01)
  else if (isTransfer w && !(k == n && (cls == 3 || cls == 6))) || (isFirstOnly w && k != 1) then some (6, 0x01)
  else if rawMajor w == 27 && (k == n || bitOf hdr (6 + k) || !prefixFits w (ws.getD k 0)) then some (7, 0x01)
  else match dec with
    | .error _ => some (8, 0x01)
    | .ok i =>
      let mapMissing := match i with
        | .reform m => !c.maps.contains m.toNat
        | _ => false
      let notLast := match i with
        | .tret | .tkill _ => k != n
        | _ => false
      if mapMissing || notLast then some (8, 0x01)
      else if (sources i).contains .lr && (k == 1 || !writesLr (ws.getD (k - 2) 0)) then some (9, 0x02)
      else if isPrivileged w && !c.sys then some (10, 0x04)
      else none

/-- The first failing word of a clause: its number, the order number of the check, the cause. -/
def clauseFails (c : IssueCtx) (hdr : Nat) (ws : List Nat) : Option (Nat × Nat × Nat) :=
  (List.range ws.length).findSome? fun k => (wordFails c hdr ws (k + 1)).map fun x => (k + 1, x)

/-- Check 2 of R105 on a header. -/
def headerFails (lead : Bool) (h : Nat) : Bool :=
  let n := hdrCount h
  bitsOf h 6 4 == 7 || bitsOf h 31 30 == 3 || (bitsOf h 31 30 == 2 && !lead) || bitOf h 29 ||
  bitsOf h 21 7 / 2 ^ n != 0 || (n == 0 && h != 0)

/-- The clause that holds word w of a line: start word and count; w its header or one of its words (R109). A quad that SMAP marks
after a count-0 header holds a clause when a transfer names it: R80 makes the rest of the line padding, and R79 rejects no such
line (DESIGN CHOICE, notes/assumptions/27.md). -/
def clauseAt (line : List Word) (w : Nat) : Option (Nat × Nat) :=
  (List.range 8).findSome? fun q =>
    let h := startWord q
    let n := hdrCount (wordAt line h)
    if bitOf (lineSmap line) q && decide (h ≤ w) && decide (w ≤ h + n) then some (h, n) else none

/-- What the checks know of a strand. -/
def State.issueCtx (s : State) (sid : Nat) : IssueCtx :=
  ⟨(s.str sid).isLead, (s.ctxOf sid).sys, nkeys (s.gridOf sid).kd.liveMaps⟩

/-- The position of a PC from a thread's anchor (R409). -/
def Thread.offset (t : Thread) (pc : Word64) : Word :=
  let d := (pc - t.anchorPc).toInt
  if -(2 ^ 31) ≤ d ∧ d < 2 ^ 31 then BitVec.ofInt 32 d else 0x80000000

/-- The breakpoint that matches a path about to issue a word at a PC (R413). -/
def State.bpMatch (s : State) (sid : Nat) (lanes : List Nat) (pc : Word64) : Option (Nat × Nat) :=
  let st := s.str sid
  let ctx := (s.gridOf sid).ctx
  s.dbg.bps.findSome? fun (k, b) =>
    if b.en && b.ctx == ctx then
      (lanes.find? fun l => (st.th l).pass != some pc && (st.th l).anchorOrd == b.ord && (st.th l).offset pc == b.off).map fun l => (k, l)
    else none

/-- The STOP record of a strand (R414). -/
def State.stopRecord (s : State) (sid lane : Nat) (pc : Word64) (lanes : List Nat) (why bp : Nat) : State :=
  let st := s.str sid
  let t := st.th lane
  s.debugRecord 1 st.core (slotIndex (s.gridOf sid).kd st.role st.strandid) (s.gridOf sid).ctx
    (leBytes 4 t.anchorOrd.toNat ++ leBytes 4 (t.offset pc).toNat ++ leBytes 8 pc.toNat ++ leBytes 4 (laneMask lanes) ++
      leBytes 1 why ++ leBytes 1 bp ++ leBytes 2 0 ++ leBytes 4 (s.teamOf sid).teamid)

/-- A breakpoint match halts the context and records it; the threads stay before the word. -/
def State.breakAt (s : State) (sid : Nat) (lanes : List Nat) (pc : Word64) (hit : Nat × Nat) : State :=
  ((s.debugHalt (s.gridOf sid).ctx 2 hit.1).stopRecord sid hit.2 pc lanes 2 hit.1).modStr sid fun st =>
    st.modThs lanes fun _ t => { t with pass := some pc }

/-- The recorded PC of what is due at a clause's WAIT mask (R351, R352): the first word, which is the next word for a soft error and
the word at hand for a lost access (DEDUCED, notes/assumptions/15.md); the header for a failed fabric operation. -/
def duePcAtMask (hdrAddr : Word64) (n cause : Nat) : Word64 := if cause = 0x54 ∨ n = 0 then hdrAddr else hdrAddr + 4

/-- Decode the clause at a path's PC and start it, the WAIT mask having held or not applying. A breakpoint on the clause's first word is
looked for before the clause is decoded (R413, R426). The mask is waited for before the checks of R105 are made; the spec gives these two no
order (DESIGN CHOICE, notes/assumptions/68.md). Where a trap return resumes inside a clause, check 1 records the resume word in TEPC and
TADDR, which R106 leaves open (DESIGN CHOICE, notes/assumptions/69.md). A path that starts inside a clause, at a
trap return, does so with no loop's end clause to skip to: of a lane whose `loop` count was zero and that trapped later in the same
clause the spec does not say that its way out of the clause is kept (DESIGN CHOICE, notes/assumptions/28.md). -/
def State.startClause (s : State) (sid : Nat) (lanes : List Nat) (pc : Word64) (second : Bool) : State :=
  let a := pc.toNat
  let va := a / 128 * 128
  let w := a % 128 / 4
  match s.fetchLine sid va with
  | (.error (c, sub), s) => s.trapAll sid lanes c sub pc pc
  | (.ok line, s) =>
    let atHeader := match quadOf w with
      | some q => bitOf (lineSmap line) q
      | none => false
    match (if atHeader && hdrCount (wordAt line w) ≠ 0 then s.bpMatch sid lanes (pc + 4) else none) with
    | some hit => (s.modStr sid fun st => st.modThs lanes fun _ t => { t with st := .ready }).breakAt sid lanes (pc + 4) hit
    | none =>
    if !lineOk va line then s.trapAll sid lanes 0x01 1 pc pc
    else
      let unchecked := lanes.filter fun l => ((s.str sid).th l).chk == some pc && !bitOf (lineTmap line) ((quadOf w).getD 8)
      if !unchecked.isEmpty then
        let s := s.modStr sid fun st => st.modThs (lessNat lanes unchecked) fun _ t => { t with st := .ready }
        s.trapAll sid unchecked 0x03 0 pc pc
      else match clauseAt line w with
      | none => if w = 1 then s.trapAll sid lanes 0x01 1 pc pc else s.trapAll sid lanes 0x03 0 pc pc
      | some (h, n) =>
          let hdr := wordAt line h
          let hdrAddr : Word64 := BitVec.ofNat 64 (va + 4 * h)
          let nxt : Word64 := BitVec.ofNat 64 (seqSucc va line h n)
          let pos := if atHeader then 1 else w - h
          let path : RunPath :=
            { lanes := lanes, hdrAddr := hdrAddr, hdr := BitVec.ofNat 32 hdr,
              words := (List.range n).map fun i => line.getD (h + 1 + i) 0,
              nxt := nxt, pos := pos, pfx := none, hi := none, resume := none, entered := pos, got := none, skips := [],
              second := second }
          let mask := bitsOf hdr 28 22
          let start (p : RunPath) (s : State) : State :=
            if headerFails (s.str sid).isLead hdr then s.trapAll sid p.lanes 0x01 2 hdrAddr hdrAddr
            else if n = 0 then s.modStr sid fun st => st.modThs p.lanes fun _ t => { t with st := .ready, pc := BitVec.ofNat 64 (va + 128 + 4) }
            else match clauseFails (s.issueCtx sid) hdr (p.words.map BitVec.toNat) with
              | some (k, sub, c) => s.trapAll sid p.lanes c sub (hdrAddr + BitVec.ofNat 64 (4 * k)) hdrAddr
              | none => (s.modStr sid fun st => st.modThs p.lanes fun _ t => if t.chk == some pc then { t with chk := none } else t).addRun ⟨sid, p⟩
          if !atHeader then start path s
          else if s.maskHolds sid mask then
            (s.passMask sid mask).raiseDue sid path (fun c _ => duePcAtMask hdrAddr n c) (bitOf mask 0) (bitOf mask 1) (bitOf mask 4) start
          else s.await sid { path with pos := 0 } (.mask mask)

/-- The paths of a strand's ready threads (R11, R343): PC and lanes, in ascending PC. -/
def Strand.paths (st : Strand) : List (Word64 × List Nat) :=
  let ready := st.lanes.filter fun x => x.2.st == .ready
  let keys := ready.foldl (fun ks x =>
    let k := (x.2.pc.toNat, st.group x.1)
    if ks.contains k then ks else ks ++ [k]) ([] : List (Nat × Nat))
  let groups := keys.map fun k => (k, (ready.filter fun x => x.2.pc.toNat == k.1 && st.group x.1 == k.2).map (·.1))
  (sortBy (fun a b => decide (a.1.1 < b.1.1 ∨ (a.1.1 = b.1.1 ∧ a.1.2 ≤ b.1.2))) groups).map fun g => (BitVec.ofNat 64 g.1.1, g.2)

/-- A path's starvation count (R13): the largest of its threads'. -/
def Strand.starve (st : Strand) (lanes : List Nat) : Nat := lanes.foldl (fun m l => max m (st.th l).starve) 0

/-- Among some paths, the second path of R12: the starving one that has waited longest, else the one with the lowest PC. -/
def Strand.secondOf (st : Strand) (paths : List (Word64 × List Nat)) : Option (Word64 × List Nat) :=
  match paths.filter fun x => decide (1024 ≤ st.starve x.2) with
  | [] => paths.head?
  | x :: xs => some (xs.foldl (fun b y => if st.starve b.2 < st.starve y.2 then y else b) x)

/-- The path a strand offers at a fetch port (R12): the first, or the second. `beside` says that its first path is issuing already, so
that the second is one of all that are ready. -/
def Strand.offer (st : Strand) (second beside : Bool) : Option (Word64 × List Nat) :=
  if !second then st.paths.head? else st.secondOf (if beside then st.paths else st.paths.tail)

/-- The context of a strand is debug-halted, or its team is (R367, R410). -/
def State.haltedStrand (s : State) (sid : Nat) : Bool := (s.ctxOf sid).dbg.halted || (s.teamOf sid).ptoHalted

/-- Paths of a strand that issue. -/
def State.issuing (s : State) (sid : Nat) : List Run := s.runs.filter (·.strand == sid)

/-- A strand may begin a clause at a fetch port: it stands, is not halted, fewer than two of its paths issue, and none at that port
(R12). -/
def State.mayIssue (s : State) (sid : Nat) (second : Bool) : Bool :=
  nhas s.strands sid && !s.haltedStrand sid && decide ((s.issuing sid).length < 2) && (s.issuing sid).all fun r => r.path.second != second

/-- Threads that wait for the mask of the clause a path begins, while it holds, go with the path: threads at one PC form one (R11). -/
def State.joinMasks (s : State) (sid : Nat) (pc : Word64) (lanes : List Nat) : List Nat × State :=
  let st := s.str sid
  let mine (w : WaitPath) : Bool := match w.on with
    | .mask m => w.path.hdrAddr == pc && st.group (lowest w.path.lanes) == st.group (lowest lanes) && s.maskHolds sid m
    | _ => false
  (unionNat ((st.waits.filter mine).flatMap (·.path.lanes)) lanes, s.modStr sid fun st => { st with waits := st.waits.filter (!mine ·) })

/-- CLAUSE_ISSUE: args strand, and 1 for the second path; then, as codes, registers that an uncorrectable soft error has struck (R352). -/
def State.clauseIssue (s : State) (sid : Nat) (second : Bool) (soft : List RegLoc) : State :=
  let st := s.str sid
  if !s.mayIssue sid second then s
  else match st.offer second (!(s.issuing sid).isEmpty) with
    | none => s
    | some (pc, lanes) =>
      match s.bpMatch sid lanes pc with
      | some hit => s.breakAt sid lanes pc hit
      | none =>
        let s := s.modStr sid fun st => { st with
          aged := 0
          softRegs := st.softRegs ++ soft
          lanes := st.lanes.map fun (l, t) => if lanes.contains l then (l, { t with st := .run, starve := 0 }) else (l, t) }
        match st.bindErr with
        | some (port, off) =>
          (s.modStr sid fun st => { st with bindErr := none }).trapAll sid lanes 0x61 port (BitVec.ofNat 64 off) pc
        | none =>
          let (lanes, s) := s.joinMasks sid pc lanes
          s.startClause sid lanes pc second

def execClauseIssue (s : State) : Out State :=
  .next (s.clauseIssue (s.arg 0) (s.arg 1 == 1) ((s.args.drop 2).map regOfCode))

/-! Issue ports (R85). -/

/-- The port a word needs: V0 or V1, V1 alone, or M. -/
inductive IssuePort where
  | v | v1 | m
  deriving DecidableEq, Repr

/-- The port of a word in a clause of a class. -/
def issuePort (cls w : Nat) : IssuePort :=
  let vector := cls == 0 || (cls == 6 && rawMajor w != 0 && admits 0 w)
  if !vector then .m
  else if rawMajor w == 15 || (rawMajor w == 5 && decide (7 ≤ rawFunc w) && decide (rawFunc w ≤ 15)) then .v1 else .v

/-- The port of the first word that a path at a PC would issue; of a path that cannot start a clause, M. -/
def State.pathPort (s : State) (sid : Nat) (pc : Word64) : IssuePort :=
  match (s.fetchLine sid (pc.toNat / 128 * 128)).1 with
  | .error _ => .m
  | .ok line =>
    let w := pc.toNat % 128 / 4
    match clauseAt line w with
    | none => .m
    | some (h, n) => if n = 0 then .m else issuePort (bitsOf (wordAt line h) 6 4) (wordAt line (if w = h then h + 1 else w))

end Sys2Proof.Machine
end

