-- ==== Sys2Proof/Machine/Frames.lean ====
section
/-! DEFINITION. Register frames (11_scheduling_launch.md R320 to R322), reform bins (01_machine_state.md R14 to R19), and
what happens when a strand has no thread left (R10, R170, R175). -/

namespace Sys2Proof.Machine

/-! Frame blocks (R320). -/

/-- Units of the block a frame of n registers takes. -/
def frameUnits (n : Nat) : Nat := 2 ^ clog2 ((n + 7) / 8)

/-- Units of a register file: a partition's or a lead slot's. -/
def fileUnits (part : Nat) : Nat := if part < 4 then 128 else 32

/-- The blocks taken in a register file of a core: first unit and units. -/
def State.blocks (s : State) (core part : Nat) : List (Nat × Nat) :=
  (s.strands.flatMap fun x => if x.2.core = core then x.2.frames.filterMap fun f =>
    if f.part = part then some (f.base, frameUnits f.size) else none else []) ++
  ((s.core core).bins.filterMap fun b => if b.2.frame.part = part then some (b.2.frame.base, frameUnits b.2.frame.size) else none)

/-- Free units of a register file. -/
def State.freeUnits (s : State) (core part : Nat) : Nat := fileUnits part - ((s.blocks core part).map (·.2)).sum

/-- The lowest free block for a frame of n registers. -/
def State.findBlock (s : State) (core part n : Nat) : Option Nat :=
  let u := frameUnits n
  let taken := s.blocks core part
  ((List.range (fileUnits part / u)).map (· * u)).find? fun b => taken.all fun t => decide (b + u ≤ t.1) || decide (t.1 + t.2 ≤ b)

/-- When the strands' `scope.open` requests that wait in a register file were made (R320). -/
def State.openRequests (s : State) (core part : Nat) : List Nat :=
  s.strands.flatMap fun x => if x.2.core = core ∧ x.2.part = part then x.2.waits.filterMap fun w => match w.on with
    | .frameSpace _ since => some since
    | _ => none
  else []

/-- The frame sizes that wait for space in a register file, of `scope.open` and, in the partition where bins open, of filings: in the
order of R320. -/
def State.waitingFrames (s : State) (core part : Nat) (bins : Bool) : List Nat :=
  let opens := s.strands.flatMap fun x => if x.2.core = core ∧ x.2.part = part then x.2.waits.filterMap fun w => match w.on with
      | .frameSpace n since => some (since, n)
      | _ => none
    else []
  let files := s.strands.flatMap fun x => if bins ∧ x.2.core = core ∧ !(s.team x.2.team).saving then x.2.waits.filterMap fun w => match w.on with
      | .file _ _ since => ((s.gridOf x.1).kd.roles[x.2.role]?).map fun r => (since, r.frame)
      | _ => none
    else []
  ((sortBy (fun a b => decide (a.1 ≤ b.1)) opens) ++ sortBy (fun a b => decide (a.1 ≤ b.1)) files).map (·.2)

/-- When the filings that wait on a core were begun, of teams that may file. -/
def State.fileRequests (s : State) (core : Nat) : List Nat :=
  s.strands.flatMap fun x => if x.2.core = core ∧ !(s.team x.2.team).saving then x.2.waits.filterMap fun w => match w.on with
    | .file _ _ since => some since
    | _ => none
  else []

/-- A frame whose contents are undefined (R23), or zero. -/
def newFrame (uid size part base : Nat) (undef : Bool) (wbs : NMap Nat) : Frame :=
  ⟨uid, size, if undef then some uid else none, [], part, base, wbs, []⟩

/-- Take a number for a frame. -/
def State.takeUid (s : State) : Nat × State := (s.ids.uid, s.modIds fun i => { i with uid := i.uid + 1 })

/-- A matrix operation that has not ended names a frame (R229). -/
def State.frameNamed (s : State) (core uid : Nat) : Bool :=
  (s.core core).mx.any fun (_, t) => t.st != .done && t.st != .aborted && (t.acc ++ t.aReg).any (·.frame == uid)

/-- A frame is an accumulator between `mx.go` and the matching `mx.wait` (R25). -/
def State.frameAcc (s : State) (core uid : Nat) : Bool := (s.core core).mx.any fun (_, t) => t.acc.any (·.frame == uid)

/-- The compactor runs in a register file: one of the requests that wait there, in the order of R320, is one that the free units of the
file suffice for and no block can meet; and the oldest cannot be met yet (R320, R321). -/
def State.compacting (s : State) (core part : Nat) (requests : List Nat) : Bool :=
  (requests.any fun n => decide (frameUnits n ≤ s.freeUnits core part) && (s.findBlock core part n).isNone) &&
  (requests.head?.bind (s.findBlock core part)).isNone

/-- The compactor moves a frame to the lowest free block of its size. A move makes room only towards lower units, so it stops when no
frame it may move (R25) has a lower free block (R321). -/
def State.compact (s : State) (core part uid : Nat) (requests : List Nat) : State :=
  if !s.compacting core part requests || s.frameAcc core uid then s
  else match s.strands.findSome? fun x => if x.2.core = core ∧ !(s.team x.2.team).saving then
      (x.2.frames.find? fun f => f.uid == uid && f.part == part).map fun f => (x.1, f) else none with
    | none => s
    | some (sid, f) =>
      match s.findBlock core part f.size with
      | none => s
      | some b => if f.base ≤ b then s else s.modStr sid fun st => { st with frames := st.frames.map fun g => if g.uid = uid then { g with base := b } else g }

/-! Bins. -/

/-- The role record of a kernel; role 4 is the lead. -/
def KDesc.role (kd : KDesc) (r : Nat) : Role := if r = 4 then kd.lead.getD default else kd.roles.getD r default

/-- A condition of R16 holds for a bin. -/
def State.binDue (s : State) (b : Bin) : Bool :=
  b.threads.length == 32 || b.fired || !(s.teamStrands b.team).any fun x => x.2.role == b.role && !x.2.finished

/-- Note when a condition came to hold. -/
def State.settleBins (s : State) (core : Nat) : State :=
  if (s.core core).bins.isEmpty then s
  else
    let mark (b : Bin) : Bin := if b.readyAt.isNone && s.binDue b then { b with readyAt := some s.cycle } else b
    s.modCore core fun c => { c with bins := nall c.bins fun _ b => mark b }

/-- A bin's frame with the registers of thread i in it. -/
def Frame.takeThread (f : Frame) (i : Nat) (t : Filing) : Frame :=
  let zero := if t.defined then (List.range f.size).map fun j => (j, (0 : Word)) else []
  { f with cells := (zero ++ t.regs).foldl (fun m x => nset m (32 * x.1 + i) x.2) f.cells }

/-- The partition a bin opens in (R322): most free units, then the lowest number. -/
def State.binPart (s : State) (core : Nat) : Nat :=
  [1, 2, 3].foldl (fun p q => if s.freeUnits core p < s.freeUnits core q then q else p) 0

/-- File one thread of a strand (R14), if a place can be had; `since` is when its filing began. -/
def State.fileOne (s : State) (sid : Nat) (t : Filing) (since : Nat) : Option State :=
  let st := s.str sid
  let team := s.team st.team
  let c := s.core st.core
  if team.saving then none
  else match c.bins.find? fun b => b.2.team == st.team && b.2.role == st.role && b.2.pc == t.key && decide (b.2.threads.length < 32) with
    | some (k, b) =>
      let b := { b with frame := b.frame.takeThread b.threads.length t, threads := b.threads ++ [t] }
      some ((s.modCore st.core fun c => { c with bins := nset c.bins k b }).settleBins st.core)
    | none =>
      let k := nfree c.bins 0 16
      let part := s.binPart st.core
      let size := ((s.gridOf sid).kd.role st.role).frame
      if 16 ≤ k ∨ !(s.openRequests st.core part).isEmpty ∨ (s.fileRequests st.core).any (· < since) then none
      else match s.findBlock st.core part size with
        | none => none
        | some base =>
          let (uid, s) := s.takeUid
          let f := (newFrame uid size part base true []).takeThread 0 t
          let b : Bin := ⟨st.team, st.role, t.key, [t], f, 0, false, none⟩
          some ((s.modCore st.core fun c => { c with bins := nset c.bins k b }).settleBins st.core)

/-- File threads in order until one must wait; those left. A thread that leaves its strand is then filed (R15). -/
def State.fileSome (s : State) (sid : Nat) (leave : Bool) (since : Nat) : List Filing → List Filing × State
  | [] => ([], s)
  | t :: ts =>
    match s.fileOne sid t since with
    | none => (t :: ts, s)
    | some s => (if leave then s.modStr sid fun st => st.modTh t.lane fun x => { x with st := .filed } else s).fileSome sid leave since ts

/-! A strand without threads. -/

/-- A trap level whose sub-strand has no thread left ends, once the stores issued before are performed, as `tret` awaits them (R170,
R344, R350). -/
def State.settleLevels (s : State) (sid : Nat) : State :=
  let gone (ls : List Nat) : Bool := (s.str sid).fl.stores.isEmpty && ls.all fun l => !((s.str sid).th l).live
  let s := if (s.str sid).csr.tlevel = 2 ∧ gone (s.str sid).csr.s2 then s.endLevel sid else s
  if (s.str sid).csr.tlevel = 1 ∧ gone (s.str sid).csr.s1 then s.endLevel sid else s

/-- Unbind a port whose latch is empty (R222). -/
def State.unbindPort (s : State) (sid port : Nat) : State :=
  let st := s.str sid
  match nget st.ports port with
  | none => s
  | some b => (s.modStr sid fun st => { st with ports := ndel st.ports port }).settleQueue st.team b.desc

/-- Give back the frames of a finished strand that no matrix operation names (R229). -/
def State.dropFrames (s : State) (sid : Nat) : State :=
  s.modStr sid fun st => if st.finished then { st with frames := st.frames.filter fun f => s.frameNamed st.core f.uid } else st

/-- A matrix token becomes FREE: its queues are released, and paths that wait on it have seen its end (R234). -/
def State.freeMxTok (s : State) (core k : Nat) : State :=
  match nget (s.core core).mx k with
  | none => s
  | some t =>
    let ended := t.st == .done || t.st == .aborted
    let go (w : WaitPath) : WaitPath := match w.on with
      | .mx j _ => if ended && j == k then { w with on := .mxDone (t.record.setWidth 32) } else w
      | _ => w
    let taboo (sid : Nat) (st : Strand) : List (Nat × Nat) :=
      if t.waited.contains sid || st.waits.any (fun w => w.on == .mx k true || w.on == .mx k false) then []
      else ((t.acc ++ t.aReg).filter (·.strand == sid)).flatMap fun x => x.regs.map fun r => (x.frame, r)
    let s := { s with strands := nall s.strands fun sid st =>
      if st.core = core ∧ st.team = t.team then { st with waits := st.waits.map go, unread := taboo sid st ++ st.unread } else st }
    let s := s.modCore core fun c => { c with mx := ndel c.mx k }
    let s := if t.par.aq then s.unrefEngine t.team t.par.aaddr k else s
    let s := (nkeys (s.team t.team).queues).foldl (fun s d => s.unrefEngine t.team d (32 + k)) s
    (s.teamStrands t.team).foldl (fun s x => s.dropFrames x.1) s

/-- The same of a copy token (R253). -/
def State.freeCpTok (s : State) (core k : Nat) : State :=
  match nget (s.core core).cp k with
  | none => s
  | some t =>
    let go (w : WaitPath) : WaitPath := match w.on with
      | .cp j _ => if t.st == .done && j == k then { w with on := .mxDone t.status } else w
      | _ => w
    let s := { s with strands := nall s.strands fun _ st =>
      if st.core = core ∧ st.team = t.team then { st with waits := st.waits.map go } else st }
    let s := s.modCore core fun c => { c with cp := ndel c.cp k }
    if t.form = 3 then s.unrefEngine t.team ((cpDesc t.desc).dst % 2 ^ 32) (64 + k) else s

/-- Retire the tokens of a finished strand from which a reform took threads (R175): those complete or stopped by a fault. -/
def State.dropTokens (s : State) (sid : Nat) : State :=
  let st := s.str sid
  if !st.finished then s
  else
    let s := ((s.cpHeld sid).filter fun t => t.2.st != .busy).foldl (fun s t => s.freeCpTok st.core t.1) s
    ((s.mxHeld sid).filter fun t => !t.2.st.busy).foldl (fun s t => s.freeMxTok st.core t.1) s

/-- What follows when threads have left a strand: trap levels end, and of a finished strand the ports are unbound and
frames given back, and bins of its role may launch. -/
def State.settleStrand (s : State) (sid : Nat) : State :=
  if !nhas s.strands sid then s
  else
    let s := s.settleLevels sid
    let st := s.str sid
    if !st.finished then s
    else
      let src := (s.gridOf sid).src
      let s := if st.reformed then s.dropTokens sid else s
      let s := st.fl.fabFails.foldl (fun s f =>
        s.event (s.evqOf src) 6 (src.queue.getD none32) (s.gridOf sid).ctx f.cause f.remote.toNat) s
      let s := s.modStr sid fun st => { st with fl := { st.fl with fabFails := [] } }
      let s := (st.ports.filter fun p => p.2.latch.isNone).foldl (fun s p => s.unbindPort sid p.1) s
      (s.dropFrames sid).settleBins st.core

/-- The 32 strand slots of a partition are taken (R2). -/
def State.slotsFull (s : State) (core part : Nat) : Bool :=
  decide (32 ≤ (s.strands.filter fun x => x.2.core == core && x.2.part == part && !x.2.finished).length)

/-- Launch a bin (R16, R34): args core, bin. A launch needs a strand number of the role and one of the partition's 32 strand slots (R2, R16;
DEDUCED, notes/assumptions/26.md). -/
def State.binLaunch (s : State) (core k : Nat) : State :=
  match nget (s.core core).bins k with
  | none => s
  | some b =>
    let team := s.team b.team
    let g := s.grid team.grid
    let role := g.kd.role b.role
    let mates := s.teamStrands b.team
    let busy := (mates.filter fun x => x.2.role == b.role && !x.2.finished).map (·.2.strandid)
    let before := (s.core core).bins.any fun (j, o) => o.team == b.team && o.role == b.role && j != k &&
      (match o.readyAt, b.readyAt with
       | some x, some y => decide (x < y) || (x == y && decide (j < k))
       | _, _ => false)
    if b.readyAt.isNone || before || s.slotsFull core b.frame.part || (s.ctx g.ctx).dbg.halted || team.ptoHalted then s
    else match (List.range role.strands).find? fun i => !busy.contains i with
      | none => s
      | some strandid =>
        let first := (mates.filter fun x => x.2.role == b.role).foldl (fun (m : Option Strand) x => match m with
          | none => some x.2
          | some y => if x.2.serial < y.serial then some x.2 else m) none
        let (dzt, sstep, dgon) := match nget team.finals b.role with
          | some f => f
          | none => match first with
            | some y => (y.csr.dzt, y.csr.sstep, y.csr.dgon)
            | none => (true, false, false)
        let tsave : Word64 := match g.kd.tsave with
          | some i => BitVec.ofNat 64 (((s.ctx g.ctx).prog.plan.getD i default).va + 1024 * slotIndex g.kd b.role strandid)
          | none => 0
        let serial := (mates.map (·.2.serial + 1)).foldl max 0
        let seq := s.nextSeq core b.frame.part
        let st : Strand :=
          { team := b.team, core := core, part := b.frame.part, role := b.role, strandid := strandid,
            lanes := b.threads.zipIdx.map fun (t, i) => (i, { t.thread with st := .ready, pc := b.pc }),
            frames := [b.frame], ports := [],
            csr := { dzt := dzt, sstep := sstep, dgon := dgon, tsave := tsave },
            fl := {}, waits := [], seq := seq, aged := 0, stopping := team.saving, bindErr := none, serial := serial, passed := [] }
        let s := { s with strands := nset s.strands s.ids.sid st }.modIds fun i => { i with sid := i.sid + 1 }
        s.modCore core fun c => { c with bins := ndel c.bins k }

def execBinLaunch (s : State) : Out State := .next (s.binLaunch (s.arg 0) (s.arg 1))

/-- BIN_AGE_TIMER_EXPIRY (R16): args core, bin. -/
def State.binAge (s : State) (core k : Nat) : State :=
  match nget (s.core core).bins k with
  | none => s
  | some b =>
    let age := (s.grid (s.team b.team).grid).kd.age
    if (if age = 0 then 2000 else age) ≤ b.age then
      (s.modCore core fun c => { c with bins := nmod c.bins k fun b => { b with fired := true } }).settleBins core
    else s

def execBinAgeTimerExpiry (s : State) : Out State := .next (s.binAge (s.arg 0) (s.arg 1))

end Sys2Proof.Machine
end

