-- ==== Sys2Proof/Machine/Queue.lean ====
section
/-! DEFINITION. Queue instructions and the writing of push latches (08_isa_queues_matrix_drain.md R219 to R224). -/

namespace Sys2Proof.Machine

/-- Own posted atomics still to be performed on bytes lo to hi - 1, of a lane or of any. -/
def Strand.rmwOn (st : Strand) (lane : Option Nat) (lo hi : Nat) : Bool :=
  st.fl.stores.any fun p => p.rmws.any fun r =>
    (lane.isNone || lane == some r.lane) && decide (r.addr < hi) && decide (lo < r.addr + (if r.op = 10 ∨ r.op = 11 then 8 else 4))

/-- The descriptor of a port, if it is bound to a live queue. -/
def State.portQ (s : State) (sid port : Nat) : Option (Nat × LiveQ) :=
  match nget (s.str sid).ports port with
  | none => none
  | some b => (s.liveQ (s.str sid).team b.desc).map fun q => (b.desc, q)

/-- SYNC 0x61 by a whole path. -/
def State.qMisuse (s : State) (sid : Nat) (p : RunPath) (port desc : Nat) : State := s.trapPath sid p 0x61 port (BitVec.ofNat 64 desc)

/-- A form on the live queue of a port; an unbound port is misuse. -/
def onPort (port : BitVec 3) (dsts : List Opd) (f : Nat → RunPath → Nat → LiveQ → State → State) : State → Out State :=
  onPath fun sid p s => s.operands sid p [] dsts fun p s _ =>
    match s.portQ sid port.toNat with
    | none => s.qMisuse sid p port.toNat 0
    | some (desc, q) => f sid p desc q s

/-- The same where the queue must be a slot queue. -/
def onSlots (port : BitVec 3) (dsts : List Opd) (f : Nat → RunPath → Nat → LiveQ → State → State) : State → Out State :=
  onPort port dsts fun sid p desc q s => if q.kind ≠ 3 then s.qMisuse sid p port.toNat desc else f sid p desc q s

/-- Give every active lane a word. -/
def State.giveAll (s : State) (sid : Nat) (p : RunPath) (d : Sel) (v : Word) : State :=
  s.writeDst sid (d, 1) (p.lanes.map fun l => (l, v.setWidth 64))

/-- A form that has waited for a token may take one (R218): one is free, and the queue that its number is pushed to has room or says misuse. -/
def State.tokenTurn (s : State) (sid : Nat) (p : RunPath) (push : Option Nat) (free : Bool) : Bool :=
  match s.portGate sid p.lanes [] push with
  | .go => free
  | .wait => false
  | .misuse _ _ => true

/-- The same as the form's own step, which looks at the port again (R220). -/
def State.takeToken (s : State) (sid : Nat) (p : RunPath) (push : Option Nat) (free : Bool) (on : Wait) (k : State → State) : State :=
  match s.portGate sid p.lanes [] push with
  | .misuse port desc => s.qMisuse sid p port desc
  | .wait => s.await sid p on
  | .go => s.waitFor sid p free on k

def execQBind (n : BitVec 3) (b : Sel) : State → Out State :=
  onPath fun sid p s => s.operandsOnce sid p [(b, 1)] [] fun p s vals =>
    let st := s.str sid
    let x := (arg32 ((nget vals (lowest p.lanes)).getD []) 0).toNat
    let x64 : Word64 := BitVec.ofNat 64 x
    let pa := (s.team st.team).phys x
    if x % 32 ≠ 0 then s.trapPath sid p 0x31 0 x64
    else if (s.gridOf sid).kd.spSize < x + 32 then s.trapPath sid p 0x30 0 x64
    else if nhas st.ports n.toNat then s.qMisuse sid p n.toNat x
    else if st.rmwOn none pa (pa + 32) then s.await sid p (.rmwHold pa (pa + 32))
    else
      let m := s.walkMem sid
      if !s.canLive st.team x m then s.qMisuse sid p n.toNat x
      else
        ((s.makeLive st.team x m).modStr sid fun st => { st with ports := nset st.ports n.toNat ⟨x, none⟩ }).advance sid p

def execQUnbind (n : BitVec 3) : State → Out State :=
  onPath fun sid p s =>
    match nget (s.str sid).ports n.toNat with
    | none => s.qMisuse sid p n.toNat 0
    | some b => s.waitFor sid p b.latch.isNone (.latch n.toNat) fun s => (s.unbindPort sid n.toNat).advance sid p

def execQAlloc (d : Sel) (n : BitVec 3) : State → Out State :=
  onSlots n [(d, 1)] fun sid p desc q s =>
    if q.closed then s.qMisuse sid p n.toNat desc
    else if !q.canAlloc then s.await sid p (.slotAlloc n.toNat)
    else
      let s := s.modQ (s.str sid).team desc fun q => { q with c0 := (q.c0 + 1) % 2 ^ 32 }
      (s.giveAll sid p d (BitVec.ofNat 32 (q.entryOff q.c0))).advance sid p

def execQTake (d : Sel) (n : BitVec 3) : State → Out State :=
  onSlots n [(d, 1)] fun sid p desc q s =>
    if q.canTake then
      let s := s.modQ (s.str sid).team desc fun q => { q with c2 := (q.c2 + 1) % 2 ^ 32 }
      (s.giveAll sid p d (BitVec.ofNat 32 (q.entryOff q.c2))).advance sid p
    else if q.closed then (s.giveAll sid p d 0xFFFFFFFF).advance sid p
    else s.await sid p (.slotTake n.toNat)

/-- Earlier loads have returned and earlier stores are performed at `.team` (R219). -/
def Strand.settled (st : Strand) : Bool := !st.pending && st.released 1

/-- A slot release: `q.post` or `q.give`. -/
def slotRelease (n : BitVec 3) (none' : LiveQ → Bool) (f : LiveQ → LiveQ) : State → Out State :=
  onSlots n [] fun sid p desc q s =>
    if none' q then s.qMisuse sid p n.toNat desc
    else s.waitFor sid p (s.str sid).settled (.slotRelease n.toNat) fun s =>
      s.raiseDue sid p p.duePc false true false fun p s => (s.modQ (s.str sid).team desc f).advance sid p

def execQPost (n : BitVec 3) : State → Out State :=
  slotRelease n (fun q => q.c1 == q.c0) fun q => { q with c1 := (q.c1 + 1) % 2 ^ 32 }
def execQGive (n : BitVec 3) : State → Out State :=
  slotRelease n (fun q => q.c3 == q.c2) fun q => { q with c3 := (q.c3 + 1) % 2 ^ 32 }

def execQCnt (d : Sel) (n : BitVec 3) : State → Out State :=
  onPort n [(d, 1)] fun sid p _ q s =>
    let c := if q.kind = 3 then sub32 q.c1 q.c2 else q.used
    (s.giveAll sid p d (if q.closed ∧ c = 0 then 0xFFFFFFFF else BitVec.ofNat 32 c)).advance sid p

def execQClose (n : BitVec 3) : State → Out State :=
  onPort n [] fun sid p desc _ s =>
    match nget (s.str sid).ports n.toNat with
    | none => s.qMisuse sid p n.toNat 0
    | some b => s.waitFor sid p b.latch.isNone (.latch n.toNat) fun s =>
      (s.modQ (s.str sid).team desc fun q => { q with closed := true }).advance sid p

/-- PUSH_LATCH_WRITE (R219): args strand, port. -/
def State.latchWrite (s : State) (sid port : Nat) : State :=
  let st := s.str sid
  match nget st.ports port with
  | none => s
  | some b =>
    match b.latch with
    | none => s
    | some ws =>
      if !st.settled then s
      else
        let s := s.writePush st.team b.desc ws
        (s.modStr sid fun st => { st with ports := nmod st.ports port fun b => { b with latch := none } }).settleStrand sid

def execPushLatchWrite (s : State) : Out State := .next (s.latchWrite (s.arg 0) (s.arg 1))

end Sys2Proof.Machine
end

