-- ==== Sys2Proof/Machine/Access.lean ====
section
/-! DEFINITION. What a load of a strand reads (07_isa_memory_sync.md R189; 10_memory_model.md R278, R282), and the reach of
the memory forms (R187). -/

namespace Sys2Proof.Machine

/-- A byte as a load of a strand reads it: its own thread's pending stores first (R282), then the region's point of coherence
or the read cache. A live queue's bytes are undefined (R215). -/
def State.loadByte (s : State) (sid : Nat) (lane : Option Nat) (pa site : Nat) : Byte :=
  match ((s.str sid).overCells lane).reverse.find? (·.1 == pa) with
  | some c => c.2
  | none =>
    if s.liveByte pa then Config.freeByte s.tick (site + pa)
    else match regionOf pa with
      | .locket => s.locketByte (s.gridOf sid).ctx pa
      | .tier2 => s.cachedByte (s.str sid).core pa site
      | _ => s.mem.read pa

/-- A byte as a form other than LD reads it: at its point of coherence, past the read cache, which only LD forms use (R278). -/
def State.pocByte (s : State) (sid : Nat) (pa site : Nat) : Byte :=
  match ((s.str sid).overCells none).reverse.find? (·.1 == pa) with
  | some c => c.2
  | none =>
    if s.liveByte pa then Config.freeByte s.tick (site + pa)
    else if regionOf pa = .locket then s.locketByte (s.gridOf sid).ctx pa else s.mem.read pa

/-- The bytes of translated parts as such a form reads them, a strand's own pending stores first. -/
def State.pocParts (s : State) (sid : Nat) (site : Nat) (ps : List XPart) : List Byte :=
  ps.flatMap fun p => if regionOf p.pa = .control then s.physBytes p.pa p.len
    else (List.range p.len).map fun i => s.pocByte sid (p.pa + i) site

/-- A and D bits, and what reading clears, for such a form's reads. The core's read cache gives up the lines that were read past it, so that
no later load of the thread finds an older value there (R289). -/
def State.pocTouch (s : State) (sid : Nat) (ps : List XPart) : State :=
  ps.foldl (fun s p => (s.noteRead p.pa p.len).dropLines (s.str sid).core (cellsAt p.pa (List.replicate p.len 0)))
    ((s.usePartsOf sid .read ps).reachedParts (s.str sid).core ps)

/-- Load the bytes of translated parts for a lane. -/
def State.loadParts (s : State) (sid : Nat) (lane : Option Nat) (site : Nat) (ps : List XPart) : List Byte :=
  ps.flatMap fun p => (List.range p.len).map fun i => s.loadByte sid lane (p.pa + i) site

/-- What a load leaves of the read cache. -/
def State.loadTouch (s : State) (sid site : Nat) (ps : List XPart) : State :=
  ps.foldl (fun s p => s.touchLines (s.str sid).core p.pa p.len site) s

/-- A memory form. -/
inductive Acc where
  | ld | st | atom
  deriving DecidableEq, Repr, Inhabited

/-- Check 7 of R186 and R187 for a physical address, or the locket's write protection. -/
def reach (sys : Bool) (acc : Acc) (pa : Nat) : Option Nat :=
  match regionOf pa with
  | .tier1 | .tier2 | .host => none
  | .locket => if acc = .ld then none else some 0x21
  | .control => if sys && acc != .atom then none else some 0x32
  | .nowhere => some 0x32

/-- Translate the parts of an access, page by page in ascending order (R186 checks 5 to 7): the parts before the first that
fails, and its failure as cause, SUB and address. -/
def State.accessParts (s : State) (sid : Nat) (acc : Acc) (site : Nat) :
    List (Nat × Nat) → List XPart × Option (Nat × Nat × Nat)
  | [] => ([], none)
  | (va, n) :: rest =>
    let ctx := (s.gridOf sid).ctx
    match s.xlate (s.walkMem sid) ctx (s.str sid).core va (if acc = .ld then .read else .write) (site + va) with
    | .error e => ([], some (e.cause, e.sub false, va))
    | .ok x =>
      match reach (s.ctx ctx).sys acc x.pa with
      | some c => ([], some (c, 0, va))
      | none =>
        let (ps, f) := s.accessParts sid acc site rest
        (⟨va, x.pa, n, x⟩ :: ps, f)

end Sys2Proof.Machine
end

