-- ==== Sys2Proof/Machine/Log.lean ====
section
/-! DEFINITION. Loop records as bytes (14_chaend_loop.md R376, R378), the order log of a context and the replay replica
(16_debug_determinism.md R418, R419), and posts of strands (09_isa_async_system.md R258). -/

namespace Sys2Proof.Machine

/-! Records. -/

/-- CRC-64 (R128): ECMA-182 reflected, initial value and final mask all ones. -/
def crc64 (bs : List Byte) : Word64 :=
  let bit (c : Word64) (_ : Nat) : Word64 := if c.getLsbD 0 then (c >>> 1) ^^^ 0xC96C5795D7870F42 else c >>> 1
  ~~~(bs.foldl (fun c b => (List.range 8).foldl bit (c ^^^ b.setWidth 64)) (~~~0))

/-- A record's 64 bytes (R376). -/
def LRec.bytes (r : LRec) : List Byte :=
  let body := leBytes 1 r.ty ++ leBytes 1 r.src ++ leBytes 1 r.len ++ leBytes 1 r.seq ++ leBytes 4 r.arg ++
    (r.payload ++ leBytes 48 0).take 48
  body ++ leBytes 8 (crc64 body).toNat

/-- A record from its bytes. -/
def recOfBytes (b : List Byte) : LRec :=
  let n (o k : Nat) := leNat ((b.drop o).take k)
  ⟨n 0 1, n 4 4, n 3 1, n 1 1 % 32, n 2 1 % 64, (b.drop 8).take 48⟩

/-- Two records say the same but for their SEQ. -/
def LRec.same (a b : LRec) : Bool := a.ty == b.ty && a.arg == b.arg && a.len == b.len && a.payload == b.payload

/-! The order log. -/

/-- Append an entry to a context's order log (R418), from its first checkpoint on; while it replays, nothing is logged. -/
def State.log (s : State) (ctx kind ectx : Nat) (body : List Byte) : State :=
  let c := s.ctx ctx
  if c.ck.stored.isEmpty || c.ck.replay.isSome then s
  else
    let pad := (16 - body.length % 16) % 16
    let bs := leBytes 1 kind ++ leBytes 1 0 ++ leBytes 2 body.length ++ leBytes 4 ectx ++ leBytes 8 s.cycle ++ body ++ leBytes pad 0
    if c.dbg.logsize * 65536 < c.ck.logpos + bs.length then
      (s.modCtx ctx fun c => { c with dbg := { c.dbg with full := true } }).debugRecord 6 0xFF 0xFF ctx (leBytes 4 c.dbg.count)
    else (s.putCells (cellsAt (c.dbg.logbase + c.ck.logpos) bs)).modCtx ctx fun c =>
      { c with ck := { c.ck with logpos := c.ck.logpos + bs.length } }

/-- Every context's log takes an entry. -/
def State.logAll (s : State) (kind : Nat) (ectx : Nat → Nat) (body : List Byte) : State :=
  (nkeys s.ctxs).foldl (fun s c => s.log c kind (ectx c) body) s

/-- A log entry. -/
structure LogEnt where
  kind : Nat
  ctx : Nat
  body : List Byte
  next : Nat           -- offset of the entry after it
  deriving DecidableEq, Repr, Inhabited

/-- The entry at an offset. -/
def State.logAt (s : State) (ctx off : Nat) : Option LogEnt :=
  let c := s.ctx ctx
  if c.ck.logpos ≤ off then none
  else
    let a := c.dbg.logbase + off
    let n := s.mem.readLe (a + 2) 2
    some ⟨s.mem.readLe a 1, s.mem.readLe (a + 4) 4, s.mem.readN (a + 16) n, off + 16 + (n + 15) / 16 * 16⟩

/-- The first entry from an offset on that a test accepts: its offset and itself. -/
def State.logFind (s : State) (ctx : Nat) (ok : LogEnt → Bool) : Nat → Nat → Option (Nat × LogEnt)
  | 0, _ => none
  | f + 1, off =>
    match s.logAt ctx off with
    | none => none
    | some e => if ok e then some (off, e) else s.logFind ctx ok f e.next

/-- No log holds more entries. -/
def State.logFuel (s : State) (ctx : Nat) : Nat := (s.ctx ctx).ck.logpos / 16 + 1

/-! Applying records to locket bytes (R259). -/

/-- The word of an ATOMIC and what it becomes. -/
def atomicNew (r : LRec) (m : Nat) : Nat :=
  let b := leNat (r.payload.take 8)
  let x := leNat ((r.payload.drop 8).take 8)
  if bitOf r.arg 24 then (if m = x then b else m) else (m + b) % 2 ^ 64

/-- What a WRITE or ATOMIC changes, the bytes being read by `rd`: locket offset and bytes. -/
def LRec.effect (r : LRec) (rd : Nat → Byte) : Nat × List Byte :=
  let o := r.arg % 2 ^ 24
  if r.ty = 1 then (o, r.payload.take r.len)
  else if r.ty = 2 then (o, leBytes 8 (atomicNew r (leNat ((List.range 8).map fun i => rd (o + i)))))
  else (o, [])

/-- A post's atomic result reaches its strand (R259): the pending registers may land. -/
def State.atomicReturn (s : State) (sid h : Nat) (m : Nat) : State :=
  let give (x : PendLoad) : PendLoad :=
    if x.on = .post h then
      { x with on := .ready, writes := x.writes.map fun (r, hi) => (r, if hi = 0 then BitVec.ofNat 32 m else BitVec.ofNat 32 (m / 2 ^ 32)) }
    else x
  s.modStr sid fun st => { st with fl := { st.fl with loads := st.fl.loads.map give } }

/-! Replay (R419). -/

def State.modReplay (s : State) (ctx : Nat) (f : Replay → Replay) : State :=
  s.modCtx ctx fun c => { c with ck := { c.ck with replay := c.ck.replay.map f } }

/-- The context's replica takes the next logged record. -/
def State.replayOne (s : State) (ctx : Nat) (r : Replay) (off : Nat) (e : LogEnt) : State :=
  let x := recOfBytes e.body
  let rd (o : Nat) : Byte := (nget r.cells o).getD 0
  let (o, bs) := x.effect rd
  let m := leNat ((List.range 8).map fun i => rd (o + i))
  let cells := (cellsAt o bs).foldl (fun (c : List Host.Cell) y => if (s.ctx ctx).allots y.1 then nset c y.1 y.2 else c) r.cells
  let s := s.modReplay ctx fun r => { r with cells := cells, lsn := r.lsn + 1, pos := e.next }
  match r.waits.find? fun w => w.2.2 == off with
  | some (sid, h, _) => if x.ty = 2 then s.atomicReturn sid h m else s
  | none => s

/-- Advance the replica until a condition holds or the log ends. -/
def State.replayTo (s : State) (ctx : Nat) (until' : Replay → Bool) : Nat → State
  | 0 => s
  | f + 1 =>
    match (s.ctx ctx).ck.replay with
    | none => s
    | some r =>
      if until' r then s
      else match s.logFind ctx (fun e => e.kind == 1) (s.logFuel ctx) r.pos with
        | none => s
        | some (off, e) => (s.replayOne ctx r off e).replayTo ctx until' f

/-- The replica advances as a wait of the context for an LSN requires; without a replay nothing happens. -/
def State.wantLsn (s : State) (ctx lsn : Nat) : State := s.replayTo ctx (fun r => decide (lsn ≤ r.lsn)) (s.logFuel ctx)

/-- The LSN of the logged record at an offset: the replica's, and the loop records from there to it. -/
def State.logLsn (s : State) (ctx : Nat) (r : Replay) (target : Nat) : Nat :=
  let rec count (off n : Nat) : Nat → Nat
    | 0 => n
    | f + 1 =>
      match s.logAt ctx off with
      | none => n
      | some e => if target < off then n else count e.next (if e.kind = 1 then n + 1 else n) f
  count r.pos r.lsn (s.logFuel ctx)

/-- A replay ends at a post without a match: the context is halted and a STOP record names the strand. -/
def State.replayFails (s : State) (sid : Nat) (p : RunPath) : State :=
  let ctx := (s.gridOf sid).ctx
  let s := s.modCtx ctx fun c => { c with ck := { c.ck with replay := none } }
  (s.debugHalt ctx 4 0).stopRecord sid (lowest p.lanes) p.wordPc p.lanes 4 0

/-! Posts of strands. -/

/-- A post of a strand is complete, by its handle. -/
def State.postComplete (s : State) (sid h : Nat) : Bool := (nget (s.str sid).fl.posts h).any (s.postDone sid)

/-- No thread has, on locket bytes that it is to load, a post that is not complete or an `lp.ld` that has not read yet: its own accesses of
a word follow coherence in program order (R257, R282, R298). Accesses: lane, first physical byte, one past the last. -/
def State.locketFree (s : State) (sid : Nat) (at' : List (Nat × Nat × Nat)) : Bool :=
  let meets (lane off len : Nat) : Bool := at'.any fun a => a.1 == lane && regionOf a.2.1 == .locket &&
    decide (a.2.1 < locketBase + off + len) && decide (locketBase + off < a.2.2)
  ((s.str sid).fl.posts.all fun x => s.postDone sid x.2 || x.2.lanes.all fun l => !meets l x.2.off x.2.len) &&
  (s.str sid).fl.loads.all fun x => match x.on with
    | .posts _ => x.vaddr.all fun v => !meets v.1 x.off 8
    | _ => true

/-- Every post of the strand complete: what a replay must apply for that. -/
def State.wantPosts (s : State) (sid : Nat) : State :=
  let top := ((s.str sid).fl.posts.map fun x => x.2.lsn.getD 0).foldl max 0
  s.wantLsn (s.gridOf sid).ctx top

/-- Make a post under a number (R258): the record in the post queue, or matched in the log of a replay. -/
def State.makePost (s : State) (sid : Nat) (p : RunPath) (h ty arg len : Nat) (payload : List Byte) : State :=
  let ctx := (s.gridOf sid).ctx
  let put (l : Option Nat) (s : State) : State :=
    let x : PostSt := ⟨l, arg % 2 ^ 24, if ty = 1 then len else if ty = 2 then 8 else 0, p.lanes⟩
    (s.reached 6).modStr sid fun st => { st with fl := { st.fl with posts := nset st.fl.posts h x } }
  match (s.ctx ctx).ck.replay with
  | none => (put none s).post ty arg len payload (.strand sid h) ctx
  | some r =>
    match s.logFind ctx (fun e => e.kind == 1 && e.ctx == ctx) (s.logFuel ctx) r.ppos with
    | none => (put none s).replayFails sid p
    | some (off, e) =>
      let mine : LRec := ⟨ty, arg, 0, s.pkgid, len, (payload ++ leBytes 48 0).take 48⟩
      if !(recOfBytes e.body).same mine then (put none s).replayFails sid p
      else (put (some (s.logLsn ctx r off)) s).modReplay ctx fun r => { r with ppos := e.next, waits := (sid, h, off) :: r.waits }

/-- Make a post that takes a handle of the strand (R258): the handle, and the state. -/
def State.strandPost (s : State) (sid : Nat) (p : RunPath) (ty arg len : Nat) (payload : List Byte) : Nat × State :=
  let h := (s.str sid).fl.postCount
  (h, (s.makePost sid p h ty arg len payload).modStr sid fun st => { st with fl := { st.fl with postCount := (h + 1) % 2 ^ 32 } })

end Sys2Proof.Machine
end

