-- ==== Sys2Proof/Machine/Lp.lean ====
section
/-! DEFINITION. Loop instructions (09_isa_async_system.md R256 to R260). -/

namespace Sys2Proof.Machine

/-! Posts that are held (R258), in the order of their issue. -/

/-- The place of a held post: one that waits at its gate or for room. -/
def Wait.heldPost : Wait → Option Nat
  | .gate n | .postRoom n => some n
  | _ => none

/-- The held posts of a strand, those about to go on included. -/
def State.heldPosts (s : State) (sid : Nat) : List Nat :=
  ((s.str sid).waits.filterMap fun w => w.on.heldPost) ++
  s.runs.filterMap fun r => if r.strand = sid then r.path.resume.bind Wait.heldPost else none

/-- The next place among them. -/
def State.holdNext (s : State) (sid : Nat) : State :=
  s.modStr sid fun st => { st with fl := { st.fl with gateSeq := st.fl.gateSeq + 1 } }

/-- A pending `lp.ld`. -/
def PendLoad.ofLocket (x : PendLoad) : Bool :=
  match x.on with
  | .posts _ => true
  | _ => false

/-- Some thread of the lanes has a pending `lp.ld` that is still to read: no later post of it comes into the loop order before that
(R282, R297). -/
def Strand.unreadLocket (st : Strand) (lanes : List Nat) : Bool :=
  st.fl.loads.any fun x => x.ofLocket && x.vaddr.any fun v => lanes.contains v.1

/-- A post at its place among the held posts may pass its gate. -/
def State.gateOpen (s : State) (sid n : Nat) (lanes : List Nat) (gated : Bool) : Bool :=
  ((s.heldPosts sid).all fun k => decide (n ≤ k)) && !(s.str sid).unreadLocket lanes && (!gated || (s.str sid).released 4)

/-- The post queue takes a post of a strand (R258): it has room, or the loop is lost, or its context is replayed. -/
def State.postFits (s : State) (sid : Nat) : Bool :=
  decide (s.loop.postq.length < 1024) || s.loop.st == .down || (s.ctxOf sid).ck.replay.isSome

/-- The waits of a post (R258): the strand's earlier posts, its own gate, which it clears, then room in the post queue, for which it
waits without looking at the gate again. A lost loop takes every post. -/
def State.postGate (s : State) (sid : Nat) (p : RunPath) (k : RunPath → State → State) : State :=
  let st := s.str sid
  let n := (p.resume.bind Wait.heldPost).getD st.fl.gateSeq
  let gated := st.fl.gate || decide (2 ≤ p.order)
  let hold (s : State) : State := if (p.resume.bind Wait.heldPost).isSome then s else s.holdNext sid
  let room (p : RunPath) (s : State) : State :=
    if s.postFits sid then k p s
    else (hold s).await sid p (.postRoom n)
  let clear (s : State) : State := s.modStr sid fun st => { st with fl := { st.fl with gate := false } }
  if p.resume = some (.postRoom n) then room p s
  else if !s.gateOpen sid n p.lanes gated then (hold s).await sid p (.gate n)
  else if gated then s.raiseDue sid p p.duePc false true true fun p s => room p (clear s) else room p s

/-- The checks of R257 on a locket offset: cause and SUB of the first that fails. `extra` are bits of a above 23 in use. -/
def State.locketFails (s : State) (sid a n extra : Nat) : Option (Nat × Nat) :=
  let o := a % 2 ^ 24
  let c := s.ctxOf sid
  if a % 8 ≠ 0 then some (0x31, 0)
  else if a / 2 ^ (24 + extra) ≠ 0 ∨ 2 ^ 24 < o + n then some (0x41, 2)
  else if (List.range n).all fun i => c.allots (o + i) then none
  else some (0x32, 0)

/-- The first source of the lowest lane, as 32 and as 64 bits. -/
def val32 (p : RunPath) (vals : NMap (List Word64)) (i : Nat) : Nat := (arg32 ((nget vals (lowest p.lanes)).getD []) i).toNat
def val64 (p : RunPath) (vals : NMap (List Word64)) (i : Nat) : Nat := (arg ((nget vals (lowest p.lanes)).getD []) i).toNat

/-- An LP form that names locket bytes: `n` gives how many from its first source. -/
def lpAccess (srcs dsts : List Opd) (n extra : Nat → Nat) (f : Nat → RunPath → NMap (List Word64) → State → State) :
    State → Out State :=
  heldPath fun sid p s => s.operandsOnce sid p srcs dsts fun p s vals =>
    let a := val32 p vals 0
    match s.locketFails sid a (n a) (extra a) with
    | some (c, sub) => s.trapPath sid p c sub (BitVec.ofNat 64 a)
    | none => f sid p vals s

/-- The registers of a pair in every active lane, pending: low half as 0, high half as 1. -/
def Strand.pairLocs (st : Strand) (lanes : List Nat) (d : Sel) : List (RegLoc × Word) :=
  lanes.flatMap fun l => st.dstWrites l d [0, 1]

def State.addLoad (s : State) (sid : Nat) (x : PendLoad) : State :=
  s.modStr sid fun st => { st with fl := { st.fl with loads := st.fl.loads ++ [x] } }

/-- A load from host memory is lost: its lanes trap when their path next waits for loads (R352). -/
def State.loseLoad (s : State) (sid : Nat) (x : PendLoad) : State :=
  s.modStr sid fun st => { st with fl := { st.fl with
    hostBad := st.fl.hostBad ++ x.hosts.map fun l => (l, (nget x.vaddr l).getD 0) } }

/-- The registers a pending form is to write are touched as by a write (R231). -/
def State.pend (s : State) (sid : Nat) (x : PendLoad) : State := (s.addLoad sid x).mxTouch sid (x.writes.map (·.1))

/-- The same of an LD form. What it reads of host memory while the link is down is lost at once (R406). -/
def State.pendMem (s : State) (sid : Nat) (x : PendLoad) : State :=
  if x.hosts.isEmpty then s.pend sid x
  else if s.host.up then s.pend sid { x with since := s.cycle }
  else (s.loseLoad sid x).pend sid { x with on := .ready, hosts := [], writes := x.writes.filter fun w => !x.hosts.contains w.1.lane }

/-- `lp.ld` (R260): the strand's posts that are held are earlier ones too, and it waits until they have entered the post queue. -/
def execLpLd (d a : Sel) : State → Out State :=
  lpAccess [(a, 1)] [(d, 2)] (fun _ => 8) (fun _ => 0) fun sid p vals s =>
    let st := s.str sid
    let n := match p.resume with
      | some (.posts n) => n
      | _ => st.fl.gateSeq
    if (s.heldPosts sid).any (· < n) then s.await sid p (.posts n)
    else
      let x : PendLoad :=
        { writes := st.pairLocs p.lanes d, on := .posts st.fl.postCount, off := val32 p vals 0,
          vaddr := p.lanes.map fun l => (l, val32 p vals 0), acq := if p.order = 1 then some 4 else none }
      ((s.reached 6).pend sid x).advance sid p

/-- Units of an `lp.put`. -/
def putUnits (a : Nat) : Nat := bitsOf a 25 24 + 1

/-- A run of n registers from a selector stays in its file. -/
def runFits (b : Sel) (n : Nat) : Bool :=
  match b with
  | .v k => decide (k.val + n ≤ 64)
  | .o k => decide (k.val + n ≤ 8)
  | _ => false

/-- The words of a register run of a lane, as bytes. -/
def State.runBytes (s : State) (sid l : Nat) (b : Sel) (n : Nat) : List Byte :=
  (s.srcRun sid l b n 16).flatMap fun w => leBytes 4 w.toNat

/-- Post, and give every lane the handle. -/
def State.postHandle (s : State) (sid : Nat) (p : RunPath) (d : Sel) (ty arg len : Nat) (payload : List Byte) : State :=
  let (h, s) := s.strandPost sid p ty arg len payload
  (s.giveAll sid p d (BitVec.ofNat 32 h)).advance sid p

/-- A post's payload is taken at its issue, from the lowest lane's run of registers, and kept while it is held (R258). -/
def State.takeRun (s : State) (sid : Nat) (p : RunPath) (b : Sel) (n : Nat) (k : RunPath → State → List Byte → State) : State :=
  match p.taken with
  | some bs => k p s bs
  | none => s.softGate sid p [(b, n)] fun s =>
    let s := s.touchSrcs sid p.lanes [(b, n)]
    let bs := s.runBytes sid (lowest p.lanes) b n
    k { p with taken := some bs } s bs

def execLpPut (d a b : Sel) : State → Out State :=
  lpAccess [(a, 1)] [(d, 1), (b, 2)] (fun a => 8 * putUnits a) (fun _ => 2) fun sid p vals s =>
    let x := val32 p vals 0
    let n := 2 * putUnits x
    if !runFits b n then s.trapPath sid p 0x41 0 (BitVec.ofNat 64 x)
    else if (s.str sid).outside p.lanes (b, n) then s.trapPath sid p 0x30 1 (s.freeW64 0x3000000)
    else s.takeRun sid p b n fun p s bs => s.postGate sid p fun p s => s.postHandle sid p d 1 (x % 2 ^ 24) (4 * n) bs

/-- `lp.add` and `lp.cas`: op of the ATOMIC record, and the expected value's place among the sources. -/
def lpAtomic (cas : Bool) (d a b : Sel) : State → Out State :=
  let srcs : List Opd := [(a, 1), (b, 2)] ++ if cas then [(d, 2)] else []
  heldPath fun sid p s =>
    match p.resume with
    | some (.post _) => (s.acquireAt (s.str sid).core 4).advance sid p
    | _ => s.operandsOnce sid p srcs [(d, 2)] fun p s vals =>
      let x := val32 p vals 0
      match s.locketFails sid x 8 0 with
      | some (c, sub) => s.trapPath sid p c sub (BitVec.ofNat 64 x)
      | none => s.postGate sid p fun p s =>
        let (h, s) := s.strandPost sid p 2 (x + (if cas then 2 ^ 24 else 0)) 16
          (leBytes 8 (val64 p vals 1) ++ leBytes 8 (if cas then val64 p vals 2 else 0))
        let acq := p.order == 1 || p.order == 3
        if d != .zero then
          let y : PendLoad := { writes := (s.str sid).pairLocs p.lanes d, on := .post h, acq := if acq then some 4 else none }
          (s.pend sid y).advance sid p
        else if acq then s.await sid p (.post h)
        else s.advance sid p

def execLpAdd (d a b : Sel) : State → Out State := lpAtomic false d a b
def execLpCas (d a b : Sel) : State → Out State := lpAtomic true d a b

def execLpMsg (d a b : Sel) : State → Out State :=
  heldPath fun sid p s => s.operandsOnce sid p [(a, 1)] [(d, 1), (b, 12)] fun p s vals =>
    let x := val32 p vals 0
    if bitsOf x 7 5 ≠ 0 ∨ x / 2 ^ 12 ≠ 0 ∨ s.npkg ≤ x % 32 then s.trapPath sid p 0x41 2 (BitVec.ofNat 64 x)
    else s.takeRun sid p b 12 fun p s bs => s.postGate sid p fun p s => s.postHandle sid p d 3 x 48 bs

def execLpLaunch (d a : Sel) : State → Out State :=
  heldPath fun sid p s => s.operandsOnce sid p [(a, 2)] [(d, 1)] fun p s vals =>
    let x := val64 p vals 0
    let trap (c sub y : Nat) : State := s.trapPath sid p c sub (BitVec.ofNat 64 y)
    match p.taken with
    | some bs => s.postGate sid p fun p s => s.postHandle sid p d 4 0 48 bs
    | none =>
      if 2 ^ 56 ≤ x then trap 0x32 0 x
      else if x % 16 ≠ 0 then trap 0x31 0 x
      else match s.accessParts sid .ld 0xA000000 (pageParts x 48) with
        | (_, some (c, sub, y)) => trap c sub y
        | (ps, none) =>
          let at' := p.lanes.flatMap fun l => ps.map fun q => (l, q.pa, q.pa + q.len)
          s.waitFor sid p (s.locketFree sid at') (.locket at') fun s =>
            let bs := s.pocParts sid 0xA100000 ps
            (s.pocTouch sid ps).postGate sid { p with taken := some bs } fun p s => s.postHandle sid p d 4 0 48 bs

def execLpFence (a : Sel) : State → Out State :=
  heldPath fun sid p s => s.operandsOnce sid p [(a, 2)] [] fun p s vals =>
    let l := val64 p vals 0
    s.waitFor sid p (decide (l ≤ s.appliedLsn sid)) (.lsn l) fun s => (s.acquireAt (s.str sid).core 4).advance sid p

def execLpGate : State → Out State :=
  heldPath fun sid p s => (s.modStr sid fun st => { st with fl := { st.fl with gate := true } }).advance sid p

/-- Give every active lane a 64-bit value. -/
def State.giveAll64 (s : State) (sid : Nat) (p : RunPath) (d : Sel) (v : Word64) : State :=
  s.writeDst sid (d, 2) (p.lanes.map fun l => (l, v))

def execLpNow (d : Sel) : State → Out State :=
  heldPath fun sid p s => s.operands sid p [] [(d, 2)] fun p s _ =>
    (s.giveAll64 sid p d (BitVec.ofNat 64 (s.appliedLsn sid))).advance sid p

/-- The post `lp.seq` reads: h itself among the latest 256, else the oldest of those; none where the strand has made none. -/
def Strand.seqPost (st : Strand) (h : Nat) : Option Nat :=
  let age (g : Nat) : Nat := sub32 st.fl.postCount g
  let latest := (nkeys st.fl.posts).filter fun g => decide (g < 2 ^ 32) && decide (1 ≤ age g) && decide (age g ≤ 256)
  if latest.contains h then some h
  else latest.foldl (fun b g => match b with
    | none => some g
    | some x => if age x < age g then some g else b) none

/-- `lp.seq` (R260): the post is chosen at issue, and a path that waits keeps to it. -/
def execLpSeq (d a : Sel) : State → Out State :=
  heldPath fun sid p s => s.operandsOnce sid p [(a, 1)] [(d, 2)] fun p s vals =>
    let h := val32 p vals 0
    let st := s.str sid
    let give (g : Nat) : State := s.waitFor sid p (s.postComplete sid g) (.post g) fun s =>
      (s.giveAll64 sid p d (BitVec.ofNat 64 (((nget (s.str sid).fl.posts g).bind (·.lsn)).getD 0))).advance sid p
    match p.resume with
    | some (.post g) => give g
    | _ =>
      if sub32 h st.fl.postCount < 2 ^ 31 then s.trapPath sid p 0x41 0 (BitVec.ofNat 64 h)
      else match st.seqPost h with
        | none => (s.giveAll64 sid p d (s.freeW64 0xA200000)).advance sid p
        | some g => give g

end Sys2Proof.Machine
end

