-- ==== Sys2Proof/Machine/Mx.lean ====
section
/-! DEFINITION. Matrix instructions: `mx.go` and its checks, tokens and completion records, `drn.load`
(08_isa_queues_matrix_drain.md R225 to R239). -/

namespace Sys2Proof.Machine

/-! The checks of `mx.go` (R65, R230). -/

/-- The format checks of R65 on one word: the number of the first that fails. -/
def formatFails (f : Nat) : Option Nat :=
  if f / 2 ^ 18 ≠ 0 then some 2
  else if 8 < afmt f ∨ 8 < bfmt f then some 3
  else if fmtGroup (afmt f) ≠ fmtGroup (bfmt f) then some 4
  else if (bitsOf f 11 8 ≠ 0 ∧ afmt f ≠ 3) ∨ (bitsOf f 15 12 ≠ 0 ∧ bfmt f ≠ 3) then some 5
  else if aesc f ∧ afmt f ≠ 2 then some 6
  else none

/-- The registers of the owner strands of a field in the layout of word 5: of the `per i` registers of owner i the first `used i` of
every `stride`. None where an owner is not resident in the role or a register is outside its current frame. -/
def State.ownerRuns (s : State) (tid role first base owners stride : Nat) (per used : Nat → Nat) : Option (List RegRun) :=
  (List.range owners).foldr (fun i acc =>
    match acc, (s.teamStrands tid).find? fun x => x.2.role == role && x.2.strandid == first + i && !x.2.finished with
    | some rs, some (sid, st) =>
      if base + per i ≤ st.frameSize then some (⟨sid, st.frame.uid, base, per i, stride, used i⟩ :: rs) else none
    | _, _ => none) (some [])

/-- Accumulator registers of owner i: its rows take four each, of which NG are used (R229). -/
def MxPar.accPer (q : MxPar) (i : Nat) : Nat := 4 * (q.ownerRows i - 1) + q.ng
/-- A registers of owner i in register mode: each row step takes 16, of which its rows are used (R228). -/
def MxPar.aPer (q : MxPar) (i : Nat) : Nat := 16 * (q.ks - 1) + q.ownerRows i

def State.accRuns (s : State) (tid : Nat) (q : MxPar) : Option (List RegRun) :=
  s.ownerRuns tid q.accrole q.accfirst q.accbase q.owners 4 q.accPer fun _ => q.ng
def State.aRuns (s : State) (tid : Nat) (q : MxPar) : Option (List RegRun) :=
  if q.areg then s.ownerRuns tid (bitsOf q.aaddr 6 5) (bitsOf q.aaddr 4 0) (bitsOf q.aaddr 15 8) q.owners 16 q.aPer q.ownerRows else some []

/-- Two runs name one register. -/
def RegRun.meets (x y : RegRun) : Bool := x.regs.any (y.holds x.frame)

/-- The parameter-block words that fail check 4 of R230. -/
def State.parFails (s : State) (sid : Nat) (f : Nat) (b : List Byte) : List Nat :=
  let w := parWord b
  let q := mxPar b
  let tid := (s.str sid).team
  let t := s.team tid
  let kd := (s.grid t.grid).kd
  let sp := kd.spSize
  let nb := q.ks * blocksOf f
  let slotSize := match nget t.queues q.aaddr with
    | some lq => lq.size
    | none => (liveOfBytes ((s.walkMem sid).readN (t.phys q.aaddr) 32)).size
  let slotKind := match nget t.queues q.aaddr with
    | some lq => lq.kind
    | none => (liveOfBytes ((s.walkMem sid).readN (t.phys q.aaddr) 32)).kind
  let rowsOk := decide (1 ≤ q.m) && decide (q.m ≤ 128) && decide (1 ≤ q.ks)
  let room := if q.aq then slotSize else sp
  let perSlot (n : Nat) := if q.aq then q.m * blocksOf f * n else q.m * nb * n
  let bad (i : Nat) (c : Bool) : List Nat := if c then [i] else []
  bad 0 (bitsOf (w 0) 31 24 != 0 || bitsOf (w 0) 7 0 != 1 || (q.areg && q.aq) ||
    !(q.dslot == 0xFF || (nget (s.core t.core).drn q.dslot).any fun d => d.team == tid)) ++
  bad 1 (bitsOf (w 1) 15 11 != 0 || !rowsOk || q.ng == 0 || decide (4 < q.ng)) ++
  bad 2 (if q.areg then bitsOf (w 2) 31 16 != 0 || bitOf (w 2) 7 || (s.aRuns tid q).isNone ||
      (match s.aRuns tid q, s.accRuns tid q with
       | some a, some c => a.any fun x => c.any x.meets
       | _, _ => false)
    else if q.aq then q.aaddr % 32 != 0 || decide (sp < q.aaddr + 32) || !s.canLive tid q.aaddr (s.walkMem sid) || slotKind != 3
    else q.aaddr % 16 != 0 || decide (sp < q.aaddr + (q.m - 1) * q.apitch + 128 * q.ks)) ++
  bad 3 (if q.areg then q.apitch != 0 else q.apitch % 16 != 0 || decide (q.apitch < 128) ||
    (q.aq && decide (slotSize < (q.m - 1) * q.apitch + 128))) ++
  bad 4 (q.boff % 16 != 0) ++
  bad 5 (bitsOf (w 5) 31 16 != 0 || bitOf (w 5) 7 || (s.accRuns tid q).isNone) ++
  bad 6 (q.darg % 64 != 0 || (q.dslot == 0xFF && q.darg != 0)) ++
  bad 8 (if fmtScaled (afmt f) then decide (room < q.ascale + perSlot 1) else q.ascale != 0) ++
  bad 9 (if aesc f then decide (room < q.aside + perSlot 12) else q.aside != 0) ++
  bad 10 (!fmtScaled (bfmt f) && q.bscale != 0) ++
  (List.range 5).flatMap fun i => bad (11 + i) (w (11 + i) != 0)

/-- Check 5 of R230: the column-slice offset that is outside the team's range. -/
def State.bFails (s : State) (sid : Nat) (f : Nat) (q : MxPar) : Option Nat :=
  let kd := (s.gridOf sid).kd
  if q.boff < kd.csLo ∨ kd.csHi < q.boff + 128 * q.ks then some q.boff
  else if fmtScaled (bfmt f) ∧ (q.bscale < kd.csLo ∨ kd.csHi < q.bscale + q.ks * blocksOf f) then some q.bscale
  else none

/-- Registers of runs that the issuing strand may not read (R206): written, and not published to it. -/
def State.unpublished (s : State) (sid : Nat) (rs : List RegRun) : List (Nat × Nat) :=
  rs.flatMap fun x => match (s.str x.strand).frameOf x.frame with
    | none => []
    | some f => x.regs.filterMap fun r =>
        match nget f.pubs r with
        | none => none
        | some .unfenced => some (x.frame, r)
        | some (.fenced ph) => if ph.any ((s.str sid).passed.contains ·) then none else some (x.frame, r)

/-- Matrix token numbers of a core that are free (R230, R364): neither allocated nor reserved to a saved team. -/
def Core.freeMx (c : Core) : List Nat :=
  (List.range 32).filter fun k => !nhas c.mx k && c.resvs.all fun r => !r.mx.contains k
def Core.freeCp (c : Core) : List Nat :=
  (List.range 64).filter fun k => !nhas c.cp k && c.resvs.all fun r => !r.cp.contains k

/-- Allocate a token and put its number into d. -/
def State.mxAlloc (s : State) (sid : Nat) (p : RunPath) (d : Sel) (f blk : Nat) (b : List Byte) : State :=
  let st := s.str sid
  let q := mxPar b
  let k := s.freeOf 0x5000000 0 (s.core st.core).freeMx
  let acc := (s.accRuns st.team q).getD []
  let aReg := (s.aRuns st.team q).getD []
  let t : MxTok :=
    { st := .queued, reported := false, team := st.team, strand := sid, order := s.ids.ord, fmt := BitVec.ofNat 32 f, param := b,
      acc := acc, aReg := aReg, undef := s.unpublished sid ((if q.first then [] else acc) ++ aReg), waited := [], raced := false,
      abort := false, asum := [], posS := 0, posM := 0, slot := none, kdone := 0, ug := 0, um := 0, dcause := 0, resumed := false,
      pushClosed := false, qclosed := false, ovf := false, miss := false, darg := none, rpart := [], dgon := st.csr.dgon,
      faultAddr := 0, blk := blk }
  let s := (s.modCore st.core fun c => { c with mx := nset c.mx k t }).modIds fun i => { i with ord := i.ord + 1 }
  let s := if q.aq then (s.makeLive st.team q.aaddr (s.walkMem sid)).refEngine st.team q.aaddr k else s
  (s.giveAll sid p d (BitVec.ofNat 32 k)).advance sid p

/-- Check 6 of R230: the wait for a token. -/
def State.mxTake (s : State) (sid : Nat) (p : RunPath) (d : Sel) (f blk : Nat) (b : List Byte) : State :=
  s.takeToken sid p (portOf d) (!(s.coreOf sid).freeMx.isEmpty) (.mxFree blk f b (portOf d)) fun s => s.mxAlloc sid p d f blk b

/-- The checks of R230 on the operands read, and the wait for a token. -/
def State.mxGo (s : State) (sid : Nat) (p : RunPath) (d : Sel) (blk : Nat) (fs : List Nat) : State :=
  let f := fs.headD 0
  let pa := (s.teamOf sid).phys blk
  let trap (c sub a : Nat) : State := s.trapPath sid p c sub (BitVec.ofNat 64 a)
  if fs.any (· != f) then trap 0x40 1 0
  else match formatFails f with
    | some n => trap 0x41 n f
    | none =>
      if blk % 64 ≠ 0 then trap 0x31 0 blk
      else if (s.gridOf sid).kd.spSize < blk + 64 then trap 0x30 0 blk
      else
        let b := (s.walkMem sid).readN pa 64
        match s.parFails sid f b with
        | i :: _ => trap 0x41 4 (blk + 4 * i)
        | [] =>
          match s.bFails sid f (mxPar b) with
          | some o => trap 0x42 5 o
          | none => s.mxTake sid p d f blk b

/-- `mx.go`: it reads memory after the strand's earlier stores (R231); a path that waited for a token keeps the block it read. -/
def execMxGo (d a b : Sel) : State → Out State :=
  heldPath fun sid p s =>
    match p.resume with
    | some (.mxFree blk f b _) => s.mxTake sid p d f blk b
    | _ =>
      s.waitFor sid p (s.str sid).fl.stores.isEmpty (.word 2) fun s =>
        s.operands sid p [(a, 1), (b, 1)] [(d, 1)] fun p s vals =>
          s.mxGo sid p d (arg32 ((nget vals (lowest p.lanes)).getD []) 0).toNat
            (p.lanes.map fun l => (arg32 ((nget vals l).getD []) 1).toNat)

/-! Tokens. -/

def State.mxTok (s : State) (core k : Nat) : Option MxTok := nget (s.core core).mx k
def State.modMx (s : State) (core k : Nat) (f : MxTok → MxTok) : State := s.modCore core fun c => { c with mx := nmod c.mx k f }

/-- ENGINE 0x50 by a whole path. -/
def State.mxBad (s : State) (sid : Nat) (p : RunPath) (t : Nat) : State := s.trapPath sid p 0x50 0 (BitVec.ofNat 64 t)

/-- What follows when an operation has ended: its A queue is released, frames of finished strands that only it named are
given back (R215, R229). -/
def State.mxEnded (s : State) (core k : Nat) : State :=
  match s.mxTok core k with
  | none => s
  | some t =>
    let s := if t.par.aq then s.unrefEngine t.team t.par.aaddr k else s
    let pushed := (s.team t.team).queues.filter fun x => x.2.engines.contains (32 + k)
    let s := pushed.foldl (fun s x => s.unrefEngine t.team x.1 (32 + k)) s
    (s.teamStrands t.team).foldl (fun s x => s.dropFrames x.1) s

/-- A STOPPED operation goes back into the drain, before those not started (R233, R340). -/
def State.mxResume (s : State) (core k : Nat) : State :=
  (s.modMx core k fun t => { t with st := .drain, dcause := 0, resumed := true }).modCore core fun c =>
    let started := c.dre.queue.takeWhile fun j => (nget c.mx j).any (·.darg.isSome)
    { c with dre := { c.dre with queue := started ++ [k] ++ c.dre.queue.drop started.length } }

/-- A strand is the reporter of a token that another issued, or itself (R234, R253). -/
def State.mxReporter (s : State) (sid issuer : Nat) : Bool := issuer == sid || (s.str issuer).finished

/-- Report the fault of a STOPPED operation (R234): nothing is marked where the trap is held (R345). -/
def State.mxReport (s : State) (sid : Nat) (p : RunPath) (core k : Nat) (t : MxTok) : State :=
  let held := p.lanes.any (s.str sid).holds
  let s := if held then s else s.modMx core k fun t => { t with reported := true }
  s.trapPopped sid p 0x52 t.dcause (BitVec.ofNat 64 t.faultAddr)

/-- A path has waited in the loop of `mx.wait` or `cp.wait`. -/
def RunPath.inLoop (p : RunPath) : Bool :=
  match p.resume with
  | some (.mx _ _) | some (.cp _ _) => true
  | _ => false

/-- The loop of `mx.wait` (R234). A path that has waited in it finds an operation that resumes no more than it did: it goes on waiting
until that ends. -/
def State.mxWaitOn (s : State) (sid : Nat) (p : RunPath) (d : Sel) (k : Nat) (retire : Bool) : State :=
  let core := (s.str sid).core
  match s.mxTok core k with
  | none => s.trapPopped sid p 0x50 0 (BitVec.ofNat 64 k)
  | some t =>
    if 32 ≤ k ∨ t.team ≠ (s.str sid).team then s.trapPopped sid p 0x50 0 (BitVec.ofNat 64 k)
    else match t.st with
      | .done | .aborted =>
        let s := s.modMx core k fun t => { t with waited := sid :: t.waited }
        let s := s.giveAll sid p d (t.record.setWidth 32)
        (if retire then s.freeMxTok core k else s).advance sid p
      | .stopped =>
        if t.reported then (if p.inLoop then s else s.mxResume core k).await sid p (.mx k retire)
        else if s.mxReporter sid t.strand then s.mxReport sid p core k t
        else s.await sid p (.mx k retire)
      | _ => s.await sid p (.mx k retire)

def execMxWait (d a : Sel) (retire : Bool) : State → Out State :=
  heldPath fun sid p s =>
    match p.resume with
    | some (.mx k r) => s.mxWaitOn sid p d k r
    | some (.mxDone v) => (s.giveAll sid p d v).advance sid p
    | _ => s.operands sid p [(a, 1)] [(d, 1)] fun p s vals =>
      s.mxWaitOn sid p d (arg32 ((nget vals (lowest p.lanes)).getD []) 0).toNat retire

/-- A form that names a token and does not wait; `free` says what it does with a FREE one. -/
def mxForm (a : Sel) (dsts : List Opd) (f : Nat → RunPath → Nat → Option MxTok → State → State) : State → Out State :=
  heldPath fun sid p s => s.operands sid p [(a, 1)] dsts fun p s vals =>
    let k := (arg32 ((nget vals (lowest p.lanes)).getD []) 0).toNat
    let t := s.mxTok (s.str sid).core k
    if 32 ≤ k ∨ t.any (fun t => t.team != (s.str sid).team) then s.mxBad sid p k else f sid p k t s

def execMxTest (d a : Sel) : State → Out State :=
  mxForm a [(d, 1)] fun sid p _ t s => (s.giveAll sid p d (BitVec.ofNat 32 ((t.map (·.st.code)).getD 0))).advance sid p

def execMxStat (d a : Sel) : State → Out State :=
  mxForm a [(d, 2)] fun sid p _ t s =>
    (s.writeDst sid (d, 2) (p.lanes.map fun l => (l, (t.map (·.record)).getD 0))).advance sid p

/-- An operation goes to ABORTED (R236): its accumulator is undefined and its slot given back. -/
def State.mxAborted (s : State) (core k : Nat) : State :=
  match s.mxTok core k with
  | none => s
  | some t =>
    let s := s.scrambleAcc t
    let s := if t.slot.isSome then s.modQ t.team t.par.aaddr fun q => { q with c3 := (q.c3 + 1) % 2 ^ 32 } else s
    let s := (s.modMx core k fun t => { t with st := .aborted, slot := none, abort := false }).modCore core fun c =>
      { c with dre := { c.dre with queue := c.dre.queue.filter (· != k) }
               arr := if c.arr.op = some k then c.arr.leave else c.arr }
    s.mxEnded core k

def execMxAbort (a : Sel) : State → Out State :=
  mxForm a [] fun sid p k t s =>
    let core := (s.str sid).core
    match t with
    | none => s.mxBad sid p k
    | some t =>
      let s := match t.st with
        | .queued | .stopped => s.mxAborted core k
        | .array =>
          if (s.core core).arr.op = some k then
            s.modCore core fun c => { c with arr := { c.arr with halt := some .abort, haltAt := s.cycle, held := false } }
          else s.mxAborted core k
        | .drain =>
          if (s.core core).dre.units.any (·.tok == k) then s.modMx core k fun t => { t with abort := true } else s.mxAborted core k
        | _ => s
      s.advance sid p

end Sys2Proof.Machine
end

