-- ==== Sys2Proof/Machine/MxNum.lean ====
section
/-! DEFINITION. The arithmetic of the matrix array: products, column words, the ASUM and promotions (02_number_formats.md
R50, R51, R68 to R75). -/

namespace Sys2Proof.Machine

/-- The code of element k of a row step. -/
def elemCode (c : Nat) (bs : List Byte) (k : Nat) : Nat :=
  match fmtBits c with
  | 4 => (bs.getD (k / 2) 0).toNat / (if k % 2 = 0 then 1 else 16) % 16
  | 8 => (bs.getD k 0).toNat
  | _ => leNat ((bs.drop (2 * k)).take 2)

/-- The value of an element; `bias` is the format word's decade bias. -/
def elemValue (c bias code : Nat) : Ext :=
  match c with
  | 0 | 7 => Fmt.e4m3.value code
  | 1 | 8 => Fmt.e5m2.value code
  | 2 => Fmt.e2m1.value code
  | 3 => f8dValue (biasOf bias) code
  | 5 => Fmt.bf16.value code
  | _ => Fmt.f16.value code

/-- The element of a scaled block of a scale code. -/
def scaleOf (c : Nat) (scales : List Byte) (k : Nat) : Nat := if fmtScaled c then (scales.getD (k / 32) 0).toNat else 127

/-- The outlier of an escape at position k: its BF16 value, none where no entry matches (R51). -/
def outlier (sides : List Byte) (k : Nat) : Option Ext :=
  let es := (sides.drop (12 * (k / 32))).take 12
  ((List.range 4).find? fun i => (es.getD (3 * i) 0xFF).toNat == k % 32).map fun i =>
    Fmt.bf16.value (leNat ((es.drop (3 * i + 1)).take 2))

/-- A product of a wavefront: in the column word, or kept apart as an escape's; with the exponent of its scales. -/
structure Prod where
  val : Ext
  escape : Bool
  xsum : Int
  deriving DecidableEq, Repr

/-- What one column sees of a wavefront: A's row step, scales and side lists, and B's. -/
structure ColIn where
  f : Nat
  a : List Byte
  ascales : List Byte
  asides : List Byte
  b : List Byte
  bscales : List Byte
  deriving DecidableEq, Repr

/-- Element k of A is an escape. -/
def ColIn.isEscape (i : ColIn) (k : Nat) : Bool := aesc i.f && elemCode 2 i.a k == 8

/-- Some escape of the wavefront has no side-list entry (R51). -/
def ColIn.misses (i : ColIn) : Bool :=
  aesc i.f && (List.range (kstep i.f)).any fun k => i.isEscape k && (outlier i.asides k).isNone

/-- Product k (R68). An escape that no entry matches contributes a zero in A's place: with an infinite or NaN B the product is a NaN,
which R51 leaves open (DESIGN CHOICE, notes/assumptions/29.md). -/
def ColIn.prod (i : ColIn) (k : Nat) : Prod :=
  let ca := afmt i.f
  let cb := bfmt i.f
  let sa := scaleOf ca i.ascales k
  let sb := scaleOf cb i.bscales k
  let x : Int := (sa : Int) - 127 + ((sb : Int) - 127)
  let b := (elemValue cb (bitsOf i.f 15 12) (elemCode cb i.b k)).mul (e8m0Value sb)
  if i.isEscape k then
    let o : Ext := if sa = 255 then .nan else (outlier i.asides k).getD (.fin false 0 1)
    ⟨o.mul b, true, x⟩
  else ⟨((elemValue ca (bitsOf i.f 11 8) (elemCode ca i.a k)).mul (e8m0Value sa)).mul b, false, x⟩

/-- Every product, in ascending k. -/
def ColIn.prods (i : ColIn) : List Prod := (List.range (kstep i.f)).map i.prod

/-- M of R69: the least integer with every finite magnitude below 2^M. -/
def fmtM (c : Nat) : Int := if c = 2 then 3 else if c = 1 ∨ c = 8 then 16 else 9

/-- A finite magnitude n/d truncated to a multiple of 2^l, as that multiple. -/
def truncTo (l : Int) (n d : Nat) : Nat := (quantum n d l).1

/-- The largest of a list of integers. -/
def maxInt : List Int → Option Int
  | [] => none
  | x :: xs => match maxInt xs with
    | none => some x
    | some y => some (max x y)

/-- The exact sum of finite products. -/
def sumFinite (ps : List Ext) : Ext := ps.foldl (fun a p => match p with
  | .fin _ _ _ => a.add p
  | _ => a) (.fin false 0 1)

/-- The column word times its unit (R69, R70): the exact sum of the products truncated at the anchor. -/
def columnWord (f : Nat) (ps : List Prod) : Ext :=
  let main := ps.filter fun p => !p.escape
  if fmtGroup (afmt f) = 1 then sumFinite (main.map (·.val))
  else
    let top : Option Int :=
      if fmtGroup (afmt f) = 3 then
        (maxInt (main.filterMap fun p => match p.val with
          | .fin _ n d => if n = 0 then none else some (log2Frac n d)
          | _ => none)).map (· + 1)
      else (maxInt (ps.map (·.xsum))).map (· + fmtM (afmt f) + fmtM (bfmt f))
    match top with
    | none => .fin false 0 1
    | some t =>
      let l := t + (Nat.log2 (kstep f) : Int) - 63
      let w : Int := main.foldl (fun a p => match p.val with
        | .fin s n d => if s then a - truncTo l n d else a + truncTo l n d
        | _ => a) 0
      scaled (decide (w < 0)) w.natAbs l

/-- The ASUM after a wavefront (R72, R74). -/
def asumStep (f : Nat) (asum : Nat) (ps : List Prod) : Nat :=
  let add (a : Nat) (x : Ext) : Nat := Fmt.asum.roundNE ((Fmt.asum.value a).add x)
  let main := ps.filter fun p => !p.escape
  if ps.any fun p => p.val.isNan then Fmt.asum.nan
  else
    let infs := main.filterMap fun p => match p.val with
      | .inf s => some s
      | _ => none
    let base := match infs with
      | [] => add asum (Fmt.asum.value (Fmt.asum.roundNE (columnWord f ps)))
      | s :: rest => if rest.any (· != s) then Fmt.asum.nan else add asum (.inf s)
    (ps.filter (·.escape)).foldl (fun a p => add a p.val) base

/-- The integer ASUM after a wavefront (R75). -/
def asumInt (asum : Int) (i : ColIn) : Int :=
  (List.range (kstep i.f)).foldl (fun t k =>
    let s (x : Nat) : Int := if x < 128 then x else (x : Int) - 256
    t + s (elemCode 4 i.a k) * s (elemCode 4 i.b k)) asum

/-- A promotion (R73, R74): the accumulator's code before (FIRST's zero included) and the ASUM's; the code after, and
whether finite overflow was met. -/
def promote (sat : Bool) (acc asum : Nat) : Nat × Bool :=
  let a := Fmt.f32.value acc
  let x := Fmt.asum.value asum
  let r := Fmt.f32.roundNE (a.add x)
  let ovf := (Fmt.f32.value r).isInf && !a.isInf && !x.isInf
  if ovf && sat then (Fmt.f32.signed (bitOf r 31) Fmt.f32.maxFin, true) else (r, ovf)

end Sys2Proof.Machine
end

