-- ==== Sys2Proof/Machine/Array.lean ====
section
/-! DEFINITION. The matrix array: weight reloads, wavefronts, promotions and the quiescent point (12_matrix_engine.md R325
to R337). -/

namespace Sys2Proof.Machine

/-- A strand of a team is stopped for a save (R363), or has finished. -/
def Strand.stopped (st : Strand) : Bool :=
  st.finished || (st.csr.tlevel == 0 && st.liveLanes.all fun l => (st.th l).st == .stopped)

/-- Every strand of a team is stopped and no bin holds its threads. -/
def State.teamStopped (s : State) (tid : Nat) : Bool :=
  (s.team tid).saving && ((s.teamStrands tid).all fun x => x.2.stopped) &&
  (s.core (s.team tid).core).bins.all fun b => b.2.team != tid

/-- Operations of a team are held: its context is debug-halted, it is halted, or it is being saved. -/
def State.teamHeld (s : State) (tid : Nat) : Bool :=
  (s.ctx (s.grid (s.team tid).grid).ctx).dbg.halted || (s.team tid).ptoHalted || s.teamStopped tid

/-- The operation the idle array takes (R326, R337): a restored one, else the oldest QUEUED of the next team in turn. -/
def State.nextOp (s : State) (core : Nat) : Option Nat :=
  let c := s.core core
  let free := c.mx.filter fun x => !s.teamHeld x.2.team
  match free.find? fun x => x.2.st == .array with
  | some (k, _) => some k
  | none =>
    let queued := free.filter fun x => x.2.st == .queued
    let turn (t : MxTok) : Nat := ((s.team t.team).slot + 8 - (c.arr.lastSlot + 1) % 8) % 8
    (queued.foldl (fun (b : Option (Nat × MxTok)) x => match b with
      | none => some x
      | some y => if turn x.2 < turn y.2 ∨ (turn x.2 = turn y.2 ∧ x.2.order < y.2.order) then some x else b) none).map (·.1)

/-- The idle array takes an operation. -/
def State.takeOp (s : State) (core : Nat) : State :=
  let a := (s.core core).arr
  if a.op.isSome || a.halt.isSome then s
  else match s.nextOp core with
    | none => s
    | some k =>
      let t := ((s.mxTok core k).getD default)
      (s.modCore core fun c => { c with
        arr := { c.arr with op := some k, inflight := [], asum := t.asum, weights := none, shadow := none, held := false,
                            begun := false, lastSlot := (s.team t.team).slot } }).modMx core k fun t => { t with asum := [] }

/-- Every idle array takes the operation that is next in turn (R326). -/
def State.takeOps (s : State) : State := (nkeys s.cores).foldl State.takeOp s

/-- WEIGHT_RELOAD_COMPLETE (R331): arg core. The weight latches take the k-step to be admitted, the shadow the one after. -/
def State.weightReload (s : State) (core : Nat) : State :=
  let s := s.takeOp core
  let a := (s.core core).arr
  match a.op.bind (s.mxTok core) with
  | none => s
  | some t =>
    let a' := match a.weights with
      | none => { a with weights := some t.posS, shadow := none }
      | some w => if a.shadow.isNone ∧ w + 1 < t.par.ks then { a with shadow := some (w + 1) } else a
    s.modCore core fun c => { c with arr := a' }

def execWeightReloadComplete (s : State) : Out State := .next (s.weightReload (s.arg 0))

/-- A register of a frame as bytes, lane by lane; undefined where the operation may not read it (R231). -/
def State.regBytes (s : State) (t : MxTok) (x : RegRun) (r : Nat) : List Byte :=
  let f := ((s.str x.strand).frameOf x.frame).getD default
  (List.range 32).flatMap fun l =>
    leBytes 4 (if t.undef.contains (x.frame, r) then s.freeW (0x6000000 + 32 * r + l) else f.cell r l).toNat

/-- What a wavefront reads of A (R227, R228), for the slot held in queue mode. -/
def State.readWave (s : State) (t : MxTok) (sk m : Nat) (slot : Option Nat) : Wave :=
  let q := t.par
  let tm := s.team t.team
  let bpk := blocksOf t.f
  let at' (off n : Nat) : List Byte := s.mem.readN (tm.phys off) n
  let a := if q.areg then
      (match t.aReg[m / 16]? with
       | some x => s.regBytes t x (x.first + m % 16 + 16 * sk)
       | none => [])
    else match q.aq, slot with
      | true, some o => at' (o + m * q.apitch) 128
      | true, none => List.replicate 128 0
      | false, _ => at' (q.aaddr + m * q.apitch + 128 * sk) 128
  let block (base : Nat) (w : Nat) : List Byte := match q.aq, slot with
    | true, some o => at' (o + base + w * (m * bpk)) (w * bpk)
    | true, none => List.replicate (w * bpk) (if w = 1 then 127 else 255)
    | false, _ => at' (base + w * (m * (q.ks * bpk) + sk * bpk)) (w * bpk)
  ⟨sk, m, a, if fmtScaled (afmt t.f) then block q.ascale 1 else [], if aesc t.f then block q.aside 12 else []⟩

/-- The slot of the next k-step in queue mode: held, taken now, or closed for good; none while the queue is empty (R228). -/
def State.waveSlot (s : State) (core k : Nat) (t : MxTok) : Option (Option Nat × State) :=
  if !t.par.aq || t.qclosed then some (none, s)
  else match t.slot with
    | some o => some (some o, s)
    | none => match s.liveQ t.team t.par.aaddr with
      | none => none
      | some lq =>
        if lq.canTake then
          let o := lq.entryOff lq.c2
          some (some o, (s.modQ t.team t.par.aaddr fun q => { q with c2 := (q.c2 + 1) % 2 ^ 32 }).modMx core k fun t => { t with slot := some o })
        else if lq.closed then some (none, s.modMx core k fun t => { t with qclosed := true })
        else none

/-- After the last row of a k-step is admitted: the slot is given back and the latches swap (R228, R331). -/
def State.stepAdmitted (s : State) (core k : Nat) (t : MxTok) : State :=
  let held := ((s.mxTok core k).getD default).slot.isSome
  let s := if held then s.modQ t.team t.par.aaddr fun q => { q with c3 := (q.c3 + 1) % 2 ^ 32 } else s
  (s.modMx core k fun t => { t with slot := none, posS := t.posS + 1, posM := 0 }).modCore core fun c =>
    { c with arr := { c.arr with weights := if c.arr.shadow = some (t.posS + 1) then c.arr.shadow else none, shadow := none } }

/-- The supply of a core's die is to change or settles (17_firmware_power_conformance.md R433): no further operation starts there. -/
def State.dieShut (s : State) (core : Nat) : Bool :=
  let d := if core < 128 then s.fw.north else s.fw.south
  d.want.isSome || d.settling

/-- The wavefronts a core may admit in a microsecond, where they are limited: CAP, of which 0 and more than 2,500 are no limit (R330),
and 625 while the core is throttled (R435). -/
def CoreRegs.admitCap (r : CoreRegs) : Option Nat :=
  let cap := if r.mxcap = 0 ∨ 2500 < r.mxcap then none else some r.mxcap
  if r.throttled && r.wasThrottled then some (min 625 (cap.getD 2500)) else cap

/-- The admissions a core may make in a microsecond are used up. -/
def State.mxCapped (s : State) (core : Nat) : Bool :=
  (s.core core).regs.admitCap.any fun cap =>
    decide (cap ≤ ((s.core core).arr.admits.filter fun t => decide (s.cycle < t + cyclesPerUs)).length)

/-- The array is ready to admit the next wavefront of an operation, but for its weights. -/
def State.arrayReady (s : State) (core : Nat) (t : MxTok) : Bool :=
  let a := (s.core core).arr
  !(a.halt.isSome || a.held || s.teamHeld t.team || decide (8 ≤ a.inflight.length) || decide (t.par.ks ≤ t.posS) ||
    (!a.begun && s.dieShut core) || s.mxCapped core)

/-- RLSTALL counts a clock in which an array that is ready to admit, its A operand there, waits for a weight reload, the first of an operation
too (R329, R332). -/
def State.countReloads (s : State) : State :=
  { s with cores := nall s.cores fun c k =>
      match k.arr.op.bind (nget k.mx) with
      | none => k
      | some t =>
        if k.arr.weights != some t.posS && s.arrayReady c t && ((nget k.mx (k.arr.op.getD 0)).bind (s.waveSlot c (k.arr.op.getD 0))).isSome then
          { k with regs := { k.regs with rlstall := (k.regs.rlstall + 1) % 2 ^ 32 } }
        else k }

/-- WAVEFRONT_ADMISSION (R326): arg core. -/
def State.admitWave (s : State) (core : Nat) : State :=
  let a := (s.core core).arr
  match a.op with
  | none => s
  | some k =>
    match s.mxTok core k with
    | none => s
    | some t =>
      if !s.arrayReady core t || a.weights != some t.posS then s
      else match s.waveSlot core k t with
        | none => s
        | some (slot, s) =>
          let w := s.readWave t t.posS t.posM slot
          let recent := s.cycle :: a.admits.filter fun t => decide (s.cycle < t + cyclesPerUs)
          let s := (s.modCore core fun c => { c with arr := { c.arr with inflight := c.arr.inflight ++ [w], admits := recent, begun := true } }).modMx core k
            fun t => { t with st := .array, posM := t.posM + 1 }
          if t.posM + 1 = t.par.m then s.stepAdmitted core k t else s

def execWavefrontAdmission (s : State) : Out State := .next (s.admitWave (s.arg 0))

/-- What column n sees of a wavefront. -/
def State.colIn (s : State) (t : MxTok) (w : Wave) (n : Nat) : ColIn :=
  let q := t.par
  let col := (s.team t.team).core * 0x800000 + 0x600000 + n * 0x4000
  ⟨t.f, w.a, w.scales, w.sides, s.mem.readN (col + q.boff + 128 * w.s) 128,
    if fmtScaled (bfmt t.f) then s.mem.readN (col + q.bscale + w.s * blocksOf t.f) (blocksOf t.f) else []⟩

/-- A promotion is due after a k-step (R73). -/
def MxPar.due (q : MxPar) (sk : Nat) : Bool := (sk + 1) % q.p == 0 || sk + 1 == q.ks

/-- Update element (m, n) for a wavefront: its ASUM, and its accumulator register where a promotion is due (R72, R73). -/
def State.waveElem (s : State) (core k : Nat) (t : MxTok) (w : Wave) (n : Nat) : State :=
  let q := t.par
  let i := s.colIn t w n
  let key := 128 * w.m + n
  let old := (nget (s.core core).arr.asum key).getD 0
  let int := decide (fmtGroup (afmt t.f) = 2)
  let sum : Int := if int then asumInt old i else (asumStep t.f old.toNat i.prods : Nat)
  let s := if i.misses then s.modMx core k fun t => { t with miss := true } else s
  let put (v : Int) (s : State) : State := s.modCore core fun c =>
    { c with arr := { c.arr with asum := if v = 0 then ndel c.arr.asum key else nset c.arr.asum key v } }
  if !q.due w.s then put sum s
  else match t.acc[w.m / 16]? with
    | none => put 0 s
    | some x =>
      let r := x.first + 4 * (w.m % 16) + n / 32
      let st := s.str x.strand
      let first := q.first && decide (w.s < q.p)
      let acc : Word := if first then 0 else st.peek ⟨x.frame, r, n % 32⟩
      let (v, ovf) : Word × Bool :=
        if int then (BitVec.ofInt 32 (max (-2147483648) (min 2147483647 (acc.toInt + sum))), false)
        else let p := promote (bitOf t.f 16) acc.toNat sum.toNat; (BitVec.ofNat 32 p.1, p.2)
      let v := if t.raced ∨ t.undef.contains (x.frame, r) then s.freeW (0x6800000 + key) else v
      let s := s.modStr x.strand (·.engPoke x.frame r (n % 32) v)
      let s := if w.s + 1 = q.ks then s.modMx core k fun t => { t with final := nset t.final key v } else s
      put 0 (if ovf then s.modMx core k fun t => { t with ovf := true } else s)

/-- The longest time from a halt request to the quiescent point (R329). -/
def State.noteAqp (s : State) (core : Nat) : State :=
  s.modCore core fun c =>
    if c.arr.halt.isSome then { c with regs := { c.regs with aqpmax := max c.regs.aqpmax (s.cycle - c.arr.haltAt) } } else c

/-- The array is done with its operation: it goes to the drain or is DONE (R233). Where a halt was asked for, this is the quiescent point
(R334): an abort asked for in an earlier clock is made here (R335, R338). -/
def State.opLeaves (s : State) (core k : Nat) (t : MxTok) : State :=
  let a := (s.core core).arr
  let s := (s.noteAqp core).modCore core fun c => { c with arr := c.arr.leave }
  if a.halt = some .abort ∧ a.haltAt < s.cycle then s.mxAborted core k
  else if t.par.last ∧ t.par.dslot ≠ 0xFF then
    (s.modMx core k fun t => { t with st := .drain }).modCore core fun c => { c with dre := { c.dre with queue := c.dre.queue ++ [k] } }
  else (s.modMx core k fun t => { t with st := .done }).mxEnded core k

/-- WAVEFRONT_COMPLETE (R326): arg core. The oldest wavefront in flight. -/
def State.waveDone (s : State) (core : Nat) : State :=
  let a := (s.core core).arr
  match a.op, a.inflight with
  | some k, w :: rest =>
    match s.mxTok core k with
    | none => s
    | some t =>
      let q := t.par
      let s := (List.range q.n).foldl (fun s n => s.waveElem core k t w n) s
      let s := s.modCore core fun c =>
        { c with arr := { c.arr with inflight := rest }, regs := { c.regs with wfcnt := c.regs.wfcnt + 1 } }
      if w.m + 1 < q.m then s
      else
        let s := if q.due w.s then s.modMx core k fun t => { t with kdone := w.s + 1 } else s
        if w.s + 1 = q.ks then s.opLeaves core k t else s
  | _, _ => s

def execWavefrontComplete (s : State) : Out State := .next (s.waveDone (s.arg 0))

/-- ARRAY_QUIESCENT_POINT (R334, R335): arg core. A pre-emption's record stays in the token until the save takes it. -/
def State.quiescent (s : State) (core : Nat) : State :=
  let a := (s.core core).arr
  match a.op, a.halt with
  | some k, some h =>
    if !a.inflight.isEmpty || a.held then s
    else
      let s := s.noteAqp core
      let idle (s : State) : State := s.modCore core fun c => { c with arr := c.arr.leave }
      match h with
      | .abort => (idle s).mxAborted core k
      | .preempt => (idle s).modMx core k fun t => { t with asum := a.asum }
      | .debug => s.modCore core fun c => { c with arr := { c.arr with held := true } }
  | _, _ => s

def execArrayQuiescentPoint (s : State) : Out State := .next (s.quiescent (s.arg 0))

end Sys2Proof.Machine
end

