-- ==== Sys2Proof/Machine/Reload.lean ====
section
/-! DEFINITION. What a saved team's image holds, as resumption reads it back (13_traps_preemption.md R365, R366, R368; 12_matrix_engine.md
R336, R337). Which strands, frames, tokens and ranges an image has is the package's own record of the save; what they hold is the image's
(notes/assumptions/45.md). -/

namespace Sys2Proof.Machine

/-- Bytes that a value of an image takes from an address on, as a number. -/
abbrev Rd := Nat → Nat → Nat

/-- The 32-bit words of a run. -/
def Rd.words (rd : Rd) (o n : Nat) : List Word := (List.range n).map fun i => BitVec.ofNat 32 (rd (o + 4 * i) 4)

/-- The bytes of a run. -/
def Rd.bytes (rd : Rd) (o n : Nat) : List Byte := (List.range n).map fun i => BitVec.ofNat 8 (rd (o + i) 1)

def up64 (n : Nat) : Nat := (n + 63) / 64 * 64

/-! The team section. -/

/-- A barrier from its word. -/
def barrierOf (w : Nat) : Barrier := ⟨bitOf w 0, bitsOf w 11 1, bitsOf w 22 12, bitsOf w 47 32⟩

def Barrier.reload (rd : Rd) (o : Nat) (bars : NMap Barrier) (n : Nat) : NMap Barrier :=
  let b := barrierOf (rd (o + 8 * n) 8)
  if b = (nget bars n).getD {} then bars else nset bars n b

def LiveQ.reload (rd : Rd) (o : Nat) (q : LiveQ) : LiveQ :=
  { q with c0 := rd (o + 4) 4, c1 := rd (o + 8) 4, c2 := rd (o + 12) 4, c3 := rd (o + 16) 4, closed := decide (rd (o + 20) 4 % 2 = 1) }

def CpTok.reload (rd : Rd) (o : Nat) (t : CpTok) : CpTok :=
  { t with
    st := match rd (o + 1) 1 with
      | 1 => .busy
      | 2 => .done
      | 3 => .stopped
      | _ => t.st
    reported := decide (rd (o + 2) 1 % 2 = 1), rowdone := rd (o + 4) 4, desc := rd.bytes (o + 16) 64 }

/-- The bytes of the team section. -/
def Saved.teamSize (x : Saved) (kd : KDesc) : Nat := up64 (8 * kd.nbar + 384 + 80 * x.cp.length + 132 * x.drn.length + 16)

/-- The team section at offset o. -/
def Saved.reloadTeam (x : Saved) (rd : Rd) (kd : KDesc) (o : Nat) : Saved :=
  let q := o + 8 * kd.nbar
  let c := q + 384
  let d := c + 80 * x.cp.length
  let g := d + 132 * x.drn.length
  { x with
    info := { x.info with
      bars := (List.range kd.nbar).foldl (Barrier.reload rd o) x.info.bars
      queues := x.info.queues.zipIdx.map fun (y, i) => if i < 16 then (y.1, y.2.reload rd (q + 24 * i)) else y
      dgval := BitVec.ofNat 64 (rd g 8), dgcnt := BitVec.ofNat 32 (rd (g + 8) 4) }
    cp := x.cp.zipIdx.map fun (y, i) => (y.1, y.2.reload rd (c + 80 * i))
    drn := x.drn.zipIdx.map fun (y, i) => (y.1, { y.2 with image := rd.words (d + 132 * i + 4) y.2.image.length }) }

/-! The strand section. -/

/-- Put 32 words, one a lane, into a register of a frame. -/
def Frame.putRow (f : Frame) (r : Nat) (ws : List Word) : Frame :=
  { f with cells := ws.zipIdx.foldl (fun m w => nset m (32 * r + w.2) w.1) f.cells }

/-- Registers r to r + n - 1 of a frame from offset o. -/
def Frame.reload (rd : Rd) (o : Nat) (f : Frame) (r n : Nat) : Frame :=
  (List.range n).foldl (fun f k => f.putRow (r + k) (rd.words (o + 128 * k) 32)) f

/-- A lane's thread from the fixed part at o. -/
def Thread.reload (rd : Rd) (o l : Nat) (t : Thread) : Thread :=
  let a := rd (o + 0x720 + 4 * l) 4
  { t with
    pc := BitVec.ofNat 64 (rd (o + 0x80 + 8 * l) 8), wb := rd (o + 0x180 + l) 1
    loops := (List.range 2).filterMap fun i =>
      let e := o + 0x220 + 40 * l + 20 * i
      let n := rd e 4
      if n = 0 then none else some ⟨BitVec.ofNat 32 n, BitVec.ofNat 64 (rd (e + 4) 8), BitVec.ofNat 64 (rd (e + 12) 8)⟩
    arrival := if a % 256 = 0xFF then none else some (a % 256, a / 65536), resumeWait := bitOf a 8 }

/-- A port from its latch record at o. -/
def Port.reload (rd : Rd) (o : Nat) (b : Port) : Port := { b with latch := b.latch.map fun ws => rd.words (o + 8) ws.length }

/-- A register range, after its header. -/
def reloadRange (rd : Rd) (acc : Nat × List Frame) (r : Nat × Nat × Nat) : Nat × List Frame :=
  (acc.1 + 4 + 128 * r.2.2, acc.2.set r.1 ((acc.2.getD r.1 default).reload rd (acc.1 + 4) r.2.1 r.2.2))

/-- An accumulator frame. -/
def reloadAcc (rd : Rd) (kept : List Nat) (acc : Nat × List Frame) (i : Nat) : Nat × List Frame :=
  let f := acc.2.getD i default
  if kept.contains f.uid then (acc.1 + 128 * f.size, acc.2.set i (f.reload rd acc.1 0 f.size)) else acc

/-- A strand record at offset o: the offset after it, and the strand. -/
def Strand.reload (rd : Rd) (kd : KDesc) (kept : List Nat) (o : Nat) (st : Strand) : Nat × Strand :=
  let opnds := st.imageOpnds kd false
  let v := o + 2048 + 1088
  let opnd (l j : Nat) (w : Word) : Word := match opnds.idxOf? j with
    | some i => BitVec.ofNat 32 (rd (v + 128 * i + 4 * l) 4)
    | none => w
  let fs := (st.imageRanges kd false).foldl (reloadRange rd) (v + 128 * opnds.length, st.frames.reverse)
  let fs := (List.range st.frames.length).foldl (reloadAcc rd kept) fs
  let ssw := rd (o + 8) 4
  (fs.1, { st with
    frames := fs.2.reverse
    lanes := st.lanes.map fun (l, t) =>
      if t.live then (l, { t.reload rd o l with o := t.o.zipIdx.map fun w => opnd l w.2 w.1 }) else (l, t)
    ports := st.ports.map fun (n, b) => (n, b.reload rd (o + 2048 + 136 * n))
    csr := { st.csr with dzt := bitOf ssw 0, sstep := bitOf ssw 2, dgon := bitOf ssw 3, safept := BitVec.ofNat 32 (rd (o + 12) 4), tsave := BitVec.ofNat 64 (rd (o + 16) 8) }
    fl := { st.fl with postCount := rd (o + 24) 4, fabCount := rd (o + 28) 4 } })

/-- Strand records one after another. -/
def reloadStrands (rd : Rd) (kd : KDesc) (kept : List Nat) : Nat → List (Nat × Strand) → Nat × List (Nat × Strand)
  | o, [] => (o, [])
  | o, (k, st) :: rest =>
    let (o, st) := st.reload rd kd kept o
    let (o, rest) := reloadStrands rd kd kept o rest
    (o, (k, st) :: rest)

/-! The array section. -/

/-- An ASUM from its image (R71, R75). -/
def asumOfImage (f w : Nat) : Int :=
  let sign := bitsOf w 40 40
  let e := bitsOf w 39 30
  let sig := bitsOf w 29 0
  if fmtGroup (afmt f) = 2 then
    let m : Nat := if e < 511 then 0 else sig * 2 ^ (e - 511) / 2 ^ 29
    if sign = 1 then -(m : Int) else m
  else Int.ofNat (sign * 2 ^ 39 + e * 2 ^ 29 + sig % 2 ^ 29)

/-- The bytes of an array-state record. -/
def MxTok.recordSize (t : MxTok) : Nat := up64 (320 + if t.st = .array then 8 * (t.par.m * t.par.n) else 0)

/-- The ASUMs of an operation, from offset o. -/
def reloadAsum (rd : Rd) (o : Nat) (t : MxTok) : NMap Int :=
  (List.range t.par.m).flatMap fun m => (List.range t.par.n).filterMap fun n =>
    let x := asumOfImage t.f (rd (o + 8 * (m * t.par.n + n)) 8)
    if x = 0 ∧ !nhas t.asum (128 * m + n) then none else some (128 * m + n, x)

/-- Array-state records one after another, of the tokens that have one. -/
def reloadArray (rd : Rd) : Nat → NMap MxTok → Nat × NMap MxTok
  | o, [] => (o, [])
  | o, (k, t) :: rest =>
    if !t.st.recorded then
      let (o, rest) := reloadArray rd o rest
      (o, (k, t) :: rest)
    else
      let part (i : Nat) : Word := BitVec.ofNat 32 (rd (o + 24 + 4 * i) 4)
      let slot := rd (o + 20) 4
      let u : MxTok :=
        { t with
          reported := bitOf (rd o 4) 16, posS := rd (o + 18) 2, posM := rd (o + 17) 1, slot := if slot = none32 then none else some slot
          rpart := t.rpart.zipIdx.map fun (y, i) => (y.1, if i < 2 then part i else y.2)
          param := rd.bytes (o + 64) 64, darg := t.darg.map fun _ => rd.bytes (o + 128) 192
          asum := if t.st = .array then reloadAsum rd (o + 320) t else t.asum }
      let (o, rest) := reloadArray rd (o + t.recordSize) rest
      (o, (k, u) :: rest)

/-! The memory section. -/

def reloadMem (rd : Rd) : Nat → List (Nat × List Byte) → List (Nat × List Byte)
  | _, [] => []
  | o, (a, bs) :: rest => (a, rd.bytes (o + 8) bs.length) :: reloadMem rd (o + (8 + bs.length + 7) / 8 * 8) rest

/-! The whole image. -/

/-- A saved team with what its image holds now. -/
def State.reload (s : State) (x : Saved) : Saved :=
  if x.size = 0 then x
  else
    let kd := (s.grid x.info.grid).kd
    let rd : Rd := fun o n => s.mem.readLe (x.image + o) n
    let kept := (x.mx.filter fun t => t.2.st != .done && t.2.st != .aborted).flatMap fun t => t.2.acc.map (·.frame)
    let o2 := 128 + x.teamSize kd
    let (e2, strands) := reloadStrands rd kd kept o2 x.strands
    let (o4, mx) := reloadArray rd (o2 + up64 (e2 - o2)) x.mx
    { x.reloadTeam rd kd 128 with strands := strands, mx := mx, mem := reloadMem rd o4 x.mem }

end Sys2Proof.Machine
end

