-- ==== Sys2Proof/Machine/Scope.lean ====
section
/-! DEFINITION. Register scopes, window bases and safe points (01_machine_state.md R23, R24; 06_isa_control_lanes.md R174,
R178, R179; 13_traps_preemption.md R363). -/

namespace Sys2Proof.Machine

/-- The threads with which a strand executes a scope word (R23): live, in no sub-strand and not held. -/
def Strand.scopeLanes (st : Strand) : List Nat :=
  st.liveLanes.filter fun l => st.group l == 0 && (match (st.th l).st with
    | .held _ => false
    | _ => true)

/-- A wait at a scope word. -/
def Wait.atScope : Wait → Bool
  | .scopeOpen _ | .scopeClose => true
  | _ => false

/-- The lanes that wait at the scope word of a path. -/
def Strand.gathered (st : Strand) (p : RunPath) : List Nat :=
  st.waits.flatMap fun w => if w.on.atScope && w.path.hdrAddr == p.hdrAddr then w.path.lanes else []

/-- Every thread the strand executes a scope word with has reached it, those of the path included. -/
def Strand.allGathered (st : Strand) (p : RunPath) : Bool :=
  st.scopeLanes.all fun l => p.lanes.contains l || (st.gathered p).contains l

/-- Every live thread waits at `rbar` or a scope word, and they are not all at one of those (R174). -/
def Strand.scopeClash (st : Strand) : Bool :=
  let at' (f : WaitPath → Bool) : List Nat := st.waits.flatMap fun w => if f w then w.path.lanes else []
  let scope := at' fun w => w.on.atScope
  let all := at' fun w => w.on.atScope || w.on == .rbar
  !scope.isEmpty && (st.liveLanes.all fun l => all.contains l && st.group l == 0) &&
  !(st.waits.any fun w => w.on.atScope && st.allGathered w.path)

/-- The scope words' threads trap together (R174). -/
def State.scopeClashTrap (s : State) (sid : Nat) : State :=
  let hits := (s.str sid).waits.flatMap fun w => if w.on.atScope then w.path.lanes.map fun l => (l, w.path.wordPc) else []
  let s := s.modStr sid fun st => { st with waits := st.waits.filter fun w => !w.on.atScope }
  s.trap sid ((sortBy (fun a b => decide (a.1 ≤ b.1)) hits).map fun x => ⟨x.1, 0x32, 0, 0, x.2⟩)

/-- Execute a scope word once for the strand, all its threads gathered in one path; `on` is what it waits as meanwhile. -/
def scopeWord (on : Wait) (f : Nat → RunPath → State → State) : State → Out State :=
  onPath fun sid p s =>
    let st := s.str sid
    if st.group (lowest p.lanes) ≠ 0 then s.trapPath sid p 0x32 0 0
    else if st.allGathered p then
      let p := { p with lanes := unionNat p.lanes (st.gathered p) }
      f sid p (s.modStr sid fun st => { st with waits := st.waits.filter fun w => !(w.on.atScope && w.path.hdrAddr == p.hdrAddr) })
    else s.await sid p on

/-- When a request for frame space was first made. -/
def RunPath.since (p : RunPath) (now : Nat) : Nat :=
  match p.resume with
  | some (.frameSpace _ t) => t
  | _ => now

def execScopeOpen (n : BitVec 21) : State → Out State :=
  scopeWord (.scopeOpen n.toNat) fun sid p s =>
    let st := s.str sid
    let total := (st.frames.map (·.size)).sum + n.toNat
    if ((s.gridOf sid).kd.role st.role).budget < total ∨ 16 ≤ st.frames.length then s.trapPath sid p 0x32 0 0
    else
      let since := p.since s.cycle
      if (s.openRequests st.core st.part).any (· < since) then s.await sid p (.frameSpace n.toNat since)
      else match s.findBlock st.core st.part n.toNat with
        | none => s.await sid p (.frameSpace n.toNat since)
        | some base =>
          let (uid, s) := s.takeUid
          let f := newFrame uid n.toNat st.part base true (st.lanes.map fun (l, t) => (l, t.wb))
          (s.modStr sid fun st => { st with
            frames := f :: st.frames
            lanes := nall st.lanes fun _ t => { t with wb := 0 } }).advance sid p

def execScopeClose : State → Out State :=
  scopeWord .scopeClose fun sid p s =>
    let st := s.str sid
    if st.frames.length ≤ 1 then s.trapPath sid p 0x32 0 0
    else if s.frameNamed st.core st.frame.uid then s.await sid p .frameUse
    else
      (s.modStr sid fun st => { st with
        frames := st.frames.drop 1
        lanes := nall st.lanes fun l t => { t with wb := (nget st.frame.wbs l).getD 0 } }).advance sid p

def execWbase (k : BitVec 21) : State → Out State :=
  onPath fun sid p s =>
    if (s.str sid).frameSize ≤ 8 * k.toNat then s.trapPath sid p 0x32 0 0
    else (s.modStr sid fun st => st.modThs p.lanes fun _ t => { t with wb := 8 * k.toNat }).advance sid p

/-! Safe points. -/

/-- A path stops at the `safept` it has retired (R363): it leaves the clause or stays before the next word. A lane whose loop count
was 0 earlier in the clause then goes on behind the word, without its skip: DESIGN CHOICE (log 28). -/
def State.stopPath (s : State) (sid : Nat) (p : RunPath) : State :=
  let s := if p.pos < p.count then s.modStr sid fun st => st.modThs p.lanes fun l t => { t with st := .ready, pc := p.nextPc l }
    else s.clauseEnd sid p p.lanes
  s.modStr sid fun st => st.modThs p.lanes fun l t =>
    if t.st = .ready ∧ st.group l = 0 then { t with st := .stopped, safeOrd := st.csr.safept } else t

def execSafept (n : BitVec 21) : State → Out State :=
  onPath fun sid p s =>
    let s := s.modStr sid fun st =>
      { st.modThs p.lanes (fun _ t => { t with anchorOrd := n.setWidth 32, anchorPc := p.wordPc }) with
        csr := { st.csr with safept := n.setWidth 32, wdog := 0 } }
    let st := s.str sid
    if st.stopping && st.group (lowest p.lanes) == 0 && nhas (s.gridOf sid).kd.safePts n.toNat then s.stopPath sid p
    else s.advance sid p

end Sys2Proof.Machine
end

