-- ==== Sys2Proof/Machine/Sched.lean ====
section
/-! DEFINITION. User queues, kicks, hardware slots and slices (11_scheduling_launch.md R303 to R313). -/

namespace Sys2Proof.Machine

/-- A little-endian field of bytes. -/
def fld (b : List Byte) (o n : Nat) : Nat := leNat ((b.drop o).take n)

/-! What the sequencer reads and writes in a context. -/

/-- The physical parts of a range as the sequencer reaches it in a context, or the first address that faults. -/
def State.seqParts (s : State) (ctx va n : Nat) (need : Need) (site : Nat) : Except Nat (List XPart) :=
  if 2 ^ 56 < va + n then .error va
  else (pageParts va n).foldr (fun p acc =>
    match s.xlate s.mem ctx noCore p.1 need (site + p.1) with
    | .error _ => .error p.1
    | .ok x =>
      match engineReach (s.ctx ctx).sys x.pa need with
      | some _ => .error p.1
      | none => match acc with
        | .error e => .error e
        | .ok r => .ok (⟨p.1, x.pa, p.2, x⟩ :: r)) (.ok [])

def State.seqRead (s : State) (ctx va n : Nat) : Except Nat (List Byte × State) :=
  match s.seqParts ctx va n .read 0x7000000 with
  | .error a => .error a
  | .ok ps => .ok (s.partBytes ctx ps, ps.foldl (fun s p => s.noteRead p.pa p.len) (s.useParts ctx noCore .read ps))

def State.seqWrite (s : State) (ctx va : Nat) (bs : List Byte) : Except Nat State :=
  match s.seqParts ctx va bs.length .write 0x7100000 with
  | .error a => .error a
  | .ok ps => .ok ((s.useParts ctx noCore .write ps).outerCells (partCells ps bs))

/-! Pre-emption requests. -/

/-- The sequencer decides to save a team (R363): its bins launch, its strands are stopping. A request made once stands. -/
def State.requestSave (s : State) (tid : Nat) : State :=
  let t := s.team tid
  if t.saving then s
  else
    let s := s.modTeam tid fun t => { t with saving := true, stopReq := s.cycle, stopAt := none }
    let s := { s with strands := nall s.strands fun _ st => if st.team = tid then { st with stopping := true } else st }
    (s.modCore t.core fun c => { c with bins := nall c.bins fun _ b => if b.team = tid then { b with fired := true } else b }).settleBins t.core

/-- The teams of a queue's grids that are resident. -/
def State.queueTeams (s : State) (q : Nat) : List Nat :=
  (s.teams.filter fun t => (s.grid t.2.grid).src.queue == some q && !s.hasEnded t.1).map (·.1)

/-! Ranking (R311, R313). -/

/-- Energy over the last 16 mapped slices over their mean share, as a fraction. -/
def Uq.ratio (u : Uq) : Nat × Nat :=
  if u.hist.isEmpty then (0, 1) else ((u.hist.map (·.1)).sum * u.hist.length, max 1 (u.hist.map (·.2)).sum)

/-- A place in the order of R311: priority, energy ratio, CYCLE since when it waits, number. -/
structure RankKey where
  prio : Nat
  ratio : Nat × Nat
  since : Nat
  num : Nat
  deriving DecidableEq, Repr, Inhabited

def RankKey.lt (a b : RankKey) : Bool :=
  decide (a.prio < b.prio) || (a.prio == b.prio &&
    (decide (a.ratio.1 * b.ratio.2 < b.ratio.1 * a.ratio.2) || (a.ratio.1 * b.ratio.2 == b.ratio.1 * a.ratio.2 &&
      (decide (a.since < b.since) || (a.since == b.since && decide (a.num < b.num))))))

def Uq.key (u : Uq) (q : Nat) : RankKey := ⟨u.prio, u.ratio, u.since, q⟩

/-- The first, or the last, of a list under R311. -/
def firstRank {α : Type} (key : α → RankKey) : List α → Option α
  | [] => none
  | x :: xs => some (xs.foldl (fun b y => if (key y).lt (key b) then y else b) x)
def lastRank {α : Type} (key : α → RankKey) : List α → Option α
  | [] => none
  | x :: xs => some (xs.foldl (fun b y => if (key b).lt (key y) then y else b) x)

/-! Slots (R310). -/

/-- The queue has no packet left to start or to complete. -/
def Uq.drained (u : Uq) : Bool := decide (u.widx ≤ u.ridx) && u.started.isEmpty

/-- The state of a queue that is not mapped (R305). -/
def Uq.rest (u : Uq) : UqSt := if u.st = .faulted then .faulted else if u.drained then .empty else .pending

/-- Microseconds of a slice (R304). -/
def Uq.sliceUs (u : Uq) : Nat := 100 * (if u.slice = 0 then 20 else u.slice)

/-- A slot begins to save its teams. -/
def State.beginSaving (s : State) (k : Nat) : State :=
  match nget s.sched.slots k with
  | none => s
  | some x =>
    let s := (s.endSlice k).modSlot k fun x => { x with st := .saving }
    (s.queueTeams x.queue).foldl State.requestSave s

/-- A slot becomes FREE; its queue is unmapped, and waits from now on if it is PENDING. -/
def State.freeSlot (s : State) (k : Nat) : State :=
  match nget s.sched.slots k with
  | none => s
  | some x => (s.modSched fun d => { d with slots := ndel d.slots k }).modQueue x.queue
      fun u => { u with st := u.rest, since := s.cycle }

/-- A queue is mapped to a FREE slot: its slice begins. -/
def State.mapQueue (s : State) (k q : Nat) : State :=
  (s.modSched fun d => { d with
    slots := nset d.slots k ⟨.active, q, 0, 0, s.cycle, false⟩
    energy := nset d.energy k 0 }).modQueue q fun u => { u with st := .mapped }

/-- A started COPY packet is not complete. -/
def Uq.copying (u : Uq) : Bool := u.started.any fun p => p.2.ty == 3

/-- A slot's own changes: ACTIVE and IDLE by what its queue holds, and the end of a save. -/
def State.settleSlot (s : State) (k : Nat) : State :=
  match nget s.sched.slots k with
  | none => s
  | some x =>
    let u := s.uq x.queue
    match x.st with
    | .active => if u.drained then s.modSlot k fun x => { x with st := .idle, lastActive := s.cycle } else s
    | .idle => if u.drained then s else s.modSlot k fun x => { x with st := .active }
    | .saving => if (s.queueTeams x.queue).isEmpty && !u.copying then s.freeSlot k else s
    | .error => s

/-- A saved team is discarded with its reservations (R364, R365). -/
def State.dropSaved (s : State) (t : Nat) : State :=
  match nget s.saved t with
  | none => s
  | some x =>
    let s := s.modCtx (s.grid x.info.grid).ctx fun c => { c with pool := c.pool.erase (x.info.saveOff, x.info.saveRes) }
    { s with saved := ndel s.saved t, cores := nall s.cores fun _ c => { c with resvs := c.resvs.filter fun r => r.team != t } }

/-- Work that ends without another team being admitted or resumed: none of its grid's is unadmitted, or saved. -/
def State.endsAlone (s : State) (w : Work) : Bool :=
  match w with
  | .grid g => decide ((s.grid g).last ≤ (s.grid g).next) && s.saved.all fun x => x.2.info.grid != g
  | _ => true

/-- The packet can complete although its queue is not mapped again. -/
def State.canComplete (s : State) (x : Started) : Bool :=
  s.endsAlone x.work && x.nodes.all fun n => n.2.done || n.2.work.any s.endsAlone

/-- A queue unregistered leaves once its started packets are complete (R305); of a FAULTED one, those that still can be. -/
def State.settleDereg (s : State) (q : Nat) : State :=
  let u := s.uq q
  let left := if u.st = .faulted then u.started.filter fun x => s.canComplete x.2 else u.started
  if u.dereg && left.isEmpty then
    (u.saved.foldl State.dropSaved s).modSched fun d => { d with queues := ndel d.queues q, slots := d.slots.filter fun x => x.2.queue != q }
  else s

/-- The PENDING queues, best first. -/
def State.pendingQueues (s : State) : List (Nat × Uq) :=
  sortBy (fun a b => !(b.2.key b.1).lt (a.2.key a.1)) (s.sched.queues.filter fun x => x.2.st == .pending)

/-- The lowest FREE slot. -/
def State.freeSlotNo (s : State) : Option Nat := (List.range 64).find? fun k => !nhas s.sched.slots k

/-- The least recently active IDLE slot. -/
def State.idleSlot (s : State) : Option Nat :=
  ((s.sched.slots.filter fun x => x.2.st == .idle).foldl (fun (b : Option (Nat × Slot)) x => match b with
    | none => some x
    | some y => if x.2.lastActive < y.2.lastActive then some x else b) none).map (·.1)

/-- Map PENDING queues to FREE slots, then to those that IDLE queues give up (R310, R311). -/
def State.mapPending (s : State) : Nat → State
  | 0 => s
  | f + 1 =>
    match s.pendingQueues with
    | [] => s
    | (q, _) :: _ =>
      match s.freeSlotNo with
      | some k => (s.mapQueue k q).mapPending f
      | none =>
        match s.idleSlot with
        | some k => (((s.endSlice k).freeSlot k).mapQueue k q).mapPending f
        | none => s

/-- PENDING queues that no slot in SAVING serves displace the slots that rank last, while these are of lower priority. -/
def State.displace (s : State) : List (Nat × Uq) → State
  | [] => s
  | (_, u) :: rest =>
    let open' := s.sched.slots.filter fun x => x.2.st == .active || x.2.st == .error
    match lastRank (fun x : Nat × Slot => (s.uq x.2.queue).key x.2.queue) open' with
    | none => s
    | some (k, x) => if u.prio < (s.uq x.queue).prio then (s.beginSaving k).displace rest else s

/-- A cluster's reservation ends (R319). A core that another cluster has reserved too stays reserved. -/
def State.endReserve (s : State) (gid : Nat) : State :=
  let mine := (s.sched.reserved.filter fun r => r.1 == gid).flatMap (·.2)
  let left := s.sched.reserved.filter fun r => r.1 != gid
  let s := s.modSched fun d => { d with reserved := left }
  mine.foldl (fun s k => s.modCore k fun c => { c with regs := { c.regs with resv := left.any fun r => r.2.contains k } }) s

/-- Reservations of clusters whose slot has left ACTIVE, or that are gone, end. -/
def State.settleReserved (s : State) : State :=
  s.sched.reserved.foldl (fun s r =>
    let on := match (s.grid r.1).src.queue with
      | some q => s.sched.slots.any fun k => k.2.queue == q && k.2.st == .active
      | none => true
    if nhas s.grids r.1 && on then s else s.endReserve r.1) s

/-- Bring queues and slots to rest after an event (R305, R310, R311). -/
def State.settleSlots (s : State) : State :=
  let s := (nkeys s.sched.queues).foldl State.settleDereg s
  let s := (nkeys s.sched.slots).foldl State.settleSlot s
  let s := s.mapPending (s.sched.queues.length + 64)
  let saving := (s.sched.slots.filter fun x => x.2.st == .saving).length
  let s := s.displace (s.pendingQueues.drop saving)
  let s := (nkeys s.sched.slots).foldl State.settleSlot s
  (s.mapPending (s.sched.queues.length + 64)).settleReserved

/-- SLICE_EXPIRY (R310): arg slot. -/
def State.sliceExpiry (s : State) (k : Nat) : State :=
  match nget s.sched.slots k with
  | none => s
  | some x =>
    let u := s.uq x.queue
    if x.st ≠ .active ∨ x.used < u.sliceUs * cyclesPerUs then s
    else
      if (s.pendingQueues.any fun p => decide (p.2.prio ≤ u.prio)) && s.freeSlotNo.isNone && s.idleSlot.isNone then
        (s.beginSaving k).settleSlots
      else s.endSlice k

def execSliceExpiry (s : State) : Out State := .next (s.sliceExpiry (s.arg 0))

/-! Errors (R308). -/

/-- A queue's error: the record, the event, the queue FAULTED and its slot in ERROR. `img` is the packet, empty for codes 0x06 and
0x08, and `ridx` its place. -/
def State.queueError (s : State) (q code ridx detail : Nat) (img : List Byte) : State :=
  let u := s.uq q
  let rec' := leBytes 4 code ++ (img ++ leBytes 4 0).take 4 ++ leBytes 8 ridx ++ leBytes 8 detail ++ leBytes 8 0 ++ (img ++ leBytes 32 0).take 32
  let s := ((s.tryWriteVa u.ctx u.errAddr rec').event u.evq 1 q u.ctx code ridx).modQueue q fun u => { u with st := .faulted }
  match s.slotOf q with
  | some k => s.modSlot k fun x => { x with st := if x.st = .saving then .saving else .error }
  | none => s

/-! Kicks (R306). -/

/-- A kick of value v. -/
def State.kickQueue (s : State) (q v : Nat) : State :=
  match nget s.sched.queues q with
  | none => s.modSched fun d => { d with kickdrop := d.kickdrop + 1 }
  | some u =>
    if v ≤ u.widx then s
    else if 2 ^ (u.rlog - 6) < v - u.ridx then (s.queueError q 0x08 u.ridx v []).settleSlots
    else (s.modQueue q fun u => { u with
      widx := v
      st := if u.st = .empty then .pending else u.st
      since := if u.st = .empty then s.cycle else u.since }).settleSlots

/-- KICK: args queue, value. -/
def execKick (s : State) : Out State := .next (s.kickQueue (s.arg 0 % 16384) (s.arg 1 % 2 ^ 64))

/-- KICK_PAGE_OTHER_WRITE: the write is discarded and counted. -/
def execKickPageOtherWrite (s : State) : Out State := .next (s.modSched fun d => { d with kickdrop := d.kickdrop + 1 })

/-! Registration (R304, R305). -/

/-- A queue descriptor keeps its limits. -/
def queueDescOk (b : List Byte) : Bool :=
  fld b 0 8 % 4096 == 0 && decide (12 ≤ fld b 8 1) && decide (fld b 8 1 ≤ 26) && decide (fld b 9 1 ≤ 7) && decide (fld b 10 2 ≤ 1000) &&
  decide (fld b 12 4 < 256) && fld b 16 8 % 8 == 0 && fld b 24 8 % 64 == 0 && decide (fld b 32 4 < 64) && fld b 36 4 == 1 && fld b 56 8 == 0

/-- A command names a queue in error (R305, R308). -/
def State.rejectQueue (s : State) (q : Nat) : State := s.modSched fun d => { d with rej := true, qnum := q }

/-- UQREG names queue q: its descriptor is read. A queue that is registered already is not registered again. -/
def State.uqReg (s : State) (q : Nat) : State :=
  let b := s.physBytes (s.sched.uqtbase.toNat + 64 * q) 64
  if nhas s.sched.queues q || !queueDescOk b then s.rejectQueue q
  else
    let u : Uq :=
      { ring := fld b 0 8, rlog := fld b 8 1, prio := fld b 9 1, slice := fld b 10 2, ctx := fld b 12 4, ridxAddr := fld b 16 8,
        errAddr := fld b 24 8, evq := fld b 32 4, widx := fld b 40 8, ridx := fld b 48 8, st := .empty, started := [], saved := [],
        since := s.cycle, hist := [], dereg := false, killed := false, afterWait := false, acquired := false }
    (s.modSched fun d => { d with queues := nset d.queues q { u with st := u.rest } }).settleSlots

def execUqregWrite (s : State) : Out State := .next (s.ifRun fun s => s.uqReg (s.arg 0 % 16384))

/-- The kill record of saved teams that are discarded, of the first of them: REASON 5, since system software asks for it, and LSN 0,
since no kill order is posted (R310, R354; DESIGN CHOICE, notes/assumptions/31.md). -/
def State.discardRecord (s : State) (q : Nat) (u : Uq) (x : Saved) : State :=
  let k : Kill :=
    { ctx := u.ctx, reason := 5, pc := 0, addr := 0, cause := 0, lanes := 0, core := x.core, slot := 0, team := x.info.teamid,
      queue := some q, cycle := s.cycle, here := true }
  (s.tryWriteVa u.ctx u.errAddr (k.bytes s.pkgid 0)).event u.evq 2 q u.ctx 5 x.info.teamid

/-- UQDEREG names queue q. The slot of a FAULTED queue is freed at once and its saved teams are discarded, with a kill record (R310); the
queue itself leaves once its started packets are complete (R305), those left out that no longer can be, for want of a slot that admits
their teams (DESIGN CHOICE, notes/assumptions/74.md). -/
def State.uqDereg (s : State) (q : Nat) : State :=
  match nget s.sched.queues q with
  | none => s
  | some u =>
    if u.st = .faulted then
      let mates := u.saved.flatMap fun t => ((nget s.saved t).map (·.info.cluster)).getD []
      let s := match u.saved.head?.bind (nget s.saved) with
        | some x => s.discardRecord q u x
        | none => s
      let left := u.started.filter fun x => s.canComplete x.2
      let s := mates.foldl State.dropSaved s
      ((s.modSched fun d => { d with slots := d.slots.filter fun x => x.2.queue != q }).modQueue q fun u =>
        { u with dereg := true, started := left, saved := [] }).settleSlots
    else (s.modQueue q fun u => { u with dereg := true }).settleSlots

def execUqderegWrite (s : State) : Out State := .next (s.ifRun fun s => s.uqDereg (s.arg 0 % 16384))

/-- UQCLR: queue q, new RIDX v. A started WAIT_LSN that is not complete still holds the packets behind it (R309). -/
def State.uqClr (s : State) (q v : Nat) : State :=
  match nget s.sched.queues q with
  | none => s.rejectQueue q
  | some u =>
    if u.st ≠ .faulted ∨ v < u.ridx ∨ u.widx < v then s.rejectQueue q
    else
      let behind := u.started.any (·.2.ty == 4) || (u.afterWait && v == u.ridx)
      let u' := { u with ridx := v, killed := false, afterWait := behind, st := .pending, since := s.cycle }
      match s.slotOf q with
      | some k => ((s.modQueue q fun _ => { u' with st := .mapped }).modSlot k
          fun x => { x with st := if x.st = .error then .active else x.st }).settleSlots
      | none => (s.modQueue q fun _ => { u' with st := u'.rest }).settleSlots

/-- UQCLR_WRITE: args the low and the high half written. -/
def execUqclrWrite (s : State) : Out State :=
  let v := s.arg 0 % 2 ^ 32 + s.arg 1 % 2 ^ 32 * 2 ^ 32
  .next (s.ifRun fun s => s.uqClr (v / 2 ^ 50) (v % 2 ^ 50))

/-- UQSTAT_REJ_CLEAR: writing 1 clears REJ. -/
def execUqstatRejClear (s : State) : Out State := .next (s.ifRun fun s => s.modSched fun d => { d with rej := false })

/-- KICKDROP_READ: the count is cleared by the read. -/
def execKickdropRead (s : State) : Out State := .next (s.ifShown fun s => s.modSched fun d => { d with kickdrop := 0 })

end Sys2Proof.Machine
end

