-- ==== Sys2Proof/Machine/Place.lean ====
section
/-! DEFINITION. Kernel descriptors as the sequencer reads them (04_opcode_map_assembly.md R126, R127, R130), and the placement
of a team's strands on a core (11_scheduling_launch.md R318, R320). -/

namespace Sys2Proof.Machine

/-! Undefined memory. -/

/-- Write n bytes from an address up. -/
def Memory.fill (m : Memory) (a n : Nat) (f : Nat → Byte) : Memory :=
  (m.filter fun c => decide (c.1 < a)) ++
  ((List.range n).filterMap fun i => if f i = unlistedByte then none else some (a + i, f i)) ++
  (m.filter fun c => decide (a + n ≤ c.1))

/-- Bytes take undefined values. -/
def State.undefine (s : State) (a n : Nat) : State := s.setMem (s.mem.fill a n fun i => Config.freeByte s.tick (0xE000000 + a + i))

/-! Placement of strands. -/

/-- What admission sees of a partition: worker slots taken, blocks taken, and whether earlier requests keep base frames out. -/
structure PartUse where
  slots : Nat
  taken : List (Nat × Nat)
  shut : Bool
  deriving DecidableEq, Repr, Inhabited

/-- The lowest free block of u units in a file. -/
def lowBlock (units : Nat) (taken : List (Nat × Nat)) (u : Nat) : Option Nat :=
  ((List.range (units / u)).map (· * u)).find? fun b => taken.all fun t => decide (b + u ≤ t.1) || decide (t.1 + t.2 ≤ b)

/-- The blocks of several frames in one file of so many units, each the lowest free. -/
def lowBlocks (units : Nat) (taken : List (Nat × Nat)) : List Nat → Option (List Nat)
  | [] => some []
  | n :: ns =>
    match lowBlock units taken (frameUnits n) with
    | none => none
    | some b => (lowBlocks units ((b, frameUnits n) :: taken) ns).map (b :: ·)

/-- The partition of the next worker strand and the blocks of its frames: most free slots, then the lowest number, among those with
frame space. -/
def placeOne (ps : List PartUse) (ns : List Nat) : Option (Nat × List Nat) :=
  let fit (p : PartUse) : Option (List Nat) := if p.slots < 32 ∧ !p.shut then lowBlocks 128 p.taken ns else none
  ps.zipIdx.foldl (fun (best : Option (Nat × List Nat)) x =>
    match fit x.1 with
    | none => best
    | some b => match best with
      | none => some (x.2, b)
      | some (i, c) => if x.1.slots < (ps.getD i default).slots then some (x.2, b) else some (i, c)) none

/-- Place strands in order, each with its frames' sizes: partition and first unit of each frame. -/
def placeAll (ps : List PartUse) : List (List Nat) → Option (List (Nat × List Nat))
  | [] => some []
  | ns :: rest =>
    match placeOne ps ns with
    | none => none
    | some (i, bs) =>
      let ps := ps.modify i fun p => { p with slots := p.slots + 1, taken := (bs.zip (ns.map frameUnits)) ++ p.taken }
      (placeAll ps rest).map ((i, bs) :: ·)

/-- Worker strands of a kernel in order: role, `strandid`, registers. -/
def KDesc.workers (kd : KDesc) : List (Nat × Nat × Nat) :=
  kd.roles.zipIdx.flatMap fun (r, i) => (List.range r.strands).map fun k => (i, k, r.frame)

/-- Bytes of a stack block, and how many the pool holds (R39). -/
def KDesc.stackBytes (kd : KDesc) : Nat := 32 * slotCount kd * kd.stack
def State.stackBlocks (s : State) (ctx : Nat) (kd : KDesc) : Nat :=
  if kd.stack = 0 then 0 else ((s.ctx ctx).prog.plan.getD kd.stkPlan default).size / kd.stackBytes

/-- The resource of R318 that one team or one cluster needs more of than empty cores hold. -/
def State.tooBig (s : State) (ctx : Nat) (kd : KDesc) : Option Nat :=
  if (placeAll (List.replicate 4 ⟨0, [], false⟩) (kd.workers.map fun w => [w.2.2])).isNone then some 1
  else if kd.stack ≠ 0 ∧ s.stackBlocks ctx kd < kd.cw * kd.ch then some 6
  else none

/-! Kernel descriptors. -/

def roleRec (b : List Byte) : Role := ⟨fld b 0 4, fld b 4 2, fld b 6 1, 8 * fld b 7 1, 8 * fld b 8 1⟩

/-- The limits of a role record (R127). -/
def roleOk (lead : Bool) (b : List Byte) : Bool :=
  let r := roleRec b
  r.entry % 128 == 0 && (b.drop 9).all (· == 0) && decide (8 ≤ r.frame) && decide (r.frame ≤ r.budget) && decide (r.budget ≤ 256) &&
  (if lead then r.threads == 1 && r.strands == 1
   else decide (1 ≤ r.strands) && decide (32 * (r.strands - 1) < r.threads) && decide (r.threads ≤ 32 * r.strands))

/-- The records of a table. -/
def records (n : Nat) (b : List Byte) : List (List Byte) := (List.range (b.length / n)).map fun i => (b.drop (n * i)).take n

def safeRec (b : List Byte) : Nat × SafePt :=
  (fld b 0 4, ⟨fld b 4 1, fld b 5 1,
    (List.range (fld b 6 1)).map fun i => (fld b (8 + 4 * i) 1, fld b (9 + 4 * i) 1, fld b (10 + 4 * i) 2),
    (List.range (fld b 7 1)).map fun i => (fld b (40 + 8 * i) 4, fld b (44 + 8 * i) 4)⟩)

def safeOk (sp : Nat) (b : List Byte) : Bool :=
  let (n, e) := safeRec b
  decide (n < 2 ^ 21) && decide (fld b 6 1 ≤ 8) && decide (fld b 7 1 ≤ 4) &&
  e.regs.all (fun r => decide (r.1 ≤ 15) && decide (1 ≤ r.2.2) && decide (r.2.1 + r.2.2 ≤ 256)) &&
  e.sps.all fun r => decide (r.1 + r.2 ≤ sp)

def liveRec (b : List Byte) : Nat × List Nat := (fld b 0 1, (List.range (fld b 1 1)).map fun i => fld b (4 + i) 1)

def liveOk (low : Nat) (b : List Byte) : Bool :=
  let (n, l) := liveRec b
  decide (n < 128) && decide (1 ≤ fld b 1 1) && decide (fld b 1 1 ≤ 64) && fld b 2 2 == 0 && l.all (fun r => decide (r < low)) &&
  (b.drop (4 + fld b 1 1)).all (· == 0xFF)

def bindRec (b : List Byte) : Nat × Nat × Nat := (fld b 0 1, fld b 1 1, fld b 4 4)

def bindOk (b : List Byte) : Bool :=
  let (p, r, d) := bindRec b
  decide (p < 8) && (decide (r ≤ 4) || r == 255) && fld b 2 2 == 0 && d % 32 == 0

/-- Numbers that rise strictly. -/
def rising : List Nat → Bool
  | [] => true
  | [_] => true
  | a :: b :: m => decide (a < b) && rising (b :: m)

/-- A descriptor from its 144 bytes and its three tables, if they keep the limits of R126, R127 and R130; `plan` is the memory
plan. -/
def kdescOf (plan : List Alloc) (b sp lm qb : List Byte) : Option KDesc :=
  let nrole := fld b 10 1
  let role (i : Nat) : List Byte := (b.drop (32 + 16 * i)).take 16
  let lead := (b.drop 96).take 16
  let hasLead := fld b 4 4 == 1
  let none' (x : Nat) : Option Nat := if x = none32 then none else some x
  let roles := (List.range (min nrole 4)).map fun i => roleRec (role i)
  let low := (roles.map (·.frame)).foldl min 256
  let kd : KDesc :=
    { cw := fld b 8 1, ch := fld b 9 1, roles := roles, lead := if hasLead then some (roleRec lead) else none,
      spSize := 65536 * fld b 11 1, stack := fld b 12 4, csLo := 256 * fld b 16 1, csHi := 256 * fld b 17 1, age := fld b 18 2,
      nbar := fld b 20 1, wdog := fld b 21 1, tbase := none' (fld b 24 4), tsave := none' (fld b 28 4), stkPlan := fld b 140 4,
      psize := fld b 136 4, safePts := (records 72 sp).map safeRec, liveMaps := (records 68 lm).map liveRec,
      qbinds := (records 8 qb).map bindRec }
  let ok := decide (fld b 4 4 ≤ 1) && decide (1 ≤ kd.cw) && decide (kd.cw ≤ 16) && decide (1 ≤ kd.ch) && decide (kd.ch ≤ 16) &&
    decide (kd.cw * kd.ch ≤ 24) && decide (1 ≤ nrole) && decide (nrole ≤ 4) && decide (fld b 11 1 ≤ 96) &&
    kd.stack % 16 == 0 && decide (kd.stack ≤ 65536) && decide (kd.csLo ≤ kd.csHi) && decide (kd.csHi ≤ 16384) &&
    decide (kd.nbar ≤ 128) && (kd.wdog == 0 || (decide (16 ≤ kd.wdog) && decide (kd.wdog ≤ 30))) && fld b 22 2 == 0 &&
    (match kd.tbase with
     | some t => t % 128 == 0
     | none => true) &&
    ((List.range nrole).all fun i => roleOk false (role i)) &&
    ((List.range 4).all fun i => decide (i < nrole) || (role i).all (· == 0)) &&
    (if hasLead then roleOk true lead else lead.all (· == 0)) &&
    decide ((roles.map (·.strands)).sum ≤ 32) &&
    (match kd.tsave with
     | some i => decide (i < plan.length)
     | none => true) &&
    (if kd.stack = 0 then kd.stkPlan == none32
     else decide (kd.stkPlan < plan.length) && ((plan.getD kd.stkPlan default).region == 2 || (plan.getD kd.stkPlan default).region == 3) &&
       decide (kd.stackBytes ≤ (plan.getD kd.stkPlan default).size)) &&
    ((records 72 sp).all (safeOk kd.spSize)) && rising (nkeys kd.safePts) &&
    ((records 68 lm).all (liveOk low)) && rising (nkeys kd.liveMaps) && ((records 8 qb).all bindOk)
  if ok then some kd else none

/-- Read a kernel descriptor: the descriptor, or what DETAIL of code 0x03 holds: the address that faults, of the descriptor or of
code that is not mapped executable, or the descriptor's own where it breaks a limit. -/
def State.readKdesc (s : State) (ctx va : Nat) : Except Nat (KDesc × State) :=
  let p := (s.ctx ctx).prog
  let table (s : State) (b : List Byte) (o n : Nat) : Except Nat (List Byte × State) :=
    s.seqRead ctx (p.kdescVa + fld b o 4) (n * fld b (o + 4) 4)
  match s.seqRead ctx va 144 with
  | .error a => .error a
  | .ok (b, s) =>
    match table s b 112 72 with
    | .error a => .error a
    | .ok (sp, s) =>
      match table s b 120 68 with
      | .error a => .error a
      | .ok (lm, s) =>
        match table s b 128 8 with
        | .error a => .error a
        | .ok (qb, s) =>
          match kdescOf p.plan b sp lm qb with
          | none => .error va
          | some kd =>
            let code := ((kd.roles ++ kd.lead.toList).map (·.entry) ++ kd.tbase.toList).map (p.codeVa + ·)
            match code.find? fun a => match s.xlate s.mem ctx noCore a .exec (0x2000000 + a) with
              | .ok _ => false
              | .error _ => true with
            | some a => .error a
            | none => .ok (kd, s)

end Sys2Proof.Machine
end

