-- ==== Sys2Proof/Machine/Packet.lean ====
section
/-! DEFINITION. Packets and graph nodes: checks, starts and completions (11_scheduling_launch.md R307 to R309;
04_opcode_map_assembly.md R133, R135). -/

namespace Sys2Proof.Machine

/-! Fields of a packet. -/

def pkType (b : List Byte) : Nat := fld b 0 1
def pkFence (b : List Byte) : Bool := bitOf (fld b 0 4) 8
def pkCpl (b : List Byte) : Bool := bitOf (fld b 0 4) 9

/-- The bytes of the body that a type leaves reserved: from the offset to 0x2F. -/
def bodyEnd (ty : Nat) : Nat :=
  match ty with
  | 1 | 2 => 0x1C
  | 3 => 0x20
  | 4 => 0x10
  | 5 => 0x1C
  | 6 => 0x08
  | _ => 0x30

/-- Code 0x02: the offset of the first reserved field that is not zero: HDR, the word after it, or what its type leaves of the body. -/
def pkReserved (b : List Byte) : Option Nat :=
  let e := bodyEnd (pkType b)
  if 2 ^ 10 ≤ fld b 0 4 then some 0
  else if fld b 4 4 ≠ 0 then some 4
  else if fld b e (0x30 - e) ≠ 0 then some e else none

/-- Code 0x07: the first field out of its limits. -/
def pkLimits (b : List Byte) : Option Nat :=
  let body : List (Nat × Bool) := match pkType b with
    | 3 => [(0x08, fld b 0x08 8 % 4 != 0), (0x10, fld b 0x10 8 % 4 != 0),
            (0x18, fld b 0x18 8 % 4 != 0 || decide (fld b 0x18 8 < 4) || decide (2 ^ 40 < fld b 0x18 8))]
    | 5 => [(0x08, decide (fld b 0x18 4 ≤ 2) && fld b 0x08 8 % (if fld b 0x18 4 = 2 then 4 else 8) != 0), (0x18, decide (2 < fld b 0x18 4))]
    | 7 => [(0x18, fld b 0x18 4 == 0 || decide (65536 < fld b 0x18 4)), (0x1C, decide (262144 < fld b 0x1C 4))]
    | _ => []
  let all := body ++ [(0x30, pkCpl b && fld b 0x30 8 % 8 != 0)]
  (all.find? fun x => x.2).map (·.1)

/-! Graphs (R133). -/

/-- ARG k of a node record. -/
def nodeArg (b : List Byte) (k : Nat) : Nat := fld b (4 + 4 * k) 4

/-- A node record keeps R133, over the plan and the kernels of the context's program. That the word a WAIT_LSN or SIGNAL node names
stands at a multiple of 8 is DESIGN CHOICE (logs 78, 25). -/
def nodeOk (p : Prog) (b : List Byte) : Bool :=
  let a := nodeArg b
  let al (k : Nat) : Alloc := p.plan.getD (a k) default
  let zeros (ks : List Nat) : Bool := ks.all fun k => a k == 0
  fld b 1 3 == 0 &&
  (match fld b 0 1 with
   | 1 | 2 => decide (a 0 < p.kernels) && decide (1 ≤ a 1) && decide (a 2 < p.plan.length) && zeros [3, 4, 5, 6]
   | 3 => decide (a 0 < p.plan.length) && decide (a 1 < p.plan.length) && a 2 % 4 == 0 && a 3 % 4 == 0 && a 4 % 4 == 0 &&
     decide (1 ≤ a 2) && zeros [5, 6]
   | 4 => decide (a 0 < p.plan.length) && (al 0).region == 4 && a 1 % 8 == 0 && zeros [2, 3, 4, 5, 6]
   | 5 => decide (a 0 < p.plan.length) && ((al 0).region == 4 || (al 0).region == 5) && a 1 % 8 == 0 && zeros [3, 4, 5, 6]
   | 6 => zeros [0, 1, 2, 3, 4, 5, 6]
   | _ => false)

/-- An edge record: FROM, TO, if it keeps R133. -/
def edgeOf (n : Nat) (b : List Byte) : Option (Nat × Nat) :=
  if fld b 0 4 < n ∧ fld b 4 4 < n ∧ fld b 8 8 = 0 then some (fld b 0 4, fld b 4 4) else none

/-- No cycle: nodes without an open predecessor can be taken out until none is left. -/
def acyclic (preds : List (Nat × List Nat)) : Nat → Bool
  | 0 => preds.isEmpty
  | f + 1 =>
    let free := (preds.filter fun x => x.2.isEmpty).map (·.1)
    if preds.isEmpty then true
    else if free.isEmpty then false
    else acyclic ((preds.filter fun x => !x.2.isEmpty).map fun x => (x.1, lessNat x.2 free)) f

/-- The nodes of a GRAPH packet, or the offset of the field of the packet that code 0x09 names. -/
def State.readGraph (s : State) (ctx : Nat) (b : List Byte) : Except Nat (NMap GNode × State) :=
  let n := fld b 0x18 4
  match s.seqRead ctx (fld b 0x08 8) (32 * n) with
  | .error _ => .error 0x08
  | .ok (nb, s) =>
    if !(records 32 nb).all (nodeOk (s.ctx ctx).prog) then .error 0x08
    else match s.seqRead ctx (fld b 0x10 8) (16 * fld b 0x1C 4) with
      | .error _ => .error 0x10
      | .ok (eb, s) =>
        let es := (records 16 eb).map (edgeOf n)
        if es.any Option.isNone then .error 0x10
        else
          let es := es.filterMap id
          let nodes : NMap GNode := (records 32 nb).zipIdx.map fun (r, i) =>
            (i, ⟨fld r 0 1, (List.range 7).map (nodeArg r), unionNat ((es.filter fun e => e.2 == i).map (·.1)) [], none, false⟩)
          if acyclic (nodes.map fun x => (x.1, x.2.preds)) n then .ok (nodes, s) else .error 0x10

/-- The address of a kernel descriptor or an allocation in a GRAPH packet's tables. -/
def State.tableWord (s : State) (ctx tab i : Nat) : Except Nat (Nat × State) :=
  match s.seqRead ctx (tab + 8 * i) 8 with
  | .error a => .error a
  | .ok (b, s) => .ok (fld b 0 8, s)

/-! Checks (R308). -/

/-- The errors of a launch: codes 0x03, 0x04 and 0x05 with DETAIL, or the kernel. `kind` is 1 for LAUNCH; `teamsAt` and `kdescAt`
are where the packet names the teams and the kernel. -/
def State.checkLaunch (s : State) (ctx kind va teams kdescAt teamsAt : Nat) : Except (Nat × Nat) (KDesc × State) :=
  match s.readKdesc ctx va with
  | .error a => .error (0x03, a)
  | .ok (kd, s) =>
    let n := kd.cw * kd.ch
    if kind = 1 ∧ n ≠ 1 then .error (0x04, kdescAt)
    else if teams = 0 ∨ teams % n ≠ 0 then .error (0x04, teamsAt)
    else match s.tooBig ctx kd with
      | some r => .error (0x05, r)
      | none => .ok (kd, s)

/-- The worse of two errors: the code that comes first in the order of R308. -/
def errRank (c : Nat) : Nat := ([0x06, 0x01, 0x02, 0x07, 0x09, 0x03, 0x04, 0x05].findIdx? (· == c)).getD 8

/-- The errors of a graph's launches, the first in the order of R308. -/
def State.checkNodes (s : State) (ctx ktab mptab : Nat) (nodes : NMap GNode) : Except (Nat × Nat) State :=
  nodes.foldl (fun acc (_, n) =>
    let bad (e : Nat × Nat) : Except (Nat × Nat) State := match acc with
      | .error e' => .error (if errRank e.1 < errRank e'.1 then e else e')
      | .ok _ => .error e
    let mp (s : State) (k : Nat) : Option State := match s.tableWord ctx mptab (n.args.getD k 0) with
      | .ok (_, s) => some s
      | .error _ => none
    let maps : List Nat := match n.kind with
      | 1 | 2 => [2]
      | 3 => [0, 1]
      | 4 | 5 => [0]
      | _ => []
    if maps.any fun k => (mp s k).isNone then bad (0x09, 0x28)
    else if n.kind = 1 ∨ n.kind = 2 then
      match s.tableWord ctx ktab (n.args.getD 0 0) with
      | .error a => bad (0x03, a)
      | .ok (va, s) => match s.checkLaunch ctx n.kind va (n.args.getD 1 0) 0x08 0x08 with
        | .error e => bad e
        | .ok _ => acc
    else acc) (.ok s)

/-- What a packet that is in order starts with. -/
inductive Checked where
  | launch (kd : KDesc)
  | graph (nodes : NMap GNode)
  | other
  deriving DecidableEq, Repr, Inhabited

/-- The checks on a packet read: code and DETAIL, or what it starts with (R308). -/
def State.checkPacket (s : State) (ctx : Nat) (b : List Byte) : Except (Nat × Nat) (Checked × State) :=
  let ty := pkType b
  if ty = 0 ∨ 7 < ty then .error (0x01, 0)
  else match pkReserved b with
    | some o => .error (0x02, o)
    | none => match pkLimits b with
      | some o => .error (0x07, o)
      | none =>
        if ty = 7 then
          match s.readGraph ctx b with
          | .error o => .error (0x09, o)
          | .ok (nodes, s) => match s.checkNodes ctx (fld b 0x20 8) (fld b 0x28 8) nodes with
            | .error e => .error e
            | .ok s => .ok (.graph nodes, s)
        else if ty ≤ 2 then
          match s.checkLaunch ctx ty (fld b 0x08 8) (fld b 0x18 4) 0x08 0x18 with
          | .error e => .error e
          | .ok (kd, s) => .ok (.launch kd, s)
        else .ok (.other, s)

/-! Work. -/

/-- A grid is launched: teams lo to hi - 1 of `teams` are this package's. `acq` says that its launch is, or follows, an acquire at
`.sys`. -/
def State.newGrid (s : State) (ctx va : Nat) (kd : KDesc) (param teams lo hi : Nat) (src : GridSrc) (acq : Bool) : Nat × State :=
  let g := s.ids.gid
  let x : Grid :=
    { ctx := ctx, kdescVa := BitVec.ofNat 64 va, kd := kd, param := BitVec.ofNat 64 param, teams := teams, next := lo, last := hi,
      share := (lo, hi), ended := [], tbase := none, tickets := (List.range 8).map fun t => (t, {}), src := src, ck := none,
      serial := false, since := s.cycle, acquired := acq }
  (g, { s with grids := nset s.grids g x, ids := { s.ids with gid := g + 1 } })

/-- The words of a copy that may have been written before a fault. -/
def copyPart (s : State) (cells : List Host.Cell) (n : Nat) : List Host.Cell :=
  cells.zipIdx.filterMap fun (c, i) => if i < n ∧ s.freeB (0xD000000 + i / 4) then some c else none

/-- A COPY in a context: performed whole, or the address that faults. Source bytes that the destination overlaps are undefined. -/
def State.copyRange (s : State) (ctx src dst n : Nat) : Except (Nat × State) State :=
  let reach (k : Nat) : Except Nat (List XPart × List XPart) :=
    match s.seqParts ctx src k .read 0xD100000, s.seqParts ctx dst k .write 0xD200000 with
    | .ok a, .ok b => .ok (a, b)
    | .error a, _ => .error a
    | _, .error a => .error a
  let meets (ps : List XPart) (pa : Nat) : Bool := ps.any fun p => decide (p.pa ≤ pa) && decide (pa < p.pa + p.len)
  let move (a b : List XPart) : List Host.Cell × State :=
    let cells := (partCells b (s.partBytes ctx a)).zipIdx.map fun (c, i) => if meets a c.1 then (c.1, Config.freeByte s.tick (0xD300000 + i)) else c
    (cells, (s.useParts ctx noCore .read a).useParts ctx noCore .write b)
  match reach n with
  | .ok (a, b) => let (cells, s) := move a b; .ok (s.outerCells cells)
  | .error f =>
    let k := (if src ≤ f ∧ f < src + n then f - src else f - dst) / 4 * 4
    match reach k with
    | .ok (a, b) => let (cells, s) := move a b; .error (f, s.outerCells (copyPart s cells k))
    | .error _ => .error (f, s)

/-- An address translates to the locket. -/
def State.inLocket (s : State) (ctx va : Nat) : Bool :=
  match s.xlate s.mem ctx noCore va .read 0xD400000 with
  | .ok x => regionOf x.pa == .locket
  | .error _ => false

/-- Where a signal goes: its translation, or the address where the context may not reach it. -/
def State.signalAt (s : State) (ctx va n : Nat) : Except Nat Xlat :=
  if 2 ^ 56 < va + n then .error va
  else match s.xlate s.mem ctx noCore va .read 0xD400000 with
    | .error _ => .error va
    | .ok x =>
      let c := s.ctx ctx
      match regionOf x.pa with
      | .locket => .ok x
      | .host => if s.host.up then (match x.grant .write with
          | .ok x => .ok x
          | .error _ => .error va) else .error va
      | .control => if c.sys then (match x.grant .write with
          | .ok x => .ok x
          | .error _ => .error va) else .error va
      | .nowhere => .error va
      | _ => match x.grant .write with
        | .ok x => .ok x
        | .error _ => .error va

/-- A post of the sequencer matches no record: the replay ends, and the context is halted (R419). The STOP record names no strand;
what it holds of one is DESIGN CHOICE (log 83): CORE and SLOT 0xFF and zeros. -/
def State.seqMismatch (s : State) (ctx : Nat) : State :=
  ((s.modCtx ctx fun c => { c with ck := { c.ck with replay := none } }).debugHalt ctx 4 0).debugRecord 1 0xFF 0xFF ctx
    (leBytes 20 0 ++ leBytes 1 4 ++ leBytes 7 0)

/-- A post of the sequencer for a packet or node; while its context replays it is matched in the log instead (R419). The work that
is left. -/
def State.seqPost (s : State) (ctx ty arg len : Nat) (payload : List Byte) (who : PostBy) : Work × State :=
  match (s.ctx ctx).ck.replay with
  | none => (.post 0, s.post ty arg len payload who ctx)
  | some r =>
    let mine : LRec := ⟨ty, arg, 0, s.pkgid, len, (payload ++ leBytes 48 0).take 48⟩
    match s.logFind ctx (fun e => e.kind == 1 && e.ctx == ctx) (s.logFuel ctx) r.ppos with
    | some (off, e) =>
      if (recOfBytes e.body).same mine then
        (.waitLsn (s.logLsn ctx r off), s.modReplay ctx fun r => { r with ppos := e.next })
      else (.ended, s.seqMismatch ctx)
    | none => (.ended, s.seqMismatch ctx)

/-- Perform a SIGNAL: its work left, or code and DETAIL of its error. -/
def State.signal (s : State) (ctx addr val op : Nat) (who : PostBy) : Except (Nat × Nat) (Work × State) :=
  let n := if op = 2 then 4 else 8
  if op = 2 ∧ s.inLocket ctx addr then .error (0x07, 0x08) else
  match s.signalAt ctx addr n with
  | .error a => .error (0x06, a)
  | .ok x =>
    let s := s.useXlat ctx noCore addr x (if regionOf x.pa = .locket then .read else .write)
    if regionOf x.pa = .locket then
      let o := x.pa - locketBase
      .ok (if op = 0 then s.seqPost ctx 1 o 8 (leBytes 8 val) who else s.seqPost ctx 2 o 16 (leBytes 8 val ++ leBytes 8 0) who)
    else if op = 1 then
      if regionOf x.pa = .host ∧ !(s.host.atomok && s.host.atomEn) then .error (0x06, addr)
      else .ok (.ended, s.outerCells (cellsAt x.pa (leBytes 8 ((leNat (s.physBytes x.pa 8) + val) % 2 ^ 64))))
    else .ok (.ended, s.outerCells (cellsAt x.pa (leBytes n val)))

/-! Starts. -/

/-- The head packet of a queue: its place and bytes, from its ring or, while its context replays, from the order log (R419), whose
packets start in the context's first queue. -/
inductive Head where
  | none
  | fault (a : Nat)
  | packet (ridx : Nat) (b : List Byte) (logNext : Option Nat)
  deriving DecidableEq, Repr, Inhabited

def State.headPacket (s : State) (q : Nat) : Head × State :=
  let u := s.uq q
  match (s.ctx u.ctx).ck.replay with
  | some r =>
    if ((s.ctxQueues u.ctx).head?.map (·.1)) ≠ some q then (.none, s)
    else match s.logFind u.ctx (fun e => e.kind == 2) (s.logFuel u.ctx) r.hpos with
      | some (_, e) => (.packet (fld e.body 64 8) (e.body.take 64) (some e.next), s)
      | none => (.none, s)
  | none =>
    let active := s.sched.slots.any fun k => k.2.queue == q && k.2.st == .active
    if !active || decide (u.widx ≤ u.ridx) then (.none, s)
    else match s.seqRead u.ctx (u.ring + 64 * (u.ridx % 2 ^ (u.rlog - 6))) 64 with
      | .error a => (.fault a, s)
      | .ok (b, s) => (.packet u.ridx b none, s)

/-- The start of a packet is an acquire at `.sys` (R309). -/
def Uq.acquires (u : Uq) (b : List Byte) : Bool := pkFence b || pkType b == 6 || pkType b == 5 || u.afterWait

/-- A packet may start now (R309). -/
def Uq.mayStart (u : Uq) (b : List Byte) : Bool :=
  decide (u.started.length < 16) &&
  (!u.acquires b || u.started.isEmpty)

/-- RIDX advances past a packet that starts, and is written. A logged packet only moves on in the log. -/
def State.passPacket (s : State) (q : Nat) (b : List Byte) (logNext : Option Nat) : State :=
  let s := s.modQueue q fun u => { u with acquired := u.acquired || u.acquires b }
  let u := s.uq q
  match logNext with
  | some n => (s.modReplay u.ctx fun r => { r with hpos := n }).modQueue q fun u => { u with afterWait := pkType b == 4 }
  | none =>
    let s := s.log u.ctx 2 u.ctx (b ++ leBytes 8 u.ridx)
    let s := s.modQueue q fun u => { u with ridx := u.ridx + 1, afterWait := pkType b == 4 }
    s.tryWriteVa u.ctx u.ridxAddr (leBytes 8 (u.ridx + 1))

def State.addStarted (s : State) (q pkt : Nat) (b : List Byte) (work : Work) (nodes : NMap GNode) : State :=
  let x : Started :=
    { ty := pkType b, cpl := if pkCpl b then some (fld b 0x30 8, fld b 0x38 8) else none, work := work, nodes := nodes,
      ktab := fld b 0x20 8, mptab := fld b 0x28 8, image := b }
  s.modQueue q fun u => { u with started := nset u.started pkt x }

/-- An error of a packet that has started: it is reported at its own place, and the packet is over. -/
def State.startedError (s : State) (q pkt code detail : Nat) : State :=
  let img := ((nget (s.uq q).started pkt).map (·.image)).getD []
  let s := s.modQueue q fun u => { u with started := ndel u.started pkt }
  s.queueError q code pkt detail (if code = 0x06 then [] else img)

/-- Complete a started packet (R309): its completion store, and the package forgets it. -/
def State.completePacket (s : State) (q pkt : Nat) : State :=
  match nget (s.uq q).started pkt with
  | none => s
  | some x =>
    let s := match x.work with
      | .grid g => { s with grids := ndel s.grids g }
      | _ => s
    match x.cpl with
    | none => s.modQueue q fun u => { u with started := ndel u.started pkt }
    | some (a, v) =>
      match s.seqWrite (s.uq q).ctx a (leBytes 8 v) with
      | .error f => s.startedError q pkt 0x06 f
      | .ok s => s.modQueue q fun u => { u with started := ndel u.started pkt }

/-- Start the packet at a queue's head. -/
def State.startHead (s : State) (q pkt : Nat) (b : List Byte) (c : Checked) (logNext : Option Nat) : State :=
  let u := s.uq q
  let s := s.passPacket q b logNext
  match pkType b, c with
  | 3, _ => s.addStarted q pkt b (.copy (fld b 0x08 8) (fld b 0x10 8) (fld b 0x18 8)) []
  | 4, _ => s.addStarted q pkt b (.waitLsn (fld b 0x08 8)) []
  | 5, _ =>
    let s := s.addStarted q pkt b .ended []
    match s.signal u.ctx (fld b 0x08 8) (fld b 0x10 8) (fld b 0x18 4) (.packet q pkt 0) with
    | .error (code, d) => s.startedError q pkt code d
    | .ok (w, s) => s.modQueue q fun u => { u with started := nmod u.started pkt fun x => { x with work := w } }
  | 6, _ => (s.addStarted q pkt b .barrier []).completePacket q pkt
  | _, .launch kd =>
    let n := fld b 0x18 4
    let (g, s) := s.newGrid u.ctx (fld b 0x08 8) kd (fld b 0x10 8) n 0 n (.packet q pkt) (s.uq q).acquired
    s.addStarted q pkt b (.grid g) []
  | _, .graph nodes => s.addStarted q pkt b .graph nodes
  | _, .other => s

/-- The sequencer looks at a queue's head for a packet of a type: a malformed head is reported whatever its type, and a packet of
the type starts if it may (R308, R309). -/
def State.packetEvent (s : State) (q ty : Nat) : State :=
  let u := s.uq q
  if !nhas s.sched.queues q || u.st != .mapped && (s.ctx u.ctx).ck.replay.isNone || u.dereg || (s.ctx u.ctx).killed then s
  else match s.headPacket q with
    | (.none, _) => s
    | (.fault a, _) => (s.queueError q 0x06 u.ridx a []).settleSlots
    | (.packet pkt b logNext, s1) =>
      match s1.checkPacket u.ctx b with
      | .error (code, d) => (s1.queueError q code pkt d b).settleSlots
      | .ok (c, s1) =>
        if pkType b ≠ ty ∨ !u.mayStart b ∨ (ty = 5 ∧ 1024 ≤ s.loop.postq.length) then s
        else (s1.startHead q pkt b c logNext).settleSlots

def execLaunchPacket (s : State) : Out State := .next (s.packetEvent (s.arg 0) 1)
def execClusterLaunchPacket (s : State) : Out State := .next (s.packetEvent (s.arg 0) 2)
def execCopyPacket (s : State) : Out State := .next (s.packetEvent (s.arg 0) 3)
def execWaitLsnPacket (s : State) : Out State := .next (s.packetEvent (s.arg 0) 4)
def execSignalPacket (s : State) : Out State := .next (s.packetEvent (s.arg 0) 5)
def execBarrierPacket (s : State) : Out State := .next (s.packetEvent (s.arg 0) 6)
def execGraphPacket (s : State) : Out State := .next (s.packetEvent (s.arg 0) 7)

/-! Graph nodes. -/

def State.modNode (s : State) (q pkt n : Nat) (f : GNode → GNode) : State :=
  s.modQueue q fun u => { u with started := nmod u.started pkt fun x => { x with nodes := nmod x.nodes n f } }

/-- The LSN a context's waits see applied. -/
def State.ctxLsn (s : State) (ctx : Nat) : Nat :=
  match (s.ctx ctx).ck.replay with
  | some r => r.lsn
  | none => s.loop.applied

/-- The WRITE records of the graph's locket allocations have been applied (R135). -/
def State.planReady (s : State) (ctx : Nat) : Bool := (s.ctx ctx).prog.plan.all fun a => decide (a.lsn ≤ s.ctxLsn ctx)

/-- The bytes of a range of a context take undefined values, where it is mapped. -/
def State.undefineVa (s : State) (ctx va n : Nat) : State :=
  (pageParts va n).foldl (fun s p =>
    match walkFrom s.mem p.1 walkLevels (s.ctx ctx).root with
    | .ok x => s.undefine x.pa p.2
    | .error _ => s) s

/-- Where it is mapped, a range of a context takes bytes. -/
def State.fillVa (s : State) (ctx va : Nat) (bs : List Byte) : State :=
  (pageParts va bs.length).foldl (fun s p =>
    match walkFrom s.mem p.1 walkLevels (s.ctx ctx).root with
    | .ok x => s.outerCells (cellsAt x.pa ((bs.drop (p.1 - va)).take p.2))
    | .error _ => s) s

/-- The plan gives an allocation its contents. -/
def Alloc.filled (a : Alloc) : Bool := a.image.isSome || a.fill

/-- An allocation has the image or the zeros of the plan, or undefined bytes (R135). -/
def State.placeAlloc (s : State) (ctx : Nat) (a : Alloc) : State :=
  match a.image with
  | some b => s.fillVa ctx a.va b
  | none => if a.fill then s.fillVa ctx a.va (leBytes a.size 0) else s.undefineVa ctx a.va a.size

/-- Node n starts: lifetimes that it begins. Their bytes are the image or zeros of the plan, or undefined (R135, R438); those of a locket
allocation with an image or a fill have come with its WRITE records. -/
def State.beginLives (s : State) (ctx n : Nat) : State :=
  (s.ctx ctx).prog.plan.foldl (fun s a =>
    if (a.life.map (·.1)) ≠ some n ∨ a.region < 2 ∨ (a.region = 4 ∧ a.filled) then s else s.placeAlloc ctx a) s

/-- Node n completes: the bytes of allocations whose lifetimes it ends are undefined from now on. -/
def State.endLives (s : State) (ctx n : Nat) : State :=
  (s.ctx ctx).prog.plan.foldl (fun s a =>
    if (a.life.map (·.2)) ≠ some n ∨ a.region < 2 then s else s.undefineVa ctx a.va a.size) s

/-- The work a node starts with, or the error its packet reports. The value of a SIGNAL node is stored as the 64-bit store of OP 0, with
zeros above its 32 bits, and its address is a multiple of 8 (DESIGN CHOICE, notes/assumptions/25.md: R133 gives the node no OP). -/
def State.nodeWork (s : State) (q pkt n : Nat) (x : Started) (nd : GNode) : Except (Nat × Nat) (Work × State) :=
  let ctx := (s.uq q).ctx
  let a (k : Nat) : Nat := nd.args.getD k 0
  let mp (s : State) (k : Nat) (f : Nat → State → Except (Nat × Nat) (Work × State)) : Except (Nat × Nat) (Work × State) :=
    match s.tableWord ctx x.mptab (a k) with
    | .error _ => .error (0x09, 0x28)
    | .ok (va, s) => f va s
  match nd.kind with
  | 1 | 2 =>
    match s.tableWord ctx x.ktab (a 0) with
    | .error e => .error (0x03, e)
    | .ok (va, s) => match s.checkLaunch ctx nd.kind va (a 1) 0x08 0x08 with
      | .error e => .error e
      | .ok (kd, s) => mp s 2 fun param s =>
        let (g, s) := s.newGrid ctx va kd param (a 1) 0 (a 1) (.node q pkt n) ((s.uq q).acquired || !nd.preds.isEmpty)
        .ok (.grid g, s)
  | 3 => mp s 0 fun src s => mp s 1 fun dst s => .ok (.copy (src + a 3) (dst + a 4) (a 2), s)
  | 4 => mp s 0 fun va s => .ok (.waitWord (va + a 1), s)
  | 5 => mp s 0 fun va s => s.signal ctx (va + a 1) (a 2) 0 (.packet q pkt (n + 1))
  | _ => .ok (.barrier, s)

/-- GRAPH_NODE_START (R133): args queue, packet, node. -/
def State.nodeStart (s : State) (q pkt n : Nat) : State :=
  match (nget (s.uq q).started pkt).bind fun x => (nget x.nodes n).map fun nd => (x, nd) with
  | none => s
  | some (x, nd) =>
    let ctx := (s.uq q).ctx
    let served := (s.ctx ctx).ck.replay.isSome || s.sched.slots.any fun k => k.2.queue == q && (k.2.st == .active || k.2.st == .error)
    let ready := nd.work.isNone && nd.preds.all (fun p => ((nget x.nodes p).map (·.done)).getD false) && s.planReady ctx &&
      (nd.kind != 5 || decide (s.loop.postq.length < 1024))
    if !served || !ready then s
    else match s.nodeWork q pkt n x nd with
      | .error (code, d) => (s.startedError q pkt code d).settleSlots
      | .ok (w, s) =>
        let s := (s.beginLives ctx n).modNode q pkt n fun y => { y with work := some w, done := w == .barrier }
        if w == .barrier then s.endLives ctx n else s

def execGraphNodeStart (s : State) : Out State := .next (s.nodeStart (s.arg 0) (s.arg 1) (s.arg 2))

/-! Completions. -/

/-- Every team of a grid has ended here. -/
def Grid.finished (g : Grid) : Bool := decide (g.last ≤ g.next) && g.ended.length == g.share.2 - g.share.1

/-- Work that is done, or can be done now. -/
inductive Finish where
  | no
  | yes (s : State)
  | bad (code detail : Nat) (s : State)

/-- Test and finish a piece of work. A WAIT_LSN node reads its LSN word anew at each test: DESIGN CHOICE (log 79). -/
def State.finishWork (s : State) (ctx : Nat) (w : Work) : Finish :=
  match w with
  | .grid g => if (s.grid g).finished then .yes { s with grids := ndel s.grids g } else .no
  | .copy a b n => match s.copyRange ctx a b n with
    | .ok s => .yes s
    | .error (f, s) => .bad 0x06 f s
  | .waitLsn l =>
    let s := s.wantLsn ctx l
    if l ≤ s.ctxLsn ctx then .yes s else .no
  | .waitWord va => match s.seqRead ctx va 8 with
    | .error a => .bad 0x06 a s
    | .ok (b, s) =>
      let s := s.wantLsn ctx (fld b 0 8)
      if fld b 0 8 ≤ s.ctxLsn ctx then .yes s else .no
  | .barrier | .ended => .yes s
  | .post _ | .graph => .no

/-- PACKET_COMPLETION (R309): args queue, packet, and 0 or the number of a node and one. -/
def State.packetDone (s : State) (q pkt n : Nat) : State :=
  match nget (s.uq q).started pkt with
  | none => s
  | some x =>
    let ctx := (s.uq q).ctx
    if n = 0 then
      if x.work = .graph then
        if x.nodes.all fun y => y.2.done then (s.completePacket q pkt).settleSlots else s
      else match s.finishWork ctx x.work with
        | .no => s
        | .yes s => (s.completePacket q pkt).settleSlots
        | .bad c d s => (s.startedError q pkt c d).settleSlots
    else match (nget x.nodes (n - 1)).bind (·.work) with
      | none => s
      | some w =>
        if ((nget x.nodes (n - 1)).map (·.done)).getD true then s
        else match s.finishWork ctx w with
          | .no => s
          | .yes s => (s.modNode q pkt (n - 1) fun y => { y with done := true }).endLives ctx (n - 1)
          | .bad c d s => (s.startedError q pkt c d).settleSlots

def execPacketCompletion (s : State) : Out State := .next (s.packetDone (s.arg 0) (s.arg 1) (s.arg 2))

/-- The post of a packet or node is complete. -/
def State.postedDone (s : State) (q pkt n : Nat) : State :=
  let go (w : Work) : Work := match w with
    | .post _ => .ended
    | w => w
  s.modQueue q fun u => { u with started := nmod u.started pkt fun x =>
    if n = 0 then { x with work := go x.work } else { x with nodes := nmod x.nodes (n - 1) fun y => { y with work := y.work.map go } } }

end Sys2Proof.Machine
end

