-- ==== Sys2Proof/Machine/Priv.lean ====
section
/-! DEFINITION. System forms (09_isa_async_system.md R271 to R275): control and status registers (01_machine_state.md R32 to R35),
trap return, context kill, translation maintenance, debug halt. -/

namespace Sys2Proof.Machine

/-! Control and status registers. -/

/-- The lane-detail bank a read sees (R348). -/
def Csrs.detailBank (c : Csrs) : Bank := if c.tlevel = 2 then c.bankB else c.bankA

/-- The 64-bit registers by the number of their LO half. -/
def State.csrPair (s : State) (sid n : Nat) : Option Word64 :=
  let c := (s.str sid).csr
  match n with
  | 0x02 => some ((s.gridOf sid).tbase.getD 0)
  | 0x04 => some c.tsave
  | 0x09 => some c.bankA.epc
  | 0x0B => some c.bankA.addr
  | 0x11 => some c.bankB.epc
  | 0x13 => some c.bankB.addr
  | 0x18 => some (BitVec.ofNat 64 (s.appliedLsn sid))
  | 0x1A => some (BitVec.ofNat 64 s.cycle)
  | 0x20 => some (s.teamOf sid).dgval
  | _ => none

/-- What a register reads as (R32). -/
def State.csrValue (s : State) (sid n : Nat) : Word :=
  let c := (s.str sid).csr
  match s.csrPair sid n with
  | some v => v.setWidth 32
  | none =>
    match s.csrPair sid (n - 1) with
    | some v => (v >>> 32).setWidth 32
    | none =>
      match n with
      | 0x00 => BitVec.ofNat 32 (s.ssw sid)
      | 0x01 => BitVec.ofNat 32 c.tlevel
      | 0x08 => c.bankA.cause
      | 0x0D => c.bankA.lanes
      | 0x10 => c.bankB.cause
      | 0x15 => c.bankB.lanes
      | 0x1C => c.safept
      | 0x22 => (s.teamOf sid).dgcnt
      | 0x23 => BitVec.ofNat 32 (s.teamOf sid).teamid
      | _ =>
        let d : Word64 := (nget c.detailBank.detail (n % 32)).getD 0
        if 0x60 ≤ n then (d >>> 32).setWidth 32 else if 0x40 ≤ n then d.setWidth 32 else 0

/-- `csr.rd` (R272). -/
def execCsrRd (d : Sel) (n : BitVec 7) : State → Out State :=
  onPath fun sid p s => s.operands sid p [] [(d, 1)] fun p s _ =>
    let n := n.toNat
    let v := match p.hi with
      | some (k, w) => if k = n then w else s.csrValue sid n
      | none => s.csrValue sid n
    (s.giveAll sid p d v).advanceHi sid p ((s.csrPair sid n).map fun (x : Word64) => (n + 1, (x >>> 32).setWidth 32))

/-- Replace a half of a 64-bit register. -/
def setHalf (x : Word64) (hi : Bool) (v : Word) : Word64 := if hi then v ++ x.setWidth 32 else (x >>> 32).setWidth 32 ++ v

/-- Change a strand's registers. -/
def State.modCsr (s : State) (sid : Nat) (f : Csrs → Csrs) : State := s.modStr sid fun st => { st with csr := f st.csr }

/-- A write to a trap bank, by its register's place in the bank. -/
def Bank.write (b : Bank) (k : Nat) (v : Word) : Bank :=
  match k with
  | 0 => { b with cause := v }
  | 1 => { b with epc := setHalf b.epc false v, epcWritten := true }
  | 2 => { b with epc := setHalf b.epc true v, epcWritten := true }
  | 3 => { b with addr := setHalf b.addr false v }
  | 4 => { b with addr := setHalf b.addr true v }
  | 5 => { b with lanes := v }
  | _ => b

/-- A permitted write; a write to a read-only register is ignored. -/
def State.csrWrite (s : State) (sid n : Nat) (v : Word) : State :=
  if n = 0 then s.modCsr sid fun c => { c with dzt := v.getLsbD 0, sstep := v.getLsbD 2 }
  else if n = 2 ∨ n = 3 then
    s.modGrid (s.teamOf sid).grid fun g => { g with tbase := some (setHalf (g.tbase.getD 0) (n == 3) v) }
  else if n = 4 ∨ n = 5 then s.modCsr sid fun c => { c with tsave := setHalf c.tsave (n == 5) v }
  else if 0x08 ≤ n ∧ n ≤ 0x0D then s.modCsr sid fun c => { c with bankA := c.bankA.write (n - 0x08) v }
  else if 0x10 ≤ n ∧ n ≤ 0x15 then s.modCsr sid fun c => { c with bankB := c.bankB.write (n - 0x10) v }
  else s

/-- The trap level a user context needs to write a register (R32). -/
def csrLevel (n : Nat) : Nat :=
  if 0x02 ≤ n ∧ n ≤ 0x05 then 1 else if 0x08 ≤ n ∧ n ≤ 0x0D then 1 else if 0x10 ≤ n ∧ n ≤ 0x15 then 2 else 0

/-- `csr.wr` (R272): the trap-level rule first, then the low bits of TBASE and TSAVE. -/
def execCsrWr (a : Sel) (n : BitVec 7) : State → Out State :=
  onPath fun sid p s => s.operands sid p [(a, 1)] [] fun p s vals =>
    let n := n.toNat
    let v := arg32 ((nget vals (lowest p.lanes)).getD []) 0
    if (s.str sid).csr.tlevel < csrLevel n ∧ !(s.ctxOf sid).sys then s.trapPath sid p 0x04 0 p.wordPc
    else if (n = 2 ∧ v.toNat % 128 ≠ 0) ∨ (n = 4 ∧ v.toNat % 512 ≠ 0) then s.trapPath sid p 0x01 0 p.wordPc
    else (s.csrWrite sid n v).advance sid p

/-! Trap return. -/

/-- Every live thread of the current sub-strand waits at a `tret` or is in a path. -/
def Strand.allReturn (st : Strand) (p : RunPath) : Bool :=
  let lanes := if st.csr.tlevel = 2 then st.csr.s2 else st.csr.s1
  (lanes.filter (st.liveLanes.contains ·)).all fun l =>
    p.lanes.contains l || st.waits.any fun w => w.on == .tret && w.path.lanes.contains l

/-- A resume PC names no clause header and no word within a clause (R350); one whose line cannot be fetched is left to the issue. -/
def State.badResume (s : State) (sid : Nat) (pc : Word64) : Bool × State :=
  let a := pc.toNat
  if 2 ^ 56 ≤ a ∨ a % 4 ≠ 0 then (true, s)
  else match s.fetchLine sid (a / 128 * 128) with
    | (.error _, s) => (false, s)
    | (.ok line, s) => (lineOk (a / 128 * 128) line && (clauseAt line (a % 128 / 4)).isNone, s)

/-- Threads that have returned to such a PC trap there. -/
def State.checkResume (s : State) (sid : Nat) (lanes : List Nat) : State :=
  let (bad, s) := lanes.foldl (fun (acc : List Nat × State) l =>
    match acc.2.badResume sid ((acc.2.str sid).th l).pc with
    | (true, s) => (acc.1 ++ [l], s)
    | (false, s) => (acc.1, s)) ([], s)
  s.trap sid (bad.map fun l => let pc := ((s.str sid).th l).pc; ⟨l, 0x03, 0, pc, pc⟩)

/-- `tret` (R273, R350). -/
def execTret : State → Out State :=
  onPath fun sid p s =>
    let st := s.str sid
    let g := st.group (lowest p.lanes)
    if g = 0 then s.trapPath sid p 0x04 0 p.wordPc
    else if g < st.csr.tlevel ∨ !st.allReturn p ∨ !st.fl.stores.isEmpty then s.await sid p .tret
    else
      let lanes := (if st.csr.tlevel = 2 then st.csr.s2 else st.csr.s1).filter (st.liveLanes.contains ·)
      (s.trapReturn sid).checkResume sid lanes

/-! Kill. -/

def execTkill (a : Sel) : State → Out State :=
  onPath fun sid p s => s.operands sid p [(a, 1)] [] fun p s vals =>
    (s.modStr sid fun st => st.modThs p.lanes fun _ t => { t with st := .held 3, pc := p.wordPc }).killBy sid 3 p.wordPc ((arg32 ((nget vals (lowest p.lanes)).getD []) 0).setWidth 64) 0 (laneWord p.lanes)

/-! Translations. -/

/-- log2 of the page that a size of R274 names. -/
def invShift (size : Nat) : Nat := if size = 0 then 16 else if size = 1 then 21 else 30

/-- Cached translations that an invalidation removes (R274): the context's, those that meet the page, or all. -/
def TlbEnt.hit (e : TlbEnt) (ctx size va : Nat) : Bool :=
  e.ctx == ctx && (size == 3 ||
    (let lo := va / 2 ^ invShift size * 2 ^ invShift size
     decide (e.vbase < lo + 2 ^ invShift size) && decide (lo < e.vbase + 2 ^ levelShift e.level)))

/-- The package forgets translations, in every TLB and its translation cache. -/
def State.invalidate (s : State) (ctx size va : Nat) : State :=
  { s with
    xcache := s.xcache.filter fun e => !e.hit ctx size va
    cores := nall s.cores fun _ c => { c with tlb := c.tlb.filter fun e => !e.hit ctx size va } }

/-- `tlb.inv` (R274); for the pod an XLATE record is posted and awaited. -/
def execTlbInv (a : Sel) (pod : Bool) (size : BitVec 2) : State → Out State :=
  heldPath fun sid p s =>
    match p.resume with
    | some (.post h) => s.waitFor sid p (s.postComplete sid h) (.post h) fun s => s.advance sid p
    | _ => s.operandsOnce sid p [(a, 2)] [] fun p s vals =>
      let va := val64 p vals 0
      let ctx := (s.gridOf sid).ctx
      if !pod then (s.invalidate ctx size.toNat va).advance sid p
      else s.postGate sid p fun p s =>
        let (h, s) := s.strandPost sid p 5 0 13 (leBytes 8 va ++ leBytes 4 ctx ++ leBytes 1 size.toNat)
        s.await sid p (.post h)

/-- The result of a probe (R274). -/
def State.probe (s : State) (sid va : Nat) : Word64 :=
  if 2 ^ 56 ≤ va then 0
  else match s.xlate (s.walkMem sid) (s.gridOf sid).ctx (s.str sid).core va .read 0xA500000 with
    | .error _ => 0
    | .ok x => BitVec.ofNat 64 (2 ^ 63 + natOf (bitOf x.entry 2) * 2 ^ 62 + natOf (bitOf x.entry 3) * 2 ^ 61 +
        (4 - x.level) * 2 ^ 59 + x.pa % 2 ^ 56)

def execTlbProbe (d a : Sel) : State → Out State :=
  onPath fun sid p s => s.operands sid p [(a, 2)] [(d, 2)] fun p s vals =>
    let v := s.probe sid (val64 p vals 0)
    let ws := ((s.str sid).pairLocs p.lanes d).map fun (r, hi) => (r, if hi = 0 then v.setWidth 32 else (v >>> 32).setWidth 32)
    (s.pend sid { writes := ws, on := .ready, probe := true }).advance sid p

/-! Debug halt. -/

def execDbgHalt (a : Sel) : State → Out State :=
  onPath fun sid p s => s.operands sid p [(a, 1)] [] fun p s vals =>
    let c := val32 p vals 0
    (if decide (c < 256) && (s.ctx c).valid then s.debugHalt c 1 0 else s).advance sid p

end Sys2Proof.Machine
end

