-- ==== Sys2Proof/Machine/Ckpt.lean ====
section
/-! DEFINITION. Checkpoints: the pages they store, and restoring them (16_debug_determinism.md R417, R419, R420; 10_memory_model.md
R293). -/

namespace Sys2Proof.Machine

/-! Pages. -/

/-- A leaf page of a context: first virtual address, size code of R274, where its entry lies, and the entry. -/
structure Leaf where
  va : Nat
  size : Nat
  place : Nat
  entry : Nat
  deriving DecidableEq, Repr, Inhabited

/-- The leaves below a table (R358), by ascending address. -/
def leavesFrom (m : Memory) : List (Nat × Nat × Nat) → Nat → Nat → List Leaf
  | [], _, _ => []
  | (l, lo, n) :: ls, tbl, va =>
    (List.range (2 ^ n)).flatMap fun i =>
      let a := tbl + 8 * i
      let e := m.readLe a 8
      if !bitOf e 0 || entryMalformed l e then []
      else if bitOf e 1 then [⟨va + i * 2 ^ lo, 4 - l, a, e⟩]
      else leavesFrom m ls (entryAddr e) (va + i * 2 ^ lo)

/-- log2 of the bytes of a page. -/
def Leaf.shift (x : Leaf) : Nat := levelShift (4 - x.size)

/-- The leaf pages of a context in tier 1 or tier 2. -/
def State.ctxLeaves (s : State) (ctx : Nat) : List Leaf :=
  (leavesFrom s.mem walkLevels (s.ctx ctx).root 0).filter fun x =>
    regionOf (entryAddr x.entry) == .tier1 || regionOf (entryAddr x.entry) == .tier2

/-- D and W of a leaf. -/
def Leaf.dirty (x : Leaf) : Bool := bitOf x.entry 6
def Leaf.writable (x : Leaf) : Bool := bitOf x.entry 2

/-! Storing. -/

/-- A page entry: ADDR, size code and the bytes. -/
def ckEntry (addr code : Nat) (bs : List Byte) : List Byte :=
  leBytes 8 addr ++ leBytes 1 code ++ leBytes 3 0 ++ leBytes 4 bs.length ++ padTo 8 bs

/-- Clear the D bits of leaves, and forget the context's cached translations (R360). -/
def State.clearDirty (s : State) (ctx : Nat) (xs : List Leaf) : State :=
  (xs.foldl (fun s x => if x.dirty then s.setMem (s.mem.writeLe x.place 8 (s.mem.readLe x.place 8 - 2 ^ 6)) else s) s).invalidate ctx 3 0

/-- The area or the log is full (R418). -/
def State.ckFull (s : State) (ctx : Nat) : State :=
  (s.modCtx ctx fun c => { c with dbg := { c.dbg with full := true } }).debugRecord 6 0xFF 0xFF ctx (leBytes 4 (s.ctx ctx).dbg.count)

/-- Steps 2 and 3 of a checkpoint, which no context makes whose log or area has been full (R418), with the images of teams that have been saved: its index, if there was room. -/
def State.storeCkpt (s : State) (ctx : Nat) (teams : List Saved) : Option Nat × State :=
  let c := s.ctx ctx
  if c.dbg.full then (none, s)
  else
  let all := s.ctxLeaves ctx
  let leaves := all.filter fun x => if c.ck.stored.isEmpty then x.writable else x.dirty
  let pages := leaves.flatMap fun x => ckEntry x.va x.size (s.mem.readN (entryAddr x.entry) (2 ^ x.shift))
  let locket := c.ranges.flatMap fun r => ckEntry r.1 3 (s.mem.readN (locketBase + r.1) (r.2 - r.1))
  let n := leaves.length + c.ranges.length
  let imgOff := (64 + pages.length + locket.length + 63) / 64 * 64
  let images := teams.flatMap fun x => padTo 64 (s.mem.readN x.image x.size)
  let total := imgOff + images.length
  if c.dbg.cksize * 65536 < c.ck.next + total then (none, s.ckFull ctx)
  else
    let i := c.dbg.count
    let head := leBytes 4 0x54504B43 ++ leBytes 4 i ++ leBytes 4 n ++ leBytes 4 teams.length ++ leBytes 8 s.loop.applied ++
      leBytes 8 c.ck.logpos ++ leBytes 8 imgOff ++ leBytes 8 total ++ leBytes 16 0
    let a := c.dbg.ckbase + c.ck.next
    let body := head ++ pages ++ locket
    let s := s.putCells (cellsAt a (body ++ leBytes (imgOff - body.length) 0 ++ images))
    let ck : Ckpt := ⟨a, teams, s.grids.filter fun g => g.2.ctx == ctx⟩
    (some i, (s.clearDirty ctx all).modCtx ctx fun c => { c with
      dbg := { c.dbg with count := i + 1 }
      ck := { c.ck with next := (c.ck.next + total + 65535) / 65536 * 65536, stored := nset c.ck.stored i ck, last := s.cycle } })

/-- The CHECKPOINT record (R414). -/
def State.ckRecord (s : State) (ctx i : Nat) : State :=
  match nget (s.ctx ctx).ck.stored i with
  | none => s
  | some k => s.debugRecord 3 0xFF 0xFF ctx (leBytes 4 i ++ s.mem.readN (k.addr + 8) 4 ++ s.mem.readN (k.addr + 0x10) 8 ++
      s.mem.readN (k.addr + 0x18) 8 ++ s.mem.readN (k.addr + 0x28) 8)

/-! Restoring. -/

/-- The entries of a checkpoint: address, size code, where the bytes lie, how many. -/
def ckEntries (m : Memory) : Nat → Nat → List (Nat × Nat × Nat × Nat)
  | 0, _ => []
  | n + 1, a =>
    let len := m.readLe (a + 12) 4
    (m.readLe a 8, m.readLe (a + 8) 1, a + 16, len) :: ckEntries m n (a + 16 + (len + 7) / 8 * 8)

def State.ckRead (s : State) (ctx i : Nat) : List (Nat × Nat × Nat × Nat) :=
  match nget (s.ctx ctx).ck.stored i with
  | none => []
  | some k => ckEntries s.mem (s.mem.readLe (k.addr + 8) 4) (k.addr + 64)

/-- A byte that a speculative atomic has targeted since checkpoint i (R293). -/
def Ctx.specByte (c : Ctx) (i pa : Nat) : Bool :=
  c.ck.spec.any fun (a, n, k) => decide (i < k) && decide (a ≤ pa) && decide (pa < a + n)

/-- The pages that later checkpoints than number i have stored: they were written after it, though their D bits have been cleared since. -/
def State.storedSince (s : State) (ctx i : Nat) : List Nat :=
  (nkeys (s.ctx ctx).ck.stored).flatMap fun j =>
    if i < j then (s.ckRead ctx j).filterMap fun (va, code, _, _) => if code < 3 then some va else none else []

/-- Write a page of a checkpoint back, through the context's tables as they stand. -/
def State.restorePage (s : State) (ctx i : Nat) (va src n : Nat) : State :=
  match walkFrom s.mem va walkLevels (s.ctx ctx).root with
  | .error _ => s
  | .ok x =>
    let c := s.ctx ctx
    (s.setMem (s.mem.writeCells ((cellsAt x.pa (s.mem.readN src n)).filter fun y => !c.specByte i y.1))).useXlat ctx noCore va x .write

/-- Restore the pages of checkpoints 0 to i, each over the last; only those that a test picks. -/
def State.restorePages (s : State) (ctx i : Nat) (pick : Nat → Bool) : State :=
  (List.range (i + 1)).foldl (fun s j =>
    (s.ckRead ctx j).foldl (fun s (va, code, src, n) => if code < 3 && pick va then s.restorePage ctx i va src n else s) s) s

/-- The locket bytes a checkpoint holds, by offset. -/
def State.ckLocket (s : State) (ctx i : Nat) : List Host.Cell :=
  (s.ckRead ctx i).foldl (fun cells (o, code, src, n) =>
    if code = 3 then (cellsAt o (s.mem.readN src n)).foldl (fun c y => nset c y.1 y.2) cells else cells) []

end Sys2Proof.Machine
end

