-- ==== Sys2Proof/Machine/Admit.lean ====
section
/-! DEFINITION. Admission and placement of teams (11_scheduling_launch.md R312, R317 to R319; 01_machine_state.md R35, R39, R41,
R43, R44; 13_traps_preemption.md R365). -/

namespace Sys2Proof.Machine

/-- A team's scratchpad and column-store range hold undefined values (R43). -/
def State.undefineTeam (s : State) (core spBase : Nat) (kd : KDesc) : State :=
  let s := s.undefine spBase kd.spSize
  if kd.csLo = kd.csHi then s
  else (List.range 128).foldl (fun s n => s.undefine (core * 0x800000 + 0x600000 + 0x4000 * n + kd.csLo) (kd.csHi - kd.csLo)) s

/-! What a core has free (R318). -/

/-- Where a team fits on a core: team slot, first scratchpad unit, partition and blocks of each worker strand, lead slot
and blocks. -/
structure Place where
  core : Nat
  slot : Nat
  unit : Nat
  strands : List (Nat × List Nat)
  lead : Nat × List Nat
  deriving DecidableEq, Repr, Inhabited

def State.residents (s : State) (core : Nat) : NMap Team := s.teams.filter fun t => t.2.core == core

/-- Worker slots taken in a partition: each `strandid` of a team counts where its latest strand is. -/
def State.slotsTaken (s : State) (core part : Nat) : Nat :=
  (s.strands.filter fun x => x.2.core == core && x.2.part == part && decide (part < 4) &&
    !(s.strands.any fun y => y.2.team == x.2.team && y.2.role == x.2.role && y.2.strandid == x.2.strandid && decide (x.2.serial < y.2.serial))).length

/-- What admission sees of a partition. Requests of `scope.open` and of bins come first (R320). -/
def State.partUse (s : State) (core p : Nat) : PartUse :=
  ⟨s.slotsTaken core p, s.blocks core p, !(s.openRequests core p).isEmpty || (!(s.fileRequests core).isEmpty && s.binPart core == p)⟩

/-- A memory-plan allocation is live (R135): from the start of node FIRST to the completion of node LAST (DESIGN CHOICE,
notes/assumptions/23.md: the spec says only that the two nodes bound the lifetime). -/
def State.allocLive (s : State) (ctx : Nat) (a : Alloc) : Bool :=
  match a.life with
  | none => true
  | some (f, l) => (s.ctxQueues ctx).any fun q => q.2.started.any fun x =>
      ((nget x.2.nodes f).map fun n => n.work.isSome).getD false && !((nget x.2.nodes l).map fun n => n.done).getD true

/-- Scratchpad units of a core that are not free: first unit and units. -/
def State.unitsTaken (s : State) (core : Nat) : List (Nat × Nat) :=
  ((s.residents core).map fun t => ((t.2.spBase - core * 0x800000) / 65536, (s.grid t.2.grid).kd.spSize / 65536)) ++
  (s.ctxs.flatMap fun c => c.2.prog.plan.flatMap fun a =>
    if a.region = 2 ∧ s.allocLive c.1 a then (a.units.filter fun u => u / 96 == core).map fun u => (u % 96, 1) else [])

/-- The lowest run of n free scratchpad units. -/
def State.findUnits (s : State) (core n : Nat) : Option Nat :=
  let taken := s.unitsTaken core
  (List.range (97 - n)).find? fun u => taken.all fun t => decide (u + n ≤ t.1) || decide (t.1 + t.2 ≤ u) || t.2 == 0 || n == 0

/-- The frames that each worker strand of a team needs, and its lead strand: base frame first. -/
abbrev Want := List (List Nat) × List Nat

/-- What a fresh team needs. -/
def KDesc.want (kd : KDesc) : Want := (kd.workers.map fun w => [w.2.2], (kd.lead.map (·.frame)).toList)

/-- The team fits on the core, which was not hot as the clock began, or is hot no more (R324), apart from its stack block and its save reservation; `use` is what it sees of the partitions. -/
def State.fitsIn (s : State) (gid : Nat) (kd : KDesc) (want : Want) (core : Nat) (use : Nat → PartUse) : Option Place :=
  let c := s.core core
  let mates := (s.residents core).filter fun t => !s.hasEnded t.1
  let reserved := c.regs.resv && !(s.sched.reserved.any fun r => r.1 == gid && r.2.contains core)
  let columns := kd.csLo == kd.csHi || mates.all fun t =>
    let o := (s.grid t.2.grid).kd
    o.csLo == o.csHi || decide (kd.csHi ≤ o.csLo) || decide (o.csHi ≤ kd.csLo)
  let bars := (mates.map fun t => (s.grid t.2.grid).kd.nbar).sum
  if (c.regs.hot && c.regs.wasHot) || reserved || !columns || decide (128 < bars + kd.nbar) then none
  else
    let slot := (List.range 8).find? fun k => mates.all fun t => t.2.slot != k
    let lead := if kd.lead.isSome then (List.range 8).find? fun k => s.strands.all fun x =>
        !(x.2.core == core && x.2.part == 4 + k && (!x.2.finished || !x.2.frames.isEmpty)) else some 0
    match slot, lead, s.findUnits core (kd.spSize / 65536), placeAll ((List.range 4).map use) want.1 with
    | some k, some l, some u, some ps => (lowBlocks 32 [] want.2).map fun bs => ⟨core, k, u, ps, (l, bs)⟩
    | _, _, _, _ => none

def State.fits (s : State) (gid : Nat) (kd : KDesc) (want : Want) (core : Nat) : Option Place :=
  s.fitsIn gid kd want core (s.partUse core)

/-- A partition as it would be with its frames moved together. -/
def State.packedUse (s : State) (core p : Nat) : PartUse :=
  ⟨s.slotsTaken core p, [(0, 128 - s.freeUnits core p)], false⟩

/-! Where it goes (R318, R319). -/

/-- Lexicographic order on keys of one length. -/
def lexLt : List Nat → List Nat → Bool
  | a :: as, b :: bs => decide (a < b) || (a == b && lexLt as bs)
  | _, _ => false

/-- The cores of a rectangle, in team order. -/
def rectCores (w h x0 y0 : Nat) : List Nat := (List.range (w * h)).map fun c => 16 * (y0 + c / w) + x0 + c % w

/-- All the values, or none. -/
def allSome {α : Type} : List (Option α) → Option (List α)
  | [] => some []
  | none :: _ => none
  | some x :: xs => (allSome xs).map (x :: ·)

/-- The place of a team, or of a cluster's teams; `want` is what team c needs and `ok` a further test of it on a core. -/
def State.place (s : State) (gid : Nat) (kd : KDesc) (want : Nat → Want) (ok : Nat → Nat → Bool) : Option (List Place) :=
  let rects := (List.range (17 - kd.ch)).flatMap fun y0 => (List.range (17 - kd.cw)).filterMap fun x0 =>
    let cores := rectCores kd.cw kd.ch x0 y0
    (allSome (cores.zipIdx.map fun (k, c) => if ok c k then s.fits gid kd (want c) k else none)).map fun ps =>
      let band := (cores.map fun k => (s.core k).regs.band).foldl max 0
      let spans := natOf (decide (y0 < 8) && decide (8 < y0 + kd.ch))
      (if kd.cw * kd.ch = 1 then [band, ((s.residents (16 * y0 + x0)).filter fun t => !s.hasEnded t.1).length, 16 * y0 + x0] else [band, spans, y0, x0], ps)
  (rects.foldl (fun (b : Option (List Nat × List Place)) x => match b with
    | none => some x
    | some y => if lexLt x.1 y.1 then some x else b) none).map (·.2)

/-- Stack blocks taken in a context's pools, as byte ranges, by teams resident or saved that have not ended (R39). -/
def State.stacksTaken (s : State) (ctx : Nat) : List (Nat × Nat) :=
  ((nvals s.teams) ++ (s.saved.map fun x => x.2.info)).filterMap fun t =>
    let g := s.grid t.grid
    if g.ctx = ctx ∧ g.kd.stack ≠ 0 ∧ !g.ended.contains t.teamid then
      let base := ((s.ctx ctx).prog.plan.getD g.kd.stkPlan default).va + t.stackBlk * g.kd.stackBytes
      some (base, base + g.kd.stackBytes)
    else none

/-- The n lowest free stack blocks of a kernel's pool. -/
def State.findStacks (s : State) (ctx : Nat) (kd : KDesc) (n : Nat) : Option (List Nat) :=
  if kd.stack = 0 then some (List.replicate n 0)
  else
    let pool := ((s.ctx ctx).prog.plan.getD kd.stkPlan default).va
    let taken := s.stacksTaken ctx
    let free := (List.range (s.stackBlocks ctx kd)).filter fun k =>
      taken.all fun t => decide (pool + (k + 1) * kd.stackBytes ≤ t.1) || decide (t.2 ≤ pool + k * kd.stackBytes)
    if n ≤ free.length then some (free.take n) else none

/-- Bytes reserved in the save pool for a team (R365). -/
def KDesc.saveBytes (kd : KDesc) : Nat := (kd.imageMax + 63) / 64 * 64

/-- The lowest place for a reservation in a save pool. -/
def poolFind (cap : Nat) (pool : List (Nat × Nat)) (n : Nat) : Option Nat :=
  ((0 :: pool.map fun r => r.1 + r.2).filter fun o => decide (o + n ≤ cap) && pool.all fun r => decide (o + n ≤ r.1) || decide (r.1 + r.2 ≤ o)).min?

/-- Places for k reservations. -/
def poolFinds (cap n : Nat) : List (Nat × Nat) → Nat → Option (List Nat)
  | _, 0 => some []
  | pool, k + 1 =>
    match poolFind cap pool n with
    | none => none
    | some o => (poolFinds cap n ((o, n) :: pool) k).map (o :: ·)

/-! Candidates (R317). -/

/-- The grid of a candidate. -/
def State.candGrid (s : State) : Cand → Nat
  | .fresh g => g
  | .saved t => ((nget s.saved t).map (·.info.grid)).getD 0

/-- Saved teams in the order in which they are admitted again: those of an earlier launch or node first, then by `teamid`. -/
def State.savedOrder (s : State) (ts : List Nat) : List Nat :=
  let key (t : Nat) : Nat × Nat := ((nget s.saved t).map fun x => (x.info.grid, x.info.teamid)).getD (0, 0)
  sortBy (fun a b => decide ((key a).1 < (key b).1 ∨ ((key a).1 = (key b).1 ∧ (key a).2 ≤ (key b).2))) ts

/-- A grid still has teams to admit. -/
def State.openGrid (s : State) (g : Nat) : Bool := nhas s.grids g && decide ((s.grid g).next < (s.grid g).last)

/-- The grids of a piece of started work that have teams to admit, in node start order. -/
def State.openGrids (s : State) (x : Started) : List Nat :=
  let ws := x.work :: x.nodes.filterMap fun n => n.2.work
  unionNat (ws.filterMap fun w => match w with
    | .grid g => if s.openGrid g then some g else none
    | _ => none) []

/-- The head work of a queue: its saved teams, then the first unadmitted team of its earliest started launch. -/
def State.headWork (s : State) (u : Uq) : Option Cand :=
  match s.savedOrder u.saved with
  | t :: _ => some (.saved t)
  | [] => (u.started.flatMap fun x => s.openGrids x.2).head?.map .fresh

/-- A share waits in the loop-launch list (R316). -/
def State.shareWaits (s : State) (x : Share) : Bool := !x.saved.isEmpty || s.openGrid x.grid

/-- The slot has energy left in its slice: it has not reached its allowance within it (R312), which a slice that is paused keeps. -/
def State.inAllowance (s : State) (x : Slot) : Bool :=
  let u := s.uq x.queue
  !x.capped && (x.st != .active || decide (x.sliceEnergy * max 1 s.weights < s.sched.pbudget * u.weight * u.sliceUs))

/-- Package power has exceeded PBUDGET and has not yet fallen below it (R312). PKGPWR counts milliwatts. -/
def State.overBudget (s : State) : Bool :=
  decide (s.sched.pbudget * 1000 < s.fw.pkgpwr.toNat) || (s.sched.above && decide (s.sched.pbudget * 1000 ≤ s.fw.pkgpwr.toNat))

/-- The candidates with their keys: head works of slots, the head share, and work of contexts that replay. -/
def State.candidates (s : State) : List (RankKey × Cand) :=
  let slots := s.sched.slots.filterMap fun (_, x) =>
    let u := s.uq x.queue
    if x.st == .active || x.st == .error then (s.headWork u).map fun c => (u.key x.queue, c) else none
  let share := match s.sched.shares.find? fun x => s.shareWaits x.2 with
    | none => []
    | some (k, x) => match s.savedOrder x.saved with
      | t :: _ => [(⟨x.prio, (0, 1), x.since, 16384 + k⟩, Cand.saved t)]
      | [] => [(⟨x.prio, (0, 1), x.since, 16384 + k⟩, Cand.fresh x.grid)]
  let replays := s.ctxs.filterMap fun (n, c) =>
    if c.ck.replay.isNone then none
    else match s.savedOrder ((s.saved.filter fun x => (s.grid x.2.info.grid).ctx == n).map (·.1)) with
      | t :: _ => some ((⟨0, (0, 1), 0, 0x100000 + n⟩ : RankKey), Cand.saved t)
      | [] => (s.grids.find? fun g => g.2.ctx == n && s.openGrid g.1).map fun g => (⟨0, (0, 1), 0, 0x100000 + n⟩, Cand.fresh g.1)
  sortBy (fun a b => !b.1.lt a.1) (slots ++ share ++ replays)

/-- The grid has begun and has not finished. -/
def Grid.begun (g : Grid) : Bool := (g.ck.isSome || decide (g.share.1 < g.next)) && !g.finished

/-- A grid's teams may be admitted: no checkpoint is being taken, the other launches of a context under REEXEC have ended, and under
serialised re-execution its earlier team has (R417, R420). -/
def State.mayAdmit (s : State) (gid : Nat) : Bool :=
  let g := s.grid gid
  let c := s.ctx g.ctx
  !c.ck.taking && !c.killed &&
  (!c.dbg.reexec || g.begun || s.grids.all fun o => o.1 == gid || o.2.ctx != g.ctx || !o.2.begun) &&
  (!g.serial || s.teams.all fun t => t.2.grid != gid)

/-- Places, stack blocks and save-pool reservations for the next team or cluster of a grid. -/
def State.tryFresh (s : State) (gid : Nat) : Option (List Place × List Nat × List Nat) :=
  let g := s.grid gid
  let c := s.ctx g.ctx
  let n := g.kd.cw * g.kd.ch
  if !s.mayAdmit gid then none
  else match s.findStacks g.ctx g.kd n, poolFinds (c.ssize * 65536) g.kd.saveBytes c.pool n, s.place gid g.kd (fun _ => g.kd.want) fun _ _ => true with
    | some b, some o, some p => some (p, b, o)
    | _, _, _ => none

/-- The numbers a saved team needs are free on a core. -/
def State.numbersFree (s : State) (x : Saved) (core : Nat) : Bool :=
  let c := s.core core
  let mine (k : Nat) : Bool := k == x.team
  (nkeys x.mx).all (fun k => !nhas c.mx k && c.resvs.all fun r => mine r.team || !r.mx.contains k) &&
  (nkeys x.cp).all (fun k => !nhas c.cp k && c.resvs.all fun r => mine r.team || !r.cp.contains k) &&
  (nkeys x.drn).all (fun k => !nhas c.drn k && c.resvs.all fun r => mine r.team || !r.drn.contains k)

/-- What a saved team needs: the frames of each strand it holds, the base frame of the others. -/
def Saved.want (x : Saved) (kd : KDesc) : Want :=
  let sizes (st : Strand) : List Nat := st.frames.reverse.map (·.size)
  (kd.workers.map fun (r, k, n) => match x.strands.find? fun y => y.2.role == r && y.2.strandid == k with
     | some y => sizes y.2
     | none => [n],
   match x.strands.find? fun y => y.2.role == 4 with
   | some y => sizes y.2
   | none => (kd.lead.map (·.frame)).toList)

/-- Places for a saved cluster: where the numbers of each team are free (R364, R368). -/
def State.trySaved (s : State) (t : Nat) : Option (List Place) :=
  match nget s.saved t with
  | none => none
  | some x =>
    let g := s.grid x.info.grid
    let mates := x.info.cluster.map fun k => nget s.saved k
    let c := s.ctx g.ctx
    if c.ck.taking ∨ c.killed ∨ mates.any Option.isNone then none
    else
      let want (i : Nat) : Want := match mates.getD i none with
        | some y => y.want g.kd
        | none => g.kd.want
      s.place x.info.grid g.kd want fun i k => match mates.getD i none with
        | some y => s.numbersFree y k
        | none => false

/-- Teams may be admitted at all (R315). -/
def State.admitting (s : State) : Bool := s.sched.admitOn

/-- The slot of a candidate, if it is a slot's, may admit a team now (R312). -/
def State.slotMay (s : State) (k : RankKey) : Bool :=
  decide (16384 ≤ k.num) || (!s.overBudget && match (s.slotOf k.num).bind (nget s.sched.slots) with
    | some x => s.inAllowance x
    | none => false)

/-- What the sequencer admits or resumes next. -/
inductive Choice where
  | none
  | fresh (g : Nat) (p : List Place) (b o : List Nat)
  | saved (t : Nat) (p : List Place)
  deriving DecidableEq, Repr, Inhabited

def State.choice (s : State) : Choice :=
  if !s.admitting then .none
  else (s.candidates.filter fun x => s.slotMay x.1).foldl (fun (c : Choice) x => match c with
    | .none => (match x.2 with
      | .fresh g => (match s.tryFresh g with
        | some (p, b, o) => .fresh g p b o
        | none => .none)
      | .saved t => (match s.trySaved t with
        | some p => .saved t p
        | none => .none))
    | c => c) .none

/-! What the sequencer keeps from clock to clock. -/

/-- A clock passes: slots that have reached their allowance, the power above PBUDGET (R312), and since when clusters are candidates
(R319). -/
def State.schedClock (s : State) : State :=
  let clusters := (s.candidates.map (·.2)).filter fun c => let kd := (s.grid (s.candGrid c)).kd; decide (1 < kd.cw * kd.ch)
  let slots := nall s.sched.slots fun _ x => { x with capped := x.capped || !s.inAllowance x }
  s.modSched fun d => { d with
    slots := slots
    above := s.overBudget
    waiting := clusters.map fun c => ((d.waiting.find? (·.1 == c)).getD (c, s.cycle)) }

/-- A cluster is no longer a candidate. -/
def State.noWait (s : State) (c : Cand) : State := s.modSched fun d => { d with waiting := d.waiting.filter (·.1 != c) }

/-! Frame space for admission (R320, R321). -/

/-- The base frames that admission and resumption wait for in a partition of a core: of candidates that no place is found for, and that
would fit on the core were the frames of its partitions moved together. -/
def State.baseRequests (s : State) (core part : Nat) : List Nat :=
  if !s.admitting || !(s.blocks core part).any (fun b => b.1 != 0) then []
  else s.candidates.flatMap fun x =>
    let gid := s.candGrid x.2
    let g := s.grid gid
    let wants : List Want := match x.2 with
      | .fresh _ => if (s.tryFresh gid).isSome then [] else [g.kd.want]
      | .saved t => if (s.trySaved t).isSome then [] else
        ((nget s.saved t).map fun y => y.info.cluster.filterMap fun k => (nget s.saved k).map fun z => z.want g.kd).getD []
    wants.flatMap fun w =>
      if (s.fits gid g.kd w core).isSome then []
      else match s.fitsIn gid g.kd w core (s.packedUse core) with
        | none => []
        | some p => (p.strands.zip w.1).flatMap fun y => if y.1.1 = part then y.2 else []

/-- The requests that wait for frame space in a register file, in the order in which it serves them (R320). -/
def State.frameRequests (s : State) (core part : Nat) : List Nat :=
  s.waitingFrames core part (decide (part < 4) && s.binPart core == part) ++ (if part < 4 then s.baseRequests core part else [])

def execCompactorMove (s : State) : Out State := .next (s.compact (s.arg 0) (s.arg 1) (s.arg 2) (s.frameRequests (s.arg 0) (s.arg 1)))

/-! Admitting. -/

/-- TSAVE of a strand (R41). -/
def State.tsaveOf (s : State) (ctx : Nat) (kd : KDesc) (role strandid : Nat) : Word64 :=
  match kd.tsave with
  | some i => BitVec.ofNat 64 (((s.ctx ctx).prog.plan.getD i default).va + 1024 * slotIndex kd role strandid)
  | none => 0

/-- A thread at the start of its team (R41). -/
def newThread (pc : Word64) (g : Grid) (tix : Nat) : Thread :=
  { st := .ready, pc := pc, wb := 0,
    o := [g.param.setWidth 32, (g.param >>> 32).setWidth 32, BitVec.ofNat 32 g.teams, BitVec.ofNat 32 tix, 0, 0, 0, 0],
    lr := 0, loops := [], arrival := none, resumeWait := false, anchorOrd := 0xFFFFFFFF, anchorPc := pc, starve := 0, safeOrd := 0,
    chk := some pc, pass := none }

/-- Bind a strand's ports as the kernel descriptor directs (R216). -/
def State.bindStart (s : State) (sid : Nat) (binds : List (Nat × Nat × Nat)) : State :=
  let st := s.str sid
  let sp := (s.grid (s.team st.team).grid).kd.spSize
  binds.foldl (fun s (port, role, d) =>
    if role ≠ 255 ∧ role ≠ st.role then s
    else if d % 32 == 0 && decide (d + 32 ≤ sp) && !nhas (s.str sid).ports port && s.canLive st.team d s.mem then
      (s.makeLive st.team d s.mem).modStr sid fun st => { st with ports := nset st.ports port ⟨d, none⟩ }
    else s.modStr sid fun st => { st with bindErr := if st.bindErr.isSome then st.bindErr else some (port, d) }) s

/-- Admit one strand. -/
def State.admitStrand (s : State) (tid core part base serial role strandid : Nat) (r : Role) : State :=
  let g := s.grid (s.team tid).grid
  let pc : Word64 := BitVec.ofNat 64 ((s.ctx g.ctx).prog.codeVa + r.entry + 4)
  let n := if role = 4 then 1 else min 32 (r.threads - 32 * strandid)
  let (uid, s) := s.takeUid
  let st : Strand :=
    { team := tid, core := core, part := part, role := role, strandid := strandid,
      lanes := (List.range n).map fun l => (l, newThread pc g (32 * strandid + l)),
      frames := [newFrame uid r.frame part base false []], ports := [],
      csr := { tsave := s.tsaveOf g.ctx g.kd role strandid },
      fl := {}, waits := [], seq := s.nextSeq core part, aged := 0, stopping := false, bindErr := none, serial := serial, passed := [] }
  let sid := s.ids.sid
  ({ s with strands := nset s.strands sid st, ids := { s.ids with sid := sid + 1 } }).bindStart sid g.kd.qbinds

/-- The memory plan's scratchpad and column-store images of a kernel (R135). -/
def State.planImages (s : State) (tid : Nat) : State :=
  let t := s.team tid
  let g := s.grid t.grid
  let p := (s.ctx g.ctx).prog
  let kernel := (g.kdescVa.toNat - p.kdescVa) / 144
  p.plan.foldl (fun s a =>
    let bs := match a.image with
      | some b => b
      | none => if a.fill then leBytes a.size 0 else []
    if a.kernel ≠ kernel ∨ bs.isEmpty then s
    else if a.region = 0 then s.setMem (s.mem.writeN (t.phys 0) bs)
    else if a.region = 1 then s.putRange tid (0x800000 + g.kd.csLo, bs)
    else s) s

/-- Stack bytes are undefined at admission, but in a pool that the plan fills (R39). -/
def State.undefineStack (s : State) (ctx : Nat) (kd : KDesc) (blk : Nat) : State :=
  let a := (s.ctx ctx).prog.plan.getD kd.stkPlan default
  if kd.stack = 0 || a.fill || a.image.isSome then s
  else s.undefineVa ctx (a.va + blk * kd.stackBytes) kd.stackBytes

/-- Admit one team of a grid at a place. Where its launch is an acquire at `.sys` (R133, R309), the core's cached lines are stale to
it. -/
def State.admitTeam (s : State) (gid teamid tid cluIdx : Nat) (cluster : List Nat) (p : Place) (blk off : Nat) : State :=
  let g := s.grid gid
  let kd := g.kd
  let spBase := p.core * 0x800000 + 65536 * p.unit
  let t : Team :=
    { grid := gid, teamid := teamid, cluIdx := cluIdx, cluster := cluster, core := p.core, slot := p.slot, spBase := spBase,
      stackBlk := blk, bars := [], dgval := 0, dgcnt := 0, queues := [], finals := [], saving := false, stopReq := 0,
      ptoHalted := false, saveRes := kd.saveBytes, saveOff := off, dgstep := 0 }
  let s := { s with teams := nset s.teams tid t }
  let s := s.modCtx g.ctx fun c => { c with pool := (off, kd.saveBytes) :: c.pool }
  let s := s.modGrid gid fun g => { g with tbase := some (g.tbase.getD (match kd.tbase with
    | some o => BitVec.ofNat 64 ((s.ctx g.ctx).prog.codeVa + o)
    | none => 0)) }
  let s := ((s.undefineTeam p.core spBase kd).undefineStack g.ctx kd blk).planImages tid
  let s := s.modCore p.core fun c => { c with
    regs := { c.regs with gated := false }
    rcache := if g.acquired then [] else c.rcache }
  let s := (kd.workers.zip p.strands).zipIdx.foldl (fun s (((role, k, _), (part, bs)), i) =>
    s.admitStrand tid p.core part (bs.headD 0) i role k (kd.role role)) s
  match kd.lead with
  | some r => s.admitStrand tid p.core (4 + p.lead.1) 0 kd.workers.length 4 0 r
  | none => s

/-- Admit the next team or cluster of a grid. -/
def State.admitNext (s : State) (gid : Nat) (ps : List Place) (blks offs : List Nat) : State :=
  let g := s.grid gid
  let s := if (s.ctx g.ctx).dbg.reexec && g.ck.isNone && g.next == g.share.1 then
      let (i, s) := s.storeCkpt g.ctx []
      s.modGrid gid fun g => { g with ck := i }
    else s
  let n := ps.length
  let tid := s.ids.tid
  let cluster := (List.range n).map (tid + ·)
  let s := s.modIds fun i => { i with tid := tid + n }
  let s := ps.zipIdx.foldl (fun s (p, i) =>
    s.admitTeam gid (g.next + i) (tid + i) i cluster p (blks.getD i 0) (offs.getD i 0)) s
  ((s.modGrid gid fun g => { g with next := g.next + n, since := s.cycle }).endReserve gid).noWait (.fresh gid)

/-- A core is throttled, by its temperature and what it was: from 110 degrees on, until it falls below 100 (R435). -/
def throttledNow (temp : Nat) (was : Bool) : Bool := decide (110 ≤ temp) || (was && decide (100 ≤ temp))

/-- A core is hot, by its temperature and what it was: hot from HOTLIM on, until it falls below HOTLIM - 5 (R314). -/
def hotNow (limit temp : Nat) (was : Bool) : Bool := decide (limit ≤ temp) || (was && decide (limit ≤ temp + 5))

/-- Energy of a core, in microjoules: its counter and the package's (R434). -/
def State.chargeCore (s : State) (c v : Nat) : State :=
  (s.modCore c fun c => { c with regs := { c.regs with energy := (c.regs.energy + v) % 2 ^ 64 } }).modFw fun f =>
    { f with energy := (f.energy + v) % 2 ^ 64 }

/-- Energy of a team is its slot's, where a queue of a slot started it (R312, R434). -/
def State.chargeTeam (s : State) (tid v : Nat) : State :=
  match (s.grid (s.team tid).grid).src.queue.bind s.slotOf with
  | some k => (s.modSched fun d => { d with energy := nset d.energy k (((nget d.energy k).getD 0 + v) % 2 ^ 64) }).modSlot k
      fun x => { x with sliceEnergy := x.sliceEnergy + v }
  | none => s

/-- Energy of a core's array, charged to the team whose operation it holds. -/
def State.chargeArray (s : State) (c v : Nat) : State :=
  let s := s.chargeCore c v
  match (s.core c).arr.op.bind (nget (s.core c).mx) with
  | some t => s.chargeTeam t.team v
  | none => s

/-- The rest of a core's energy, divided evenly among its resident teams; a microjoule that does not divide goes to one or another
(DESIGN CHOICE, notes/assumptions/73.md). -/
def State.chargeRest (s : State) (c v : Nat) : State :=
  let mates := s.freeOrder 0x7200000 8 (((s.residents c).filter fun t => !s.hasEnded t.1).map (·.1))
  mates.zipIdx.foldl (fun s x => s.chargeTeam x.1 ((v + x.2) / mates.length)) (s.chargeCore c v)

/-- One measurement that reaches the package: what, of which, and the reading (notes/assumptions/10.md). -/
def State.reading (s : State) (k i v : Nat) : State :=
    match k with
     | 0 => s.modFw fun f => { f with pkgpwr := BitVec.ofNat 32 v }
     | 1 => s.chargeArray (i % 256) v
     | 2 => s.chargeRest (i % 256) v
     | 3 => s.modFw fun f => { f with energy := (f.energy + v) % 2 ^ 64 }
     | 4 => s.modCore (i % 256) fun c => { c with regs := { c.regs with wfrate := v % 65536 } }
     | 5 => s.modCore (i % 256) fun c => { c with regs := { c.regs with
         temp := v % 256, band := if v < 55 then 0 else if v < 70 then 1 else if v < 85 then 2 else 3
         hot := hotNow s.sched.hotlim (v % 256) c.regs.hot, throttled := throttledNow (v % 256) c.regs.throttled } }
     | 6 => s.modCore (i % 256) fun c => { c with regs := { c.regs with rlstall := (c.regs.rlstall + v) % 2 ^ 32 } }
     | 7 => s.modFw fun f => { f with serrcnt := f.serrcnt + BitVec.ofNat 32 v }
     | _ => s

/-- The measurements of an event, as triples. -/
def State.readings (s : State) : List Nat → State
  | k :: i :: v :: rest => (s.reading k i v).readings rest
  | _ => s

/-- The clocks of a core that is IDLE are restarted (R434). -/
def State.restartCore (s : State) (c : Nat) : State :=
  if (s.core c).regs.gated then
    s.modCore c fun k => { k with regs := { k.regs with gated := false, idleSince := s.cycle, wakeAt := s.cycle + cyclesPerUs } }
  else s

/-- An admission or a resumption on some places waits until the clocks of their cores run (R434). -/
def State.awake (s : State) (ps : List Place) (k : State → State) : State :=
  let s := ps.foldl (fun s p => s.restartCore p.core) s
  if ps.all fun p => decide ((s.core p.core).regs.wakeAt ≤ s.cycle) then k s else s

/-- TEAM_ADMISSION (R317): args the measurements that come with it. -/
def State.teamAdmission (s : State) : State :=
  let s := s.readings s.args
  match s.choice with
  | .fresh g p b o => s.awake p fun s => s.admitNext g p b o
  | _ => s

def execTeamAdmission (s : State) : Out State := .next s.teamAdmission

/-- A cluster, fresh or saved, of the grid has been a candidate for CLRESV, and the grid has no reservation (R319). -/
def State.reserveDue (s : State) (gid : Nat) : Bool :=
  s.sched.clresv != 0 && (s.sched.reserved.all fun r => r.1 != gid) &&
  s.sched.waiting.any fun c => s.candGrid c.1 == gid && (s.candidates.any fun x => x.2 == c.1) &&
    decide (c.2 + s.sched.clresv * 100 * cyclesPerUs ≤ s.cycle)

/-- CLUSTER_RESERVATION_DELAY (R319): a cluster that has been a candidate for CLRESV reserves the rectangle that ranks first under
die and place, among those with no hot core. Of a core that two clusters reserve, each may use it (DESIGN CHOICE,
notes/assumptions/24.md). -/
def State.reserveCluster (s : State) (gid : Nat) : State :=
  let kd := (s.grid gid).kd
  if !s.reserveDue gid then s
  else
    let rects := (List.range (17 - kd.ch)).flatMap fun y0 => (List.range (17 - kd.cw)).map fun x0 => (x0, y0)
    let good := rects.filter fun r => (rectCores kd.cw kd.ch r.1 r.2).all fun k => !(s.core k).regs.hot
    let key (r : Nat × Nat) : List Nat := [natOf (decide (r.2 < 8) && decide (8 < r.2 + kd.ch)), r.2, r.1]
    match good.foldl (fun (b : Option (Nat × Nat)) r => match b with
      | none => some r
      | some q => if lexLt (key r) (key q) then some r else b) none with
    | none => s
    | some r =>
      let cores := rectCores kd.cw kd.ch r.1 r.2
      let s := s.modSched fun d => { d with reserved := d.reserved ++ [(gid, cores)] }
      cores.foldl (fun s k => s.modCore k fun c => { c with regs := { c.regs with resv := true } }) s

def execClusterReservationDelay (s : State) : Out State := .next (s.reserveCluster (s.arg 0))

end Sys2Proof.Machine
end

