-- ==== Sys2Proof/Machine/Sync.lean ====
section
/-! DEFINITION. Barriers, fences, waits and tickets (07_isa_memory_sync.md R202 to R211). -/

namespace Sys2Proof.Machine

/-! Barriers. -/

def Team.bar (t : Team) (n : Nat) : Barrier := (nget t.bars n).getD {}

/-- A phase completes: targets that differ from the new phase are met for good (R203). -/
def State.meetTargets (s : State) (tid n phase : Nat) : State :=
  let meet (w : WaitPath) : WaitPath := match w.on with
    | .bar m ph ts => if m = n then { w with on := .bar m ph (ts.filter fun t => t.2 == phase) } else w
    | _ => w
  { s with strands := nall s.strands fun _ st => if st.team = tid then { st with waits := st.waits.map meet } else st }

/-- An arrival publishes the fenced register writes of its strand (R206). -/
def Strand.publish (st : Strand) (bar phase : Nat) : Strand :=
  let mark (f : Frame) : Frame := { f with pubs := nall f.pubs fun _ p => match p with
    | .unfenced => .unfenced
    | .fenced a => .fenced ((bar, phase) :: a) }
  { st with frames := st.frames.map mark }

/-- Misuse of a barrier by a whole path (R204). -/
def State.barMisuse (s : State) (sid : Nat) (p : RunPath) (n : Nat) : State := s.trapPath sid p 0x62 n (BitVec.ofNat 64 n)

/-- The barrier exists and is initialised. -/
def State.barOk (s : State) (sid n : Nat) : Bool := decide (n < (s.gridOf sid).kd.nbar) && ((s.teamOf sid).bar n).init

/-- Count the arrival of some lanes: none where it would pass EXPECT (R203). -/
def State.arrive (s : State) (sid n : Nat) (lanes : List Nat) : Option State :=
  let tid := (s.str sid).team
  let b := (s.team tid).bar n
  if b.expect < b.arrived + lanes.length then none
  else
    let s := s.modStr sid fun st => (st.modThs lanes fun _ t => { t with arrival := some (n, b.phase) }).publish n b.phase
    let full := decide (b.arrived + lanes.length = b.expect)
    let b := if full then { b with arrived := 0, phase := (b.phase + 1) % 65536 } else { b with arrived := b.arrived + lanes.length }
    let s := s.modTeam tid fun t => { t with bars := nset t.bars n b }
    some (if full then s.meetTargets tid n b.phase else s)

/-- The form has used RESUMEWAIT (R203). -/
def State.clearResume (s : State) (sid : Nat) (lanes : List Nat) : State :=
  s.modStr sid fun st => st.modThs lanes fun _ t => { t with resumeWait := false }

/-- What each lane of a wait awaits (R203). -/
def State.barTargets (s : State) (sid n : Nat) (lanes : List Nat) : List (Nat × Nat) :=
  let b := (s.teamOf sid).bar n
  lanes.map fun l => (l, match ((s.str sid).th l).arrival with
    | some (m, ph) => if m = n then ph else b.phase
    | none => b.phase)

/-- The strand has passed phases of a barrier (R206). -/
def State.passPhases (s : State) (sid n : Nat) (phases : List Nat) : State :=
  s.modStr sid fun st => { st with passed := (phases.map fun ph => (n, ph)) ++ st.passed }

/-- Wait for the phases, then go on, having passed them (R203, R206). -/
def State.barWaitOn (s : State) (sid : Nat) (p : RunPath) (n : Nat) : State :=
  let b := (s.teamOf sid).bar n
  let ts := s.barTargets sid n p.lanes
  let s := s.clearResume sid p.lanes
  let left := ts.filter fun t => t.2 == b.phase
  let phases := dedup (ts.map (·.2))
  if left.isEmpty then (s.passPhases sid n phases).advance sid p else s.await sid p (.bar n phases left)

/-- The phases a path passes with whose barrier wait is over. -/
def RunPath.barDone (p : RunPath) : Option (List Nat) :=
  match p.resume with
  | some (.bar _ phases _) => some phases
  | _ => none

def execBarArrive (n : BitVec 7) : State → Out State :=
  onPath fun sid p s =>
    if !s.barOk sid n.toNat then s.barMisuse sid p n.toNat
    else s.releaseAt sid p 1 fun p s =>
      match s.arrive sid n.toNat p.lanes with
      | none => s.barMisuse sid p n.toNat
      | some s => (s.clearResume sid p.lanes).advance sid p

def execBarWait (n : BitVec 7) : State → Out State :=
  onPath fun sid p s => match p.barDone with
    | some phases => (s.passPhases sid n.toNat phases).advance sid p
    | none => if !s.barOk sid n.toNat then s.barMisuse sid p n.toNat
    else s.barWaitOn sid p n.toNat

/-- The lanes of a `bar.sync` that arrive: those it does not treat as a `bar.wait` alone (R356). -/
def Strand.arriving (st : Strand) (n : Nat) (lanes : List Nat) : List Nat :=
  lanes.filter fun l => !((st.th l).resumeWait && (st.th l).arrival.any fun a => a.1 == n)

/-- `bar.sync`: the lanes whose RESUMEWAIT is clear arrive, then every lane waits; where none arrives, the form acts only as
`bar.wait`: it makes no release and publishes nothing (R203, R356). -/
def execBarSync (n : BitVec 7) : State → Out State :=
  onPath fun sid p s => match p.barDone with
    | some phases => (s.passPhases sid n.toNat phases).advance sid p
    | none =>
      if !s.barOk sid n.toNat then s.barMisuse sid p n.toNat
      else if ((s.str sid).arriving n.toNat p.lanes).isEmpty then s.barWaitOn sid p n.toNat
      else s.releaseAt sid p 1 fun p s =>
        match s.arrive sid n.toNat ((s.str sid).arriving n.toNat p.lanes) with
        | none => s.barMisuse sid p n.toNat
        | some s => s.barWaitOn sid p n.toNat

def execBarInit (e : BitVec 11) (n : BitVec 7) : State → Out State :=
  onPath fun sid p s =>
    let b := (s.teamOf sid).bar n.toNat
    if (s.gridOf sid).kd.nbar ≤ n.toNat ∨ 0 < b.arrived then s.barMisuse sid p n.toNat
    else
      let s := s.modTeamOf sid fun t => { t with bars := nset t.bars n.toNat { b with init := true, expect := e.toNat, arrived := 0 } }
      (s.clearResume sid p.lanes).advance sid p

/-! Fences and waits. -/

/-- `fence` (R205). -/
def execFence (k : BitVec 2) (sc : BitVec 3) : State → Out State :=
  onPath fun sid p s =>
    let st := s.str sid
    let acq := k != 2
    let rel := k != 1
    let k' (p : RunPath) (s : State) : State := (if acq then s.acquireAt st.core sc.toNat else s).advance sid p
    s.waitFor sid p (st.merged && (!acq || !st.pending) && (!rel || st.released sc.toNat))
      (if k = 3 then .full sc.toNat else if rel then .release sc.toNat else .acquire) fun s =>
        if rel then s.raiseDue sid p p.duePc false true (decide (4 ≤ sc.toNat)) k' else k' p s

/-- A word that has been issued, waits, and has a register result still to write (R206). -/
def Wait.owes : Wait → Bool
  | .host _ d _ _ _ => d != .zero
  | .words _ _ _ _ _ _ | .mx _ _ | .mxDone _ | .cp _ _ | .slotAlloc _ | .slotTake _ | .mxFree _ _ _ _ | .cpFree _ _ _ | .post _ => true
  | _ => false

/-- Every pending register of a strand is written, and every word it has issued has written its results, a word about to go on after its
wait too (R206). -/
def State.resultsIn (s : State) (sid : Nat) : Bool :=
  !(s.str sid).pending && ((s.str sid).waits.all fun w => !w.on.owes) &&
  s.runs.all fun r => r.strand != sid || (r.path.resume.all fun w => !w.owes)

/-- `fence.opnd` (R206). -/
def execFenceOpnd : State → Out State :=
  onPath fun sid p s =>
    s.waitFor sid p (s.resultsIn sid) .opnd fun s =>
      let mark (f : Frame) : Frame := { f with pubs := nall f.pubs fun _ p => match p with
        | .unfenced => .fenced []
        | .fenced a => .fenced a }
      (s.modStr sid fun st => { st with frames := st.frames.map mark }).advance sid p

/-- Another path of the strand is inside a clause, other than at `fence.ifetch` (R207). -/
def State.otherInClause (s : State) (sid : Nat) : Bool :=
  (s.runs.any fun r => r.strand == sid) ||
  (s.str sid).waits.any fun w => decide (1 ≤ w.path.pos) && w.on != .ifetch

/-- The strand's own stores are performed too: a fetch reads memory, and for the strand's own writes the fence is all that is needed
(R300). -/
def State.fetchSettled (s : State) (sid : Nat) : Bool :=
  !s.otherInClause sid && (s.str sid).fl.stores.isEmpty && !(s.str sid).hostAtoms

def execFenceIfetch : State → Out State :=
  onPath fun sid p s =>
    s.waitFor sid p (s.fetchSettled sid) .ifetch fun s =>
      (s.modCoreOf sid fun c => { c with ibuf := [] }).advance sid p

/-- `wait` (R208). -/
def execWait (m : BitVec 7) : State → Out State :=
  onPath fun sid p s =>
    let m := m.toNat
    s.waitFor sid p (s.maskHolds sid m) (.word m) fun s =>
      (s.passMask sid m).raiseDue sid p p.duePc (bitOf m 0) (bitOf m 1) (bitOf m 4) fun p s => s.advance sid p

/-! Tickets. -/

def Grid.ticket (g : Grid) (t : Nat) : Ticket := (nget g.tickets t).getD {}

/-- VALUE advances past teams that have ended, at most to the grid's team count (R209). -/
def skipEnded (ended : List Nat) (teams : Nat) : Nat → Nat → Nat
  | 0, v => v
  | f + 1, v => if v < teams ∧ ended.contains v then skipEnded ended teams f (v + 1) else v

/-- A ticket after its holder passes it (R210). -/
def Grid.passed (g : Grid) (k : Ticket) : Ticket := { value := skipEnded g.ended g.teams g.ended.length (k.value + 1) }

def execTktWait (t : BitVec 3) : State → Out State :=
  onPath fun sid p s =>
    let k := (s.gridOf sid).ticket t.toNat
    if k.value = (s.teamOf sid).teamid then (s.staleCache (s.str sid).core).advance sid p
    else if k.effect then s.trapPath sid p 0x60 t.toNat (t.setWidth 64)
    else s.await sid p (.ticket t.toNat)

def execTktPass (t : BitVec 3) : State → Out State :=
  onPath fun sid p s =>
    s.releaseAt sid p 3 fun p s =>
      let g := s.gridOf sid
      let k := g.ticket t.toNat
      let s := if k.value = (s.teamOf sid).teamid then
          s.modGrid (s.teamOf sid).grid fun g => { g with tickets := nset g.tickets t.toNat (g.passed k) }
        else s
      s.advance sid p

end Sys2Proof.Machine
end

