-- ==== Sys2Proof/Machine/TeamEnd.lean ====
section
/-! DEFINITION. The end of a team (01_machine_state.md R35, R45; 07_isa_memory_sync.md R209, R210; 11_scheduling_launch.md R316). -/

namespace Sys2Proof.Machine

/-- Nothing of the team is left to run or to complete (R45). -/
def State.teamDone (s : State) (tid : Nat) : Bool :=
  let t := s.team tid
  let c := s.core t.core
  nhas s.teams tid && !s.hasEnded tid &&
  ((s.teamStrands tid).all fun x =>
    x.2.finished && x.2.fl.stores.isEmpty && (x.2.ports.all fun p => p.2.latch.isNone) && x.2.fl.fabs.all fun f => f.2.done) &&
  (c.bins.all fun b => b.2.team != tid) && (s.orphans.all fun o => o.team != tid) &&
  (c.cp.all fun k => k.2.team != tid || k.2.st != .busy) && (c.mx.all fun k => k.2.team != tid || !k.2.st.busy)

/-- The loop share that a team's end ends, if its DONEOFF is still to be posted. -/
def State.lastOfShare (s : State) (tid : Nat) : Option (Nat × Share) :=
  let t := s.team tid
  let g := s.grid t.grid
  if g.last ≤ g.next ∧ g.ended.length + 1 = g.share.2 - g.share.1 then s.sched.shares.find? fun x => x.2.grid == t.grid else none

/-- A share has ended: DONEOFF takes an `lp.add` of 1 (R316). -/
def State.endShare (s : State) (k : Nat) (x : Share) : State :=
  let s := { (s.modSched fun d => { d with shares := ndel d.shares k }) with grids := ndel s.grids x.grid }
  if x.doneOff = none32 then s
  else (s.seqPost x.ctx 2 (x.doneOff % 2 ^ 24) 16 (leBytes 8 1 ++ leBytes 8 0) .share).2

/-- A checkpoint is made once no team of its context is resident: it is stored with the images of the saved teams, which then go on
(R417). -/
def State.settleCkpt (s : State) (ctx : Nat) : State :=
  let c := s.ctx ctx
  if !c.ck.taking || s.teams.any (fun t => (s.grid t.2.grid).ctx == ctx && !s.hasEnded t.1) then s
  else
    let images := (nvals s.saved).filter fun x => (s.grid x.info.grid).ctx == ctx && x.size != 0
    let (i, s) := s.storeCkpt ctx images
    let s := s.modCtx ctx fun c => { c with ck := { c.ck with taking := false, last := s.cycle } }
    match i with
    | some i => s.ckRecord ctx i
    | none => s

/-- End a team (R45): its queues are written back, what it holds is given back, its tickets pass. A cluster's ended team keeps its
scratchpad until every team of the cluster has ended. -/
def State.endTeam (s : State) (tid : Nat) : State :=
  let t := s.team tid
  let share := s.lastOfShare tid
  let ctx := (s.grid t.grid).ctx
  let s := (s.writeBackAll tid).modGrid t.grid fun g => { g with ended := insertNat t.teamid g.ended }
  let s := s.modGrid t.grid fun g => { g with tickets := nall g.tickets fun _ k => if k.value = t.teamid then g.passed k else k }
  let s := s.freePool ctx t.saveOff t.saveRes
  let s := { s.removeTeam tid with teams := s.teams }
  let all := t.cluster.all fun k => !nhas s.teams k || s.hasEnded k
  let s := if all then { s with teams := s.teams.filter fun x => !t.cluster.contains x.1 } else s
  let s := s.settleGrid t.grid
  let s := match share with
    | some (k, x) => s.endShare k x
    | none => s
  s.settleSlots.settleCkpt ctx

/-- TEAM_END: arg team. The post of a share's end waits for room. -/
def State.teamEnd (s : State) (tid : Nat) : State :=
  if !s.teamDone tid then s
  else match s.lastOfShare tid with
    | some (_, x) => if x.doneOff ≠ none32 ∧ 1024 ≤ s.loop.postq.length ∧ s.loop.st ≠ .down then s else s.endTeam tid
    | none => s.endTeam tid

def execTeamEnd (s : State) : Out State := .next (s.teamEnd (s.arg 0))

end Sys2Proof.Machine
end

