-- ==== Sys2Proof/Machine/Save.lean ====
section
/-! DEFINITION. Saving and resuming teams (13_traps_preemption.md R363 to R368; 12_matrix_engine.md R336, R337). -/

namespace Sys2Proof.Machine

/-! Saving. -/

/-- The outstanding work of a stopped team is complete (R253, R302, R334, R341). -/
def State.quiet (s : State) (tid : Nat) : Bool :=
  let t := s.team tid
  let c := s.core t.core
  let mine (k : Nat) : Bool := ((nget c.mx k).map (·.team)) == some tid
  ((s.teamStrands tid).all fun x =>
    x.2.fl.loads.isEmpty && x.2.fl.stores.isEmpty && (x.2.fl.posts.all fun p => s.postDone x.1 p.2) && x.2.fl.fabs.all fun f => f.2.done) &&
  (s.orphans.all fun o => o.team != tid) && (c.cp.all fun k => k.2.team != tid || k.2.st != .busy) &&
  (match c.arr.op with
   | some k => !mine k
   | none => true) && c.dre.units.all fun u => !mine u.tok

/-- The teams of a team's cluster that have not ended. -/
def State.clusterLive (s : State) (tid : Nat) : List Nat := (s.team tid).cluster.filter fun k => nhas s.teams k && !s.hasEnded k

/-- The flags of a role's first-admitted strand where it has finished (R34). -/
def State.keepFinals (s : State) (tid : Nat) : NMap (Bool × Bool × Bool) :=
  let t := s.team tid
  (List.range (s.grid t.grid).kd.roles.length).foldl (fun f r =>
    if nhas f r then f
    else match ((s.teamStrands tid).filter fun x => x.2.role == r).foldl (fun (b : Option Strand) x => match b with
        | none => some x.2
        | some y => if x.2.serial < y.serial then some x.2 else b) none with
      | some st => if st.finished then nset f r (st.csr.dzt, st.csr.sstep, st.csr.dgon) else f
      | none => f) t.finals

/-- What a team's save keeps of it. -/
def State.savedOf (s : State) (tid size : Nat) : Saved :=
  let t := s.team tid
  { team := tid
    info := { t with saving := false, stopAt := none, finals := s.keepFinals tid }
    strands := (s.teamStrands tid).filter fun x => !x.2.finished
    mx := s.teamMx tid
    cp := s.teamCp tid
    drn := s.teamDrn tid
    mem := if s.hasEnded tid then [] else (s.imageMem tid false).map fun r => (r.1, s.rangeBytes tid r)
    core := t.core
    image := (s.ctx (s.grid t.grid).ctx).save + t.saveOff
    size := size
    lsn := s.loop.applied }

/-- Who resumes a saved team: its queue, its share, or, for a checkpoint, both of these once it is taken. They take their saved teams
in the order of R317 (`State.savedOrder`). -/
def State.fileSaved (s : State) (tid : Nat) (g : Grid) (gid : Nat) : State :=
  match g.src.queue with
  | some q => s.modQueue q fun u => { u with saved := u.saved ++ [tid] }
  | none => s.modSched fun d => { d with shares := nall d.shares fun _ x => if x.grid = gid then { x with saved := x.saved ++ [tid] } else x }

/-- Save a team: the image is written, its numbers stay reserved on the core, all else is given back (R363, R364). -/
def State.saveTeam (s : State) (tid : Nat) : State :=
  let t := s.team tid
  let g := s.grid t.grid
  let bs := if s.hasEnded tid then [] else s.teamImage tid false
  let x := s.savedOf tid bs.length
  let s := s.putCells (cellsAt x.image bs)
  let r : Resv := ⟨tid, nkeys x.mx, nkeys x.cp, nkeys x.drn⟩
  let s := { s with saved := nset s.saved tid x }
  let s := (s.removeTeam tid).modCore t.core fun c => { c with resvs := c.resvs ++ [r] }
  let s := s.modGrid t.grid fun g => { g with since := s.cycle }
  if t.cluIdx = 0 then s.fileSaved tid g t.grid else s

/-- SAVE_COMPLETE (R363): arg a team. The save halts the array at its team's operation, and is made once every team of the cluster is
stopped and quiet. -/
def State.saveComplete (s : State) (tid : Nat) : State :=
  let mates := s.clusterLive tid
  let ctx := (s.grid (s.team tid).grid).ctx
  if !nhas s.teams tid || (s.ctx ctx).dbg.halted || mates.isEmpty || !(mates.all fun k => s.teamStopped k && !(s.team k).ptoHalted) then s
  else
    let s := s.haltArrays (mates.contains ·) .preempt
    if !mates.all s.quiet then s
    else ((((s.team tid).cluster.filter fun k => nhas s.teams k).foldl State.saveTeam s).settleSlots).settleCkpt ctx

def execSaveComplete (s : State) : Out State := .next (s.saveComplete (s.arg 0))

/-! The timeout (R367). -/

/-- A request to save is withdrawn: stopped threads go on. -/
def State.cancelSave (s : State) (tid : Nat) : State :=
  let s := s.modTeam tid fun t => { t with saving := false, stopAt := none }
  { s with strands := nall s.strands fun _ st =>
      if st.team = tid then
        { st with stopping := false, lanes := nall st.lanes fun _ t => if t.st = .stopped then { t with st := .ready } else t }
      else st }

/-- A checkpoint is given up: the teams stopped so far go on, and those saved are resumed (R417). -/
def State.dropCkpt (s : State) (ctx : Nat) : State :=
  let s := s.modCtx ctx fun c => { c with ck := { c.ck with taking := false, last := s.cycle } }
  (s.teams.filter fun t => (s.grid t.2.grid).ctx == ctx && t.2.saving).foldl (fun s t => s.cancelSave t.1) s

/-- The CYCLE at which a team's time to be saved runs out. -/
def State.saveBy (s : State) (tid : Nat) : Nat :=
  let t := s.team tid
  let pto := (s.ctx (s.grid t.grid).ctx).pto
  t.stopReq + (if pto = 0 then 1000 else pto) * cyclesPerUs

/-- Every strand of the team and of its cluster is stopped. -/
def State.allStopped (s : State) (tid : Nat) : Bool := (s.clusterLive tid).all s.teamStopped

/-- The CYCLE of the last stop is noted. -/
def State.noteStop (s : State) (tid : Nat) : State :=
  if s.allStopped tid then s.modTeam tid fun t => { t with stopAt := some (t.stopAt.getD s.cycle) } else s

/-- PREEMPTION_TIMEOUT: arg team. A team that is not saved in time is halted, be it stopped or not; but where the last strand stops in
the clock of the timeout, the save proceeds (R367, R369). -/
def State.saveTimeout (s : State) (tid : Nat) : State :=
  let s := s.noteStop tid
  let t := s.team tid
  let g := s.grid t.grid
  let c := s.ctx g.ctx
  if !nhas s.teams tid || !t.saving || (t.ptoHalted && !c.ck.taking) || c.dbg.halted || s.cycle < s.saveBy tid ||
      (t.stopAt.map fun k => decide (s.saveBy tid ≤ k)).getD false then s
  else if c.ck.taking then s.dropCkpt g.ctx
  else
    let s := s.modTeam tid fun t => { t with saving := false, ptoHalted := true }
    let s := (s.modCtx g.ctx fun c => { c with halted := true }).haltArrays (· == tid) .debug
    s.event (s.evqOf g.src) 5 (g.src.queue.getD none32) g.ctx 0 t.teamid

def execPreemptionTimeout (s : State) : Out State := .next (s.saveTimeout (s.arg 0))

/-! Resumption (R368). -/

/-- A frame as resumption restores it: what the image holds of it, the rest undefined. -/
def restoreFrame (f : Frame) (part base fill : Nat) (ranges : List (Nat × Nat)) : Frame :=
  { f with
    part := part, base := base, fill := some fill
    cells := (List.range f.size).foldl (fun m r =>
      if ranges.any fun q => decide (q.1 ≤ r) && decide (r < q.1 + q.2) then
        (List.range 32).foldl (fun m l => nset m (32 * r + l) (f.cell r l)) m
      else m) [] }

/-- Give frames, base frame first, their blocks and new contents. -/
def State.restoreFrames (s : State) (part : Nat) (ranges : List (Nat × Nat × Nat)) : Nat → List Frame → List Nat → List Frame × State
  | i, f :: fs, b :: bs =>
    let (fill, s) := s.takeUid
    let mine := (ranges.filter fun r => r.1 == i).map fun r => r.2
    let (rest, s) := s.restoreFrames part ranges (i + 1) fs bs
    (restoreFrame f part b fill mine :: rest, s)
  | _, _, _ => ([], s)

/-- The register ranges of a saved strand (R365, R366), from the safe points its threads stopped at. -/
def savedRanges (kd : KDesc) (acc : List Nat) (st : Strand) : List SafePt × List (Nat × Nat × Nat) :=
  let es := (unionNat (st.liveLanes.map fun l => (st.th l).safeOrd.toNat) []).filterMap (nget kd.safePts)
  (es, st.frames.reverse.zipIdx.flatMap fun (f, i) =>
    if acc.contains f.uid then [(i, 0, f.size)] else (es.flatMap (·.regs)).filter fun r => r.1 == i)

/-- Restore a strand of a saved team in a register file. -/
def State.restoreStrand (s : State) (kd : KDesc) (acc : List Nat) (sid : Nat) (st : Strand) (core part : Nat) (blocks : List Nat) : State :=
  let (es, ranges) := savedRanges kd acc st
  let (fs, s) := s.restoreFrames part ranges 0 st.frames.reverse blocks
  let kept (j : Nat) : Bool := es.any fun e => bitOf e.opMask j
  let thread (l : Nat) (t : Thread) : Thread :=
    { t with
      st := .ready, starve := 0, chk := none
      o := t.o.zipIdx.map fun (v, j) => if kept j then v else s.freeW (0xF000000 + 4096 * sid + 32 * j + l)
      lr := s.freeW64 (0xF800000 + 4096 * sid + l)
      anchorOrd := t.safeOrd }
  let c := st.csr
  let st : Strand :=
    { st with
      core := core, part := part, frames := fs.reverse, stopping := false, aged := 0, seq := s.nextSeq core part
      lanes := (st.lanes.filter fun x => x.2.live).map fun (l, t) => (l, thread l t)
      csr := { dzt := c.dzt, sstep := c.sstep, dgon := c.dgon, tsave := c.tsave, safept := c.safept } }
  { s with strands := nset s.strands sid st }

/-- Matrix tokens as the core takes them back: an operation that was in the array or in the drain goes on there, resumed (R237, R337,
R341). -/
def MxTok.restored (t : MxTok) : MxTok := if t.st = .array ∨ t.st = .drain then { t with resumed := true } else t

/-- The drain queue with the tokens of a resumed team (R340): those whose drain has started come before the drains not yet started. -/
def DrainEng.merge (e : DrainEng) (mx saved : NMap MxTok) : List Nat :=
  let mine := sortBy (fun a b => decide (a.2.order ≤ b.2.order)) (saved.filter fun t => t.2.st == .drain)
  let begun := e.queue.takeWhile fun j => (nget mx j).any (·.darg.isSome)
  begun ++ (mine.filter (·.2.darg.isSome)).map (·.1) ++ e.queue.drop begun.length ++ (mine.filter (·.2.darg.isNone)).map (·.1)

/-- Resume one saved team at a place, from its image. -/
def State.resumeTeam (s : State) (x : Saved) (p : Place) : State :=
  let x := s.reload x
  let g := s.grid x.info.grid
  let kd := g.kd
  let tid := x.team
  let spBase := p.core * 0x800000 + 65536 * p.unit
  let s := { s with
    teams := nset s.teams tid { x.info with core := p.core, slot := p.slot, spBase := spBase }
    saved := ndel s.saved tid
    cores := nall s.cores fun _ c => { c with resvs := c.resvs.filter fun r => r.team != tid } }
  if s.hasEnded tid then s
  else
    let s := x.mem.foldl (fun s r => s.putRange tid r) (s.undefineTeam p.core spBase kd)
    let acc := (x.mx.filter fun t => t.2.st.recorded).flatMap fun t => t.2.acc.map (·.frame)
    let slots : List (Nat × Nat × Nat × List Nat) :=
      (kd.workers.zip p.strands).map fun ((r, k, _), (part, bs)) => (r, k, part, bs)
    let s := x.strands.foldl (fun s (sid, st) =>
      let (part, bs) := if st.role = 4 then (4 + p.lead.1, p.lead.2)
        else ((slots.find? fun w => w.1 == st.role && w.2.1 == st.strandid).map fun w => (w.2.2.1, w.2.2.2)).getD (0, [])
      s.restoreStrand kd acc sid st p.core part bs) s
    (s.modCore p.core fun c => { c with
      mx := x.mx.foldl (fun m t => nset m t.1 t.2.restored) c.mx
      cp := x.cp.foldl (fun m t => nset m t.1 t.2) c.cp
      drn := x.drn.foldl (fun m t => nset m t.1 t.2) c.drn
      dre := { c.dre with queue := c.dre.merge c.mx x.mx }
      regs := { c.regs with gated := false } }).staleCache p.core

/-- Resume a saved team with its cluster. -/
def State.resumeAll (s : State) (t : Nat) (ps : List Place) : State :=
  match nget s.saved t with
  | none => s
  | some x =>
    let cluster := x.info.cluster
    let s := (cluster.zip ps).foldl (fun s (k, p) => match nget s.saved k with
      | some y => s.resumeTeam y p
      | none => s) s
    let s := s.modSched fun d => { d with
      queues := nall d.queues fun _ u => { u with saved := u.saved.filter fun k => !cluster.contains k }
      shares := nall d.shares fun _ u => { u with saved := u.saved.filter fun k => !cluster.contains k } }
    ((s.endReserve x.info.grid).noWait (.saved t)).settleSlots

/-- TEAM_RESUMPTION (R368): the sequencer resumes the saved team it has come to. -/
def State.teamResumption (s : State) : State :=
  let s := s.readings s.args
  match s.choice with
  | .saved t p => s.awake p fun s => s.resumeAll t p
  | _ => s

def execTeamResumption (s : State) : Out State := .next s.teamResumption

end Sys2Proof.Machine
end

