-- ==== Sys2Proof/Machine/Check.lean ====
section
/-! DEFINITION. Digest instructions (09_isa_async_system.md R268, R270), serialised re-execution, checkpoints on command and by
period, replay (16_debug_determinism.md R417, R419 to R421). -/

namespace Sys2Proof.Machine

/-! Re-execution (R420). -/

/-- A team is discarded without an end. -/
def State.discardTeam (s : State) (tid : Nat) : State :=
  let t := s.team tid
  let s := (s.teamStrands tid).foldl (fun s x => s.finishAccesses x.1) s
  let ctx := (s.grid t.grid).ctx
  (s.freePool ctx t.saveOff t.saveRes).removeTeam tid

/-- Re-execute the launch of a strand whose digest differs, its teams one at a time. -/
def State.reexecute (s : State) (sid : Nat) (ck : Nat) (k expected : Word64) : State :=
  let st := s.str sid
  let t := s.team st.team
  let g := s.grid t.grid
  let slot := slotIndex g.kd st.role st.strandid
  let teams := (s.teams.filter fun x => x.2.grid == t.grid).map (·.1)
  let cores := unionNat (teams.map fun x => (s.team x).core) []
  let s := cores.foldl (fun s c => s.drainCopies c teams) s
  let s := teams.foldl State.discardTeam s
  let saved := (s.saved.filter fun x => x.2.info.grid == t.grid).map (·.1)
  let s := saved.foldl State.dropSaved s
  let s := s.modSched fun d => { d with
    queues := nall d.queues fun _ u => { u with saved := lessNat u.saved saved }
    shares := nall d.shares fun _ u => { u with saved := lessNat u.saved saved } }
  let wrote := ((s.ctxLeaves g.ctx).filter (·.dirty)).map (·.va) ++ s.storedSince g.ctx ck
  let s := s.restorePages g.ctx ck (wrote.contains ·)
  let s := s.debugRecord 4 st.core slot g.ctx (leBytes 4 t.teamid ++ leBytes 4 0 ++ leBytes 8 k.toNat ++ leBytes 8 expected.toNat)
  let s := s.modGrid t.grid fun g => { g with
    serial := true, ended := [], next := g.share.1, tbase := none, tickets := (List.range 8).map fun t => (t, {}) }
  s.settleSlots

/-! Digest forms. -/

/-- `dg.on`: for the whole strand; with `clear` the team's digest starts again. -/
def execDgOn (clear : Bool) : State → Out State :=
  onPath fun sid p s =>
    let s := s.modCsr sid fun c => { c with dgon := true }
    (if clear then s.modTeamOf sid fun t => { t with dgval := 0, dgcnt := 0 } else s).advance sid p

def execDgOff : State → Out State :=
  onPath fun sid p s => (s.modCsr sid fun c => { c with dgon := false }).advance sid p

/-- The DIGEST record of a lead strand's check (R421): a post of the strand, whose number 2^32 + STEP is none of PostCount's. -/
def State.digestPost (s : State) (sid : Nat) (p : RunPath) (k : Word64) : State :=
  let t := s.teamOf sid
  let ctx := (s.gridOf sid).ctx
  let body := leBytes 8 k.toNat ++ leBytes 4 ctx ++ leBytes 4 t.dgstep ++ leBytes 4 t.teamid
  let s := s.modTeamOf sid fun t => { t with dgstep := t.dgstep + 1 }
  s.makePost sid p (2 ^ 32 + t.dgstep) 6 0 20 body

/-- `dg.chk`: the strand's stores acknowledged and its copies DONE, K is written; with `cmp` it is compared with the lowest lane's
expected value. A trap that is held writes nothing and posts nothing (R345). -/
def execDgChk (d a : Sel) (cmp : Bool) : State → Out State :=
  onPath fun sid p s => s.operandsOnce sid p [(a, 2)] [(d, 2)] fun p s vals =>
    let st := s.str sid
    let expected := arg ((nget vals (lowest p.lanes)).getD []) 0
    let held (s : State) : Bool := cmp && (s.teamOf sid).keyed != expected && p.lanes.all (s.str sid).holds
    let go (p : RunPath) (post : Bool) (s : State) : State :=
      let k := (s.teamOf sid).keyed
      if held s then s.trapPath sid p 0xA0 0 k
      else
      let s := s.giveAll64 sid p d k
      let s := if post then s.digestPost sid p k else s
      if cmp ∧ k ≠ expected then
        let g := s.gridOf sid
        match g.ck with
        | some i => if (s.ctx g.ctx).dbg.reexec ∧ !g.serial then s.reexecute sid i k expected else s.trapPath sid p 0xA0 0 k
        | none => s.trapPath sid p 0xA0 0 k
      else s.advance sid p
    let waited := match p.resume with
      | some (.gate _) | some (.postRoom _) => true
      | _ => false
    s.waitFor sid p (waited || (st.fl.stores.isEmpty && (s.cpHeld sid).all fun t => t.2.st == .done)) .digest fun s =>
      if !held s ∧ (s.ctxOf sid).dbg.dgx ∧ st.isLead then s.postGate sid p fun p s => go p true s else go p false s

/-- `dg.fold`: d with a folded in, both read from the lowest lane, for the path as one (R247, R268, R270). -/
def execDgFold (d a : Sel) : State → Out State :=
  onPath fun sid p s => s.operands sid p [(d, 2), (a, 2)] [(d, 2)] fun p s vals =>
    (s.giveAll64 sid p d (mix64 (BitVec.ofNat 64 (val64 p vals 0) ^^^ BitVec.ofNat 64 (val64 p vals 1)))).advance sid p

/-! Checkpoints (R417). -/

/-- Start a checkpoint of a context: every team of it here is saved first. -/
def State.checkpoint (s : State) (ctx : Nat) : State :=
  let c := s.ctx ctx
  if c.dbg.full || c.ck.taking || c.ck.replay.isSome || c.killed then s
  else
    let s := s.modCtx ctx fun c => { c with ck := { c.ck with taking := true } }
    let teams := (s.teams.filter fun t => (s.grid t.2.grid).ctx == ctx && !s.hasEnded t.1).map (·.1)
    (teams.foldl State.requestSave s).settleCkpt ctx

/-- CHECKPOINT_PERIOD_EXPIRY: arg context. -/
def State.checkpointDue (s : State) (ctx : Nat) : State :=
  let c := s.ctx ctx
  if c.dbg.period = 0 ∨ s.cycle < c.ck.last + c.dbg.period * 1000 * cyclesPerUs then s else s.checkpoint ctx

def execCheckpointPeriodExpiry (s : State) : Out State := .next (s.checkpointDue (s.arg 0))

/-- The CHECKPOINT command: arg context. -/
def execDbgcmdCheckpoint (s : State) : Out State := .next (s.ifRun fun s => s.checkpoint (s.arg 0))

/-! Replay (R419). -/

/-- Replay a context from checkpoint i. -/
def State.replayFrom (s : State) (ctx i : Nat) : State :=
  let c := s.ctx ctx
  match nget c.ck.stored i with
  | none => s
  | some k =>
    if s.teams.any fun t => (s.grid t.2.grid).ctx == ctx && !s.hasEnded t.1 then s
    else
      let s := ((s.saved.filter fun x => (s.grid x.2.info.grid).ctx == ctx).map (·.1)).foldl State.dropSaved s
      let s := s.restorePages ctx i fun _ => true
      let pos := s.mem.readLe (k.addr + 0x18) 8
      let r : Replay :=
        { cells := s.ckLocket ctx i, lsn := s.mem.readLe (k.addr + 0x10) 8, pos := pos, ppos := pos, hpos := pos, fpos := pos, waits := [] }
      let s := s.modSched fun d => { d with
        queues := nall d.queues fun _ u => if u.ctx = ctx then { u with saved := [] } else u
        shares := nall d.shares fun _ u => if u.ctx = ctx then { u with saved := [] } else u }
      let s := { s with
        grids := k.grids.foldl (fun (m : NMap Grid) (g : Nat × Grid) => nset m g.1 g.2) (s.grids.filter fun g => g.2.ctx != ctx)
        saved := k.teams.foldl (fun (m : NMap Saved) (x : Saved) => nset m x.team x) s.saved }
      s.modCtx ctx fun c => { c with
        pool := k.teams.map fun (x : Saved) => (x.info.saveOff, x.info.saveRes)
        ck := { c.ck with replay := some r } }

/-- The REPLAY command: args context, index. -/
def execDbgcmdReplay (s : State) : Out State := .next (s.ifRun fun s => s.replayFrom (s.arg 0) (s.arg 1))

/-- The HALT command: arg context. -/
def execDbgcmdHalt (s : State) : Out State := .next (s.ifRun fun s => s.debugHalt (s.arg 0) 1 0)

/-- The DUMP command, on a halted context: arg context. -/
def State.dumpCommand (s : State) (ctx : Nat) : State :=
  let d := (s.ctx ctx).dbg
  if d.halted && d.dumpsize != 0 && d.dump.isNone then s.dumpPhase ctx none else s

def execDbgcmdDump (s : State) : Out State := .next (s.ifRun fun s => s.dumpCommand (s.arg 0))

end Sys2Proof.Machine
end

