-- ==== Sys2Proof/Machine/FabTx.lean ====
section
/-! DEFINITION. Sending on the fabric: connections, ports, frames (15_fabric_host.md R395 to R402), and what becomes of a
strand's fabric operation (09_isa_async_system.md R264 to R267). -/

namespace Sys2Proof.Machine

/-! Connections. A key is 4 p + c for package p and traffic class c. -/

def State.conn (s : State) (k : Nat) : Conn := (nget s.fab.conns k).getD {}
def State.modConn (s : State) (k : Nat) (f : Conn → Conn) : State :=
  s.modFab fun b => { b with conns := nset b.conns k (f ((nget b.conns k).getD {})) }
def State.port (s : State) (n : Nat) : FabPort := (nget s.fab.ports n).getD {}
def State.modPort (s : State) (n : Nat) (f : FabPort → FabPort) : State :=
  s.modFab fun b => { b with ports := nset b.ports n (f ((nget b.ports n).getD {})) }

/-- Frames of OP 1 to 6 and 9 are numbered (R398). -/
def Frm.numbered (f : Frm) : Bool := (decide (1 ≤ f.op) && decide (f.op ≤ 6)) || f.op == 9

/-- The connection a frame of this package travels on. -/
def Frm.connTo (f : Frm) : Nat := 4 * f.dst + f.cls

/-- a - b modulo 2^24. -/
def sub24 (a b : Nat) : Nat := (a + 2 ^ 24 - b % 2 ^ 24) % 2 ^ 24

/-- The port a frame for a package leaves by (R400, R402): a hash of its flow label among the ports of FWD; ports that drain or
sleep are avoided where another is up. -/
def State.outPort (s : State) (f : Frm) : Option Nat :=
  let all := (List.range 8).filter fun n => bitOf ((nget s.fab.fwd f.dst).getD 0) n
  let up := all.filter fun n => (s.port n).st == .up
  let l := if up.isEmpty then all else up
  match l with
  | [n] => some n
  | l => l[Config.flowHash (f.src * 1024 + f.dst * 32 + f.cls) % l.length]?

/-- The peer at port n has paused the priority a frame travels at (R400): its class when the next hop is its target. -/
def State.pausedAt (s : State) (n : Nat) (f : Frm) : Bool :=
  (s.port n).paused != 0 && bitOf (s.port n).paused (if Config.portPeer n = f.dst then f.cls else 4 + f.cls)

/-- Frames of the link itself cannot leave a port: the fabric is off, or the peer has paused their priority (R395, R403). -/
def State.linkHeld (s : State) (n : Nat) : Bool := !s.fab.en || bitOf (s.port n).paused 0

/-- A frame cannot leave a port that is up: its priority is paused, or the WAKE that must go before it is held. -/
def State.blockedAt (s : State) (n : Nat) (f : Frm) : Bool := s.pausedAt n f || ((s.port n).peerSleep && s.linkHeld n)

/-- A wake hint at a port (R402). -/
def State.wakeHint (s : State) (n : Nat) : State :=
  let s := s.modPort n fun p => { p with hintAt := some s.cycle }
  let p := s.port n
  match p.st with
  | .sleep => s.modPort n fun p => { p with st := .waking, lpreq := false }
  | .drain => s.modPort n fun p => { p with st := .up, lpreq := false, lpabort := p.lpabort + 1, acked := false, oweSleep := false }
  | _ => s

/-- A frame is queued for a port: where FWD offers it no other, that is a wake hint (R402). -/
def State.queueHint (s : State) (n : Nat) (f : Frm) : State :=
  if (nget s.fab.fwd f.dst).getD 0 = 2 ^ n then s.modPort n fun p => { p with hintAt := some s.cycle } else s

/-- The IPv6 address of a package (R396): the prefix, then the interface identifier p + 1. -/
def State.ipv6 (s : State) (p : Nat) : Nat := s.fab.pfx.toNat * 2 ^ 64 + (p + 1)

/-- A frame leaves by a port, with its PCP and its addresses (R396, R400). Nothing is sent while FABCTL.EN is 0 (R403). -/
def State.wire (s : State) (n : Nat) (f : Frm) (hop : Nat) (ce : Bool) : State :=
  if !s.fab.en then s
  else s.send (.frame n f hop ce (if Config.portPeer n = f.dst then f.cls else 4 + f.cls) (s.ipv6 f.src) (s.ipv6 f.dst))

/-- The expected PSN of what has been performed: frames in the halt buffer have not (R401). -/
def State.apsnOf (s : State) (k : Nat) : Nat :=
  match s.fab.halted.find? fun f => 4 * f.2.src + f.2.cls == k with
  | some f => f.2.psn
  | none => (s.conn k).rxPsn

/-- Every frame carries APSN, and echoes a CE mark once (R398, R399). -/
def State.stamp (s : State) (k : Nat) (f : Frm) : Frm × State :=
  let c := s.conn k
  ({ f with apsn := s.apsnOf k, ece := c.ece }, s.modConn k fun c => { c with since := 0, ece := false })

/-- A frame of the link itself: SLEEP, WAKE, or the ACK of a SLEEP, on the class-0 connection to the peer, at priority 0. -/
def State.linkFrame (s : State) (n op : Nat) : State :=
  if s.linkHeld n then s
  else
    let p := Config.portPeer n
    let (f, s) := s.stamp (4 * p) ⟨op, 0, false, 0, s.pkgid, p, 0, 0, 0, 0, 0, []⟩
    s.wire n f 64 false

/-- Send a frame at a port; a peer that sleeps is woken first (R402). -/
def State.emit (s : State) (n : Nat) (f : Frm) (hop : Nat) (ce : Bool) : State :=
  let s := if (s.port n).peerSleep then (s.linkFrame n 11).modPort n fun p => { p with peerSleep := false } else s
  s.wire n f hop ce

/-- Send a SLEEP or its ACK, now or once it can leave. -/
def State.linkSend (s : State) (n op : Nat) : State :=
  if s.linkHeld n then s.modPort n fun p => if op = 10 then { p with oweSleep := true } else { p with oweAck := true }
  else
    let s := s.modPort n fun p => if op = 10 then { p with oweSleep := false } else { p with oweAck := false }
    (if (s.port n).peerSleep ∧ op = 10 then (s.linkFrame n 11).modPort n fun p => { p with peerSleep := false } else s).linkFrame n op

/-- What a port owes its peer. -/
def State.linkOwed (s : State) (n : Nat) : State :=
  let s := if (s.port n).oweAck then s.linkSend n 7 else s
  if (s.port n).oweSleep then s.linkSend n 10 else s

/-- Put a frame on the wire, if the fabric is enabled and its port is up and not paused; a sleeping port is woken. -/
def State.transmit (s : State) (f : Frm) : Bool × State :=
  if !s.fab.en then (false, s)
  else match s.outPort f with
    | none => (false, s)
    | some n =>
      let s := s.queueHint n f
      if (s.port n).st = .up then
        if s.blockedAt n f then (false, s) else (true, s.emit n f 64 false)
      else
        let s := s.wakeHint n
        if (s.port n).st = .up ∧ !s.blockedAt n f then (true, s.emit n f 64 false) else (false, s)

/-- Send a frame on a connection, with the APSN and the echo it carries; one that cannot leave now leaves these due. -/
def State.sendStamped (s : State) (k : Nat) (f : Frm) : Bool × State :=
  let (f, s1) := s.stamp k f
  match s1.transmit f with
  | (true, s2) => (true, s2)
  | (false, s2) => (false, s2.modConn k fun c => { c with since := (s.conn k).since, ece := (s.conn k).ece })

/-- Send an ACK or a NAKS on a connection. One that cannot leave now is owed, a NAKS before an ACK, and with it the echo of a CE mark. -/
def State.sendPlain (s : State) (k op : Nat) : State :=
  match s.sendStamped k ⟨op, k % 4, false, 0, s.pkgid, k / 4, 0, 0, 0, 0, 0, []⟩ with
  | (true, s) => s.modConn k fun c => { c with owe := none }
  | (false, s) => s.modConn k fun c => { c with owe := some (max op (c.owe.getD 0)) }

/-- Send a frame of the window again, or for the first time. -/
def State.sendOne (s : State) (k : Nat) (u : Unacked) : Unacked × State :=
  match s.sendStamped k u.frm with
  | (true, s) => ({ u with tries := u.tries + 1, first := if u.tries = 0 then s.cycle else u.first }, s)
  | (false, s) => (u, s)

/-- Transmit frames of the window that a test picks, in PSN order. -/
def State.sendWindow (s : State) (k : Nat) (pick : Unacked → Bool) : State :=
  let (us, s) := (s.conn k).unacked.foldl (fun (acc : List Unacked × State) u =>
    if pick u then let (u, s) := acc.2.sendOne k u; (acc.1 ++ [u], s) else (acc.1 ++ [u], acc.2)) ([], s)
  s.modConn k fun c => { c with unacked := us }

/-- Move queued frames into the window of 1,024 and transmit them (R398). -/
def State.fillWindow (s : State) (k : Nat) : State :=
  let c := s.conn k
  let n := 1024 - c.unacked.length
  if c.queued.isEmpty || n == 0 then s
  else
    let new : List Unacked := ((c.queued.take n).zipIdx).map fun (f, i) => ⟨{ f with psn := (c.txPsn + i) % 2 ^ 24 }, 0, 0⟩
    (s.modConn k fun c => { c with
      unacked := c.unacked ++ new, queued := c.queued.drop n, txPsn := (c.txPsn + new.length) % 2 ^ 24,
      st := if c.st = 0 then 1 else c.st, progress := if c.unacked.isEmpty then s.cycle else c.progress }).sendWindow k (·.tries == 0)

/-- Give numbered frames to a connection. -/
def State.sendNumbered (s : State) (k : Nat) (fs : List Frm) : State :=
  let s := s.modConn k fun c => { c with queued := c.queued ++ fs }
  if (s.conn k).st = 2 then s else s.fillWindow k

/-- Transmit what waits for its first transmission, after ports or routes have changed. -/
def State.flushFab (s : State) : State :=
  (nkeys s.fab.conns).foldl (fun s k =>
    let s := match (s.conn k).owe with
      | some op => s.sendPlain k op
      | none => s
    if (s.conn k).st = 2 then s else s.sendWindow k (·.tries == 0)) s

/-! Operations. -/

/-- Change a strand's record of an operation. -/
def State.modFabSt (s : State) (sid n : Nat) (f : FabSt → FabSt) : State :=
  s.modStr sid fun st => { st with fl := { st.fl with fabs := nmod st.fl.fabs n f } }

/-- Operations that `fab.fence` holds go out once every earlier one is done (R266). -/
def State.releaseFence (s : State) (sid : Nat) : State :=
  let st := s.str sid
  s.fab.ops.foldl (fun s (tag, o) =>
    if o.strand = sid ∧ !o.held.isEmpty ∧ st.fl.fabs.all (fun f => decide (o.fence ≤ f.1) || f.2.done) then
      (s.modFab fun b => { b with ops := nmod b.ops tag fun o => { o with held := [] } }).sendNumbered o.conn o.held
    else s) s

/-- A strand's operation is done: an acquire takes effect, and held operations may go out. -/
def State.fabDone (s : State) (sid n : Nat) : State :=
  match nget (s.str sid).fl.fabs n with
  | none => s
  | some f =>
    if f.done then s
    else
      let s := s.modFabSt sid n fun f => { f with done := true }
      let s := match f.acq with
        | some sc => s.acquireAt (s.str sid).core sc
        | none => s
      s.releaseFence sid

/-- The registers of a fabric atomic take its answer: they may land. -/
def State.fabAnswer (s : State) (sid n : Nat) (m : Nat) : State :=
  let give (x : PendLoad) : PendLoad :=
    if x.on = .fab n then
      { x with on := .ready, writes := x.writes.map fun (r, hi) => (r, if hi = 0 then BitVec.ofNat 32 m else BitVec.ofNat 32 (m / 2 ^ 32)) }
    else x
  s.modStr sid fun st => { st with fl := { st.fl with loads := st.fl.loads.map give } }

/-- Insert a failure by the number of its operation. -/
def insertFail (x : FabFail) : List FabFail → List FabFail
  | [] => [x]
  | y :: ys => if x.num < y.num then x :: y :: ys else y :: insertFail x ys

/-- An operation fails (R267): its failure is recorded, a get's local bytes and an atomic's result are undefined. One whose strand
has finished is reported to the host (R404). -/
def State.fabFail (s : State) (tag : Nat) (o : FabOp) (cause : Nat) : State :=
  let s := s.modFab fun b => { b with ops := nmod b.ops tag fun o => { o with frames := 0, held := [], failed := true } }
  let tell (s : State) : State := s.event o.evq 6 o.queue o.ctx cause o.remote
  if o.failed then s
  else if !nhas s.strands o.strand then (if (s.ctx o.ctx).killed then s else tell s)
  else
    let st := s.str o.strand
    let s := if o.op = 2 then
        s.engineCells st.core (o.locals.flatMap fun l => cellsAt l.2.1 (s.freeBytes (0xB000000 + l.2.1) l.2.2))
      else s
    let s := if o.op = 4 ∨ o.op = 5 then s.fabAnswer o.strand o.num (s.freeW64 (0xB800000 + tag)).toNat else s
    let x : FabFail := ⟨o.num, BitVec.ofNat 64 o.remote, cause⟩
    let s := if st.finished then tell s
      else s.modStr o.strand fun st => { st with fl := { st.fl with fabFails := insertFail x st.fl.fabFails } }
    s.fabDone o.strand o.num

end Sys2Proof.Machine
end

