-- ==== Sys2Proof/Machine/Fab.lean ====
section
/-! DEFINITION. Fabric instructions (09_isa_async_system.md R261 to R267). -/

namespace Sys2Proof.Machine

/-- The checks of R261 on a pod address. -/
def State.podOk (s : State) (x : Nat) : Bool := x / 2 ^ 61 == 0 && decide (x / 2 ^ 56 < s.npkg)

/-- A range of remote addresses as the runs its frames cover (R397): first address and bytes. -/
def podRuns (va n : Nat) : List (Nat × Nat) :=
  (List.range ((va + n - 1) / 4096 - va / 4096 + 1)).map fun i =>
    let lo := max va ((va / 4096 + i) * 4096)
    (lo, min (va + n) ((va / 4096 + i + 1) * 4096) - lo)

/-- A FAB operation is ordered as its prefix says (R248, R196): a release waits for the strand's earlier accesses. -/
def State.fabOrder (s : State) (sid : Nat) (p : RunPath) (k : RunPath → State → State) : State :=
  if 2 ≤ p.order then
    s.waitFor sid p (!(s.str sid).pending) .acquire fun s => s.releaseAt sid p (p.scopeOr 4) k
  else k p s

/-- Give the package an operation's frames; under replay none is sent and a put is acknowledged at once (R419). -/
def State.fabStart (s : State) (sid : Nat) (o : FabOp) (st : FabSt) (frames : List Frm) : State :=
  let ctx := (s.gridOf sid).ctx
  let replay := (s.ctx ctx).ck.replay.isSome
  let tag := s.fab.tag
  let fl := (s.str sid).fl
  let n := fl.fabSeq
  let wait := fl.fabs.any fun f => decide (f.1 < fl.fabFence) && !f.2.done
  let frames := frames.map fun f => { f with tag := tag }
  let src := (s.gridOf sid).src
  let o := { o with evq := s.evqOf src, queue := src.queue.getD none32, num := n, fence := fl.fabFence, frames := frames.length, held := if wait && !replay then frames else [] }
  let s := s.modStr sid fun t => { t with fl := { t.fl with fabSeq := n + 1, fabs := nset t.fl.fabs n st } }
  let s := s.modFab fun b => { b with tag := (tag + 1) % 2 ^ 32, ops := nset b.ops tag o }
  let s := s.reached 7
  if replay then (if o.op = 1 ∨ o.posted then s.fabDone sid n else s)
  else if wait then s else s.sendNumbered o.conn frames

/-- A fabric descriptor's fields (R263). -/
structure FabDesc where
  local' : Nat
  remote : Nat
  bytes : Nat
  ctrl : Nat
  rsv : Nat
  deriving DecidableEq, Repr, Inhabited

def fabDesc (b : List Byte) : FabDesc :=
  let w (o n : Nat) := leNat ((b.drop o).take n)
  ⟨w 0 8, w 8 8, w 16 4, w 20 4, w 24 8⟩

def FabDesc.lsp (d : FabDesc) : Nat := bitsOf d.ctrl 1 0
def FabDesc.cls (d : FabDesc) : Nat := bitsOf d.ctrl 5 4

/-- Check 3 of R263: the offset of the lowest failing field. -/
def State.fabFails (s : State) (d : FabDesc) : Option Nat :=
  let tests : List (Nat × Bool) := [
    (0x00, d.local' % 4 != 0 || ((d.lsp == 1 || d.lsp == 2) && decide (2 ^ 32 ≤ d.local'))),
    (0x08, d.remote % 4 != 0 || !s.podOk d.remote),
    (0x10, d.bytes % 4 != 0 || d.bytes == 0 || decide (2 ^ 24 < d.bytes)),
    (0x14, d.lsp == 3 || bitsOf d.ctrl 3 2 != 0 || bitsOf d.ctrl 31 6 != 0),
    (0x18, d.rsv != 0)]
  (tests.find? (·.2)).map (·.1)

/-- Check 4 of R263: the local range in full, as a load or a store. -/
def State.fabLocal (s : State) (sid : Nat) (acc : Acc) (d : FabDesc) : Except (Nat × Nat × Nat) (List XPart) :=
  let tid := (s.str sid).team
  if d.lsp = 0 then
    if 2 ^ 56 ≤ d.local' then .error (0x32, 0, d.local')
    else match s.accessParts sid acc 0xA300000 (pageParts d.local' d.bytes) with
      | (_, some e) => .error e
      | (ps, none) => .ok ps
  else if s.windowRange tid d.lsp d.local' d.bytes then
    .ok (s.windowParts tid d.lsp d.local' d.bytes)
  else .error (0x30, 0, d.local')

/-- The local bytes of a get's remote run: physical runs. -/
def localRuns (ps : List XPart) (off n : Nat) : List (Nat × Nat) :=
  match ps with
  | [] => []
  | p :: rest =>
    let lo := min off p.len
    let len := min n (p.len - lo)
    (if len = 0 then [] else [(p.pa + lo, len)]) ++ localRuns rest (off - p.len) (n - len)

/-- Assign the operation its handle and start it. -/
def State.fabGo (s : State) (sid : Nat) (p : RunPath) (get : Bool) (d : Sel) (x : FabDesc) (ps : List XPart) : State :=
  let st := s.str sid
  let ctx := (s.gridOf sid).ctx
  let h := st.fl.fabCount
  let va := x.remote % 2 ^ 56
  let dst := x.remote / 2 ^ 56
  let bytes := s.pocParts sid 0xA400000 ps
  let s := if x.lsp ≠ 0 then s else if get then s.usePartsOf sid .write ps else s.pocTouch sid ps
  let s := if !get && st.csr.dgon then s.modTeamOf sid fun t => t.fold (wordItems x.remote bytes) else s
  let frame (r : Nat × Nat) : Frm :=
    ⟨if get then 2 else 1, x.cls, false, ctx, s.pkgid, dst, 0, 0, r.1, 0, 0,
      if get then leBytes 8 r.2 else (bytes.drop (r.1 - va)).take r.2⟩
  let runs := podRuns va x.bytes
  let o : FabOp :=
    { strand := sid, num := 0, op := if get then 2 else 1, posted := false, conn := 4 * dst + x.cls, ctx := ctx,
      remote := x.remote, lane := 0, frames := 0, fence := 0, held := [], evq := 0, queue := 0, failed := false,
      locals := if get then runs.flatMap fun r => (localRuns ps (r.1 - va) r.2).map fun q => (r.1, q) else [] }
  let f : FabSt := ⟨false, get, 0, if get && p.order == 1 then some (p.scopeOr 4) else none, some h⟩
  let s := s.fabStart sid o f (runs.map frame)
  let s := s.modStr sid fun t => { t with fl := { t.fl with fabCount := (h + 1) % 2 ^ 32 } }
  (s.giveAll sid p d (BitVec.ofNat 32 h)).advance sid p

/-- `fab.put` and `fab.get`, made after the strand's earlier stores. -/
def fabMove (get : Bool) (d a : Sel) : State → Out State :=
  heldPath fun sid p s => s.operandsOnce sid p [(a, 1)] [(d, 1)] fun p s vals =>
    s.waitFor sid p (s.str sid).fl.stores.isEmpty (.word 2) fun s => s.fabOrder sid p fun p s =>
      let off := val32 p vals 0
      let trap (c sub x : Nat) : State := s.trapPath sid p c sub (BitVec.ofNat 64 x)
      if off % 32 ≠ 0 then trap 0x31 0 off
      else if (s.gridOf sid).kd.spSize < off + 32 then trap 0x30 0 off
      else
        let x := fabDesc ((s.walkMem sid).readN ((s.teamOf sid).phys off) 32)
        match s.fabFails x with
        | some o => trap 0x41 3 (off + o)
        | none =>
          match s.fabLocal sid (if get then .st else .ld) x with
          | .error (c, sub, y) => trap c sub y
          | .ok ps => s.fabGo sid p get d x ps

def execFabPut (d a : Sel) : State → Out State := fabMove false d a
def execFabGet (d a : Sel) : State → Out State := fabMove true d a

/-- One lane's remote atomic (R265). -/
def State.fabAtom (s : State) (sid : Nat) (p : RunPath) (cas : Bool) (d : Sel) (l : Nat) (addr y x : Nat) : State :=
  let st := s.str sid
  let ctx := (s.gridOf sid).ctx
  let dst := addr / 2 ^ 56
  let n := st.fl.fabSeq
  let f : Frm := ⟨if cas then 5 else 4, 0, false, ctx, s.pkgid, dst, 0, 0, addr % 2 ^ 56, 0, 0,
    if cas then leBytes 8 x ++ leBytes 8 y else leBytes 8 y⟩
  let o : FabOp :=
    { strand := sid, num := 0, op := if cas then 5 else 4, posted := d == .zero, conn := 4 * dst, ctx := ctx, remote := addr,
      lane := l, frames := 0, fence := 0, held := [], locals := [], evq := 0, queue := 0, failed := false }
  let acq := if p.order = 1 ∨ p.order = 3 then some (p.scopeOr 4) else none
  let s := if d == .zero then s
    else s.pend sid { writes := st.pairLocs [l] d, on := .fab n, acq := acq }
  s.fabStart sid o { done := false, get := false, use := p.use, handle := none, acq := acq } [f]

def fabAtomic (cas : Bool) (d a b : Sel) : State → Out State :=
  let srcs : List Opd := [(a, 2), (b, 2)] ++ if cas then [(d, 2)] else []
  heldPath fun sid p s => s.operandsOnce sid p srcs [(d, 2)] fun p s vals =>
    let v (l i : Nat) : Nat := (arg ((nget vals l).getD []) i).toNat
    match p.lanes.find? fun l => !s.podOk (v l 0) with
    | some l => s.trapPath sid p 0x41 0 (BitVec.ofNat 64 (v l 0))
    | none => s.fabOrder sid p fun p s =>
      let bad := p.lanes.filter fun l => v l 0 % 8 != 0
      let go := lessNat p.lanes bad
      let s := go.foldl (fun s l => s.fabAtom sid p cas d l (v l 0) (v l 1) (if cas then v l 2 else 0)) s
      s.splitOff sid p (bad.map fun l => (l, 0x31, 0, BitVec.ofNat 64 (v l 0)))

def execFabAadd (d a b : Sel) : State → Out State := fabAtomic false d a b
def execFabAcas (d a b : Sel) : State → Out State := fabAtomic true d a b

def execFabFence : State → Out State :=
  heldPath fun sid p s =>
    (s.modStr sid fun st => { st with fl := { st.fl with fabFence := st.fl.fabSeq } }).advance sid p

/-- What `fab.wait` on a handle waits for (R266): that operation, or the strand's 256 latest. -/
def Strand.fabReady (st : Strand) (h : Nat) : Bool :=
  let age (g : Nat) : Nat := sub32 st.fl.fabCount g
  let latest := st.fl.fabs.filter fun f => f.2.handle.any fun g => decide (1 ≤ age g) && decide (age g ≤ 256)
  match latest.find? fun f => f.2.handle == some h with
  | some f => f.2.done
  | none => latest.all (·.2.done)

/-- `fab.wait`: a failure is reported before the handle is looked at, and again once the operation is done. -/
def execFabWait (a : Sel) : State → Out State :=
  heldPath fun sid p s => s.operandsOnce sid p [(a, 1)] [] fun p s vals =>
    let h := val32 p vals 0
    s.raiseDue sid p p.duePc false false true fun p s =>
      if sub32 h (s.str sid).fl.fabCount < 2 ^ 31 then s.trapPath sid p 0x41 0 (BitVec.ofNat 64 h)
      else s.waitFor sid p ((s.str sid).fabReady h) (.fab h) fun s => s.advance sid p

end Sys2Proof.Machine
end

