-- ==== Sys2Proof/Machine/FabRx.lean ====
section
/-! DEFINITION. Receiving on the fabric: frames checked and performed, acknowledgement and resending, time limits, rates, transit,
the halt buffer and port states (15_fabric_host.md R395 to R404; 09_isa_async_system.md R264 to R267; 16_debug_determinism.md
R418, R419). -/

namespace Sys2Proof.Machine

/-! Frames as bytes (R396). -/

/-- The Vutos header and data. -/
def Frm.bytes (f : Frm) : List Byte :=
  leBytes 1 1 ++ leBytes 1 f.op ++ leBytes 1 (f.cls + 4 * natOf f.ece) ++ leBytes 1 f.ctx ++ leBytes 1 f.src ++ leBytes 1 f.dst ++
  leBytes 2 f.data.length ++ leBytes 4 f.psn ++ leBytes 4 f.apsn ++ leBytes 8 f.addr ++ leBytes 4 f.tag ++ leBytes 4 f.cause ++ f.data

def frmOfBytes (b : List Byte) : Frm :=
  let n (o k : Nat) := leNat ((b.drop o).take k)
  ⟨n 1 1, n 2 1 % 4, bitOf (n 2 1) 2, n 3 1, n 4 1, n 5 1, n 8 4, n 12 4, n 16 8, n 24 4, n 28 4, b.drop 32⟩

/-- Bytes of data an operation carries (R397). -/
def Frm.dataOk (f : Frm) : Bool :=
  let n := f.data.length
  match f.op with
  | 1 | 3 => n % 4 == 0 && decide (1 ≤ n) && decide (n ≤ 4096)
  | 2 | 4 | 6 => n == 8
  | 5 => n == 16
  | _ => n == 0

/-- A header that keeps R396 and R397. -/
def validFrame (b : List Byte) : Bool :=
  let f := frmOfBytes b
  decide (32 ≤ b.length) && f.bytes == b && decide (1 ≤ f.op) && decide (f.op ≤ 11) && f.dataOk && decide (f.src < 32) && decide (f.dst < 32) &&
  decide (f.psn < 2 ^ 24) && decide (f.apsn < 2 ^ 24) && (decide (f.op ≤ 6) || f.addr == 0) && (f.op == 9 || f.cause == 0)

/-- The connection a received frame belongs to. -/
def Frm.connFrom (f : Frm) : Nat := 4 * f.src + f.cls

/-! Acknowledgement (R398). -/

/-- A frame of an operation is acknowledged: of a put or posted atomic that is its end. -/
def State.frameAcked (s : State) (f : Frm) : State :=
  match nget s.fab.ops f.tag with
  | none => s
  | some o =>
    if f.op = 3 ∨ f.op = 6 ∨ f.op = 9 ∨ o.frames = 0 ∨ !(o.op = 1 ∨ o.posted) then s
    else
      let s := s.modFab fun b => { b with ops := nmod b.ops f.tag fun o => { o with frames := o.frames - 1 } }
      if o.frames = 1 then s.fabDone o.strand o.num else s

/-- An APSN acknowledges every frame before it. -/
def State.takeApsn (s : State) (k a : Nat) : State :=
  let c := s.conn k
  match c.unacked with
  | [] => s
  | u :: _ =>
    let n := sub24 a u.frm.psn
    if n = 0 ∨ c.unacked.length < n then s
    else
      -- a kept response stays as it was sent
      let sent (x : Nat × Frm) : Nat × Frm :=
        (x.1, (((c.unacked.take n).find? fun u => u.frm.op == x.2.op && u.frm.tag == x.2.tag && u.frm.addr == x.2.addr).map (·.frm)).getD x.2)
      let s := s.modConn k fun c => { c with unacked := c.unacked.drop n, progress := s.cycle, kept := c.kept.map sent }
      ((c.unacked.take n).foldl (fun s u => s.frameAcked u.frm) s).fillWindow k

/-- The operations outstanding on a connection fail with 0x54, and what it holds is discarded (R404). -/
def State.dropConn (s : State) (k st : Nat) : State :=
  let out := s.fab.ops.filter fun x => x.2.conn == k && x.2.frames != 0 && x.2.held.isEmpty
  let s := s.modConn k fun c => { c with
    st := st, txPsn := 0, rxPsn := 0, unacked := [], queued := [], kept := [], naked := false, since := 0, progress := s.cycle, owe := none }
  let s := s.modFab fun b => { b with halted := b.halted.filter fun f => f.2.connFrom != k }
  out.foldl (fun s x => s.fabFail x.1 x.2 0x54) s

/-- A timeout resets the connection: the handshake starts with an ACK of APSN 0. -/
def State.resetConn (s : State) (k : Nat) : State :=
  ((s.dropConn k 2).modConn k fun c => { c with asked := c.asked + 1 }).sendPlain k 7

/-- A connection is as a reset leaves it, but for frames it has sent and of which none has been acknowledged. -/
def Conn.fresh (c : Conn) : Bool :=
  c.rxPsn == 0 && !c.naked && match c.unacked with
  | u :: _ => u.frm.psn == 0
  | [] => c.txPsn == 0

/-- An ACK of APSN 0 that concerns a reset (R404): the end that asked goes on; an end asked discards what it holds and answers. One that has
been reset already, and awaits no answer itself, answers again: its first answer was lost (DEDUCED, notes/assumptions/19.md). -/
def State.handshake (s : State) (k : Nat) : State :=
  let c := s.conn k
  if c.st = 2 then (s.modConn k fun c => { c with st := 0, asked := c.asked - 1 }).fillWindow k
  else if c.fresh then
    if c.asked = 0 then s.sendPlain k 7 else s.modConn k fun c => { c with asked := c.asked - 1 }
  else (s.dropConn k 0).sendPlain k 7

/-- An ACK of APSN 0 asks for a reset, or answers one, where the connection is as a reset leaves it, or no ACK of the connection as it stands
could carry 0 (DEDUCED, notes/assumptions/19.md). -/
def State.asksReset (s : State) (k a : Nat) : Bool :=
  let c := s.conn k
  a == 0 && (c.st == 2 || c.fresh || match c.unacked with
    | u :: us => u.frm.psn != 0 && decide (us.length + 1 < sub24 a u.frm.psn)
    | [] => c.txPsn != 0 || c.rxPsn != 0)

/-- Send every unacknowledged frame again, from the oldest; where one would be sent a 17th time the operation times out. -/
def State.resend (s : State) (k : Nat) : State :=
  if (s.conn k).unacked.any fun u => decide (16 ≤ u.tries) then s.resetConn k
  else (s.modConn k fun c => { c with progress := s.cycle }).sendWindow k fun _ => true

/-! Performing frames (R264, R265, R401). -/

/-- The physical parts of a range as the fabric reaches it, or the cause of R267. -/
def State.fabParts (s : State) (ctx va n : Nat) (need : Need) (atom : Bool) : Except Nat (List XPart) :=
  if 2 ^ 56 < va + n then .error 0x32
  else (pageParts va n).foldr (fun p acc =>
    match s.xlate s.mem ctx noCore p.1 need (0x11000000 + p.1) with
    | .error e => .error e.cause
    | .ok x =>
      match regionOf x.pa, engineReach (s.ctx ctx).sys x.pa need with
      | .host, _ => .error 0x32
      | .control, none => if atom then .error 0x32 else match acc with
        | .error e => .error e
        | .ok r => .ok (⟨p.1, x.pa, p.2, x⟩ :: r)
      | _, some c => .error c
      | _, none => match acc with
        | .error e => .error e
        | .ok r => .ok (⟨p.1, x.pa, p.2, x⟩ :: r)) (.ok [])

/-- What a request answers: its operation, data and cause. -/
structure Answer where
  op : Nat
  data : List Byte
  cause : Nat

/-- Perform a request on this package: its answer, if it has one. -/
def State.request (s : State) (f : Frm) : Option Answer × State :=
  let nak (c : Nat) : Option Answer × State := (some ⟨9, [], c⟩, s)
  if !(s.ctx f.ctx).valid then nak 0x32
  else match f.op with
    | 1 =>
      if f.addr % 4 ≠ 0 then nak 0x31
      else match s.fabParts f.ctx f.addr f.data.length .write false with
        | .error c => nak c
        | .ok ps =>
          let s := s.useParts f.ctx noCore .write ps
          (none, s.outerCells (partCells ps f.data))
    | 2 =>
      let n := leNat f.data
      if f.addr % 4 ≠ 0 then nak 0x31
      else match s.fabParts f.ctx f.addr n .read false with
        | .error c => nak c
        | .ok ps =>
          (some ⟨3, s.partBytes f.ctx ps, 0⟩, ps.foldl (fun s p => s.noteRead p.pa p.len) (s.useParts f.ctx noCore .read ps))
    | _ =>
      if f.addr % 8 ≠ 0 then nak 0x31
      else match s.fabParts f.ctx f.addr 8 .write true with
        | .error c => nak c
        | .ok ps =>
          let s := s.useParts f.ctx noCore .write ps
          let w (i : Nat) : Word64 := BitVec.ofNat 64 (leNat ((f.data.drop (8 * i)).take 8))
          let pa := (ps.head?.map (·.pa)).getD 0
          let (m, s) := s.performRmw noCore (if f.op = 4 then ⟨10, pa, w 0, 0, 0, 0⟩ else ⟨11, pa, w 1, w 0, 0, 0⟩) 0x12200000
          (some ⟨6, leBytes 8 m, 0⟩, s)

/-- The local bytes of a get that a frame of its data covers. -/
def spreadRuns (locals : List (Nat × Nat × Nat)) (addr : Nat) (bs : List Byte) : List Host.Cell :=
  ((locals.filter fun l => l.1 == addr).foldl (fun (acc : List Host.Cell × List Byte) l =>
    (acc.1 ++ cellsAt l.2.1 (acc.2.take l.2.2), acc.2.drop l.2.2)) ([], bs)).1

/-- A response reaches its operation. -/
def State.response (s : State) (f : Frm) : State :=
  match nget s.fab.ops f.tag with
  | none => s
  | some o =>
    if f.op = 9 then s.fabFail f.tag o f.cause
    else if o.frames = 0 ∨ o.posted then s
    else
      let s := s.modFab fun b => { b with ops := nmod b.ops f.tag fun o => { o with frames := o.frames - 1 } }
      if f.op = 6 then (s.fabAnswer o.strand o.num (leNat f.data)).fabDone o.strand o.num
      else
        let cells := spreadRuns o.locals f.addr f.data
        let s := s.engineCells (s.str o.strand).core cells
        if o.frames = 1 then s.fabDone o.strand o.num else s

/-- Perform a local frame: logged, then a request with its answer, or a response. -/
def State.performFrame (s : State) (f : Frm) : State :=
  let k := f.connFrom
  let s := s.log f.ctx 3 f.ctx f.bytes
  if f.op = 1 ∨ f.op = 2 ∨ f.op = 4 ∨ f.op = 5 then
    match s.request f with
    | (none, s) => s
    | (some a, s) =>
      let r : Frm := ⟨a.op, f.cls, false, f.ctx, s.pkgid, f.src, 0, 0, if a.op = 9 then 0 else f.addr, f.tag, a.cause, a.data⟩
      let s := if f.op = 2 then s else s.modConn k fun c => { c with kept := ((f.psn, r) :: c.kept).take 1024 }
      s.sendNumbered k [r]
  else s.response f

/-! The halt buffer (R401). -/

/-- Bytes the halt buffer holds. -/
def haltRoom : Nat := 4 * 2 ^ 20

/-- What lies behind a full halt buffer: the local buffers, by port and class. -/
def behindHalt (fs : List (Nat × Frm)) : List (Nat × Frm) :=
  (fs.foldl (fun (acc : Nat × List (Nat × Frm)) f =>
    let n := acc.1 + f.2.data.length + 32
    (n, if haltRoom < n then acc.2 ++ [f] else acc.2)) (0, [])).2

/-- Classes whose local frames wait behind a full halt buffer. -/
def fullClasses (fs : List (Nat × Frm)) : List Nat := (behindHalt fs).map (·.2.cls)

/-- A frame is held: its context is debug-halted or replays, or its class waits. -/
def State.holdsFrame (s : State) (f : Frm) : Bool :=
  (s.ctx f.ctx).dbg.halted || (s.ctx f.ctx).ck.replay.isSome || (fullClasses s.fab.halted).contains f.cls

def State.performOrHold (s : State) (port : Nat) (f : Frm) : State :=
  if s.holdsFrame f then s.modFab fun b => { b with halted := b.halted ++ [(port, f)] } else s.performFrame f

/-- Frames that no halt holds any more are performed in order. -/
def State.flushHalted (s : State) : State :=
  s.fab.halted.foldl (fun s x => s.performOrHold x.1 x.2) (s.modFab fun b => { b with halted := [] })

/-- However the halt ended, by resumption or by a kill. -/
def State.flushHeld (s : State) : State :=
  if s.fab.halted.any fun x => !((s.ctx x.2.ctx).dbg.halted || (s.ctx x.2.ctx).ck.replay.isSome) then s.flushHalted else s

/-! Flow control toward the peer (R400, R401). -/

/-- Bytes of a frame in a buffer. -/
def Frm.size (f : Frm) : Nat := f.data.length + 32

/-- Local frames of a class from a port that wait to be performed, beside the halt buffer. -/
def State.localBytes (s : State) (n c : Nat) : Nat :=
  (((behindHalt s.fab.halted).filter fun x => x.1 == n && x.2.cls == c).map (·.2.size)).sum

/-- Transit frames of a class from a port. -/
def State.transitBytes (s : State) (n c : Nat) : Nat :=
  (s.fab.ports.map fun p => ((p.2.queue.filter fun t => t.input == n && t.frm.cls == c).map (·.frm.size)).sum).sum

/-- The package pauses priority i toward the peer at port n: above one mark, or behind a full halt buffer, until below the other. -/
def State.pausesPeer (s : State) (n i : Nat) : Bool :=
  let was := bitOf (s.port n).sentPause i
  let k := 2 ^ 10
  if i < 4 then
    let b := s.localBytes n i
    (fullClasses s.fab.halted).contains i || decide (2 * k * k < b) || (was && decide (k * k ≤ b))
  else
    let b := s.transitBytes n (i - 4)
    decide (k * k < b) || (was && decide (512 * k ≤ b))

/-- Ports that carry frames tell their peer what has changed. -/
def State.pausePeers (s : State) : State :=
  if !s.fab.en then s
  else (nkeys s.fab.ports).foldl (fun s n =>
    let on := (List.range 8).filter (s.pausesPeer n)
    let m := on.foldl (fun m i => m + 2 ^ i) 0
    let old := (s.port n).sentPause
    if m = old ∨ ((s.port n).st ≠ .up ∧ (s.port n).st ≠ .drain) ∨ ((s.port n).peerSleep ∧ s.linkHeld n) then s
    else
      let s := if (s.port n).peerSleep then (s.linkFrame n 11).modPort n fun p => { p with peerSleep := false } else s
      (s.send (.pfc n (m ^^^ old) m)).modPort n fun p => { p with sentPause := m }) s

/-! Reception. -/

/-- A request that has been performed before: a kept response is sent again, be it still unacknowledged or not; a get is read again. -/
def State.duplicate (s : State) (f : Frm) : State :=
  let k := f.connFrom
  let c := s.conn k
  let same (op : Nat) (x : Frm) : Bool := x.op == op && x.tag == f.tag && x.addr == (if op = 9 then 0 else f.addr)
  let again (s : State) (op : Nat) : State := s.sendWindow k fun u => same op u.frm
  if f.op = 4 ∨ f.op = 5 then
    match c.kept.find? fun x => x.1 == f.psn && x.2.tag == f.tag with
    | some x =>
      if c.unacked.any fun u => same x.2.op u.frm then again s x.2.op
      else if c.queued.any (same x.2.op) then s
      else
        (s.sendStamped k x.2).2
    | none => s
  else if f.op = 2 then
    match s.request f with
    | (some a, s) =>
      if a.op ≠ 3 then s
      else
        let s := s.modConn k fun c => { c with unacked := c.unacked.map fun u =>
          if u.frm.op = 3 ∧ u.frm.tag = f.tag ∧ u.frm.addr = f.addr then { u with frm := { u.frm with data := a.data } } else u }
        again s 3
    | (none, s) => s
  else s

/-- A numbered frame has arrived: it is counted before anything that is sent for it, which tells the peer of it. -/
def State.countFrame (s : State) (k : Nat) : State :=
  s.modConn k fun c => { c with since := c.since + 1, ackAt := if c.since = 0 then s.cycle else c.ackAt }

/-- An ACK is due where 8 of them have arrived since the last APSN was sent. -/
def State.ackCounted (s : State) (k : Nat) : State := if 8 ≤ (s.conn k).since then s.sendPlain k 7 else s

/-- A numbered frame: the expected one is performed or held, any other dropped. -/
def State.receiveNumbered (s : State) (port : Nat) (f : Frm) : State :=
  let k := f.connFrom
  let c := s.conn k
  if c.st = 2 then s
  else if f.psn = c.rxPsn then
    let s := (s.modConn k fun c => { c with rxPsn := (c.rxPsn + 1) % 2 ^ 24, naked := false, st := 1 }).countFrame k
    ((s.performOrHold port f).takeApsn k f.apsn).ackCounted k
  else
    let s := s.countFrame k
    let s := if c.naked then s else (s.modConn k fun c => { c with naked := true }).sendPlain k 8
    let s := if sub24 c.rxPsn f.psn ≤ 1024 ∧ !(s.fab.halted.any fun h => h.2.connFrom == k && h.2.psn == f.psn) then s.duplicate f else s
    (s.takeApsn k f.apsn).ackCounted k

/-- The rate's cut at a frame with ECE, and the echo owed for a CE mark (R399). 50 microseconds lie between cuts. -/
def State.noteRate (s : State) (f : Frm) (ce : Bool) : State :=
  let k := f.connFrom
  let s := if ce ∧ f.numbered then s.modConn k fun c => { c with ece := true } else s
  if !f.ece then s
  else s.modConn k fun c =>
    let cut := (c.cutAt.map fun t => decide (t + 50 * cyclesPerUs ≤ s.cycle)).getD true
    { c with calmAt := s.cycle, rate := if cut then max (c.rate / 2) 1 else c.rate, cutAt := if cut then some s.cycle else c.cutAt }

/-- A frame for this package from a port. -/
def State.receiveLocal (s : State) (port : Nat) (f : Frm) : State :=
  let k := f.connFrom
  let s := s.noteRate f false
  let p := s.port port
  match f.op with
  | 7 =>
    -- while the port drains, the first ACK from its peer on class 0 is that of its SLEEP
    if p.st = .drain ∧ !p.acked ∧ f.src = Config.portPeer port ∧ f.cls = 0 then
      let s := s.modPort port fun p => { p with acked := true }
      if (s.conn k).st = 2 then s else s.takeApsn k f.apsn
    else if s.asksReset k f.apsn then s.handshake k else if (s.conn k).st = 2 then s else s.takeApsn k f.apsn
  | 8 => if (s.conn k).st = 2 then s else (s.takeApsn k f.apsn).resend k
  | 10 =>
    let s := s.modPort port fun p => { p with peerSleep := true }
    if (s.port port).st = .up then s.linkSend port 7 else s
  | 11 => (s.wakeHint port).modPort port fun p => { p with peerSleep := false }
  | _ => s.receiveNumbered port f

/-- Bytes that wait in an output queue: of an input port and a class (R399, R400). -/
def queueBytes (q : List Transit) (input cls : Nat) : Nat := ((q.filter fun t => t.input == input && t.frm.cls == cls).map (·.frm.size)).sum

/-- A frame waits behind another of its input port, class and priority (R400). -/
def Transit.behind (n : Nat) (t x : Transit) : Bool :=
  let next (f : Frm) : Bool := Config.portPeer n == f.dst
  x.input == t.input && x.frm.cls == t.frm.cls && next x.frm == next t.frm

/-- Send what waits at a port, up or draining: the frames of one input port, class and priority in order. -/
def State.flushPort (s : State) (n : Nat) : State :=
  if !s.fab.en ∨ ((s.port n).st ≠ .up ∧ (s.port n).st ≠ .drain) then s
  else
    let (left, s) := (s.port n).queue.foldl (fun (acc : List Transit × State) t =>
      if acc.2.blockedAt n t.frm || acc.1.any (Transit.behind n t) then (acc.1 ++ [t], acc.2)
      else (acc.1, acc.2.emit n t.frm t.hop t.ce)) ([], s)
    s.modPort n fun p => { p with queue := left }

/-- A frame for another package (R400): it is forwarded, marked where its queue is long. -/
def State.forward (s : State) (input : Nat) (f : Frm) (hop : Nat) (ce : Bool) : State :=
  match s.outPort f with
  | none => s
  | some n =>
    let mark := ce || (f.numbered && decide (s.fab.ecnthr * 1024 < queueBytes (s.port n).queue input f.cls))
    let s := (s.queueHint n f).modPort n fun p => { p with queue := p.queue ++ [⟨f, hop - 1, mark, input⟩] }
    (if (s.port n).st = .up then s else s.wakeHint n).flushPort n

/-- A frame arrives at a port: args port, 1 where its checksums hold and its UDP port is right, hop limit, 1 for a CE mark, bytes. One
of an OP that is not listed comes with any of the frame events, and is dropped and counted (R395, R397). -/
def State.frameIn (s : State) (op : Nat) : State :=
  let port := s.arg 0
  let b := (s.args.drop 4).map fun x => BitVec.ofNat 8 x
  let f := frmOfBytes b
  let st := (s.port port).st
  let listed := decide (1 ≤ f.op) && decide (f.op ≤ 11)
  if !s.fab.en || (listed && f.op != op) || !(st == .up || st == .drain || (st == .sleep && op == 11)) then s
  else if s.arg 1 ≠ 1 ∨ s.arg 2 = 0 ∨ !validFrame b then s.modPort port fun p => { p with drops := p.drops + 1 }
  else if f.dst = s.pkgid then (if s.arg 3 = 1 then s.noteRate { f with ece := false } true else s).receiveLocal port f
  else s.forward port f (s.arg 2) (s.arg 3 == 1)

/-! Replayed arrivals (R419). -/

/-- An operation that a logged response answers: the oldest outstanding of its context, kind and connection. -/
def State.replayTag (s : State) (f : Frm) : Option Nat :=
  (s.fab.ops.find? fun x =>
    x.2.ctx == f.ctx && x.2.conn == f.connFrom && x.2.frames != 0 &&
    (match f.op with
     | 3 => x.2.op == 2 && x.2.locals.any fun l => l.1 == f.addr
     | 6 => (x.2.op == 4 || x.2.op == 5) && !x.2.posted && x.2.remote % 2 ^ 56 == f.addr
     | _ => true)).map (·.1)

/-- The next logged arrival of a replaying context, if it is of an operation: args context. -/
def State.replayFrame (s : State) (op : Nat) : State :=
  let ctx := s.arg 0
  match (s.ctx ctx).ck.replay with
  | none => s
  | some r =>
    match s.logFind ctx (fun e => e.kind == 3) (s.logFuel ctx) r.fpos with
    | none => s
    | some (_, e) =>
      let f := frmOfBytes e.body
      let next (s : State) : State := s.modReplay ctx fun r => { r with fpos := e.next }
      if f.op ≠ op then s
      else if op = 1 ∨ op = 2 ∨ op = 4 ∨ op = 5 then next (s.request f).2
      else match s.replayTag f with
        | some t => next (s.response { f with tag := t })
        | none => s

/-- A frame from a port, or with one argument a logged arrival. -/
def State.frameEvent (s : State) (op : Nat) : State := if s.args.length = 1 then s.replayFrame op else s.frameIn op

def execFramePutReceive (s : State) : Out State := .next (s.frameEvent 1)
def execFrameGetreqReceive (s : State) : Out State := .next (s.frameEvent 2)
def execFrameGetrespReceive (s : State) : Out State := .next (s.frameEvent 3)
def execFrameAaddReceive (s : State) : Out State := .next (s.frameEvent 4)
def execFrameAcasReceive (s : State) : Out State := .next (s.frameEvent 5)
def execFrameAtomrespReceive (s : State) : Out State := .next (s.frameEvent 6)
def execFrameAckReceive (s : State) : Out State := .next (s.frameIn 7)
def execFrameNaksReceive (s : State) : Out State := .next (s.frameIn 8)
def execFrameNakfReceive (s : State) : Out State := .next (s.frameEvent 9)
def execFrameSleepReceive (s : State) : Out State := .next (s.frameIn 10)
def execFrameWakeReceive (s : State) : Out State := .next (s.frameIn 11)

/-- PFC_PAUSE_RECEIVE: args port, priorities named, priorities paused among them. As any frame it is received only while FABCTL.EN is 1 and the
port carries frames (R402, R403). -/
def State.pfcReceive (s : State) (n vec on : Nat) : State :=
  if !s.fab.en ∨ ((s.port n).st ≠ .up ∧ (s.port n).st ≠ .drain) then s
  else
  let old := (s.port n).paused
  let s := s.modPort n fun p => { p with paused := ((List.range 8).filter fun i => if bitOf vec i then bitOf on i else bitOf old i).foldl (fun m i => m + 2 ^ i) 0 }
  ((s.linkOwed n).flushPort n).flushFab

def execPfcPauseReceive (s : State) : Out State := .next (s.pfcReceive (s.arg 0) (s.arg 1) (s.arg 2))

/-! Timers. Args: the connection. -/

/-- ACK_DELAY_EXPIRY: 4 microseconds after the first frame not acknowledged. -/
def State.ackDue (s : State) (k : Nat) : Bool :=
  let c := s.conn k
  c.since != 0 && c.owe.isNone && decide (c.ackAt + 4 * cyclesPerUs ≤ s.cycle)

def execAckDelayExpiry (s : State) : Out State := .next (if s.ackDue (s.arg 0) then s.sendPlain (s.arg 0) 7 else s)

/-- RETRANSMIT_TIMEOUT: 64 microseconds without an advance; an unanswered handshake is repeated. -/
def State.resendDue (s : State) (k : Nat) : Bool :=
  let c := s.conn k
  (c.st == 2 || c.unacked.any fun u => u.tries != 0) && decide (c.progress + 64 * cyclesPerUs ≤ s.cycle)

def execRetransmitTimeout (s : State) : Out State :=
  let k := s.arg 0
  .next (if !s.resendDue k then s
    else if (s.conn k).st = 2 then (s.modConn k fun c => { c with progress := s.cycle, asked := c.asked + 1 }).sendPlain k 7
    else s.resend k)

/-- FAB_OPERATION_TIMEOUT (R404): a frame is too old, or FWD gives no port to a target for which there are frames or an outstanding
operation. -/
def State.fabLate (s : State) (k : Nat) : Bool :=
  let c := s.conn k
  (c.unacked.any fun u => u.tries != 0 && decide (u.first + s.fab.fabto * cyclesPerUs ≤ s.cycle)) ||
   ((nget s.fab.fwd (k / 4)).getD 0 == 0 &&
    (!(c.unacked.isEmpty && c.queued.isEmpty) || s.fab.ops.any fun x => x.2.conn == k && x.2.frames != 0 && x.2.held.isEmpty))

def execFabOperationTimeout (s : State) : Out State := .next (if s.fabLate (s.arg 0) then s.resetConn (s.arg 0) else s)

/-- RATE_RECOVERY_TIMER: 50 microseconds without ECE. -/
def State.rateDue (s : State) (k : Nat) : Bool := decide ((s.conn k).rate < 800) && decide ((s.conn k).calmAt + 50 * cyclesPerUs ≤ s.cycle)

def execRateRecoveryTimer (s : State) : Out State :=
  .next (if s.rateDue (s.arg 0) then s.modConn (s.arg 0) fun c => { c with rate := min (c.rate + 1) 800, calmAt := s.cycle } else s)

/-! Ports (R402). Args: the port. -/

/-- A port goes down; the system event queue is told. -/
def State.portDown (s : State) (n : Nat) : State :=
  if (s.port n).st = .down then s
  else (s.modPort n fun p => { p with st := .down, paused := 0, sentPause := 0, peerSleep := false, acked := false, oweSleep := false, oweAck := false, queue := [] }).event 0 7 none32 none32 (16 * n) 0

/-- PORTCTL_EN_WRITE: args port, bit. -/
def State.writePortEn (s : State) (n : Nat) (b : Bool) : State :=
  let s := s.modPort n fun p => { p with en := b }
  if !b then s.portDown n else if (s.port n).st = .down then s.modPort n fun p => { p with st := .train } else s

def execPortctlEnWrite (s : State) : Out State := .next (s.ifRun fun s => s.writePortEn (s.arg 0) (s.arg 1 == 1))

/-- PORTCTL_LPREQ_WRITE: args port, bit. Where a wake hint has come in the same clock, the wake wins and the entry is aborted (R402). -/
def State.writeLpreq (s : State) (n : Nat) (b : Bool) : State :=
  let s := s.modPort n fun p => { p with lpreq := b }
  if !b ∨ (s.port n).st ≠ .up then s
  else if (s.port n).hintAt = some s.cycle then s.modPort n fun p => { p with lpreq := false, lpabort := p.lpabort + 1 }
  else ((s.linkSend n 10).modPort n fun p => { p with st := .drain }).flushPort n

/-- A write of PORTCTL with WAKE, and LPREQ as given. Where LPREQ meets the wake hint at a port that is up, the wake wins: the entry to sleep
is aborted before it begins (R402). -/
def State.wakeWrite (s : State) (n : Nat) (lpreq : Bool) : State :=
  if lpreq ∧ (s.port n).st = .up then s.modPort n fun p => { p with lpreq := false, lpabort := p.lpabort + 1, hintAt := some s.cycle }
  else (s.modPort n fun p => { p with lpreq := lpreq }).wakeHint n

/-- FABCTL.EN is set: SLEEPs that were held back leave, and what waits at the ports. -/
def State.fabOn (s : State) : State := (nkeys s.fab.ports).foldl (fun s n => (s.linkOwed n).flushPort n) s

def execPortctlLpreqWrite (s : State) : Out State := .next (s.ifRun fun s => s.writeLpreq (s.arg 0) (s.arg 1 == 1))

/-- PORTCTL_WAKE_WRITE. -/
def execPortctlWakeWrite (s : State) : Out State := .next (s.ifRun fun s => ((s.wakeHint (s.arg 0)).flushPort (s.arg 0)).flushFab)

/-- A port comes up: what waits for it is sent. -/
def State.portUp (s : State) (n : Nat) (from' : PortState) : State :=
  if (s.port n).st ≠ from' then s else ((s.modPort n fun p => { p with st := .up }).flushPort n).flushFab

def execPortLinkUp (s : State) : Out State := .next (s.portUp (s.arg 0) .train)
def execPortLanesReady (s : State) : Out State := .next (s.portUp (s.arg 0) .waking)
def execPortLinkLost (s : State) : Out State := .next (s.portDown (s.arg 0))

/-- PORT_DRAIN_COMPLETE. -/
def State.drained (s : State) (n : Nat) : Bool :=
  let p := s.port n
  p.st == .drain && p.queue.isEmpty && (p.peerSleep || p.acked)

def execPortDrainComplete (s : State) : Out State :=
  .next (if s.drained (s.arg 0) then s.modPort (s.arg 0) fun p => { p with st := .sleep, acked := false } else s)

def execLpabortRead (s : State) : Out State := .next (s.ifShown fun s => s.modPort (s.arg 0) fun p => { p with lpabort := 0 })
def execDropsRead (s : State) : Out State := .next (s.ifShown fun s => s.modPort (s.arg 0) fun p => { p with drops := 0 })

end Sys2Proof.Machine
end

