-- ==== Sys2Proof/Machine/Loop.lean ====
section
/-! DEFINITION. The Chaend loop (14_chaend_loop.md): formation, the grant, records received and applied, loop faults, optics. -/

namespace Sys2Proof.Machine

/-! Faults (R384, R385). -/

/-- The post of a returned record is complete (R258): `m` is the old value of an ATOMIC. -/
def State.postApplied (s : State) (x : RxRec) (m : Nat) : State :=
  match x.own with
  | none => s
  | some p =>
    match p.who with
    | .strand sid h =>
      let s := s.modStr sid fun st => { st with fl := { st.fl with posts := nmod st.fl.posts h fun y => { y with lsn := some x.lsn } } }
      if x.r.ty = 2 then s.atomicReturn sid h m else s
    | .packet q pkt n => s.postedDone q pkt n
    | _ => s

/-! Application (R381, R386). -/

/-- The fields of a LAUNCH payload (R316). -/
def launchCtx (r : LRec) : Nat := fld r.payload 0x18 4
/-- The record is a kill order (R355). -/
def LRec.killOrder (r : LRec) (npkg : Nat) : Bool := r.ty == 4 && r.payload == killPayload npkg (launchCtx r)

/-- Packages named in a mask below a number. -/
def popBelow (m n : Nat) : Nat := ((List.range n).filter (bitOf m)).length

/-- A share that has no cluster ends at once; else it joins the list. -/
def State.formShare (s : State) (r : LRec) (kd : KDesc) : State :=
  let b := r.payload
  let ctx := launchCtx r
  let mask := fld b 0x14 4
  let n := popBelow mask 32
  let k := popBelow mask s.pkgid
  let per := kd.cw * kd.ch
  let cl := fld b 0x10 4 / per
  let id := s.sched.sharesNext
  let (g, s) := s.newGrid ctx (fld b 0 8) kd (fld b 8 8) (fld b 0x10 4) (k * cl / n * per) ((k + 1) * cl / n * per) (.loop id) false
  let x : Share := ⟨g, fld b 0x1C 1, ctx, fld b 0x20 4, s.cycle, []⟩
  let s := s.modSched fun d => { d with shares := nset d.shares id x, sharesNext := id + 1 }
  if k * cl / n = (k + 1) * cl / n then s.endShare id x else s

/-- A LAUNCH record is applied (R316): the check, the share, or the event on the issuing package. -/
def State.applyLaunch (s : State) (x : RxRec) : State :=
  let b := x.r.payload
  let ctx := launchCtx x.r
  let mine := bitOf (fld b 0x14 4) s.pkgid
  let bad (code : Nat) (s : State) : State := if x.own.isSome then s.event 0 4 none32 ctx code x.lsn else s
  if !mine ∧ x.own.isNone then s
  else if (b.drop 0x1D).take 3 ≠ leBytes 3 0 ∨ (b.drop 0x24).take 12 ≠ leBytes 12 0 then bad 0x02 s
  else match s.checkLaunch ctx 2 (fld b 0 8) (fld b 0x10 4) 0 0 with
    | .error (code, _) => bad code s
    | .ok (kd, s1) =>
      if !mine then s
      else if 64 ≤ (s.sched.shares.filter fun y => s.shareWaits y.2).length then bad 0x0A s
      else s1.formShare x.r kd

/-- A kill order is applied (R354, R355). -/
def State.applyKillOrder (s : State) (x : RxRec) : State :=
  let ctx := launchCtx x.r
  let mine := s.kills.filter fun k => k.ctx == ctx
  let s :=
    if x.own.isSome then
      mine.foldl (fun s k => s.killRecords k x.lsn) { s with kills := s.kills.filter fun k => k.ctx != ctx }
    else s
  if (s.ctx ctx).killed then s
  else
    let s := s.killHere ctx
    s.killRecords ⟨ctx, 6, 0, 0, 0, 0, 0, 0, 0, none, s.cycle, false⟩ x.lsn

/-- A MSG reaches an inbox of this package (R387). -/
def State.applyMsg (s : State) (x : RxRec) : State :=
  if x.r.arg % 32 ≠ s.pkgid then s
  else
    let i := bitsOf x.r.arg 11 8
    let b := (nget s.loop.inboxes i).getD {}
    let tail := s.mem.readLe b.base 8
    let head := s.mem.readLe (b.base + 8) 8
    let used := (tail + 2 ^ 64 - head) % 2 ^ 64
    if b.en ∧ b.lcnt ≠ 0 ∧ used < 2 ^ b.lcnt then
      let entry := x.r.payload ++ leBytes 8 x.lsn ++ leBytes 1 x.r.src ++ leBytes 7 0
      let entry := if b.undef then s.freeBytes 0x10000000 64 else entry
      let s := s.outerCells (cellsAt (b.base + 64 + 64 * (tail % 2 ^ b.lcnt)) entry)
      s.outerCells (cellsAt b.base (leBytes 8 ((tail + 1) % 2 ^ 64)))
    else s.modLoop fun l => { l with inboxes := nset l.inboxes i { b with drop := b.drop + 1, dlsn := x.lsn } }

/-- A DIGEST is compared with those applied before it (R422). -/
def State.applyDigest (s : State) (x : RxRec) : State :=
  let b := x.r.payload
  let d := fld b 0 8
  let ctx := fld b 8 4
  let step := fld b 12 4
  let rank := fld b 16 4
  if !(s.ctx ctx).dbg.dgx then s
  else
    let differs := s.loop.digests.any fun (src, c, st, rk, v) => src != x.r.src && c == ctx && st == step && rk == rank && v != d
    let s := s.modLoop fun l => { l with digests := ((x.r.src, ctx, step, rank, d) :: l.digests).take 1024 }
    if differs then s.event 0 6 none32 ctx 0xA0 x.lsn else s

/-- The effect of a record: what it does, and the old value of an ATOMIC. -/
def State.applyEffect (s : State) (x : RxRec) : Nat × State :=
  let rd (o : Nat) : Byte := s.mem.read (locketBase + o)
  match x.r.ty with
  | 1 | 2 =>
    let (o, bs) := x.r.effect rd
    (leNat ((List.range 8).map fun i => rd (o + i)), s.putCells (cellsAt (locketBase + o) bs))
  | 3 => (0, s.applyMsg x)
  | 4 => (0, if x.r.killOrder s.npkg then s.applyKillOrder x else s.applyLaunch x)
  | 5 => (0, s.invalidate (fld x.r.payload 8 4) (fld x.r.payload 12 1 % 4) (fld x.r.payload 0 8))
  | 6 => (0, s.applyDigest x)
  | _ => (0, s)

/-- Apply the oldest record received, at its LSN. -/
def State.applyNext (s : State) : State :=
  match s.loop.rx with
  | [] => s
  | x :: rest =>
    let s := s.modLoop fun l => { l with rx := rest }
    let (m, s) := s.applyEffect x
    let s := s.modLoop fun l => { l with applied := x.lsn }
    let s := s.logAll 1 (fun _ => (x.own.map (·.ctx)).getD none32) x.r.bytes
    (s.postApplied x m).settleSlots

/-- The post queue has room for the post an application may make. -/
def State.canApply (s : State) : Bool := decide (s.loop.postq.length < 1024) || s.loop.st != .run

/-- A record of a type at the head is applied. -/
def State.applyOf (s : State) (is : LRec → Bool) : State :=
  match s.loop.rx with
  | x :: _ => if is x.r && (x.r.ty != 4 || s.canApply) then s.applyNext else s
  | [] => s

def execRecordWriteApply (s : State) : Out State := .next (s.applyOf fun r => r.ty == 1)
def execRecordAtomicApply (s : State) : Out State := .next (s.applyOf fun r => r.ty == 2)
def execRecordMsgApply (s : State) : Out State := .next (s.applyOf fun r => r.ty == 3)
def execRecordLaunchApply (s : State) : Out State := .next (s.applyOf fun r => r.ty == 4 && !r.killOrder s.npkg)
def execRecordKillOrderApply (s : State) : Out State := .next (s.applyOf fun r => r.killOrder s.npkg)
def execRecordXlateApply (s : State) : Out State := .next (s.applyOf fun r => r.ty == 5)
def execRecordDigestApply (s : State) : Out State := .next (s.applyOf fun r => r.ty == 6)

/-! Loop faults. -/

/-- Apply every record received. -/
def State.applyAll (s : State) : Nat → State
  | 0 => s
  | n + 1 => s.applyNext.applyAll n

/-- A loop fault (R384, R385): records received before it are applied; the post queue and what is in flight are lost, and kills whose
order is lost are recorded at once. -/
def State.loopFault (s : State) (cause : Nat) : State :=
  if s.loop.st = .off ∨ s.loop.st = .down then s
  else
    let s := s.applyAll s.loop.rx.length
    let s := s.modLoop fun l => { l with st := .down, fault := cause, hold := false, left := 0, postq := [], flight := [] }
    let s := (s.send (.gate false)).event 0 3 none32 none32 cause s.loop.applied
    s.kills.foldl (fun s k => s.killRecords k 0) { s with kills := [] }

/-- LOSS_OF_SIGNAL at tap 0. -/
def execLossOfSignal (s : State) : Out State := .next (s.loopFault 1)

/-- MISSING_IDLE_TIMEOUT: four circulations without a valid IDLE; a clock is a slot. -/
def State.idleMissing (s : State) : Bool :=
  (s.loop.st == .run || s.loop.st == .forming) && decide (s.loop.idleAt + 4 * s.loop.circ < s.cycle)

def execMissingIdleTimeout (s : State) : Out State := .next (if s.idleMissing then s.loopFault 2 else s)

/-! Reception (R378, R380). -/

/-! Slots (R374 to R377). -/

/-- A slot without light, and one of unmodulated carrier, as receivers read them. -/
def darkSlot : List Byte := List.replicate 64 0x00
def emptySlot : List Byte := List.replicate 64 0xFF

/-- GRANT and IDLE records (R377). -/
def grantRec (src gen : Nat) : LRec := ⟨0x10, 0, 0, src, 2, leBytes 2 gen ++ leBytes 46 0⟩
def idleRec (src count circ : Nat) : LRec := ⟨0x11, 0, 0, src, 10, leBytes 8 count ++ leBytes 2 circ ++ leBytes 38 0⟩

/-- A slot leaves the package. -/
def State.sendSlot (s : State) (n : Nat) (b : List Byte) : State := s.send (.slot n b)

/-- A slot passes unchanged; at the master, an empty, dark or guard slot leaves as fresh carrier, and slot 0 as its own IDLE (R375). -/
def State.passSlot (s : State) (n : Nat) (b : List Byte) : State :=
  if !s.loop.master then s.sendSlot n b
  else if n = 0 then s
  else s.sendSlot n (if n = 1 ∨ b = emptySlot ∨ b = darkSlot then emptySlot else b)

/-- A slot arrives: slots count on, and a number that is not above the last begins a circulation. -/
def State.seeSlot (s : State) (n : Nat) : State :=
  s.modLoop fun l => { l with circs := if n ≤ l.slotSeen then l.circs + 1 else l.circs, slotSeen := n }

/-- A record type that is numbered (R377). -/
def numbered (ty : Nat) : Bool := decide (1 ≤ ty) && decide (ty ≤ 6)

/-- Bits of ARG in use, by type (R377). SEQ of an unnumbered record is zero. -/
def argOk (r : LRec) : Bool :=
  match r.ty with
  | 1 => decide (r.arg < 2 ^ 24)
  | 2 => decide (r.arg < 2 ^ 25)
  | 3 => decide (r.arg < 2 ^ 12) && bitsOf r.arg 7 5 == 0
  | _ => r.arg == 0 && (numbered r.ty || r.seq == 0)

/-- A slot of 64 bytes is valid (R378): its CRC matches, its type is one of R377, its reserved fields and the bytes beyond LEN are zero. -/
def validSlot (b : List Byte) : Bool :=
  let r := recOfBytes b
  b.length == 64 && r.bytes == b && (numbered r.ty || r.ty == 0x10 || r.ty == 0x11) && decide (r.len ≤ 48) && argOk r &&
    (r.payload.drop r.len).all (· == 0)

/-- A slot with a record that is neither GRANT nor IDLE, or with none that is valid: it is checked, given its LSN, and its own post is
taken off the ring, where the slot leaves dark (R375, R378, R380). While FORMING a numbered record makes the package late (R389). -/
def State.recordSlot (s : State) (n : Nat) (b : List Byte) : State :=
  let l := s.loop
  let r := recOfBytes b
  match l.st with
  | .forming => if !validSlot b then s.loopFault 3 else (s.modLoop fun l => { l with fault := 6, numbered := true }).passSlot n b
  | .run =>
    if !validSlot b then s.loopFault 3
    else if r.seq ≠ ((nget l.seqs r.src).getD 255 + 1) % 256 then s.loopFault 4
    else
      let mine := r.src == s.pkgid
      let x : RxRec := ⟨r, l.lsn + 1, if mine then l.flight.head? else none⟩
      let s := if mine then s.sendSlot n darkSlot else s.passSlot n b
      s.modLoop fun l => { l with
        lsn := l.lsn + 1, seqs := nset l.seqs r.src r.seq, rx := l.rx ++ [x], flight := if mine then l.flight.drop 1 else l.flight }
  | _ => s.passSlot n b

/-! The grant (R379, R383): a slot lasts 0.5 ns, a clock. -/

/-- The generation after one (R383). -/
def nextGen (g : Nat) : Nat := if (g + 1) % 65536 = 0 then 1 else (g + 1) % 65536

/-- The replica and every count start again (R389). -/
def State.enterRun (s : State) : State :=
  let s := s.setMem (s.mem.filter fun c => regionOf c.1 != .locket)
  s.modLoop fun l => { l with
    st := .run, lsn := 0, applied := 0, seqs := [], seq := 255, gen := 1, rx := [], flight := [], noGrant := 0, grantSeen := true,
    lastGrant := none }

/-- A valid GRANT in RUN: one of a stale generation is blanked; else it passes, or is taken and blanked (R379, R383, R384). `slot` is its
slot counted over circulations. -/
def State.grantInRun (s : State) (n : Nat) (b : List Byte) (gen slot : Nat) : State :=
  let l := s.loop
  let newer := !l.master && decide (gen ≠ 0) && decide (0 < (gen + 65536 - l.gen) % 65536) && decide ((gen + 65536 - l.gen) % 65536 < 32768)
  if gen ≠ l.gen ∧ !newer then s.sendSlot n darkSlot
  else if gen = l.gen ∧ slot < (l.lastGrant.map fun t => t + l.circ).getD 0 then s.loopFault 5
  else
    let s := s.modLoop fun l => { l with gen := gen, lastGrant := some slot }
    if l.postq.isEmpty ∨ l.hold then s.passSlot n b
    else (s.sendSlot n darkSlot).modLoop fun l => { l with
      hold := true, left := min 16 l.postq.length, heldGen := gen, counts := { l.counts with grants := l.counts.grants + 1 } }

/-- An invalid GRANT or IDLE is ignored and counted (R378). -/
def State.crcError (s : State) : State := s.modLoop fun l => { l with counts := { l.counts with crcerr := l.counts.crcerr + 1 } }

/-- A slot whose TYPE byte reads GRANT. -/
def State.grantSlot (s : State) (n : Nat) (b : List Byte) : State :=
  let s := s.modLoop fun l => { l with grantSeen := true }
  let l := s.loop
  let gen := fld (recOfBytes b).payload 0 2
  if l.st = .off then s.passSlot n b
  else if !validSlot b then s.crcError.passSlot n b
  else if l.st = .forming then
    if gen ≠ 1 then (s.modLoop fun l => { l with fault := 6 }).passSlot n b
    else if l.numbered then s.passSlot n b
    else (s.enterRun.modLoop fun m => { m with lastGrant := some (l.circs * l.circ + n) }).passSlot n b
  else s.grantInRun n b gen (l.circs * l.circ + n)

/-- An empty or dark slot. A holder of the grant writes its next record, or after the last its new GRANT, and the master a GRANT that it
owes, where the slot is empty at its modulators and is neither slot 0 nor slot 1 (R379, R383). The master refreshes dark slots too, and
writes into them (DESIGN CHOICE, notes/assumptions/30.md). -/
def State.holdSlot (s : State) (n : Nat) (b : List Byte) : State :=
  let l := s.loop
  if n ≤ 1 ∨ (b ≠ emptySlot ∧ !l.master) then s.passSlot n b
  else if l.hold then
    match l.left, l.postq with
    | k + 1, p :: rest =>
      let r := { p.r with seq := (l.seq + 1) % 256 }
      (s.sendSlot n r.bytes).modLoop fun l => { l with seq := r.seq, left := k, postq := rest, flight := l.flight ++ [{ p with r := r }] }
    | _, _ => (s.sendSlot n (grantRec s.pkgid l.heldGen).bytes).modLoop fun l => { l with hold := false, left := 0 }
  else match l.grantDue with
    | some g => (s.sendSlot n (grantRec s.pkgid g).bytes).modLoop fun l => { l with grantDue := none }
    | none => s.passSlot n b

/-- GRANT_REGENERATION at the master: a GRANT of the next generation goes into the next empty slot. -/
def State.regenerate (s : State) : State :=
  let l := s.loop
  if !l.master || l.st != .run || decide (l.noGrant < 4) then s
  else
    let g := nextGen l.gen
    s.modLoop fun l => { l with
      gen := g, noGrant := 0, lastGrant := none, grantDue := some g, counts := { l.counts with regen := l.counts.regen + 1 } }

def execGrantRegeneration (s : State) : Out State := .next s.regenerate

/-! IDLE and formation (R374, R389). -/

/-- A circulation in slots is one that a loop can have (R374). -/
def circOk (c : Nat) : Bool := decide (64 ≤ c) && decide (c ≤ 500)

/-- While it is part of a loop that is not DOWN, the master writes an IDLE record into slot 0 of each circulation, which it holds at 64 to
500 slots of a clock each, and counts the circulations in which no GRANT has reached it (R374, R383, R389). -/
def State.masterIdle (s : State) : State :=
  let l := s.loop
  if !(l.join && l.master) || l.st == .down || (l.idleOut.map fun t => decide (s.cycle < t + l.circ)).getD false then s
  else
    let c := if circOk l.circ then l.circ else 64 + Config.freeChoice s.tick 0x10200000 437
    (s.sendSlot 0 (idleRec s.pkgid l.frames c).bytes).modLoop fun l => { l with
      frames := l.frames + 1, circ := c, idleOut := some s.cycle, grantSeen := false
      noGrant := if l.st = .run then (if l.grantSeen then 0 else l.noGrant + 1) else l.noGrant }

/-- A slot whose TYPE byte reads IDLE: in slot 0 a valid one gives the circulation, and aligns a package that joins (R389). -/
def State.idleRecSlot (s : State) (n : Nat) (b : List Byte) : State :=
  if !validSlot b then s.crcError.passSlot n b
  else if n ≠ 0 then s.passSlot n b
  else
    let c := fld (recOfBytes b).payload 8 2
    let s := s.modLoop fun l => { l with circ := if circOk c then c else l.circ, idleAt := s.cycle }
    let s := if s.loop.st = .off then s.modLoop fun l => { l with st := .forming, fault := 0, numbered := false } else s
    s.passSlot n b

/-- A slot arrives at the input tap of a package that takes part in a loop that is not DOWN (R374 to R380). -/
def State.slotIn (s : State) (n : Nat) (b : List Byte) : State :=
  if !s.loop.join || s.loop.st == .down || b.length != 64 then s
  else
    let s := s.seeSlot n
    if n = 1 then s.passSlot n b
    else if b = emptySlot ∨ b = darkSlot then s.holdSlot n b
    else match fld b 0 1 with
      | 0x10 => s.grantSlot n b
      | 0x11 => s.idleRecSlot n b
      | _ => s.recordSlot n b

/-- A slot event: args its number and its 64 bytes, of a TYPE byte. -/
def State.slotEvent (s : State) (is : Nat → Bool) : State :=
  let b := (s.args.drop 1).map fun x => BitVec.ofNat 8 x
  if is (fld b 0 1) then s.slotIn (s.arg 0) b else s

/-- LOOP_GRANT_ARRIVAL, LOOP_IDLE_ARRIVAL and, of every other slot, NUMBERED_RECORD_RECEIVE. -/
def execLoopGrantArrival (s : State) : Out State := .next (s.slotEvent fun t => t == 0x10)
def execLoopIdleArrival (s : State) : Out State := .next (s.slotEvent fun t => t == 0x11)
def execNumberedRecordReceive (s : State) : Out State := .next (s.slotEvent fun t => t != 0x10 && t != 0x11)

/-- LOOPCTL_JOIN_WRITE: arg the bit. Clearing it closes the SOA gate and leaves the loop. A master that joins emits IDLE records from
then on (`State.masterIdle`). -/
def State.writeJoin (s : State) (b : Bool) : State :=
  if b = s.loop.join then s
  else if b then (s.send (.gate true)).modLoop fun l => { l with join := true, idleAt := s.cycle, idleOut := none, grantDue := none }
  else (s.send (.gate false)).modLoop fun l => { l with join := false, st := .off, hold := false, left := 0, idleOut := none, grantDue := none }

def execLoopctlJoinWrite (s : State) : Out State := .next (s.ifRun fun s => s.writeJoin (s.arg 0 == 1))

/-- LOOPCTL_MASTER_WRITE: arg the bit. -/
def State.writeMaster (s : State) (b : Bool) : State := s.modLoop fun l => { l with master := b }

def execLoopctlMasterWrite (s : State) : Out State := .next (s.ifRun fun s => s.writeMaster (s.arg 0 == 1))

/-- LOOPCTL_START_WRITE: the first GRANT, of GEN 1, goes into the next empty slot. -/
def State.writeStart (s : State) : State :=
  if s.loop.master && s.loop.st == .forming then s.modLoop fun l => { l with grantDue := some 1 } else s

def execLoopctlStartWrite (s : State) : Out State := .next (s.ifRun fun s => s.writeStart)

/-! Optics (R373, R392, R393) and counts. -/

/-- A heater write that leaves traffic undisturbed: a small step or a wrap (R373). -/
def calmStep (old new : Nat) : Bool :=
  let d : Int := (new : Int) - old
  decide (d.natAbs ≤ 64) || decide ((d - 3072).natAbs ≤ 64) || decide ((d + 3072).natAbs ≤ 64)

def State.mzm (s : State) (i : Nat) : Mzm := (nget s.loop.optics.mzms i).getD {}
def State.setMzm (s : State) (i : Nat) (m : Mzm) : State :=
  s.modLoop fun l => { l with optics := { l.optics with mzms := nset l.optics.mzms i m } }

/-- MZM_HEATER_WRITE: args modulator, code. Heaters settle in 20 microseconds. -/
def State.writeHeater (s : State) (i code : Nat) : State :=
  let m := s.mzm i
  s.setMzm i { m with heater := code % 4096, disturbed := if calmStep m.heater (code % 4096) then m.disturbed else s.cycle + 20 * cyclesPerUs }

def execMzmHeaterWrite (s : State) : Out State := .next (s.ifRun fun s => s.writeHeater (s.arg 0) (s.arg 1))

/-- QALARM_CLEAR: arg modulator. -/
def execQalarmClear (s : State) : Out State := .next (s.ifRun fun s => s.setMzm (s.arg 0) { s.mzm (s.arg 0) with qalarm := false })

def State.tap (s : State) (k : Nat) : Tap := (nget s.loop.optics.taps k).getD {}
def State.setTap (s : State) (k : Nat) (t : Tap) : State :=
  s.modLoop fun l => { l with optics := { l.optics with taps := nset l.optics.taps k t } }

/-- TAP_MINMAX_READ: arg tap. -/
def execTapMinmaxRead (s : State) : Out State := .next (s.ifShown fun s => s.setTap (s.arg 0) { s.tap (s.arg 0) with max := -32768, min := 32767 })

/-- A 16-bit reading. -/
def int16 (x : Nat) : Int := (BitVec.ofNat 16 x).toInt

/-- The bias error of a modulator (R373). -/
def State.biasError (s : State) (i : Nat) : Int := (s.tap (20 + i)).guard - (s.tap (4 + i)).guard + 301

/-- TAP_POWER_SAMPLE: args POWER and GUARD of every tap as 16-bit words; QALARM is tested (R392, R393). -/
def State.sampleTaps (s : State) (xs : List Nat) : State :=
  let s := (List.range 38).foldl (fun s k =>
    let t := s.tap k
    let p := int16 (xs.getD (2 * k) 0x8000)
    s.setTap k { power := p, guard := int16 (xs.getD (2 * k + 1) 0x8000), max := max t.max p, min := min t.min p }) s
  if s.loop.st ≠ .run then s
  else (List.range 16).foldl (fun s i => if 100 < (s.biasError i).natAbs then s.setMzm i { s.mzm i with qalarm := true } else s) s

def execTapPowerSample (s : State) : Out State := .next (s.sampleTaps s.args)

def execGrantsRead (s : State) : Out State := .next (s.ifShown fun s => s.modLoop fun l => { l with counts := { l.counts with grants := 0 } })
def execRegenRead (s : State) : Out State := .next (s.ifShown fun s => s.modLoop fun l => { l with counts := { l.counts with regen := 0 } })
def execCrcerrRead (s : State) : Out State := .next (s.ifShown fun s => s.modLoop fun l => { l with counts := { l.counts with crcerr := 0 } })

/-- IBDROP_READ: arg inbox. -/
def execIbdropRead (s : State) : Out State :=
  .next (s.ifShown fun s => s.modLoop fun l => { l with inboxes := nmod l.inboxes (s.arg 0) fun b => { b with drop := 0 } })

end Sys2Proof.Machine
end

