-- ==== Sys2Proof/Machine/Sha.lean ====
section
/-! DEFINITION. SHA-512 and the RSA signature check that the firmware image is verified with (17_firmware_power_conformance.md R428,
R429, after FIPS 180 and RFC 8017). -/

namespace Sys2Proof.Machine

/-- Constants of the rounds. -/
def shaK1 : List Word64 := (
  [0x428A2F98D728AE22, 0x7137449123EF65CD, 0xB5C0FBCFEC4D3B2F, 0xE9B5DBA58189DBBC] ++
  [0x3956C25BF348B538, 0x59F111F1B605D019, 0x923F82A4AF194F9B, 0xAB1C5ED5DA6D8118] ++
  [0xD807AA98A3030242, 0x12835B0145706FBE, 0x243185BE4EE4B28C, 0x550C7DC3D5FFB4E2] ++
  [0x72BE5D74F27B896F, 0x80DEB1FE3B1696B1, 0x9BDC06A725C71235, 0xC19BF174CF692694] ++
  [0xE49B69C19EF14AD2, 0xEFBE4786384F25E3, 0x0FC19DC68B8CD5B5, 0x240CA1CC77AC9C65] ++
  [0x2DE92C6F592B0275, 0x4A7484AA6EA6E483, 0x5CB0A9DCBD41FBD4, 0x76F988DA831153B5] ++
  [0x983E5152EE66DFAB, 0xA831C66D2DB43210, 0xB00327C898FB213F, 0xBF597FC7BEEF0EE4] ++
  [0xC6E00BF33DA88FC2, 0xD5A79147930AA725, 0x06CA6351E003826F, 0x142929670A0E6E70] ++
  [0x27B70A8546D22FFC, 0x2E1B21385C26C926, 0x4D2C6DFC5AC42AED, 0x53380D139D95B3DF] ++
  [0x650A73548BAF63DE, 0x766A0ABB3C77B2A8, 0x81C2C92E47EDAEE6, 0x92722C851482353B])
def shaK2 : List Word64 := (
  [0xA2BFE8A14CF10364, 0xA81A664BBC423001, 0xC24B8B70D0F89791, 0xC76C51A30654BE30] ++
  [0xD192E819D6EF5218, 0xD69906245565A910, 0xF40E35855771202A, 0x106AA07032BBD1B8] ++
  [0x19A4C116B8D2D0C8, 0x1E376C085141AB53, 0x2748774CDF8EEB99, 0x34B0BCB5E19B48A8] ++
  [0x391C0CB3C5C95A63, 0x4ED8AA4AE3418ACB, 0x5B9CCA4F7763E373, 0x682E6FF3D6B2B8A3] ++
  [0x748F82EE5DEFB2FC, 0x78A5636F43172F60, 0x84C87814A1F0AB72, 0x8CC702081A6439EC] ++
  [0x90BEFFFA23631E28, 0xA4506CEBDE82BDE9, 0xBEF9A3F7B2C67915, 0xC67178F2E372532B] ++
  [0xCA273ECEEA26619C, 0xD186B8C721C0C207, 0xEADA7DD6CDE0EB1E, 0xF57D4F7FEE6ED178] ++
  [0x06F067AA72176FBA, 0x0A637DC5A2C898A6, 0x113F9804BEF90DAE, 0x1B710B35131C471B] ++
  [0x28DB77F523047D84, 0x32CAAB7B40C72493, 0x3C9EBE0A15C9BEBC, 0x431D67C49C100D4C] ++
  [0x4CC5D4BECB3E42B6, 0x597F299CFC657E2A, 0x5FCB6FAB3AD6FAEC, 0x6C44198C4A475817])

/-- Initial hash value. -/
def shaH : List Word64 := [0x6A09E667F3BCC908, 0xBB67AE8584CAA73B, 0x3C6EF372FE94F82B, 0xA54FF53A5F1D36F1] ++
  [0x510E527FADE682D1, 0x9B05688C2B3E6C1F, 0x1F83D9ABFB41BD6B, 0x5BE0CD19137E2179]

def rotr64 (x : Word64) (n : Nat) : Word64 := x.rotateRight n

/-- The message schedule: the next word, and the words in reverse. -/
def shaSched : Nat → List Word64 → List Word64
  | 0, ws => ws
  | n + 1, ws =>
    let g (i : Nat) : Word64 := ws.getD i 0
    let s0 := rotr64 (g 14) 1 ^^^ rotr64 (g 14) 8 ^^^ (g 14 >>> 7)
    let s1 := rotr64 (g 1) 19 ^^^ rotr64 (g 1) 61 ^^^ (g 1 >>> 6)
    shaSched n ((s1 + g 6 + s0 + g 15) :: ws)

/-- One round on the eight working words. -/
def shaRound (v : List Word64) (kw : Word64) : List Word64 :=
  match v with
  | [a, b, c, d, e, f, g, h] =>
    let t1 := h + (rotr64 e 14 ^^^ rotr64 e 18 ^^^ rotr64 e 41) + ((e &&& f) ^^^ (~~~e &&& g)) + kw
    let t2 := (rotr64 a 28 ^^^ rotr64 a 34 ^^^ rotr64 a 39) + ((a &&& b) ^^^ (a &&& c) ^^^ (b &&& c))
    [t1 + t2, a, b, c, d + t1, e, f, g]
  | v => v

/-- A number from big-endian bytes, and back. -/
def beNat (bs : List Byte) : Nat := bs.foldl (fun n b => 256 * n + b.toNat) 0
def beBytes : Nat → Nat → List Byte
  | 0, _ => []
  | n + 1, x => beBytes n (x / 256) ++ [BitVec.ofNat 8 x]

/-- A block of 128 bytes. -/
def shaBlock (h : List Word64) (b : List Byte) : List Word64 :=
  let ws := (List.range 16).map fun i => (BitVec.ofNat 64 (beNat ((b.drop (8 * i)).take 8)) : Word64)
  let all := (shaSched 64 ws.reverse).reverse
  let v := (all.zip (shaK1 ++ shaK2)).foldl (fun v wk => shaRound v (wk.1 + wk.2)) h
  (h.zip v).map fun x => x.1 + x.2

def shaBlocks (b : List Byte) : Nat → List Word64 → List Word64
  | 0, h => h
  | n + 1, h => shaBlocks (b.drop 128) n (shaBlock h (b.take 128))

/-- SHA-512 of bytes. -/
def sha512 (b : List Byte) : List Byte :=
  let pad := (128 - (b.length + 17) % 128) % 128
  let m := b ++ [(0x80 : Byte)] ++ List.replicate pad 0 ++ beBytes 16 (8 * b.length)
  (shaBlocks m (m.length / 128) shaH).flatMap fun w => beBytes 8 w.toNat

/-- b to the e modulo n, for exponents below 2^bits. -/
def powMod (b e n : Nat) : Nat → Nat
  | 0 => 1 % n
  | f + 1 => let h := powMod (b * b % n) (e / 2) n f; if e % 2 = 1 then b * h % n else h

/-- RSASSA-PKCS1-v1_5 with SHA-512 for a modulus of 512 bytes (RFC 8017). -/
def rsaVerify (modulus exponent : Nat) (sig msg : List Byte) : Bool :=
  let info : List Byte := [0x30, 0x51, 0x30, 0x0d, 0x06, 0x09, 0x60, 0x86, 0x48, 0x01, 0x65, 0x03, 0x04, 0x02, 0x03, 0x05, 0x00, 0x04, 0x40]
  let em := [(0x00 : Byte), 0x01] ++ List.replicate 426 0xFF ++ [(0x00 : Byte)] ++ info ++ sha512 msg
  decide (beNat sig < modulus) && beBytes 512 (powMod (beNat sig) exponent modulus 32) == em

end Sys2Proof.Machine
end

