-- ==== Sys2Proof/Machine/Power.lean ====
section
/-! DEFINITION. Firmware image, bring-up and package states, supplies, heat, matrix registers (17_firmware_power_conformance.md R427
to R437; 11_scheduling_launch.md R314; 12_matrix_engine.md R329, R330). -/

namespace Sys2Proof.Machine

/-! The image (R428, R429). -/

/-- A range of the flash. -/
def flashAt (b : List Byte) (o n : Nat) : List Byte := (b.drop o).take n

/-- The patch entries: address, the zero field and the word. -/
def patchTable (b : List Byte) : List (Nat × Nat × Nat) :=
  (List.range 256).map fun i =>
    let e := flashAt b (0x440 + 16 * i) 16
    (fld e 0 2, fld e 2 2, fld e 4 12)

/-- Those in use. -/
def patchEntries (b : List Byte) : List (Nat × Nat × Nat) := (patchTable b).filter fun e => e.1 != 0xFFFF

/-- The first check that fails, by its code. -/
def imageCheck (b : List Byte) : Option Nat :=
  let es := patchEntries b
  let len := fld b 0x10 8
  let zero (o n : Nat) : Bool := flashAt b o n == leBytes n 0
  let distinct := es.zipIdx.all fun (e, i) => (es.drop (i + 1)).all fun f => f.1 != e.1
  if fld b 0 4 ≠ 0x57464C50 ∨ !zero 0x0A 6 ∨ !zero 0x18 8 ∨ !zero 0x224 28 ∨ len < 4096 ∨ 16 * 2 ^ 20 - 0x440 < len ∨
      !distinct ∨ es.any (fun e => decide (0x0FFF < e.1)) ∨ (patchTable b).any (fun e => e.2.1 != 0) then some 0x01
  else if fld b 8 2 < Config.fuseSvn then some 0x02
  else if sha512 (flashAt b 0x20 516) ≠ Config.fusePubKeyHash then some 0x03
  else if !rsaVerify (beNat (flashAt b 0x20 512)) (fld b 0x220 4) (flashAt b 0x240 512) (flashAt b 0 0x240 ++ flashAt b 0x440 len) then some 0x04
  else none

/-- The word that the sequencer fetches at an address of its control store of 4,096 words: the patch RAM's where an entry is valid (R427). -/
def State.controlWord (s : State) (a : Nat) : BitVec 96 :=
  match nget s.fw.patch (a % 4096) with
  | some w => BitVec.ofNat 96 w
  | none => Config.romWord (a % 4096)

/-! Bring-up (R430, R431). -/

/-- A step fails. -/
def State.bootFail (s : State) (code : Nat) : State := s.modFw fun f => { f with st := .fail, code := code }

/-- Memory of some regions is written to zero. -/
def State.zeroRegions (s : State) (rs : List Region) : State := s.setMem (s.mem.filter fun c => !rs.contains (regionOf c.1))

/-- Step 5: gains and heaters at quadrature, where the die needs them, and the loop joined. -/
def State.joinLoop (s : State) : State :=
  let code (i : Nat) : Nat := Config.freeChoice s.tick (0x13000000 + i) 4096
  let s := s.modLoop fun l => { l with optics := { l.optics with
    gain := code 16, mzms := (List.range 16).map fun i => (i, { heater := code i }) } }
  let s := s.writeJoin true
  let s := if s.pkgid = 0 then s.writeMaster true else s
  s.modFw fun f => { f with step := 5, bootAt := s.cycle }

/-- The next step of bring-up, where the one at hand is done. -/
def State.bootTick (s : State) : State :=
  let f := s.fw
  let onto (n : Nat) (s : State) : State := s.modFw fun f => { f with step := n }
  if f.st ≠ .boot then s
  else match f.step with
    | 1 => onto 2 s
    | 2 =>
      let s := s.modFw fun f => { f with ver := BitVec.ofNat 32 (fld f.flash 4 4), svn := fld f.flash 8 2 }
      match imageCheck f.flash with
      | some c => s.bootFail c
      | none => onto 3 (s.modFw fun f => { f with
          patch := (patchEntries f.flash).foldl (fun m e => nset m e.1 e.2.2) []
          image := flashAt f.flash 0x1440 (fld f.flash 0x10 8 - 4096) })
    | 3 => if f.failAt = 3 then s.bootFail 0x10 else onto 4 (s.zeroRegions [.tier1, .locket])
    | 4 => if f.failAt = 4 then s.bootFail 0x20 else (s.zeroRegions [.tier2]).joinLoop
    | 5 => if s.loop.st = .run then onto 6 s else s
    | 6 => onto 7 ((List.range 8).foldl (fun s n => s.writePortEn n true) s)
    | 7 => (s.modSched fun d => { d with admitOn := true }).modFw fun f => { f with st := .run }
    | _ => s

/-- SUPPLIES_GOOD: args the step whose training fails or 0, then the flash image where the board has written a new one. -/
def State.suppliesGood (s : State) : State :=
  if s.fw.st ≠ .reset then s
  else
    let img := (s.args.drop 1).map fun x => (BitVec.ofNat 8 x : Byte)
    s.modFw fun f => { f with st := .boot, step := 1, failAt := s.arg 0, flash := if img.isEmpty then f.flash else img }

def execSuppliesGood (s : State) : Out State := .next s.suppliesGood

/-- LOOP_FORMATION_TIMEOUT: 10 s after boot step 5 began. -/
def State.formationLate (s : State) : Bool :=
  s.fw.st == .boot && s.fw.step == 5 && s.loop.st != .run && decide (s.fw.bootAt + 10000000 * cyclesPerUs ≤ s.cycle)

def execLoopFormationTimeout (s : State) : Out State := .next (if s.formationLate then s.bootFail 0x30 else s)

/-- The package starts again: only what lies outside it stays, host memory, the flash and its place in the pod; and what it has sent. -/
def State.startAgain (s : State) (mem : Memory) : State :=
  { State.reset with
    mem := mem, tick := s.tick, inputs := s.inputs, args := s.args, pkgid := s.pkgid, npkg := s.npkg, sent := s.sent
    fw := { flash := s.fw.flash } }

/-- PACKAGE_RESET. The host link trains on. -/
def State.packageReset (s : State) : State :=
  if s.fw.st = .shut then s
  else
    let t := s.startAgain s.mem
    let t := { t with host := { up := s.host.up, width := s.host.width, speed := s.host.speed } }
    if s.loop.join then t.send (.gate false) else t

def execPackageReset (s : State) : Out State := .next s.packageReset

/-- Host memory alone. -/
def hostOnly (m : Memory) : Memory := m.filter fun c => regionOf c.1 == .host

/-- POWER_CYCLE. -/
def execPowerCycle (s : State) : Out State := .next (s.startAgain (hostOnly s.mem))

/-- PACKAGE_OVERTEMP_SHUT: args measurements; a core at 125 degrees. -/
def State.shut (s : State) : State :=
  let s := s.readings s.args
  if !(s.cores.any fun c => decide (125 ≤ c.2.regs.temp)) || s.fw.st == .shut then s
  else
    let t := s.startAgain (hostOnly s.mem)
    let t := if s.loop.join then t.send (.gate false) else t
    t.modFw fun f => { f with st := .shut }

def execPackageOvertempShut (s : State) : Out State := .next s.shut

/-! Heat (R314, R435) and idle cores (R434). Args: the core, then measurements. -/

def State.modRegs (s : State) (c : Nat) (f : CoreRegs → CoreRegs) : State := s.modCore c fun k => { k with regs := f k.regs }

/-- A core's temperature meets a condition: its registers change. -/
def State.heat (s : State) (ok : CoreRegs → Bool) (f : CoreRegs → CoreRegs) : State :=
  let c := s.arg 0 % 256
  let s := s.readings (s.args.drop 1)
  if ok (s.core c).regs then s.modRegs c f else s

/-- CORE_HOT: the temperature is at HOTLIM. -/
def execCoreHot (s : State) : Out State := .next (s.heat (fun r => decide (s.sched.hotlim ≤ r.temp)) fun r => { r with hot := true })
def execCoreCool (s : State) : Out State := .next (s.heat (fun r => decide (r.temp + 5 < s.sched.hotlim)) fun r => { r with hot := false })
def execCoreThrottle (s : State) : Out State := .next (s.heat (fun r => decide (110 ≤ r.temp)) fun r => { r with throttled := true })
def execCoreUnthrottle (s : State) : Out State := .next (s.heat (fun r => decide (r.temp < 100)) fun r => { r with throttled := false })

/-- A core may gate its clocks: no resident team for 10 microseconds. -/
def State.idleCore (s : State) (c : Nat) : Bool :=
  !(s.core c).regs.gated && s.teams.all (fun t => t.2.core != c || s.hasEnded t.1) && decide ((s.core c).regs.idleSince + 10 * cyclesPerUs ≤ s.cycle)

def execCoreIdleTimeout (s : State) : Out State :=
  .next (if s.idleCore (s.arg 0 % 256) then s.modRegs (s.arg 0 % 256) fun r => { r with gated := true } else s)

/-! Matrix registers. Args: the core, then the value. -/

def execMxcapWrite (s : State) : Out State := .next (s.ifRun fun s => s.modRegs (s.arg 0 % 256) fun r => { r with mxcap := s.arg 1 % 65536 })
def execRlstallRead (s : State) : Out State := .next (s.ifShown fun s => s.modRegs (s.arg 0 % 256) fun r => { r with rlstall := 0 })
def execAqpmaxRead (s : State) : Out State := .next (s.ifShown fun s => s.modRegs (s.arg 0 % 256) fun r => { r with aqpmax := 0 })

/-! Supplies (R433). Args: the die, then the value. -/

def State.die (s : State) (d : Nat) : Die := if d = 0 then s.fw.north else s.fw.south
def State.modDie (s : State) (d : Nat) (f : Die → Die) : State :=
  s.modFw fun w => if d = 0 then { w with north := f w.north } else { w with south := f w.south }

/-- DIEV_WRITE: a later value replaces one that waits; 11 to 255 are ignored. -/
def State.writeDiev (s : State) (d mv : Nat) : State :=
  if 10 < mv then s else s.modDie d fun x => { x with mv := mv, want := some mv }

def execDievWrite (s : State) : Out State := .next (s.ifRun fun s => s.writeDiev (s.arg 0) (s.arg 1 % 256))

/-- No array of the die holds an operation in ARRAY, one of whose wavefronts it has admitted, and no change settles. A restored operation waits
for the supply as a new one does (R342). -/
def State.dieFree (s : State) (d : Nat) : Bool :=
  !(s.die d).settling && s.cores.all fun (c, k) =>
    decide (c / 128 ≠ d) || k.arr.op.isNone || !k.arr.begun

/-- DIEV_SUPPLY_CHANGE. -/
def State.supplyChange (s : State) (d : Nat) : State :=
  match (s.die d).want with
  | some v => if s.dieFree d then s.modDie d fun x => { x with want := none, settling := true, supply := v, since := s.cycle } else s
  | none => s

def execDievSupplyChange (s : State) : Out State := .next (s.supplyChange (s.arg 0))

/-- DIEV_SUPPLY_SETTLED. -/
def execDievSupplySettled (s : State) : Out State := .next (s.modDie (s.arg 0) fun x => { x with settling := false })

def execSerrcntRead (s : State) : Out State := .next (s.ifShown fun s => s.modFw fun f => { f with serrcnt := 0 })
def execSerruncRead (s : State) : Out State := .next (s.ifShown fun s => s.modFw fun f => { f with serrunc := 0 })

end Sys2Proof.Machine
end

