-- ==== Sys2Proof/Machine/Ctl.lean ====
section
/-! DEFINITION. Branches, jumps, loops, reconvergence, reform and spawn, traps on request, yield and sleep
(06_isa_control_lanes.md R166 to R176, R180 to R183). -/

namespace Sys2Proof.Machine

/-- Nothing but the way past the word (R141, R101). -/
def plain (f : Nat → RunPath → State → State) : State → Out State := onPath f

def execNop : State → Out State := plain fun sid p s => s.advance sid p

/-- `mattr` holds its fields for the next word of the clause (R101). -/
def execMattr (scope : BitVec 3) (order : BitVec 2) (use : BitVec 3) (hint : BitVec 2) : State → Out State :=
  onPath fun sid p s =>
    s.addRun ⟨sid, { p with pos := p.pos + 1, pfx := some ⟨scope.toNat, order.toNat, use.toNat, hint.toNat⟩, hi := none, resume := none, got := none, undo := [] }⟩

/-! Transfers. -/

/-- Check each lane's target in turn: lanes that may go, and traps of the others (R108, R442). -/
def State.checkTargets (s : State) (sid : Nat) (tmap : Bool) :
    List (Nat × Word64) → List (Nat × Word64) × List (Nat × Nat × Nat × Word64) × State
  | [] => ([], [], s)
  | (l, t) :: rest =>
    match s.target sid t tmap with
    | (.ok, s) => let (a, b, s) := s.checkTargets sid tmap rest; ((l, t) :: a, b, s)
    | (.bad, s) => let (a, b, s) := s.checkTargets sid tmap rest; (a, (l, 0x03, 0, t) :: b, s)
    | (.fault e, s) => let (a, b, s) := s.checkTargets sid tmap rest; (a, (l, e.1, e.2, t) :: b, s)

/-- A transfer that stands last; at its switch marker the lanes wait for the strand's loads before they leave (R89): lanes taken each to its target, with a link (R166, R169), the others to the clause's end. -/
def State.transfer (s : State) (sid : Nat) (p : RunPath) (tmap : Bool) (link : Option Sel) (want : List (Nat × Word64)) : State :=
  let (go, bad, s) := s.checkTargets sid tmap want
  let s := match link with
    | some d => s.writeDst sid (d, 2) (go.map fun (x : Nat × Word64) => (x.1, p.nxt))
    | none => s
  let s := (s.unpopHeld sid p.undo (bad.map (·.1))).trapAt sid p bad
  let p := { p with lanes := lessNat p.lanes (bad.map (·.1)) }
  if !nhas s.strands sid then s
  else if p.marked && (s.str sid).switchHeld && !p.lanes.isEmpty then s.await sid p (.leave go)
  else s.clauseExit sid p go (lessNat p.lanes (want.map (·.1)))

/-- The target of a BR word (R166). -/
def RunPath.brTarget (p : RunPath) (off : BitVec 17) : Word64 := p.hdrAddr + 4 * off.signExtend 64

/-- A conditional branch: `take` says for each lane, from every lane's value, whether it goes. -/
def branch (take : NMap (List Word64) → Nat → Bool) (a : Sel) (off : BitVec 17) : State → Out State :=
  onPath fun sid p s => s.operands sid p [(a, 1)] [] fun p s vals =>
    s.transfer sid p true none ((p.lanes.filter (take vals)).map fun l => (l, p.brTarget off))

/-- The value of a lane's first source. -/
def laneVal (vals : NMap (List Word64)) (l : Nat) : Word := arg32 ((nget vals l).getD []) 0

def execBra (off : BitVec 17) : State → Out State :=
  onPath fun sid p s => s.transfer sid p true none (p.lanes.map fun l => (l, p.brTarget off))
def execBz (a : Sel) (off : BitVec 17) : State → Out State := branch (fun v l => laneVal v l == 0) a off
def execBnz (a : Sel) (off : BitVec 17) : State → Out State := branch (fun v l => laneVal v l != 0) a off
def execBlz (a : Sel) (off : BitVec 17) : State → Out State := branch (fun v l => (laneVal v l).msb) a off
def execBgez (a : Sel) (off : BitVec 17) : State → Out State := branch (fun v l => !(laneVal v l).msb) a off
def execBany (a : Sel) (off : BitVec 17) : State → Out State := branch (fun v _ => v.any fun x => arg32 x.2 0 != 0) a off
def execBall (a : Sel) (off : BitVec 17) : State → Out State := branch (fun v _ => v.all fun x => arg32 x.2 0 != 0) a off
def execCall (a : Sel) (off : BitVec 17) : State → Out State :=
  onPath fun sid p s => s.operands sid p [] [(a, 2)] fun p s _ =>
    s.transfer sid p true (some a) (p.lanes.map fun l => (l, p.brTarget off))

/-- A jump to each lane's own address (R169). -/
def jump (tmap : Bool) (link : Option Sel) (a : Sel) : State → Out State :=
  onPath fun sid p s => s.operands sid p [(a, 2)] (link.toList.map fun d => (d, 2)) fun p s vals =>
    s.transfer sid p tmap link (p.lanes.map fun l => (l, arg ((nget vals l).getD []) 0))

def execJr (a : Sel) : State → Out State := jump true none a
def execCallr (d a : Sel) : State → Out State := jump true (some d) a
def execRet (a : Sel) : State → Out State := jump false none a

/-- `exit` (R170). -/
def execExit : State → Out State :=
  onPath fun sid p s =>
    (s.modStr sid fun st => st.modThs p.lanes fun _ t => { t with st := .exited, loops := [] }).settleStrand sid

/-! Hardware loops (R171). -/

/-- The clause header at an address: its sequential successor, none where SMAP marks none there (R81). -/
def State.clauseSucc (s : State) (sid : Nat) (a : Word64) : Except FetchErr (Option Word64) × State :=
  let va := a.toNat / 128 * 128
  let w := a.toNat % 128 / 4
  if 2 ^ 56 ≤ a.toNat then (.ok none, s)
  else match s.fetchLine sid va with
    | (.error e, s) => (.error e, s)
    | (.ok line, s) =>
      match quadOf w with
      | none => (.ok none, s)
      | some q => (.ok (if bitOf (lineSmap line) q then
          some (BitVec.ofNat 64 (seqSucc va line w (hdrCount (wordAt line w)))) else none), s)

/-- `loop`: lanes with a count of zero skip the body, the others push an entry; a third entry traps. -/
def execLoop (a : Sel) (off : BitVec 14) : State → Out State :=
  onPath fun sid p s =>
    let e := p.hdrAddr + 4 * off.setWidth 64
    match s.clauseSucc sid e with
    | (.error x, s) => s.trapPath sid p x.1 x.2 e
    | (.ok none, s) => s.trapPath sid p 0x03 0 e
    | (.ok (some after), s) =>
      s.operands sid p [(a, 1)] [] fun p s vals =>
        let st := s.str sid
        let deep := p.lanes.filter fun l => laneVal vals l != 0 && decide (2 ≤ (st.th l).loops.length)
        let skip := p.lanes.filter fun l => laneVal vals l == 0
        let s := s.modStr sid fun st => st.modThs (lessNat (lessNat p.lanes deep) skip) fun l t =>
          { t with loops := ⟨laneVal vals l, p.nxt, e⟩ :: t.loops }
        s.splitOff sid { p with skips := skip.map fun l => (l, after) } (deep.map fun l => (l, 0x32, 0, 0))

/-! Reconvergence (R173). -/

/-- `rbar` waits until the strand's threads are released. -/
def execRbar : State → Out State :=
  onPath fun sid p s =>
    match p.resume with
    | some .released => s.advance sid p
    | _ => s.await sid p .rbar

/-! Reform and spawn (R175, R176). -/

/-- Threads still to be filed hold the path, in lane order (R14). -/
def State.fileOn (s : State) (sid : Nat) (p : RunPath) (todo : List Filing) (leave : Bool) (since : Nat) : State :=
  let s := if leave then s.modStr sid fun st => { st with reformed := true } else s
  let (rest, s) := s.fileSome sid leave since todo
  let p := if leave then { p with lanes := rest.map (·.lane) } else p
  if !rest.isEmpty then s.await sid p (.file rest leave since)
  else if leave then s.settleStrand sid
  else s.advance sid p

/-- `spawn`. -/
def execSpawn (c : BitVec 3) (a b : Sel) : State → Out State :=
  onPath fun sid p s =>
    match p.resume with
    | some (.file todo leave since) => s.fileOn sid p todo leave since
    | _ => s.operands sid p [(a, 2), (b, c.toNat)] [] fun p s vals =>
      let (go, bad, s) := s.checkTargets sid true (p.lanes.map fun l => (l, arg ((nget vals l).getD []) 0))
      let todo := go.map fun (l, e) =>
        let o := s.srcRun sid l b c.toNat 8
        let t : Thread :=
          { st := .ready, pc := e, wb := 0, o := (o ++ List.replicate 8 0).take 8, lr := 0, loops := [], arrival := none,
            resumeWait := false, anchorOrd := 0xFFFFFFFF, anchorPc := e, starve := 0, safeOrd := 0xFFFFFFFF, chk := none, pass := none }
        (⟨l, e, t, [], true⟩ : Filing)
      let s := s.trapAt sid p bad
      let rest := lessNat p.lanes (bad.map (·.1))
      if rest.isEmpty || !nhas s.strands sid then s else s.fileOn sid { p with lanes := rest } todo false s.cycle

/-! Traps on request (R181). -/

/-- A trap taken after the form completes; a held one repeats the form (R345). A switch marker on the word does not wait, before the
trap or after its return: DESIGN CHOICE (log 80). -/
def State.trapAfter (s : State) (sid : Nat) (p : RunPath) (cause : Nat) (addr : Word64) : State :=
  s.trap sid (p.lanes.map fun l => ⟨l, cause, 0, addr, if (s.str sid).holds l then p.recPc else p.nextPc l⟩)

def execBrk (n : BitVec 21) : State → Out State := onPath fun sid p s => s.trapAfter sid p 0x90 (n.setWidth 64)
def execSwtrap (t : BitVec 13) (c : BitVec 8) : State → Out State := onPath fun sid p s => s.trapAfter sid p c.toNat (t.setWidth 64)

/-! Yield and sleep (R182, R183). -/

/-- The strand goes behind every other of its partition, the lead strands that issue there among them (R323). -/
def State.yieldStrand (s : State) (sid : Nat) : State :=
  let st := s.str sid
  let last := s.nextSeq st.core st.part
  s.modStr sid fun st => { st with seq := last, aged := 0 }

def execYield : State → Out State := onPath fun sid p s => (s.yieldStrand sid).advance sid p

def execSleep (n : BitVec 21) : State → Out State :=
  onPath fun sid p s =>
    if n = 0 then (s.yieldStrand sid).advance sid p else s.await sid p (.sleep (s.cycle + n.toNat))

end Sys2Proof.Machine
end

