-- ==== Sys2Proof/Machine/Cp.lean ====
section
/-! DEFINITION. Copy instructions and the copy engine's steps (09_isa_async_system.md R249 to R255), and `reform`
(06_isa_control_lanes.md R175), which awaits tokens of both engines. -/

namespace Sys2Proof.Machine

/-! The checks of R251. -/

/-- The offset of the lowest descriptor field outside its limits, checked as a form uses it (R249). With a space code of 3, which names
no space, an address is held only to be a multiple of 4. `slot` is what DST of `cp.q` names: none where that is no slot queue, else
its entry size (R251, R255). -/
def CpDesc.fails (d : CpDesc) (form : Nat) (slot : Option Nat) : Option Nat :=
  let wide (space a : Nat) : Bool :=
    if space = 0 then decide (2 ^ 56 ≤ a) else space != 3 && decide (2 ^ 32 ≤ a)
  let usesSrc := form != 1
  let tests : List (Nat × Bool) := [
    (0x00, usesSrc && (d.src % 4 != 0 || wide d.ssp d.src)),
    (0x08, if form = 3 then d.dst % 32 != 0 || decide (2 ^ 32 ≤ d.dst) || slot.isNone else d.dst % 4 != 0 || wide d.dsp d.dst),
    (0x10, d.rowBytes % 4 != 0 || d.rowBytes == 0 || decide (2 ^ 24 < d.rowBytes) ||
      (form == 3 && slot.any fun n => decide (n < (d.rows - 1) * d.dpitch + d.rowBytes))),
    (0x14, d.rows == 0 || decide (2 ^ 20 < d.rows)),
    (0x18, usesSrc && d.spitch % 4 != 0),
    (0x1C, d.dpitch % 4 != 0),
    (0x20, decide (16 ≤ d.ctrl) || (usesSrc && d.ssp == 3) || (form != 3 && d.dsp == 3)),
    (0x28, form == 2 && (d.index % 4 != 0 || decide (2 ^ 32 ≤ d.index))),
    (0x30, form == 3 && d.sstep % 4 != 0),
    (0x38, form == 3 && (d.nslot == 0 || decide (2 ^ 20 < d.nslot))),
    (0x3C, d.rsv != 0)]
  (tests.find? (·.2)).map (·.1)

/-- The slot queue of `cp.q`: its entry size, where DST names a valid slot descriptor that is or can be made live. -/
def State.cpQueue (s : State) (sid : Nat) (d : CpDesc) : Option Nat :=
  let tid := (s.str sid).team
  let m := s.walkMem sid
  if (s.gridOf sid).kd.spSize < d.dst + 32 ∨ !s.canLive tid d.dst m then none
  else
    let q := (s.liveQ tid d.dst).getD (liveOfBytes (m.readN ((s.team tid).phys d.dst) 32))
    if q.kind = 3 then some q.size else none

/-- Check 3 of R251. -/
def State.cpFails (s : State) (sid : Nat) (form : Nat) (d : CpDesc) : Option Nat :=
  d.fails form (if form = 3 then s.cpQueue sid d else none)

/-- The first row of a window space that lies outside its window: its offset. -/
def State.rowsOutside (s : State) (tid space base pitch n rows : Nat) : Option Nat :=
  if space = 0 then none
  else (List.range rows).findSome? fun r =>
    let a := rowAddr space base r pitch
    if s.windowRange tid space a n then none else some a

/-- Check 4 of R251. -/
def State.cpOutside (s : State) (sid : Nat) (form : Nat) (d : CpDesc) : Option Nat :=
  let tid := (s.str sid).team
  let src : Option Nat := match form with
    | 0 => s.rowsOutside tid d.ssp d.src d.spitch d.rowBytes d.rows
    | 2 => if s.windowRange tid 1 d.index (4 * d.rows) then none else some d.index
    | 3 => if d.ssp = 0 then none else
      (List.range d.nslot).findSome? fun k => s.rowsOutside tid d.ssp (d.src + k * d.sstep) d.spitch d.rowBytes d.rows
    | _ => none
  match src with
  | some a => some a
  | none => if form = 3 then none else s.rowsOutside tid d.dsp d.dst d.dpitch d.rowBytes d.rows

/-- Allocate a copy token and put its number into d. -/
def State.cpAlloc (s : State) (sid : Nat) (p : RunPath) (d : Sel) (form : Nat) (b : List Byte) : State :=
  let st := s.str sid
  let k := s.freeOf 0x8200000 0 (s.coreOf sid).freeCp
  let t : CpTok :=
    { st := .busy, reported := false, team := st.team, strand := sid, form := form, desc := b, rowdone := 0, later := [],
      qclosed := false, slot := none, cause := 0, faultAddr := 0, dgon := st.csr.dgon }
  let s := s.modCoreOf sid fun c => { c with cp := nset c.cp k t }
  let q := (cpDesc b).dst
  let s := if form = 3 then (s.makeLive st.team q (s.walkMem sid)).refEngine st.team q (64 + k) else s
  (s.giveAll sid p d (BitVec.ofNat 32 k)).advance sid p

/-- Checks 3 and 4 of R251 on a descriptor read, and the wait for a token. -/
def State.cpChecked (s : State) (sid : Nat) (p : RunPath) (form : Nat) (d : Sel) (off : Nat) (b : List Byte) : State :=
  match s.cpFails sid form (cpDesc b) with
  | some o => s.trapPath sid p 0x41 3 (BitVec.ofNat 64 (off + o))
  | none =>
    match s.cpOutside sid form (cpDesc b) with
    | some a => s.trapPath sid p 0x30 0 (BitVec.ofNat 64 a)
    | none =>
      s.takeToken sid p (portOf d) (!(s.coreOf sid).freeCp.isEmpty) (.cpFree off b (portOf d)) fun s => s.cpAlloc sid p d form b

/-- The checks of R251 on the descriptor's offset, and the reading of the descriptor. -/
def State.cpStart (s : State) (sid : Nat) (p : RunPath) (form : Nat) (d : Sel) (off : Nat) : State :=
  if off % 64 ≠ 0 then s.trapPath sid p 0x31 0 (BitVec.ofNat 64 off)
  else if (s.gridOf sid).kd.spSize < off + 64 then s.trapPath sid p 0x30 0 (BitVec.ofNat 64 off)
  else s.cpChecked sid p form d off ((s.walkMem sid).readN ((s.teamOf sid).phys off) 64)

/-- A CP form 0 to 3, made after the strand's earlier stores (R249, R252). A path that waited for a token keeps the descriptor it read;
what that says of a queue is looked at again, which may have ceased to be one. -/
def cpForm (form : Nat) (d a : Sel) : State → Out State :=
  heldPath fun sid p s =>
    match p.resume with
    | some (.cpFree off b _) => s.cpChecked sid p form d off b
    | _ =>
      s.waitFor sid p (s.str sid).fl.stores.isEmpty (.word 2) fun s => s.operands sid p [(a, 1)] [(d, 1)] fun p s vals =>
        s.cpStart sid p form d (arg32 ((nget vals (lowest p.lanes)).getD []) 0).toNat

def execCpGo (d a : Sel) : State → Out State := cpForm 0 d a
def execCpFill (d a : Sel) : State → Out State := cpForm 1 d a
def execCpGather (d a : Sel) : State → Out State := cpForm 2 d a
def execCpQ (d a : Sel) : State → Out State := cpForm 3 d a

/-! Tokens. -/

/-- ENGINE 0x53 by a whole path. -/
def State.cpBad (s : State) (sid : Nat) (p : RunPath) (t : Nat) : State := s.trapPath sid p 0x53 0 (BitVec.ofNat 64 t)

/-- Report the fault of a STOPPED copy (R253): nothing is marked where the trap is held (R345). -/
def State.cpReport (s : State) (sid : Nat) (p : RunPath) (core k : Nat) (t : CpTok) : State :=
  let held := p.lanes.any (s.str sid).holds
  let s := if held then s else s.modCp core k fun t => { t with reported := true }
  s.trapPopped sid p 0x53 t.cause (BitVec.ofNat 64 t.faultAddr)

/-- The loop of `cp.wait` (R253, R234); a path that has waited in it does not resume a copy. -/
def State.cpWaitOn (s : State) (sid : Nat) (p : RunPath) (d : Sel) (k : Nat) (retire : Bool) : State :=
  let core := (s.str sid).core
  match nget (s.core core).cp k with
  | none => s.trapPopped sid p 0x53 0 (BitVec.ofNat 64 k)
  | some t =>
    if 64 ≤ k ∨ t.team ≠ (s.str sid).team then s.trapPopped sid p 0x53 0 (BitVec.ofNat 64 k)
    else match t.st with
      | .done =>
        let s := s.giveAll sid p d t.status
        (if retire then s.freeCpTok core k else s).advance sid p
      | .stopped =>
        if t.reported then (if p.inLoop then s else s.modCp core k fun t => { t with st := .busy }).await sid p (.cp k retire)
        else if s.mxReporter sid t.strand then s.cpReport sid p core k t
        else s.await sid p (.cp k retire)
      | .busy => s.await sid p (.cp k retire)

def execCpWait (d a : Sel) (retire : Bool) : State → Out State :=
  heldPath fun sid p s =>
    match p.resume with
    | some (.cp k r) => s.cpWaitOn sid p d k r
    | some (.mxDone v) => (s.giveAll sid p d v).advance sid p
    | _ => s.operands sid p [(a, 1)] [(d, 1)] fun p s vals =>
      s.cpWaitOn sid p d (arg32 ((nget vals (lowest p.lanes)).getD []) 0).toNat retire

def execCpTest (d a : Sel) : State → Out State :=
  heldPath fun sid p s => s.operands sid p [(a, 1)] [(d, 1)] fun p s vals =>
    let k := (arg32 ((nget vals (lowest p.lanes)).getD []) 0).toNat
    let t := nget (s.coreOf sid).cp k
    if 64 ≤ k ∨ t.any (fun t => t.team != (s.str sid).team) then s.cpBad sid p k
    else (s.giveAll sid p d (BitVec.ofNat 32 ((t.map (·.st.code)).getD 0))).advance sid p

/-- COPY_ROW (R252): args core, token, row. -/
def execCopyRow (s : State) : Out State := .next (s.stepCopy (s.arg 0) (s.arg 1) (s.arg 2) false)

/-- CP_Q_SLOT_FILL (R255): args core, token. -/
def execCpQSlotFill (s : State) : Out State := .next (s.stepCopyQ (s.arg 0) (s.arg 1) false)

/-! Reform. -/

/-- The fault of a strand's STOPPED token that `reform` reports (R175 order 6): matrix tokens first. -/
def State.reformFault (s : State) (sid : Nat) : Option (RunPath → State) :=
  let core := (s.str sid).core
  match (s.mxHeld sid).find? fun t => t.2.st == .stopped && !t.2.reported with
  | some (k, t) => some fun p => s.mxReport sid p core k t
  | none => match (s.cpHeld sid).find? fun t => t.2.st == .stopped && !t.2.reported with
    | some (k, t) => some fun p => s.cpReport sid p core k t
    | none => none

/-- What a lane takes into its bin (R15): its thread, with the live registers of the map, read at its window base; a register beyond
the frame there is none. -/
def State.filing (s : State) (sid : Nat) (live : List Nat) (key : Word64) (l : Nat) : Filing :=
  let st := s.str sid
  ⟨l, key, { st.th l with pc := key, wb := 0, arrival := none, resumeWait := false, starve := 0 },
    live.filterMap fun r => (st.winLoc l r).map fun x => (r, st.peek x), false⟩

/-- Order 5 of R175. The strand's earlier stores are performed too, so that none of them is left behind by a thread that goes on in
another strand (R281, R282; DESIGN CHOICE, notes/assumptions/16.md). -/
def State.reformReady (s : State) (sid : Nat) : Bool :=
  let st := s.str sid
  !st.pending && ((s.mxHeld sid).all fun t => !t.2.st.busy) && ((s.cpHeld sid).all fun t => t.2.st != .busy) &&
  st.fl.stores.isEmpty && !st.hostAtoms

/-- `reform` (R175). -/
def execReform (n : BitVec 7) : State → Out State :=
  onPath fun sid p s =>
    match p.resume with
    | some (.file todo leave since) => s.fileOn sid p todo leave since
    | _ =>
      let st := s.str sid
      if st.group (lowest p.lanes) ≠ 0 ∨ 1 < st.frames.length then s.trapPath sid p 0x32 0 0
      else match st.ports with
        | (port, _) :: _ => s.qMisuse sid p port 0
        | [] =>
          s.waitFor sid p (s.reformReady sid) .reformWait fun s =>
            match s.reformFault sid with
            | some f => f p
            | none =>
              let live := (nget (s.gridOf sid).kd.liveMaps n.toNat).getD []
              let s := s.mxTouch sid (p.lanes.flatMap fun l => live.filterMap (st.winLoc l))
              s.fileOn sid p (p.lanes.map (s.filing sid live p.nxt)) true s.cycle

end Sys2Proof.Machine
end

