-- ==== Sys2Proof/Machine/Drain.lean ====
section
/-! DEFINITION. The drain engine: drain words and their validity, a unit's program, its stores, row results and pushes
(08_isa_queues_matrix_drain.md R239 to R246; 12_matrix_engine.md R339 to R341). -/

namespace Sys2Proof.Machine

/-! Words (R240 to R243). -/

structure DWord where
  op : Nat
  dst : Nat
  a : Nat
  b : Nat
  aux : Nat
  deriving DecidableEq, Repr, Inhabited

def dWord (w : Nat) : DWord := ⟨bitsOf w 31 26, bitsOf w 25 22, bitsOf w 21 16, bitsOf w 15 10, bitsOf w 9 0⟩

/-- A source code is assigned (R241). -/
def dSrcOk (c : Nat) : Bool := c ≤ 10 || (16 ≤ c && c ≤ 63)

/-- A drain word is a valid form (R240 to R243). -/
def DWord.ok (w : DWord) : Bool :=
  let dst := w.dst ≤ 7
  let a := dSrcOk w.a
  let b := dSrcOk w.b
  let two := dst && a && b && w.aux == 0
  let one := dst && a && w.b == 0
  let three := dst && a && b && w.aux / 64 == 0 && dSrcOk (w.aux % 64)
  match w.op with
  | 0x01 | 0x02 | 0x04 | 0x05 | 0x09 | 0x0A | 0x0B | 0x0C | 0x0D => two
  | 0x03 | 0x0E => three
  | 0x06 | 0x07 => one && w.aux == 0
  | 0x08 =>
    let ty := w.aux % 16
    one && ty ≤ 9 && w.aux / 512 == 0 && (ty == 5 || bitsOf w.aux 8 5 == 0) && !(ty == 5 && bitOf w.aux 4)
  | 0x0F | 0x10 => one && w.aux ≤ 1
  | 0x11 => (dst || w.dst == 15) && a && w.b == 0 && w.aux < 8
  | 0x12 => (dst || w.dst == 15) && a && w.b == 0 && w.aux < 4
  | 0x13 => one && w.aux < 8 && w.aux % 4 != 3
  | 0x14 | 0x15 | 0x16 => w.dst == 15 && a && w.b == 0 && w.aux < 8
  | 0x17 | 0x18 => w.dst == 15 && a && w.b == 0 && w.aux < 4
  | _ => false

def DWord.isRow (w : DWord) : Bool := w.op == 0x11 || w.op == 0x12

/-- The first invalid word of an image (R239). -/
def drainInvalid (img : List Word) : Option Nat :=
  let ws := img.map BitVec.toNat
  let n := (ws.findIdx? (· == 0)).getD 32
  let rows (k : Nat) : List Nat := ((ws.take k).map dWord).filterMap fun w => if w.isRow then some (w.aux % 4) else none
  let bad (k : Nat) : Bool :=
    let w := dWord (ws.getD k 0)
    if k < n && k < 29 then
      !w.ok || (w.isRow && (decide (2 ≤ (rows k).length) || (rows k).contains (w.aux % 4)))
    else (k == 29 && decide (29 ≤ n)) || (decide (n < k) && ws.getD k 0 != 0)
  (List.range 32).find? bad

/-- The words of a loaded image before `d.end`. -/
def drainProgram (img : List Word) : List DWord := ((img.map BitVec.toNat).takeWhile (· != 0)).map dWord

/-! `drn.load` (R239). -/

def execDrnLoad (sl : BitVec 7) (a : Sel) : State → Out State :=
  heldPath fun sid p s =>
    s.operandsOnce sid p [(a, 2)] [] fun p s vals =>
      let st := s.str sid
      let k := sl.toNat
      let c := s.core st.core
      let addr := (arg ((nget vals (lowest p.lanes)).getD []) 0).toNat
      let trap (cause sub x : Nat) : State := s.trapPath sid p cause sub (BitVec.ofNat 64 x)
      if (nget c.drn k).any (fun d => d.team != st.team) ∨ c.resvs.any (fun r => r.drn.contains k) then trap 0x50 0 k
      else if c.mx.any fun x => x.2.team == st.team && x.2.par.dslot == k && x.2.st != .done && x.2.st != .aborted then
        s.await sid p (.drnSlot k)
      else if 2 ^ 56 ≤ addr then trap 0x32 0 addr
      else if addr % 128 ≠ 0 then trap 0x31 0 addr
      else match s.accessParts sid .ld 0x8000000 (pageParts addr 128) with
        | (_, some (cause, sub, x)) => trap cause sub x
        | (ps, none) =>
          match ps.find? fun x => st.rmwOn none x.pa (x.pa + x.len) with
          | some x => s.await sid p (.rmwHold x.pa (x.pa + x.len))
          | none =>
            let at' := p.lanes.flatMap fun l => ps.map fun q => (l, q.pa, q.pa + q.len)
            s.waitFor sid p (s.locketFree sid at') (.locket at') fun s =>
            let bs := s.pocParts sid 0x8800000 ps
            let s := s.pocTouch sid ps
            let img : List Word := (List.range 32).map fun i => BitVec.ofNat 32 (leNat ((bs.drop (4 * i)).take 4))
            match drainInvalid img with
            | some i => s.trapPath sid p 0x41 0 (BitVec.ofNat 64 (addr + 4 * i))
            | none => (s.modCore st.core fun c => { c with drn := nset c.drn k ⟨st.team, img⟩ }).advance sid p

/-! A unit (R241 to R245). -/

/-- A drain fault: cause and address (R246). -/
abbrev DFault := Nat × Nat

/-- Fields of the argument block (R244). -/
def dargK (d : List Byte) (j : Nat) : Word := BitVec.ofNat 32 (leNat ((d.drop (4 * j)).take 4))
def darg64 (d : List Byte) (o j : Nat) : Nat := leNat ((d.drop (o + 8 * j)).take 8)
def darg32 (d : List Byte) (o j : Nat) : Nat := leNat ((d.drop (o + 4 * j)).take 4)
def dargStream (d : List Byte) (n m : Nat) : Nat := (darg64 d 0x50 n + m * darg32 d 0x70 n) % 2 ^ 64

/-- Check an aligned virtual range of an operation's team. -/
def State.drainParts (s : State) (tid a n w : Nat) (need : Need) : Except DFault (List XPart) :=
  if a / 2 ^ 56 ≠ 0 then .error (0x32, a)
  else if a % w ≠ 0 then .error (0x31, a)
  else s.enginePart tid 0 a n need 0x9000000

/-- A word read at a virtual address. -/
def State.drainWord (s : State) (tid a : Nat) : Except DFault Word :=
  match s.drainParts tid a 4 4 .read with
  | .error e => .error e
  | .ok ps => .ok (BitVec.ofNat 32 (leNat (s.partBytes (s.teamCtx tid) ps)))

/-- What a unit has made so far: element registers by 32 n + lane, stores, row values, pushes. -/
structure DUnit where
  e : NMap Word := []
  stores : List (Nat × List Host.Cell × List (Nat × Nat × Nat)) := []   -- address, cells, digest items
  rows : NMap Word := []
  pushes : List (Nat × List Word) := []
  put : List XPart := []       -- parts written
  deriving DecidableEq, Repr, Inhabited

/-- A source's value in a lane (R241); an accumulator element of an operation whose operands were stored to is undefined (R231). -/
def State.dSrc (s : State) (t : MxTok) (m g : Nat) (u : DUnit) (c l : Nat) : Except DFault Word :=
  let d := t.darg.getD []
  let n := 32 * g + l
  if c < 8 then .ok ((nget u.e (32 * c + l)).getD 0)
  else if c = 8 then .ok (if t.raced then s.freeW (0x9700000 + 128 * m + n) else (nget t.final (128 * m + n)).getD 0)
  else if c = 9 then .ok (BitVec.ofNat 32 m)
  else if c = 10 then .ok (BitVec.ofNat 32 n)
  else if c < 24 then .ok (dargK d (c - 16))
  else if c < 28 then s.drainWord t.team ((darg64 d 0x20 (c - 24) + 4 * n) % 2 ^ 64)
  else if c < 30 then s.drainWord t.team ((darg64 d 0x40 (c - 28) + 4 * m) % 2 ^ 64)
  else if c = 30 then .ok 0
  else if c = 31 then .ok 0x3F800000
  else .ok (BitVec.ofNat 32 (c - 32))

/-- Every lane's value of a source; the first lane that faults decides. -/
def State.dSrcs (s : State) (t : MxTok) (m g : Nat) (u : DUnit) (c : Nat) : List Nat → Except DFault (List Word)
  | [] => .ok []
  | l :: ls =>
    match s.dSrc t m g u c l with
    | .error e => .error e
    | .ok v => match s.dSrcs t m g u c ls with
      | .error e => .error e
      | .ok vs => .ok (v :: vs)

/-- Conversions of `d.cvt` (R243). -/
def dCvt (aux : Nat) (x : Word) : Word :=
  let v := x.toNat
  let sat := bitOf aux 4
  BitVec.ofNat 32 (match aux % 16 with
    | 0 => Fmt.bf16.convert .rne sat v
    | 1 => Fmt.f16.convert .rne sat v
    | 2 => Fmt.e4m3.convert .rne sat v
    | 3 => Fmt.e5m2.convert .rne sat v
    | 4 => Fmt.e2m1.convert .rne sat v
    | 5 => f8dOfF32 (biasOf (bitsOf aux 8 5)) v
    | 6 => intToF32 .rne x.toInt
    | 7 => f32ToS32 .rne true v
    | 8 => f32ToInt .rne true (-128) 127 0 8 v
    | _ => Fmt.bf16.widen (v % 65536))

/-- `d.scale` (R243). -/
def dScale (aux : Nat) (x : Word) : Word :=
  let emax : Int := match aux % 4 with
    | 0 => 2
    | 1 => 8
    | _ => 15
  let code := blockScale emax x.toNat
  BitVec.ofNat 32 (if bitOf aux 2 then Fmt.f32.roundNE (if code = 0xFF then .nan else scaled false 1 (127 - (code : Int))) else code)

/-- The lanes of a unit under an operation of one, two or three sources. -/
def dLane (w : DWord) (x y z : Word) : Word :=
  let f (g : Nat → Nat → Nat) : Word := BitVec.ofNat 32 (g x.toNat y.toNat)
  match w.op with
  | 0x01 => f Fmt.f32.fadd
  | 0x02 => f Fmt.f32.fmul
  | 0x03 => BitVec.ofNat 32 (Fmt.f32.ffma x.toNat y.toNat z.toNat)
  | 0x04 => f (Fmt.f32.minmax true)
  | 0x05 => f (Fmt.f32.minmax false)
  | 0x06 => BitVec.ofNat 32 (f32Fn fexp2Ext x.toNat)
  | 0x07 => BitVec.ofNat 32 (f32Fn (Ext.div (.fin false 1 1)) x.toNat)
  | 0x08 => dCvt w.aux x
  | 0x09 => x + y
  | 0x0A => x * y
  | 0x0B => x <<< min y.toNat 32
  | 0x0C => x >>> y.toNat
  | 0x0D => x &&& y
  | 0x0E => if z ≠ 0 then x else y
  | _ => dScale w.aux x

/-- Reductions over the 32 lanes (R242). -/
def dMax (abs : Bool) (xs : List Word) : Word :=
  let ys := xs.map fun x => if abs then (x &&& 0x7FFFFFFF).toNat else x.toNat
  match ys with
  | [] => 0
  | [y] => BitVec.ofNat 32 y
  | y :: ys => BitVec.ofNat 32 (ys.foldl (Fmt.f32.minmax true) y)
def dSum (int : Bool) (xs : List Word) : Word :=
  if int then xs.foldl (· + ·) 0 else BitVec.ofNat 32 (fsumCode (xs.map BitVec.toNat))

/-- An element store (R244): by address, the bytes written and the digest items. -/
def State.dStore (s : State) (t : MxTok) (u : DUnit) (a w : Nat) (v : Word) (items : List (Nat × Nat × Nat)) : Except DFault DUnit :=
  match s.drainParts t.team a w w .write with
  | .error e => .error e
  | .ok ps => .ok { u with stores := u.stores ++ [(a, partCells ps (leBytes w v.toNat), items)], put := u.put ++ ps }

def State.dStores (s : State) (t : MxTok) (u : DUnit) : List (Nat × Nat × Word × List (Nat × Nat × Nat)) → Except (DFault × DUnit) DUnit
  | [] => .ok u
  | (a, w, v, items) :: rest =>
    match s.dStore t u a w v items with
    | .error e => .error (e, u)
    | .ok u => s.dStores t u rest

/-- One word of a unit's program. -/
def State.dStep (s : State) (t : MxTok) (m g : Nat) (w : DWord) (u : DUnit) : Except (DFault × DUnit) DUnit :=
  let d := t.darg.getD []
  let lanes := List.range 32
  let fetch (c : Nat) : Except (DFault × DUnit) (List Word) := match s.dSrcs t m g u c lanes with
    | .error e => .error (e, u)
    | .ok v => .ok v
  let setE (u : DUnit) (vs : List Word) : DUnit :=
    if w.dst ≤ 7 then { u with e := vs.zipIdx.foldl (fun e x => nset e (32 * w.dst + x.2) x.1) u.e } else u
  let two := decide (w.op ≤ 5) || (decide (9 ≤ w.op) && decide (w.op ≤ 14))
  let n := w.aux % 4
  match fetch w.a with
  | .error e => .error e
  | .ok xs =>
    match (if two && w.op != 0 then fetch w.b else .ok []) with
    | .error e => .error e
    | .ok ys =>
      match (if w.op = 0x03 ∨ w.op = 0x0E then fetch (w.aux % 64) else .ok []) with
      | .error e => .error e
      | .ok zs =>
        match w.op with
        | 0x0F => .ok (setE u (lanes.map fun _ => dMax (bitOf w.aux 0) xs))
        | 0x10 => .ok (setE u (lanes.map fun _ => dSum (bitOf w.aux 0) xs))
        | 0x11 =>
          let v := dMax (bitOf w.aux 2) xs
          let r := if g = 0 then v else BitVec.ofNat 32 (Fmt.f32.minmax true ((nget t.rpart n).getD 0).toNat v.toNat)
          .ok { setE u (lanes.map fun _ => v) with rows := nset u.rows n r }
        | 0x12 =>
          let v := dSum false xs
          let r := if g = 0 then v else BitVec.ofNat 32 (Fmt.f32.fadd ((nget t.rpart n).getD 0).toNat v.toNat)
          .ok { setE u (lanes.map fun _ => v) with rows := nset u.rows n r }
        | 0x14 | 0x15 | 0x16 =>
          let wd := if w.op = 0x14 then 1 else if w.op = 0x15 then 2 else 4
          let one (a : Nat) (v : Word) := (a, wd, v, [(a, if wd = 1 then 1 else if wd = 2 then 2 else 3, v.toNat % 2 ^ (8 * wd))])
          s.dStores t u (if bitOf w.aux 2 then [one (dargStream d n m + g * wd) (xs.getD 0 0)]
            else xs.zipIdx.map fun (v, l) => one (dargStream d n m + (32 * g + l) * wd) v)
        | 0x17 =>
          s.dStores t u ((List.range 16).map fun j =>
            let a := dargStream d n m + (32 * g + 2 * j) / 2
            let lo := (xs.getD (2 * j) 0).toNat % 16
            let hi := (xs.getD (2 * j + 1) 0).toNat % 16
            (a, 1, BitVec.ofNat 32 (lo + 16 * hi), [(a, 0, lo), (a, 0, hi)]))
        | 0x18 => .ok { u with pushes := u.pushes ++ [(darg32 d 0x80 n, xs)] }
        | _ => .ok (setE u (lanes.map fun l => dLane w (xs.getD l 0) (ys.getD l 0) (zs.getD l 0)))

def State.dRun (s : State) (t : MxTok) (m g : Nat) : List DWord → DUnit → Except (DFault × DUnit) DUnit
  | [], u => .ok u
  | w :: ws, u =>
    match s.dStep t m g w u with
    | .error e => .error e
    | .ok u => s.dRun t m g ws u

/-- The addresses a program reads for a unit. -/
def dReads (d : List Byte) (m g : Nat) (prog : List DWord) : List Nat :=
  prog.flatMap fun w =>
    ([w.a, w.b] ++ (if w.op = 0x03 ∨ w.op = 0x0E then [w.aux % 64] else [])).flatMap fun c =>
      if 24 ≤ c ∧ c < 28 then (List.range 32).map fun l => (darg64 d 0x20 (c - 24) + 4 * (32 * g + l)) % 2 ^ 64
      else if c = 28 ∨ c = 29 then [(darg64 d 0x40 (c - 28) + 4 * m) % 2 ^ 64]
      else []

/-- Set A for what a unit has read. -/
def State.dUse (s : State) (tid : Nat) (addrs : List Nat) : State :=
  addrs.foldl (fun s a => match s.drainParts tid a 4 4 .read with
    | .ok ps => s.enginePartUse tid 0 .read ps
    | .error _ => s) s

/-- The row results of the last unit of a row (R244): their cells, checked as stores are. -/
def State.dRows (s : State) (t : MxTok) (m : Nat) (u : DUnit) : Except (DFault × DUnit) (List (Nat × Host.Cell) × List XPart) :=
  u.rows.foldl (fun acc (n, v) => match acc with
    | .error e => .error e
    | .ok (cs, ps) =>
      match s.drainParts t.team (dargStream (t.darg.getD []) n m) 4 4 .write with
      | .error e => .error (e, u)
      | .ok qs => .ok (cs ++ (partCells qs (leBytes 4 v.toNat)).map (fun c => (n, c)), ps ++ qs)) (.ok ([], []))

/-! The engine. -/

/-- A fault stops the drain (R246): stores of the unit may have been performed. -/
def State.drainStop (s : State) (core k : Nat) (e : DFault) (u : DUnit) : State :=
  let t := (s.mxTok core k).getD default
  (((s.drainStores core t (s.someStores 0x9800000 (u.stores.map (·.2)))).modMx core k fun t =>
    { t with st := .stopped, reported := false, dcause := e.1, faultAddr := e.2 }).modCore core fun c =>
      { c with dre := { c.dre with queue := c.dre.queue.filter (· != k) } })

/-- The argument block is read when the drain first starts (R244). -/
def State.readDarg (s : State) (core k : Nat) (t : MxTok) : Except DFault State :=
  if t.darg.isSome then .ok s
  else match s.drainParts t.team t.par.darg 192 64 .read with
    | .error e => .error e
    | .ok ps =>
      let d := s.partBytes (s.teamCtx t.team) ps
      .ok ((s.enginePartUse t.team 0 .read ps).modMx core k fun t => { t with darg := some d })

/-- The queues a program pushes to are referred to from the drain's start (R215, R244); one that is not eligible faults. -/
def State.refPushes (s : State) (k : Nat) (t : MxTok) : List DWord → Except DFault State
  | [] => .ok s
  | w :: ws =>
    if w.op ≠ 0x18 then s.refPushes k t ws
    else
      let desc := darg32 (t.darg.getD []) 0x80 (w.aux % 4)
      match s.liveQ t.team desc with
      | none => .error (0x61, desc)
      | some q =>
        if q.engines.contains (32 + k) then s.refPushes k t ws
        else if q.kind = 0 ∨ (q.kind = 1 ∧ 32 ≤ q.count) then (s.refEngine t.team desc (32 + k)).refPushes k t ws
        else .error (0x61, desc)

/-- The pushes of a list that have room now, each to a queue after those before it to the same queue (R217, R218), and the rest. -/
def State.takePushes (s : State) (tid : Nat) (xs : List (Nat × List Word)) : List (Nat × List Word) × List (Nat × List Word) :=
  xs.foldl (fun (yes, no) x =>
    let n := (yes.filter (·.1 == x.1)).length + 1
    let room := (s.liveQ tid x.1).any fun q => s.hasRoom tid x.1 (n * q.per 32)
    if room && no.all (·.1 != x.1) then (yes ++ [x], no) else (yes, no ++ [x])) ([], [])

/-- The unit after (m, g). -/
def MxPar.nextUnit (q : MxPar) (m g : Nat) : Nat × Nat := if g + 1 < q.ng then (m, g + 1) else (m + 1, 0)

/-- DRAIN_UNIT_ENTRY (R339): arg core. -/
def State.drainEntry (s : State) (core : Nat) : State :=
  let e := (s.core core).dre
  match e.queue with
  | [] => s
  | k :: _ =>
    match s.mxTok core k with
    | none => s
    | some t =>
      let mine := e.units.filter (·.tok == k)
      let (m, g) := match mine.getLast? with
        | some x => t.par.nextUnit x.m x.g
        | none => (t.um, t.ug)
      let prog := drainProgram (((nget (s.core core).drn t.par.dslot).map (·.image)).getD [])
      -- a row reduction of row m follows the result of row m - 1 (R339)
      let early := prog.any (·.isRow) && mine.any fun x => decide (x.m < m)
      if s.teamHeld t.team || t.abort || decide (16 ≤ e.units.length) || decide (t.par.m ≤ m) || early then s
      else
        let stop (s : State) (e : DFault) (u : DUnit) : State := if mine.isEmpty then s.drainStop core k e u else s
        match s.readDarg core k t with
        | .error e => stop s e {}
        | .ok s1 =>
          let t := ((s1.mxTok core k).getD t)
          match s1.refPushes k t prog with
          | .error e => stop s1 e {}
          | .ok s2 =>
            match s2.dRun t m g prog {} with
            | .error (e, u) => stop s2 e u
            | .ok u =>
              let lastG := decide (g + 1 = t.par.ng)
              match (if lastG then s2.dRows t m u else .ok ([], [])) with
              | .error (e, u) => stop s2 e u
              | .ok (rows, rps) =>
                let openQ := u.pushes.filter fun x => (s2.liveQ t.team x.1).any (!·.closed)
                let (now, more) := s2.takePushes t.team openQ
                -- the first push to each queue has room: the later ones of the unit follow as room comes (R244), before any of a later unit
                let behind := openQ.any fun x => e.units.any fun y => y.more.any (·.1 == x.1)
                if behind || openQ.any fun x => now.all (·.1 != x.1) then s2
                else
                  let s := (s2.dUse t.team (dReads (t.darg.getD []) m g prog)).enginePartUse t.team 0 .write (u.put ++ rps)
                  let s := s.modMx core k fun t => { t with
                    rpart := if lastG then [] else u.rows
                    pushClosed := t.pushClosed || decide (openQ.length < u.pushes.length) }
                  s.modCore core fun c => { c with dre := { c.dre with units := c.dre.units ++
                    [⟨k, m, g, u.stores.map (·.2), rows, now, more, false⟩] } }

def execDrainUnitEntry (s : State) : Out State := .next (s.drainEntry (s.arg 0))

/-- DRAIN_UNIT_COMMIT (R245): arg core. The oldest unit in flight: its stores and row results, then its pushes; bytes a later unit in
flight also writes may already hold that one's. Where pushes of the unit still wait for room it stays, with these left to be made; a unit
that has begun to commit does so whole, an abort notwithstanding (R236). -/
def State.drainCommit (s : State) (core : Nat) : State :=
  match (s.core core).dre.units with
  | [] => s
  | x :: rest =>
    match s.mxTok core x.tok with
    | none => s.modCore core fun c => { c with dre := { c.dre with units := rest } }
    | some t =>
      if t.abort && !x.begun then
        let s := (s.drainStores core t (s.someStores 0xA000000 x.stores)).modCore core fun c => { c with dre := { c.dre with units := rest } }
        if rest.any (·.tok == x.tok) then s else s.mxAborted core x.tok
      else
        let clash (u : DrainUnit) (c : Host.Cell) : Bool :=
          u.tok == x.tok && x.stores.any (fun y => y.1.any fun z => z.1 == c.1) && s.freeB (0xA400000 + c.1)
        let rest := rest.map fun u => { u with stores := u.stores.map fun y => (y.1.filter fun c => !clash u c, y.2) }
        let s := (s.drainStores core t x.stores).engineCells core (x.rows.map (·.2))
        let s := x.pushes.foldl (fun s y => match s.liveQ t.team y.1 with
          | some q => s.writePush t.team y.1 (q.pushWords (y.2.zipIdx.map fun z => (z.2, z.1)))
          | none => s) s
        if !x.more.isEmpty then
          let (now, more) := s.takePushes t.team (x.more.filter fun y => (s.liveQ t.team y.1).any (!·.closed))
          let lost := x.more.any fun y => (s.liveQ t.team y.1).any (·.closed)
          (s.modCore core fun c => { c with dre := { c.dre with
            units := { x with stores := [], rows := [], pushes := now, more := more, begun := true } :: rest } }).modMx core x.tok fun t =>
              { t with pushClosed := t.pushClosed || lost }
        else
        let (m, g) := t.par.nextUnit x.m x.g
        let fin := decide (t.par.m ≤ m)
        let s := (s.modCore core fun c => { c with dre := { c.dre with units := rest } }).modMx core x.tok fun t =>
          { t with um := m, ug := g, st := if fin then .done else t.st }
        if t.abort && !fin && rest.all (·.tok != x.tok) then s.mxAborted core x.tok
        else if fin then
          (s.modCore core fun c => { c with dre := { c.dre with queue := c.dre.queue.filter (· != x.tok) } }).mxEnded core x.tok
        else s

def execDrainUnitCommit (s : State) : Out State := .next (s.drainCommit (s.arg 0))

end Sys2Proof.Machine
end

