-- ==== Sys2Proof/Machine/Mem.lean ====
section
/-! DEFINITION. Loads, stores and atomics (07_isa_memory_sync.md R184 to R200; 10_memory_model.md R278 to R293). -/

namespace Sys2Proof.Machine

/-! Addresses and checks. -/

/-- A lane's access: its address, or offset in a window or stack; the address TADDR would hold; physical parts in ascending
order, up to the page that fails; the failure as cause, SUB and address; and whether a page check made it. -/
structure LaneAcc where
  lane : Nat
  off : Nat
  addr : Nat
  parts : List XPart
  fail : Option (Nat × Nat × Nat)
  page : Bool
  deriving DecidableEq, Repr, Inhabited

/-- Registers an address takes (R36, R187). -/
def addrCount (base : Base) : Nat := if base = .virt then 2 else 1

def baseSpace : Base → Nat
  | .virt => 0 | .team => 1 | .clu => 2 | .stk => 3

/-- Checks 2 to 7 of R186 for one lane, at the address of R36 to R39. -/
def State.laneAccess (s : State) (sid : Nat) (acc : Acc) (base : Base) (l : Nat) (v : Word64) (disp : Int) (n align : Nat) :
    LaneAcc :=
  let tid := (s.str sid).team
  let off := (v.setWidth 32 + BitVec.ofInt 32 disp).toNat
  let bad (c sub a : Nat) : LaneAcc := ⟨l, a, a, [], some (c, sub, a), false⟩
  let pages (o va : Nat) : LaneAcc :=
    let (ps, f) := s.accessParts sid acc 0x8000000 (pageParts va n)
    ⟨l, o, va, ps, f, true⟩
  let window (space : Nat) : LaneAcc :=
    if !s.windowRange tid space off n then bad 0x30 0 off
    else if off % align ≠ 0 then bad 0x31 0 off
    else ⟨l, off, off, s.windowParts tid space off n, none, false⟩
  match base with
  | .virt =>
    let a := (v + BitVec.ofInt 64 disp).toNat
    if 2 ^ 56 ≤ a then bad 0x32 0 a else if a % align ≠ 0 then bad 0x31 0 a else pages a a
  | .team => window 1
  | .clu => window 2
  | .stk =>
    if (s.gridOf sid).kd.stack < off + n then bad 0x30 2 off
    else if off % align ≠ 0 then bad 0x31 0 off
    else pages off (s.stackVa sid l + off)

/-- Bytes of the parts. -/
def LaneAcc.done (a : LaneAcc) : Nat := (a.parts.map (·.len)).sum

/-- What a failed access traps with; a block's XLATE detail counts words complete, at most those transferred (R193, R349). -/
def State.accTrap (s : State) (blk : Bool) (a : LaneAcc) : Option (Nat × Nat × Nat × Word64) :=
  a.fail.map fun (c, sub, x) =>
    let words := a.done / 4
    let n := if blk && c / 16 == 2 && words != 0 then Config.freeChoice s.tick (0x8100000 + a.lane) (words + 1) else 0
    (a.lane, c, sub + n, BitVec.ofNat 64 x)

def State.accTraps (s : State) (blk : Bool) (as : List LaneAcc) : List (Nat × Nat × Nat × Word64) :=
  as.filterMap (s.accTrap blk)

/-- A and D of the pages an access goes through; windows have none. A write reaches its place for the samplers. -/
def State.useAcc (s : State) (sid : Nat) (base : Base) (need : Need) (as : List LaneAcc) : State :=
  let s := if need = .write then s.reachedParts (s.str sid).core (as.flatMap (·.parts)) else s
  if base = .virt ∨ base = .stk then
    as.foldl (fun s a => s.usePartsOf sid need a.parts) s
  else s

/-- The bytes a lane's access reaches: lane, first, one past the last. -/
def LaneAcc.bytesOf (a : LaneAcc) : List (Nat × Nat × Nat) := a.parts.map fun p => (a.lane, p.pa, p.pa + p.len)

def LaneAcc.inRegion (a : LaneAcc) (r : Region) : Bool := a.parts.any fun p => regionOf p.pa == r

/-- An access meets bytes lo to hi - 1. -/
def LaneAcc.meets (a : LaneAcc) (lo hi : Nat) : Bool := a.parts.any fun p => decide (p.pa < hi) && decide (lo < p.pa + p.len)

/-! Waits for the strand's own accesses. -/

/-- A pending store or atomic of some lane that an access to bytes lo to hi - 1 by it must follow; commutative and quantum
atomics are left out (R282, R291). -/
def PendStore.blocks (x : PendStore) (lanes : List Nat) (cells : Bool) (lo hi : Nat) : Bool :=
  (x.use != 1 && x.use != 3 && x.rmws.any fun r =>
    lanes.contains r.lane && decide (r.addr < hi) && decide (lo < r.addr + rmwBytes r.op)) ||
  (cells && x.parts.any fun q => lanes.contains q.1 && decide (q.2.1 < hi) && decide (lo < q.2.1 + q.2.2) && x.rmws.isEmpty)

/-- The bytes of some lane's access that its own pending atomics, or with `cells` its stores, still have to reach. -/
def Strand.blocked (st : Strand) (cells : Bool) (as : List LaneAcc) : Option (Nat × Nat) :=
  as.findSome? fun a => a.parts.findSome? fun p =>
    if st.fl.stores.any fun x => x.blocks [a.lane] cells p.pa (p.pa + p.len) then some (p.pa, p.pa + p.len) else none

/-- The wait of a path for them is over. -/
def Strand.unblocked (st : Strand) (lo hi : Nat) : Bool :=
  !st.rmwOn none lo hi && st.fl.stores.all fun x => x.cells.all fun c => decide (c.1 < lo) || decide (hi ≤ c.1)

/-! Loads. -/

/-- A physical byte of a lane's access: the parts as physical address and bytes. -/
def partAt : List (Nat × Nat) → Nat → Nat
  | [], _ => 0
  | (pa, n) :: ps, i => if i < n then pa + i else partAt ps (i - n)

/-- The words a load gives from its bytes (R188). -/
def loadWords (size : Nat) (signed : Bool) (bs : List Byte) : List Word :=
  if size = 1 then [if signed then (BitVec.ofNat 8 (leNat bs)).signExtend 32 else BitVec.ofNat 32 (leNat bs)]
  else if size = 2 then [if signed then (BitVec.ofNat 16 (leNat bs)).signExtend 32 else BitVec.ofNat 32 (leNat bs)]
  else (List.range (size / 4)).map fun i => BitVec.ofNat 32 (leNat ((bs.drop (4 * i)).take 4))

/-- The bytes a lane's access reads. -/
def State.accBytes (s : State) (sid : Nat) (a : LaneAcc) : List Byte :=
  a.parts.flatMap fun p =>
    if regionOf p.pa = .control then s.physBytes p.pa p.len else s.loadParts sid (some a.lane) 0x8200000 [p]

/-- What reading leaves behind: read-cache lines, and registers that change when they are read. Several lanes of one load that read
the same such register all get its value, and it changes once: which lane's read comes first the spec does not say (DESIGN
CHOICE, notes/assumptions/17.md). -/
def State.accTouch (s : State) (sid : Nat) (as : List LaneAcc) : State :=
  as.foldl (fun s a => a.parts.foldl (fun s p => s.noteRead p.pa p.len) (s.loadTouch sid 0x8200000 a.parts)) s

/-- Registers of a faulting `ld.blk` lane whose words lie wholly below the faulting page: each freely old or loaded (R193). -/
def State.blkPart (s : State) (sid : Nat) (d a : Sel) (base : Base) (acc : LaneAcc) : List (RegLoc × Word) :=
  let st := s.str sid
  let src := st.opdLocs [acc.lane] (a, addrCount base)
  let ws := loadWords (acc.done / 4 * 4) false (s.accBytes sid acc)
  (st.dstWrites acc.lane d ws).filter fun w => !src.contains w.1 && s.freeB (0x8300000 + w.1.code)

/-- A lane of a block load with its address and its parts. -/
abbrev BlkLane := Nat × Nat × List (Nat × Nat)
def LaneAcc.blkLane (x : LaneAcc) : BlkLane := (x.lane, x.addr, x.parts.map fun p => (p.pa, p.len))

/-- Word k of a block load: each lane's register and the word it reads now. -/
def State.blkWord (s : State) (sid : Nat) (d : Sel) (k : Nat) (lanes : List BlkLane) : List (RegLoc × Word) :=
  lanes.flatMap fun x =>
    let pa := partAt x.2.2 (4 * k)
    let w := BitVec.ofNat 32 (leNat (if regionOf pa = .control then s.physBytes pa 4
      else (List.range 4).map fun i => s.loadByte sid (some x.1) (pa + i) 0x8200000))
    (((s.str sid).loc x.1 d k).map fun r => (r, w)).toList

/-- What reading word k leaves behind. -/
def State.blkTouch (s : State) (sid k : Nat) (lanes : List BlkLane) : State :=
  lanes.foldl (fun s x =>
    let pa := partAt x.2.2 (4 * k)
    (s.touchLines (s.str sid).core pa 4 0x8200000).noteRead pa 4) s

/-- A block load reads one more of its words in every lane, chosen freely among those left; the path goes on after the last, and the
lanes that failed trap (R192, R193). A word for a register that the address takes (`srcs`) is written with the last, so that a lane
that must begin again finds its address (R194). -/
def State.blkStep (s : State) (sid : Nat) (p : RunPath) (d : Sel) (left : List Nat) (lanes : List BlkLane)
    (bad : List (Nat × Nat × Nat × Nat)) (srcs : List RegLoc) (kept : List (RegLoc × Word)) : State :=
  let k := s.freeOf 0x8600000 0 left
  let all := s.blkWord sid d k lanes
  let kept := kept ++ all.filter fun w => srcs.contains w.1
  let last := (left.erase k).isEmpty
  let ws := (all.filter fun w => !srcs.contains w.1) ++ if last then kept else []
  let host := lanes.filter fun x => regionOf (partAt x.2.2 (4 * k)) == .host
  let s := (s.blkTouch sid k lanes).pendMem sid
    { writes := ws, on := if host.isEmpty then .ready else .host, vaddr := lanes.map fun x => (x.1, x.2.1), hosts := host.map (·.1)
      acq := if p.order = 1 then some (p.scopeOr 0) else none }
  if last then s.splitOff sid p (bad.map fun (l, c, sub, x) => (l, c, sub, BitVec.ofNat 64 x))
  else s.await sid p (.words d (left.erase k) lanes bad srcs kept)

/-- The address a memory form's access would have in a lane, for a failure of its registers (R186 check 1): free where the address
itself cannot be read, or would be popped. -/
def State.failAddr (s : State) (sid : Nat) (a : Sel) (base : Base) (disp : Int) (l : Nat) : Word64 :=
  if (s.str sid).outside [l] (a, addrCount base) || (portOf a).isSome then s.freeW64 (0x3000000 + l)
  else
    let v := s.srcVal sid [] l (a, addrCount base) 1
    if base = .virt then v + BitVec.ofInt 64 disp else ((v.setWidth 32 + BitVec.ofInt 32 disp : Word)).setWidth 64

/-- The operand phase of a memory form, made once (R139, R186). -/
def State.memOperands (s : State) (sid : Nat) (p : RunPath) (a : Sel) (base : Base) (disp : Int) (srcs dsts : List Opd)
    (k : RunPath → State → NMap (List Word64) → State) : State :=
  match p.got with
  | some v => k p s v
  | none => s.operandsAt sid p srcs dsts (s.failAddr sid a base disp) fun p s v => k { p with got := some v } s v

/-- An LD form (R189): size in bytes, alignment, displacement and destination registers. The words of a block are read one after
another, in an order of its own (R192). -/
def memLoad (size align : Nat) (signed blk : Bool) (d a : Sel) (base : Base) (disp : Int) : State → Out State :=
  memPath true (if blk then size / 4 else 1) fun sid p s =>
    s.memOperands sid p a base disp [(a, addrCount base)] [(d, (size + 3) / 4)] fun p s vals =>
      let as := p.lanes.map fun l => s.laneAccess sid .ld base l (arg ((nget vals l).getD []) 0) disp size align
      let good := as.filter (·.fail.isNone)
      let bad := as.filter (·.fail.isSome)
      if good.any (·.inRegion .control) && (s.str sid).fl.stores.any (·.ctl) then s.await sid p (.word 2)
      else match (s.str sid).blocked false good with
        | some (lo, hi) => s.await sid p (.rmwHold lo hi)
        | none => s.waitFor sid p (s.locketFree sid (good.flatMap (·.bytesOf))) (.locket (good.flatMap (·.bytesOf))) fun s =>
          let st := s.str sid
          let writes := good.flatMap fun x => st.dstWrites x.lane d (loadWords size signed (s.accBytes sid x))
          let partly := if blk then (bad.filter fun x => x.page && !st.holds x.lane).flatMap (s.blkPart sid d a base) else []
          let hits := s.accTraps blk bad
          if blk && !good.isEmpty then
            ((s.useAcc sid base .read as).regPuts sid partly).blkStep sid p d (List.range (size / 4)) (good.map (·.blkLane))
              (hits.map fun (l, c, sub, x) => (l, c, sub, x.toNat)) (st.opdLocs p.lanes (a, addrCount base)) []
          else
          let s := (s.accTouch sid as).useAcc sid base .read as
          let s := s.regPuts sid partly
          let s := if good.isEmpty then s else s.pendMem sid
            { writes := writes, on := if good.any (·.inRegion .host) then .host else .ready,
              vaddr := good.map fun x => (x.lane, x.addr)
              hosts := (good.filter (·.inRegion .host)).map (·.lane)
              acq := if p.order = 1 then some (p.scopeOr 0) else none }
          s.splitOff sid p hits

/-- The displacement of a single-access kind (R36). -/
def dispOf (off : BitVec 8) (size : Nat) : Int := off.toInt * size

def execLdN8 (d a : Sel) (base : Base) (off : BitVec 8) : State → Out State := memLoad 1 1 false false d a base (dispOf off 1)
def execLdS8 (d a : Sel) (base : Base) (off : BitVec 8) : State → Out State := memLoad 1 1 true false d a base (dispOf off 1)
def execLdN16 (d a : Sel) (base : Base) (off : BitVec 8) : State → Out State := memLoad 2 2 false false d a base (dispOf off 2)
def execLdS16 (d a : Sel) (base : Base) (off : BitVec 8) : State → Out State := memLoad 2 2 true false d a base (dispOf off 2)
def execLdB32 (d a : Sel) (base : Base) (off : BitVec 8) : State → Out State := memLoad 4 4 false false d a base (dispOf off 4)
def execLdB64 (d a : Sel) (base : Base) (off : BitVec 8) : State → Out State := memLoad 8 8 false false d a base (dispOf off 8)
def execLdB128 (d a : Sel) (base : Base) (off : BitVec 8) : State → Out State := memLoad 16 16 false false d a base (dispOf off 16)
def execLdBlk (d a : Sel) (base : Base) (n : BitVec 5) : State → Out State :=
  memLoad (4 * (n.toNat + 1)) 4 false true d a base 0

/-! Stores. -/

/-- Digest items of a lane's stored bytes, of width w (R269). -/
def storeItems (base : Base) (w : Nat) (a : LaneAcc) (bs : List Byte) : List DgItem :=
  (List.range (bs.length / w)).map fun i => ⟨digestAddr (baseSpace base) (a.off + w * i), widthCode w, leNat ((bs.drop (w * i)).take w)⟩

/-- The words of a block store as stores of their own (R192). Where lanes meet, a byte goes with the word of the highest lane that
writes it, and counts as every lower such lane's too (R191). -/
def blkStores (live : List (LaneAcc × List Byte)) (x : PendStore) : List PendStore :=
  let words := (live.map fun y => y.2.length / 4).foldl max 0
  let at' (y : LaneAcc × List Byte) : List (Nat × Nat) := y.1.parts.map fun q => (q.pa, q.len)
  let covers (y : LaneAcc × List Byte) (pa : Nat) : Bool := (partCells y.1.parts y.2).any (·.1 == pa)
  (List.range words).map fun k =>
    let mine := (live.filter fun y => decide (4 * k < y.2.length)).map fun y =>
      (y.1.lane, partAt (at' y) (4 * k), (y.2.drop (4 * k)).take 4)
    let won := mine.map fun y => (y.1, (cellsAt y.2.1 y.2.2).filter fun c => !live.any fun z => decide (y.1 < z.1.lane) && covers z c.1)
    { x with
      cells := won.flatMap (·.2)
      parts := (mine.map fun y => (y.1, y.2.1, y.2.2.length)) ++ won.flatMap fun y => y.2.flatMap fun c =>
        (live.filter fun z => decide (z.1.lane < y.1) && covers z c.1).map fun z => (z.1.lane, c.1, 1)
      vaddr := mine.map fun y => (y.1, (nget x.vaddr y.1).getD 0)
      host := mine.any fun y => regionOf y.2.1 == .host
      ctl := mine.any fun y => regionOf y.2.1 == .control }

/-- An ST form (R190): the data are captured and the store waits to be performed; of a block that fails on a later page,
the pages before are stored (R193). A releasing store reports first what its release reports (R267, R352). `w` is the digest
width. -/
def memStore (size align w : Nat) (blk : Bool) (d a : Sel) (base : Base) (disp : Int) : State → Out State :=
  memPath false (if blk then size / 4 else 1) fun sid p s =>
    let n := (size + 3) / 4
    let rel := p.order == 2
    let scope := if rel then p.scopeOr 0 else 0
    let go (p : RunPath) (s : State) : State :=
      s.memOperands sid p a base disp [(a, addrCount base), (d, n)] [] fun p s vals =>
        let as := p.lanes.map fun l => s.laneAccess sid .st base l (arg ((nget vals l).getD []) 0) disp size align
        let data := as.map fun x => (x, (((s.srcRun sid x.lane d n 16).flatMap fun v => leBytes 4 v.toNat).take size).take x.done)
        let live := data.filter fun x => !x.2.isEmpty && !(x.1.fail.isSome && (s.str sid).holds x.1.lane)
        let hits := s.accTraps blk as
        let s := s.useAcc sid base .write as
        let s := if (s.str sid).csr.dgon then s.modTeamOf sid fun t => t.fold (live.flatMap fun x => storeItems base w x.1 x.2) else s
        let store : PendStore :=
          { cells := live.flatMap fun x => partCells x.1.parts x.2
            rmws := [], scope := scope, release := rel, use := 0
            host := live.any fun x => x.1.inRegion .host
            parts := live.flatMap fun x => x.1.parts.map fun q => (x.1.lane, q.pa, q.len)
            vaddr := live.map fun x => (x.1.lane, x.1.addr)
            ctl := live.any fun x => x.1.inRegion .control
            issued := s.cycle }
        let stores := if blk then blkStores live store else [store]
        let s := if live.isEmpty then s else s.addStores sid stores
        s.splitOff sid p hits
    if rel then s.raiseDue sid p p.duePc false true (decide (4 ≤ scope)) go else go p s

def execStB8 (d a : Sel) (base : Base) (off : BitVec 8) : State → Out State := memStore 1 1 1 false d a base (dispOf off 1)
def execStB16 (d a : Sel) (base : Base) (off : BitVec 8) : State → Out State := memStore 2 2 2 false d a base (dispOf off 2)
def execStB32 (d a : Sel) (base : Base) (off : BitVec 8) : State → Out State := memStore 4 4 4 false d a base (dispOf off 4)
def execStB64 (d a : Sel) (base : Base) (off : BitVec 8) : State → Out State := memStore 8 8 8 false d a base (dispOf off 8)
def execStB128 (d a : Sel) (base : Base) (off : BitVec 8) : State → Out State := memStore 16 16 8 false d a base (dispOf off 16)
def execStBlk (d a : Sel) (base : Base) (n : BitVec 5) : State → Out State :=
  memStore (4 * (n.toNat + 1)) 4 4 true d a base 0

/-! Atomics. -/

/-- The AtomicOps (R200). -/
def hostOp (op : Nat) : Bool := op == 0 || op == 10 || op == 8 || op == 9 || op == 11

/-- Check 8 of R186 and the forms the host link has: an atomic's access after it (R200; 15_fabric_host.md R406). -/
def State.hostCheck (s : State) (op : Nat) (a : LaneAcc) : LaneAcc :=
  if a.fail.isNone && a.inRegion .host then
    if !hostOp op then { a with fail := some (0x32, 0, a.addr), parts := [] }
    else if !(s.host.atomok && s.host.atomEn) then { a with fail := some (0xB2, 1, a.addr), parts := [] }
    else a
  else a

/-- The bytes of a speculative atomic's location are noted, each for itself: a re-execution does not restore them (R293). -/
def State.noteSpec (s : State) (sid : Nat) (use : Nat) (rs : List Rmw) : State :=
  if use = 4 then s.modCtx (s.gridOf sid).ctx fun c => { c with ck := { c.ck with
    spec := rs.foldl (fun l r => (List.range (rmwBytes r.op)).foldl (fun l i => nset l (r.addr + i) (1, c.dbg.count)) l) c.ck.spec } }
  else s

/-- Give the old values to the destination, pending, and let the failing lanes trap. -/
def State.atomEnd (s : State) (sid : Nat) (p : RunPath) (op : Nat) (d : Sel) (old : NMap Word64)
    (hits : List (Nat × Nat × Nat × Word64)) : State :=
  let acq := p.order == 1 || p.order == 3
  let st := s.str sid
  let n := rmwBytes op / 4
  let s :=
    if d == .zero then (if acq && !old.isEmpty then s.acquireAt st.core (p.scopeOr 0) else s)
    else if old.isEmpty then s
    else s.pend sid
      { writes := old.flatMap fun (l, m) => st.dstWrites l d ((List.range n).map fun i => (m >>> (32 * i)).setWidth 32)
        on := .ready, acq := if acq then some (p.scopeOr 0) else none }
  s.splitOff sid p hits

/-- Perform an atomic now; lanes with host memory make their requests and the path waits for the completions (R200), or trap where the link is
down (R406). -/
def State.atomNow (s : State) (sid : Nat) (p : RunPath) (op : Nat) (d : Sel) (host : List Nat) (rs : List Rmw)
    (hits : List (Nat × Nat × Nat × Word64)) : State :=
  let todo := rs.filter fun r => host.contains r.lane
  let (old, s) := s.performRmws (s.str sid).core 0x8400000 (rs.filter fun r => !host.contains r.lane)
  if todo.isEmpty then s.atomEnd sid p op d old hits
  else if !s.host.up then s.atomEnd sid p op d old (hits ++ todo.map fun r => (r.lane, 0xB0, 0, BitVec.ofNat 64 r.va))
  else
    let reqs : List HostReq := todo.map fun r => ⟨sid, r.lane, r, s.cycle⟩
    let s := s.modHost fun h => { h with reqs := h.reqs ++ reqs }
    let s := reqs.foldl (fun s q => s.send (.atomicOp q)) s
    s.await sid p (.host op d todo (old.map fun (l, m) => (l, m)) (hits.map fun (l, c, sub, a) => (l, c, sub, a.toNat)))

/-- An ATOM form (R198): op4. A form without destination and without an acquire waits to be performed as a store does;
any other is performed at its issue, once what it must follow is done. -/
def memAtomic (op : Nat) (d a b : Sel) (base : Base) : State → Out State :=
  let n := rmwBytes op
  let w := n / 4
  let cas := op == 9 || op == 11
  memPath false 1 fun sid p s =>
      let rel := decide (2 ≤ p.order)
      let scope := p.scopeOr 0
      let posted := d == .zero && p.order != 1 && p.order != 3
      let go0 (p : RunPath) (s : State) : State :=
       s.memOperands sid p a base 0 ([(a, addrCount base), (b, w)] ++ if cas then [(d, w)] else []) [(d, w)] fun p s vals =>
        let acc (l : Nat) : LaneAcc :=
          s.hostCheck op (s.laneAccess sid .atom base l (arg ((nget vals l).getD []) 0) 0 n n)
        let as := p.lanes.map acc
        let rmw (x : LaneAcc) : Rmw :=
          let v := (nget vals x.lane).getD []
          ⟨op, ((x.parts.head?).map (·.pa)).getD 0, arg v 1, if cas then arg v 2 else 0, x.lane, x.addr⟩
        let anyHost := as.any fun x => x.fail.isNone && x.inRegion .host
        if !posted || anyHost then
          let go (p : RunPath) (s : State) : State :=
            let as := as.filter fun x => p.lanes.contains x.lane
            let good := as.filter (·.fail.isNone)
            match (s.str sid).blocked true good with
            | some (lo, hi) => s.await sid p (.rmwHold lo hi)
            | none =>
              let s := (s.useAcc sid base .write as).noteSpec sid p.use (good.map rmw)
              s.atomNow sid p op d ((good.filter (·.inRegion .host)).map (·.lane)) (good.map rmw) (s.accTraps false as)
          if rel then s.releaseAtomic sid p scope go else go p s
        else
          let good := as.filter (·.fail.isNone)
          let hits := s.accTraps false as
          let s := (s.useAcc sid base .write as).noteSpec sid p.use (good.map rmw)
          let store : PendStore :=
            { cells := [], rmws := good.map rmw, scope := if rel then scope else 0, release := rel, use := p.use, host := false
              parts := good.flatMap fun x => x.parts.map fun q => (x.lane, q.pa, q.len)
              vaddr := good.map fun x => (x.lane, x.addr), ctl := false, issued := s.cycle }
          let s := if good.isEmpty then s else s.modStr sid fun st => { st with fl := { st.fl with stores := st.fl.stores ++ [store] } }
          s.splitOff sid p hits
      if posted && rel && p.got.isNone then s.raiseDue sid p p.duePc false true (decide (4 ≤ scope)) go0 else go0 p s

def execAadd (d a b : Sel) (base : Base) : State → Out State := memAtomic 0 d a b base
def execAand (d a b : Sel) (base : Base) : State → Out State := memAtomic 1 d a b base
def execAor (d a b : Sel) (base : Base) : State → Out State := memAtomic 2 d a b base
def execAxor (d a b : Sel) (base : Base) : State → Out State := memAtomic 3 d a b base
def execAminS32 (d a b : Sel) (base : Base) : State → Out State := memAtomic 4 d a b base
def execAmaxS32 (d a b : Sel) (base : Base) : State → Out State := memAtomic 5 d a b base
def execAminN32 (d a b : Sel) (base : Base) : State → Out State := memAtomic 6 d a b base
def execAmaxN32 (d a b : Sel) (base : Base) : State → Out State := memAtomic 7 d a b base
def execAxchg (d a b : Sel) (base : Base) : State → Out State := memAtomic 8 d a b base
def execAcas (d a b : Sel) (base : Base) : State → Out State := memAtomic 9 d a b base
def execAadd64 (d a b : Sel) (base : Base) : State → Out State := memAtomic 10 d a b base
def execAcas64 (d a b : Sel) (base : Base) : State → Out State := memAtomic 11 d a b base
def execAfadd (d a b : Sel) (base : Base) : State → Out State := memAtomic 12 d a b base
def execAfaddBf16x2 (d a b : Sel) (base : Base) : State → Out State := memAtomic 13 d a b base
def execAincWrap (d a b : Sel) (base : Base) : State → Out State := memAtomic 14 d a b base

end Sys2Proof.Machine
end

