-- ==== Sys2Proof/Machine/Resume.lean ====
section
/-! DEFINITION. Events that move strands on: a wait that is over, results that land, stores performed, timers
(01_machine_state.md R10; 03_fetch_and_formats.md R88, R89; 06 R173, R183; 07 R190, R200; 13 R352, R356). -/

namespace Sys2Proof.Machine

/-! Waits. -/

/-- The live threads of a group of a strand, those of deeper groups included, all wait at `rbar` in it (R173). -/
def Strand.rbarReady (st : Strand) (g : Nat) : Bool :=
  let at' := st.waits.flatMap fun w => if w.on == .rbar then w.path.lanes else []
  let mine := st.liveLanes.filter fun l => decide (g ≤ st.group l)
  !mine.isEmpty && mine.all fun l => st.group l == g && at'.contains l

/-- Release the threads of a group from `rbar`: those at one clause form one path. -/
def Strand.releaseRbar (st : Strand) (g : Nat) : Strand :=
  let mine (w : WaitPath) : Bool := w.on == .rbar && st.group (lowest w.path.lanes) == g
  let join (ws : List WaitPath) (w : WaitPath) : List WaitPath :=
    if ws.any fun x => x.path.hdrAddr == w.path.hdrAddr then
      ws.map fun x => if x.path.hdrAddr == w.path.hdrAddr then
        { x with path := { x.path with lanes := unionNat x.path.lanes w.path.lanes } } else x
    else ws ++ [{ w with on := .released }]
  { st with waits := (st.waits.filter (!mine ·)) ++ (st.waits.filter mine).foldl join [] }

/-- What a path waits for has come about. -/
def State.waitHolds (s : State) (sid : Nat) (w : WaitPath) : Bool :=
  let st := s.str sid
  let c := s.core st.core
  let team := s.team st.team
  match w.on with
  | .mask m | .word m => s.maskHolds sid m
  | .switch | .leave _ => !st.pending
  | .reqRoom n => s.reqRoom st.core n
  | .fenceHold => !st.fullHeld
  | .locket at' => s.locketFree sid at'
  | .words _ _ _ _ _ _ => true
  | .ports pops push => match s.portGate sid w.path.lanes pops push with
    | .wait => false
    | _ => true
  | .latch port => ((nget st.ports port).bind (·.latch)).isNone
  | .slotAlloc port => match s.portQ sid port with
    | some (_, q) => q.closed || q.canAlloc
    | none => true
  | .slotTake port => match s.portQ sid port with
    | some (_, q) => q.closed || q.canTake
    | none => true
  | .slotRelease _ => st.settled
  | .release sc => st.released sc
  | .relAtom sc => !st.pending && st.released sc
  | .acquire => !st.pending && st.merged
  | .full sc => !st.pending && st.released sc && st.merged
  | .acqHold => !st.acqHeld
  | .rmwHold lo hi => st.unblocked lo hi
  | .bar _ _ targets => targets.isEmpty
  | .ticket t => let k := (s.gridOf sid).ticket t; k.value == team.teamid || k.effect
  | .rbar => st.rbarReady (st.group (lowest w.path.lanes))
  | .scopeOpen _ | .scopeClose => st.allGathered w.path || st.scopeClash
  | .frameSpace n since =>
    (s.openRequests st.core st.part).all (fun t => decide (since ≤ t)) && (s.findBlock st.core st.part n).isSome
  | .frameUse => !s.frameNamed st.core st.frame.uid
  | .sleep _ => false
  | .mxFree _ _ _ push => s.tokenTurn sid w.path push !c.freeMx.isEmpty
  | .cpFree _ _ push => s.tokenTurn sid w.path push !c.freeCp.isEmpty
  | .mx k _ => match nget c.mx k with
    | some t => t.st == .done || t.st == .aborted || (t.st == .stopped && !t.reported && s.mxReporter sid t.strand)
    | none => true
  | .cp k _ => match nget c.cp k with
    | some t => t.st == .done || (t.st == .stopped && !t.reported && s.mxReporter sid t.strand)
    | none => true
  | .mxDone _ | .released => true
  | .drnSlot k => !c.mx.any fun x => x.2.team == st.team && x.2.par.dslot == k && x.2.st != .done && x.2.st != .aborted
  | .opnd => s.resultsIn sid
  | .ifetch => s.fetchSettled sid
  | .file todo _ since => match todo with
    | t :: _ => (s.fileOne sid t since).isSome
    | [] => true
  | .reformWait => s.reformReady sid
  | .postRoom _ => s.postFits sid
  | .gate n => s.gateOpen sid n w.path.lanes (st.fl.gate || decide (2 ≤ w.path.order))
  | .posts n => (s.heldPosts sid).all fun k => decide (n ≤ k)
  | .lsn l => decide (l ≤ s.appliedLsn sid)
  | .post h => s.postComplete sid h
  | .fab h => st.fabReady h || !st.fl.fabFails.isEmpty
  | .digest => st.fl.stores.isEmpty && (s.cpHeld sid).all fun t => t.2.st == .done
  | .tret => st.fl.stores.isEmpty && st.group (lowest w.path.lanes) == st.csr.tlevel && st.allReturn w.path
  | .host _ _ todo _ _ => todo.isEmpty

/-- What a replay applies so that a wait can end (R419). -/
def State.replayFor (s : State) (sid : Nat) (w : WaitPath) : State :=
  let ctx := (s.gridOf sid).ctx
  match w.on with
  | .lsn l => s.wantLsn ctx l
  | .post h => s.wantLsn ctx (((nget (s.str sid).fl.posts h).bind (·.lsn)).getD 0)
  | .mask m | .word m => if bitOf m 5 then s.wantPosts sid else s
  | .locket _ => s.wantPosts sid
  | _ => s

/-- A path goes on after its wait: one that waited before a clause is ready at its header again, in one path with every ready thread there
(R10, R11); a block load reads its next word, and an atomic on host memory ends, at once. -/
def State.wake (s : State) (sid : Nat) (w : WaitPath) : State :=
  let p := w.path
  match w.on with
  | .mask _ => s.modStr sid fun st => st.modThs p.lanes fun _ t => { t with st := .ready, pc := p.hdrAddr }
  | .words d left lanes bad srcs kept => (s.follow sid p).blkStep sid p d left lanes bad srcs kept
  | .host op d _ vals bad => s.atomEnd sid p op d vals (bad.map fun (l, c, sub, x) => (l, c, sub, BitVec.ofNat 64 x))
  | .switch =>
    s.raiseDue sid p (fun c l => if c = 0xB0 then p.prev else if p.pos ≤ p.count then p.recPc else p.out l) true false false
      fun p s => s.goOn sid p
  | .leave taken =>
    s.raiseDue sid p (fun c l => if c = 0xB0 then p.recPc else (nget taken l).getD (p.out l)) true false false fun p s =>
      s.clauseExit sid p (taken.filter fun t => p.lanes.contains t.1) (lessNat p.lanes (taken.map (·.1)))
  | on => s.addRun ⟨sid, { p with resume := some on }⟩

/-- WAIT_CONDITION_MET (R10): args strand, place of the wait among the strand's. -/
def State.waitMet (s : State) (sid i : Nat) : State :=
  match (s.str sid).waits[i]? with
  | none => s
  | some w =>
    if s.haltedStrand sid then s
    else
      let s1 := s.replayFor sid w
      if !s1.waitHolds sid w then s1
      else match w.on with
        | .rbar => s1.modStr sid fun st => st.releaseRbar (st.group (lowest w.path.lanes))
        | .scopeOpen _ | .scopeClose =>
          if (s1.str sid).allGathered w.path then
            (s1.modStr sid fun st => { st with waits := st.waits.eraseIdx i }).wake sid w
          else s1.scopeClashTrap sid
        | _ => (s1.modStr sid fun st => { st with waits := st.waits.eraseIdx i }).wake sid w

def execWaitConditionMet (s : State) : Out State := .next (s.waitMet (s.arg 0) (s.arg 1))

/-- SLEEP_INTERVAL_ELAPSED (R183): args strand, place of the wait. -/
def State.sleepOver (s : State) (sid i : Nat) : State :=
  match (s.str sid).waits[i]? with
  | some ⟨p, .sleep till⟩ =>
    if s.cycle < till || s.haltedStrand sid then s
    else (s.modStr sid fun st => { st with waits := st.waits.eraseIdx i }).advance sid p
  | _ => s

def execSleepIntervalElapsed (s : State) : Out State := .next (s.sleepOver (s.arg 0) (s.arg 1))

/-! Loads. -/

/-- A load's value is there: a pending `lp.ld` reads the replica once the strand's earlier posts are complete, and no earlier one of
the strand is pending, so that none reads it at a lower LSN than an earlier one (R260). -/
def State.loadReady (s : State) (sid i : Nat) (x : PendLoad) : Option PendLoad :=
  match x.on with
  | .ready | .host => some x
  | .posts h =>
    if ((s.str sid).fl.loads.take i).all (!·.ofLocket) && (s.str sid).fl.posts.all fun q =>
        (decide (q.1 < 2 ^ 32) && !(decide (1 ≤ sub32 h q.1) && decide (sub32 h q.1 < 2 ^ 31))) || s.postDone sid q.2 then
      let bs := (List.range 8).map fun i => s.locketByte (s.gridOf sid).ctx (locketBase + x.off + i)
      some { x with writes := x.writes.map fun (r, hi) => (r, BitVec.ofNat 32 (leNat ((bs.drop (4 * hi.toNat)).take 4))) }
    else none
  | _ => none

/-- Lane addresses of a load for a soft error. -/
def PendLoad.addrOf (x : PendLoad) (l : Nat) : Nat := (nget x.vaddr l).getD x.off

/-- VARIABLE_LATENCY_RESULT (R89): args strand, place among its loads, and the places among its words of those with an uncorrectable soft
error (R352), which are not written. An `lp.ld` reads its value first, and its registers are written at a later such event (R89, R90). -/
def State.landLoad (s : State) (sid i : Nat) (soft : List Nat) : State :=
  let s := match (s.str sid).fl.loads[i]? with
    | some x => (match x.on with
      | .posts _ => s.wantPosts sid
      | _ => s)
    | none => s
  match (s.str sid).fl.loads[i]? with
  | none => s
  | some x0 =>
    match s.loadReady sid i x0 with
    | none => s
    | some x =>
      if x0.ofLocket then s.modStr sid fun st => { st with fl := { st.fl with loads := st.fl.loads.set i { x with on := .ready } } }
      else
      let s := s.modStr sid fun st => { st with fl := { st.fl with loads := st.fl.loads.eraseIdx i } }
      let lost := x.on == .host && !s.host.up
      let words := x.writes.zipIdx.map fun w => (w.1, soft.contains w.2)
      let hit := (words.filter (·.2)).map (·.1.1.lane)
      let bad := dedup hit
      let s := if lost then s.loseLoad sid x else s
      let s := s.modStr sid fun st => { st with fl := { st.fl with soft := st.fl.soft ++ bad.map fun l => (l, x.addrOf l) } }
      let s := s.modFw fun f => { f with serrunc := f.serrunc + BitVec.ofNat 32 hit.length }
      let s := s.regPuts sid ((words.filter fun w => !w.2 && !(lost && x.hosts.contains w.1.1.lane)).map (·.1))
      match x.acq with
      | some sc => s.acquireAt (s.str sid).core sc
      | none => s

def execVariableLatencyResult (s : State) : Out State := .next (s.landLoad (s.arg 0) (s.arg 1) (s.args.drop 2))

/-! Stores. -/

/-- An earlier store of one strand must be performed before a later one: they meet in one lane, or both write control
registers. -/
def PendStore.before (x y : PendStore) : Bool :=
  (x.ctl && y.ctl) || y.parts.any fun q => x.parts.any fun r =>
    r.1 == q.1 && decide (r.2.1 < q.2.1 + q.2.2) && decide (q.2.1 < r.2.1 + r.2.2)

/-- A store may be performed now (R196, R282). -/
def Strand.storeFree (st : Strand) (i : Nat) (x : PendStore) : Bool :=
  ((st.fl.stores.take i).all fun y => !y.before x) &&
  (!x.release || (!st.pending && !st.hostOrdered && ((st.fl.stores.take i).all fun y => y.use == 2) &&
    st.fl.fabs.all fun f => f.2.passes x.scope))

/-- STORE_ACKNOWLEDGE (R190): args strand, place among its stores. -/
def State.storeAck (s : State) (sid i : Nat) : State :=
  let st := s.str sid
  match st.fl.stores[i]? with
  | none => s
  | some x =>
    if !st.storeFree i x then s
    else
      let (lost, s) := s.performStore st.core x
      (s.modStr sid fun st => { st with fl := { st.fl with
        stores := st.fl.stores.eraseIdx i, hostLost := st.fl.hostLost ++ lost } }).settleLevels sid

/-- The same for a store whose strand is gone: its place among those. -/
def State.orphanAck (s : State) (i : Nat) : State :=
  match s.orphans[i]? with
  | none => s
  | some x =>
    if (s.orphans.take i).any fun y => y.team == x.team && y.store.before x.store then s
    else { (s.performStore x.core x.store).2 with orphans := s.orphans.eraseIdx i }

def execStoreAcknowledge (s : State) : Out State :=
  .next (if s.arg 2 = 1 then s.orphanAck (s.arg 1) else s.storeAck (s.arg 0) (s.arg 1))

/-- Perform a store, and before it those of the strand that must come first, in order (R282). -/
def State.publish (s : State) (sid : Nat) : Nat → Nat → State
  | 0, _ => s
  | n + 1, i =>
    let st := s.str sid
    match st.fl.stores[i]? with
    | none => s
    | some x =>
      if st.storeFree i x then s.storeAck sid i
      else match (st.fl.stores.take i).findIdx? (·.before x) with
        | none => s
        | some j =>
          let t := s.publish sid n j
          if (t.str sid).fl.stores.length < st.fl.stores.length then t.publish sid n (i - (st.fl.stores.length - (t.str sid).fl.stores.length))
          else s

/-- QUANTUM_PUBLISH_DEADLINE (R291): a quantum atomic is published 4,096 cycles after its issue, with the earlier accesses of the issuer
to the location, which come before it; where one of those cannot be performed yet, without them: a pending quantum atomic is an exception
to the order of one thread's accesses (R282). -/
def State.quantumDue (s : State) (sid i : Nat) : State :=
  match (s.str sid).fl.stores[i]? with
  | some x =>
    if x.use = 3 ∧ x.issued + 4096 ≤ s.cycle then
      let t := s.publish sid ((s.str sid).fl.stores.length + 1) i
      match (t.str sid).fl.stores.findIdx? (· == x) with
      | none => t
      | some j => ((t.performStore (t.str sid).core x).2.modStr sid fun st =>
          { st with fl := { st.fl with stores := st.fl.stores.eraseIdx j } }).settleLevels sid
    else s
  | none => s

def execQuantumPublishDeadline (s : State) : Out State := .next (s.quantumDue (s.arg 0) (s.arg 1))

/-! AtomicOps (R200; 15_fabric_host.md R406). -/

/-- Change the waiting path of a host atomic. -/
def State.hostAnswer (s : State) (sid lane : Nat) (old : Option Word64) (trap : Option (Nat × Nat × Nat)) : State :=
  s.modStr sid fun st => { st with waits := st.waits.map fun w => match w.on with
    | .host op d todo vals bad =>
      if todo.any (·.lane == lane) then
        let vals := match old with
          | some v => nset vals lane v
          | none => vals
        let bad := match trap with
          | some (c, sub, a) => bad ++ [(lane, c, sub, a)]
          | none => bad
        { w with on := .host op d (todo.filter fun r => r.lane != lane) vals bad }
      else w
    | _ => w }

/-- End the request at a place among those outstanding: 0 performed, 1 Unsupported Request, 2 lost or Completer Abort, when the
location may have been changed. -/
def State.hostDone (s : State) (i status : Nat) : State :=
  match s.host.reqs[i]? with
  | none => s
  | some q =>
    let s := s.modHost fun h => { h with reqs := h.reqs.eraseIdx i }
    let trap (c sub : Nat) := s.hostAnswer q.strand q.lane none (some (c, sub, q.rmw.va))
    match status with
    | 0 =>
      let (m, s) := s.performRmw noCore q.rmw 0xC800000
      s.hostAnswer q.strand q.lane (some (BitVec.ofNat 64 m)) none
    | 1 => trap 0xB2 2
    | _ => let s' := trap 0xB0 0; if s'.freeB 0xC900000 then (s'.performRmw noCore q.rmw 0xC800000).2 else s'

/-- ATOMICOP_COMPLETION: args place, status. -/
def execAtomicopCompletion (s : State) : Out State := .next (if s.host.up then s.hostDone (s.arg 0) (s.arg 1) else s)

/-- The completion timeout of Device Control 2, in microseconds: 50 ms by default (R406), else the least of the range that PCI Express gives
its value (PRESUMED, notes/assumptions/11.md). -/
def ctoUs (v : Nat) : Nat :=
  match v with
  | 1 => 50
  | 2 => 1000
  | 5 => 16000
  | 6 => 65000
  | 9 => 260000
  | 10 => 1000000
  | 13 => 4000000
  | 14 => 17000000
  | _ => 50000

/-- An access to host memory has waited for its completion as long as that. -/
def State.hostLate (s : State) (since : Nat) : Bool := decide (since + ctoUs s.host.cto * cyclesPerUs ≤ s.cycle)

/-- HOST_COMPLETION_TIMEOUT (R352, R406): args 0 and the place of an AtomicOp, or 1, a strand and the place of its load. -/
def State.hostTimeout (s : State) : State :=
  if s.arg 0 = 0 then (if (s.host.reqs[s.arg 1]?).any fun q => s.hostLate q.since then s.hostDone (s.arg 1) 2 else s)
  else
    let sid := s.arg 1
    match (s.str sid).fl.loads[s.arg 2]? with
    | some x =>
      if x.on = .host ∧ s.hostLate x.since then
        let s := s.modStr sid fun st => { st with fl := { st.fl with loads := st.fl.loads.eraseIdx (s.arg 2) } }
        (s.loseLoad sid x).regPuts sid (x.writes.filter fun w => !x.hosts.contains w.1.lane)
      else s
    | none => s

def execHostCompletionTimeout (s : State) : Out State := .next s.hostTimeout

/-! The watchdog. -/

/-- A path waits, or is about to go on, in a `bar.sync`, whose arrival has been counted. -/
def RunPath.inSync (p : RunPath) (on : Wait) : Bool :=
  match on with
  | .bar _ _ _ => decide ((p.words.getD (p.pos - 1) 0).toNat / 0x200000 = 0x402)
  | _ => false

/-- Take back what several words popped, each time one that no pop of its queue has followed, if there is one. -/
def State.unpopAll (s : State) (sid : Nat) : Nat → List Undo → State
  | 0, _ | _, [] => s
  | n + 1, u :: us =>
    let last (u : Undo) : Bool := ((s.liveQ (s.str sid).team u.desc).map (·.c1)) == some u.after
    let v := ((u :: us).find? last).getD u
    (s.unpop sid [v]).unpopAll sid n ((u :: us).erase v)

/-- Every live thread's recorded PC; those of a counted `bar.sync` will not arrive again. An abandoned wait has no effect: what its word
popped stands in its queue again (R356). -/
def State.abandon (s : State) (sid : Nat) : State :=
  let s0 := s
  let st := s.str sid
  let mine := (st.waits.map fun w => (w.path, some w.on)) ++ (s.issuing sid).map fun r => (r.path, r.path.resume)
  let synced (l : Nat) : Bool := mine.any fun x => x.1.lanes.contains l && x.2.any x.1.inSync
  let s := s.unpopAll sid (mine.flatMap (·.1.undo)).length (mine.flatMap (·.1.undo))
  let s := s.modStr sid fun st => { st with
    lanes := nall st.lanes fun l t => if t.live then { t with pc := s0.pcOf sid l, resumeWait := t.resumeWait || synced l } else t
    waits := [] }
  { s with runs := s.runs.filter (·.strand != sid) }

/-- The watchdog's period (R130). -/
def KDesc.period (kd : KDesc) : Nat := 2 ^ (if kd.wdog = 0 then 24 else kd.wdog)

/-- WATCHDOG_EXPIRY (R344, R356): arg strand. -/
def State.watchdog (s : State) (sid : Nat) : State :=
  let st := s.str sid
  if !nhas s.strands sid || st.finished || st.csr.wdog < (s.gridOf sid).kd.period then s
  else
    let s := s.abandon sid
    let st := s.str sid
    let hits (ls : List Nat) : List LaneTrap := ls.map fun l => ⟨l, 0x70, 0, 0, (st.th l).pc⟩
    match st.csr.tlevel with
    | 0 => s.trap sid (hits st.liveLanes)
    | 1 =>
      let s := s.modStr sid fun st => st.modThs (st.liveLanes.filter fun l => st.group l == 0) fun _ t => { t with st := .held 0 }
      s.trap sid (hits (st.liveLanes.filter fun l => st.group l == 1))
    | _ =>
      let ls := st.csr.s2.filter (st.liveLanes.contains ·)
      (s.modStr sid fun st => st.modThs st.liveLanes fun _ t => { t with st := .held 3 }).killBy sid 4 (st.th (lowest ls)).pc 0 0x70 (laneWord ls)

def execWatchdogExpiry (s : State) : Out State := .next (s.watchdog (s.arg 0))

end Sys2Proof.Machine
end

