-- ==== Sys2Proof/Machine/Host.lean ====
section
/-! DEFINITION. The host link (15_fabric_host.md R405, R406, R408), the end of a debug halt, and sampling
(16_debug_determinism.md R411, R415, R416). -/

namespace Sys2Proof.Machine

/-! Requests of the host (R405; 17_firmware_power_conformance.md R431). -/

/-- Bytes of tier 2. -/
def tier2Size : Nat := 384 * 2 ^ 30

/-- What BAR 0 shows before and outside RUN: of a package that failed only FWSTAT, FWVER and FWSVN. -/
def State.bar0Reads (s : State) (off n : Nat) : Bool :=
  match s.fw.st with
  | .reset | .shut => false
  | .fail => decide (0x5C0000 ≤ off) && decide (off + n ≤ 0x5C000C)
  | _ => decide (off + n ≤ 2 ^ 24)

/-! Configuration space (R405; the places of PCI Express, notes/assumptions/66.md). -/

/-- Bytes of a number from an address on. -/
def bytesAt (a n x : Nat) : List (Nat × Byte) := (leBytes n x).zipIdx.map fun b => (a + b.2, b.1)

/-- What is read-only: the identifiers; a capability list of MSI-X with 64 vectors, at 0x40, and PCI Express, at 0x50, with payloads of up to
512 bytes, 10-bit tags and AtomicOp completion of 32 and 64 bits; and the Resizable BAR capability, at 0x100, of BAR 4 with the sizes from
1 GiB to 512 GiB. -/
def configId : List (Nat × Byte) :=
  bytesAt 0x00 2 0x1F4B ++ bytesAt 0x02 2 0x0920 ++ bytesAt 0x06 2 0x0010 ++ bytesAt 0x08 1 0x01 ++ bytesAt 0x09 3 0x120000 ++
  bytesAt 0x0E 1 0 ++ bytesAt 0x2C 2 0x1F4B ++ bytesAt 0x2E 2 0x0001 ++ bytesAt 0x34 1 0x40 ++
  bytesAt 0x40 2 0x5011 ++ bytesAt 0x42 1 63 ++ bytesAt 0x50 2 0x0010 ++ bytesAt 0x54 4 2 ++
  bytesAt 0x74 4 0x30180 ++ bytesAt 0x100 4 0x00010015 ++ bytesAt 0x104 4 0x00FFC000 ++ bytesAt 0x108 1 0x24

/-- Log2 of the bytes of the BAR whose low half stands at a place, and its type bits: 64-bit, the last one prefetchable. -/
def State.barOf (s : State) (a : Nat) : Option (Nat × Nat) :=
  match a with
  | 0x10 => some (24, 0x4)
  | 0x18 => some (26, 0x4)
  | 0x20 => some (20 + s.host.bar4, 0xC)
  | _ => none

/-- A byte of configuration space. Of a BAR the bits below its size read as 0 and the type. -/
def State.configByte (s : State) (a : Nat) : Byte :=
  let raw := (nget s.host.config a).getD 0
  match nget configId a, s.barOf (a / 8 * 8) with
  | some b, _ => b
  | none, some (n, ty) =>
    let i := a % 8
    BitVec.ofNat 8 (raw.toNat / 2 ^ (n - 8 * i) * 2 ^ (n - 8 * i) + if i = 0 then ty else 0)
  | none, none =>
    if a = 0x78 then BitVec.ofNat 8 (s.host.cto + 64 * natOf s.host.atomEn)
    else if a = 0x109 then BitVec.ofNat 8 s.host.bar4
    else if a = 0x43 then raw &&& 0xC0
    else raw

/-- A byte is written to configuration space: into Device Control 2, into the size of BAR 4 where that is one of its sizes, or kept. -/
def HostLink.configPut (h : HostLink) (a : Nat) (b : Byte) : HostLink :=
  if nhas configId a then h
  else if a = 0x78 then { h with cto := b.toNat % 16, atomEn := b.getLsbD 6 }
  else if a = 0x109 then (if 10 ≤ b.toNat % 64 ∧ b.toNat % 64 ≤ 19 then { h with bar4 := b.toNat % 64 } else h)
  else { h with config := nset h.config a b }

/-- PCIE_CONFIG_WRITE: args 0 and Device Control 2, or 1, an offset in configuration space and bytes (notes/assumptions/11.md). -/
def State.configWrite (s : State) : State :=
  if s.arg 0 = 0 then s.modHost fun h => { h with cto := s.arg 1 % 16, atomEn := bitOf (s.arg 1) 6 }
  else s.modHost fun h => (s.args.drop 2).zipIdx.foldl (fun h x => h.configPut (s.arg 1 + x.2) (BitVec.ofNat 8 x.1)) h

def execPcieConfigWrite (s : State) : Out State := .next s.configWrite

/-- An access to the tier-2 window lies inside BAR 4 as it is sized: no other is the function's (R405). -/
def State.inBar4 (s : State) (off n : Nat) : Bool := decide (off + n ≤ 2 ^ (20 + s.host.bar4))

/-! Windows. -/

/-- HOST_WINDOW_READ: args BAR, offset, bytes; as BAR 6, configuration space. A kick page reads as the spec leaves open. -/
def State.hostRead (s : State) (bar off n : Nat) : State :=
  if !s.host.up then s
  else if bar = 6 then s.send (.hostReply ((List.range n).map fun i => s.configByte (off + i)))
  else if bar = 0 then
    if s.bar0Reads off n then (s.send (.hostReply (s.physBytes (controlBase + off) n))).noteRead (controlBase + off) n else s.send .hostUr
  else if s.fw.st ≠ .run then s.send .hostUr
  else if bar = 4 then
    if !s.inBar4 off n then s
    else if tier2Size < off + n then s.send .hostUr else s.send (.hostReply (s.mem.readN (tier2Base + off) n))
  else s.send (.hostReply (s.freeBytes 0x14000000 n))

def execHostWindowRead (s : State) : Out State := .next (s.hostRead (s.arg 0) (s.arg 1) (s.arg 2))

/-- What the host writes: of its own memory, where the address is one of host memory, which it reaches whatever the link and the package
do (R299; notes/assumptions/75.md); else at an offset in the tier-2 window. -/
def State.hostWrite (s : State) (off : Nat) (bs : List Byte) : State :=
  if hostBase ≤ off then (if off + bs.length ≤ 2 * hostBase then s.outerCells (cellsAt off bs) else s)
  else if !s.host.up ∨ s.fw.st ≠ .run ∨ !s.inBar4 off bs.length ∨ tier2Size < off + bs.length then s else s.outerCells (cellsAt (tier2Base + off) bs)

/-- The memory plan that a loader names, allocation by allocation: region, address, bytes, FLAGS, kernel, FIRST, LAST, LSN, units and,
where FLAGS bit 0 is set, the image. -/
def planOf : Nat → List Nat → List Alloc
  | n + 1, region :: va :: size :: flags :: kernel :: first :: last :: lsn :: units :: rest =>
    let image := (rest.drop units).take size
    { va := va, region := region, size := size, fill := bitOf flags 1
      image := if bitOf flags 0 then some (image.map fun x => BitVec.ofNat 8 x) else none
      kernel := kernel, life := if first = none32 ∧ last = none32 then none else some (first, last), lsn := lsn
      units := rest.take units } :: planOf n (rest.drop (units + if bitOf flags 0 then size else 0))
  | _, _ => []

/-- The locket ranges of an allocation of region 4 (R257). -/
def State.locketRanges (s : State) (ctx : Nat) (a : Alloc) : List (Nat × Nat) :=
  (pageParts a.va a.size).filterMap fun p => match walkFrom s.mem p.1 walkLevels (s.ctx ctx).root with
    | .ok x => if regionOf x.pa = .locket then some (x.pa - locketBase, x.pa - locketBase + p.2) else none
    | .error _ => none

/-- A loader has placed a program in a context (notes/assumptions/8.md): what it names, and the bytes of the plan that are undefined or filled
until a node starts (R135, R438). Those of a locket allocation with an image or a fill come with its WRITE records. -/
def State.loadProgram (s : State) (ctx : Nat) (xs : List Nat) : State :=
  let plan := planOf xs.length (xs.drop 4)
  let s := s.modCtx ctx fun c => { c with allot := (plan.filter (·.region = 4)).flatMap (s.locketRanges ctx), prog :=
    { codeVa := xs.getD 0 0, drainVa := xs.getD 1 0, kdescVa := xs.getD 2 0, kernels := xs.getD 3 0, plan := plan } }
  plan.foldl (fun s a =>
    if a.region < 2 ∨ (a.region = 4 ∧ a.filled) then s
    else if a.life.isSome then s.undefineVa ctx a.va a.size
    else s.placeAlloc ctx a) s

/-- HOST_WINDOW_WRITE: args offset in the tier-2 window, or address in host memory, and bytes; or 2^56 and more, the number of a context
above it, and what a loader has placed there. -/
def execHostWindowWrite (s : State) : Out State :=
  .next (if 2 ^ 56 ≤ s.arg 0 then (if s.fw.st = .run then s.loadProgram (s.arg 0 % 256) (s.args.drop 1) else s)
    else s.hostWrite (s.arg 0) ((s.args.drop 1).map fun x => BitVec.ofNat 8 x))

/-- HOST_ATOMICOP_REQUEST: args offset, bytes, operation (0 FetchAdd, 1 Swap, 2 CAS), operand, compare value. The old value is
returned. -/
def State.hostAtomic (s : State) (off n op a c : Nat) : State :=
  if !s.host.up ∨ !s.inBar4 off n then s
  else if s.fw.st ≠ .run ∨ (n ≠ 4 ∧ n ≠ 8) ∨ tier2Size < off + n then s.send .hostUr
  else
    let m := s.mem.readLe (tier2Base + off) n
    let new := match op with
      | 0 => (m + a) % 256 ^ n
      | 1 => a % 256 ^ n
      | _ => if m = c % 256 ^ n then a % 256 ^ n else m
    (s.outerCells (cellsAt (tier2Base + off) (leBytes n new))).send (.hostReply (leBytes n m))

def execHostAtomicopRequest (s : State) : Out State :=
  .next (s.hostAtomic (s.arg 0) (s.arg 1) (s.arg 2) (s.arg 3) (s.arg 4))

/-! The link (R406). -/

/-- Every load from host memory of a strand is lost. -/
def State.loseLoads (s : State) (sid : Nat) : State :=
  let lost := (s.str sid).fl.loads.filter fun x => x.on == .host
  let s := s.modStr sid fun st => { st with fl := { st.fl with loads := st.fl.loads.filter fun x => x.on != .host } }
  lost.foldl (fun s x => (s.loseLoad sid x).regPuts sid (x.writes.filter fun w => !x.hosts.contains w.1.lane)) s

/-- What a strand's stores still had to send to host memory is lost. -/
def Strand.loseStores (st : Strand) : Strand :=
  let ys := st.fl.stores.map fun x => if x.host then x.dropHost else ([], x)
  { st with fl := { st.fl with stores := ys.map (·.2), hostLost := st.fl.hostLost ++ ys.flatMap (·.1) } }

/-- AtomicOps outstanding end: performed or not. -/
def State.loseReqs (s : State) : Nat → State
  | 0 => s
  | n + 1 => (s.hostDone 0 2).loseReqs n

/-- HOST_LINK_DOWN. -/
def State.linkDown (s : State) : State :=
  let s := s.modHost fun h => { h with up := false, width := 0, speed := 0 }
  let s := s.loseReqs s.host.reqs.length
  let s := (nkeys s.strands).foldl (fun s k => (s.loseLoads k).modStr k Strand.loseStores) s
  { s with orphans := s.orphans.map fun o => if o.store.host then { o with store := o.store.dropHost.2 } else o }

def execHostLinkDown (s : State) : Out State := .next s.linkDown

/-- HOST_LINK_UP: args lanes, speed. -/
def execHostLinkUp (s : State) : Out State :=
  .next (if s.fw.st = .shut then s else s.modHost fun h => { h with up := true, width := s.arg 0 % 128, speed := s.arg 1 % 16 })

/-- EQDROP_READ: arg event queue. -/
def execEqdropRead (s : State) : Out State :=
  .next (s.ifShown fun s => s.modHost fun h => { h with evqs := nmod h.evqs (s.arg 0) fun q => { q with drop := 0 } })

/-! The end of a halt (R411). -/

/-- The RESUME command: arg context. While a dump of the context is made it has no effect (notes/assumptions/12.md). A save that waited for the halt counts its timeout from here; held frames are performed. -/
def State.debugResume (s : State) (ctx : Nat) : State :=
  let d := (s.ctx ctx).dbg
  if !d.halted || d.dump.isSome || !(d.why == 1 || d.why == 2) then s
  else
    let s := (s.modCtx ctx fun c => { c with dbg := { c.dbg with halted := false, why := 0, bp := 0 } }).resumeArrays (s.inCtx ctx)
    let s := { s with teams := nall s.teams fun t x => if x.saving && s.inCtx ctx t then { x with stopReq := s.cycle } else x }
    s.flushHalted

def execDbgcmdResume (s : State) : Out State := .next (s.ifRun fun s => s.debugResume (s.arg 0))

/-! Sampling. Args: the partition, 4 core + partition. -/

/-- The occupied strand slots of a partition. -/
def State.inPart (s : State) (k : Nat) : List Nat := (s.strands.filter fun x => 4 * x.2.core + x.2.part == k && decide (x.2.part < 4) && !x.2.finished).map (·.1)

/-- Set a sampler's tag. -/
def State.setTag (s : State) (k : Nat) (t : Tag) : State := s.modDbg fun d => { d with tags := nset d.tags k t }

/-- A word as a tag holds it. -/
def State.tagWord (s : State) (sid : Nat) (lanes : List Nat) (pc : Word64) (w : Word) : Word64 × Word × Nat × Word × Word :=
  let t := (s.str sid).th (lowest lanes)
  (pc, w, laneMask lanes, t.anchorOrd, t.offset pc)

/-- SAMPLE_INTERVAL_EXPIRY: a strand is chosen. One that freely awaits fetch needs no following (R415). -/
def State.sampleDue (s : State) (k : Nat) : State :=
  let d := s.dbg
  if !d.sampEn || nget d.due k != some 0 || nhas d.tags k then s
  else
    let s := s.modDbg fun d => { d with due := ndel d.due k }
    match s.inPart k with
    | [] => s
    | l =>
      let sid := s.freeOf 0x15000000 0 l
      let st := s.str sid
      let g := s.gridOf sid
      let tag (w : Option (Word64 × Word × Nat × Word × Word)) (status : Option Nat) : Tag := ⟨sid, g.ctx, slotIndex g.kd st.role st.strandid, w, status, 0, s.cycle⟩
      let ready := (st.lanes.filter fun x => x.2.st == .ready).map (·.1)
      if !ready.isEmpty ∧ s.freeB 0x15100000 then
        s.setTag k (tag (some (s.tagWord sid ready (st.th (lowest ready)).pc 0)) (some 1))
      else s.setTag k (tag none none)

def execSampleIntervalExpiry (s : State) : Out State := .next (s.sampleDue (s.arg 0))

/-- A sampler whose strand is gone ends. -/
def State.tagOver (s : State) (t : Tag) : Bool := t.status.isSome || !nhas s.strands t.strand

/-- SAMPLE_RECORD_APPEND (R416): the latencies are measurements. -/
def State.sampleAppend (s : State) (k : Nat) : State :=
  match nget s.dbg.tags k with
  | none => s
  | some t =>
    if !s.tagOver t then s
    else
      let (pc, w, lanes, ord, off) := t.word.getD (0, 0, 0, 0, 0)
      let s := s.modDbg fun d => { d with tags := ndel d.tags k }
      let body := leBytes 4 ord.toNat ++ leBytes 4 off.toNat ++ leBytes 8 pc.toNat ++ leBytes 4 lanes ++ leBytes 1 (k % 4) ++
        leBytes 1 (t.status.getD 0) ++ leBytes 1 t.level ++ leBytes 1 0 ++ s.freeBytes 0x15300000 10 ++ leBytes 2 0 ++
        leBytes 4 w.toNat ++ leBytes 8 0
      if t.word.isNone then s else s.debugRecord 2 (k / 4) t.slot t.ctx body

def execSampleRecordAppend (s : State) : Out State := .next (s.sampleAppend (s.arg 0))

def execDrdropRead (s : State) : Out State := .next (s.ifShown fun s => s.modDbg fun d => { d with drop := 0 })

end Sys2Proof.Machine
end

