-- ==== Sys2Proof/Machine/Control.lean ====
section
/-! DEFINITION. Writes and reads of the control region (00_scope.md R4): one register at a time, an aligned 32-bit word with the bytes
written. Fields: 11 R315, 12 R329, 13 R361, 14 R391 to R394, 15 R403, R408, 16 R412, 17 R436. -/

namespace Sys2Proof.Machine

/-! Words. -/

/-- A write of some bytes of a register's word: `m` with the other bytes as they read, `v` with the others zero. -/
structure CtlWord where
  cur : Nat
  m : Nat
  v : Nat
  deriving DecidableEq, Repr, Inhabited

/-- The bytes of a mask of four, of one word, and of another where the mask leaves them out. -/
def mergeBytes (mask v cur : Nat) : Nat :=
  ((List.range 4).map fun i => (if bitOf mask i then v / 256 ^ i % 256 else cur / 256 ^ i % 256) * 256 ^ i).sum

/-- An RW field: a value outside its range is ignored. -/
def CtlWord.rw (w : CtlWord) (hi lo : Nat) (ok : Nat → Bool := fun _ => true) : Nat :=
  if ok (bitsOf w.m hi lo) then bitsOf w.m hi lo else bitsOf w.cur hi lo

/-- A one-bit RW field. -/
def CtlWord.bit (w : CtlWord) (i : Nat) : Bool := bitOf w.m i

/-- A bit written as 1, for W1C and WO fields. -/
def CtlWord.one (w : CtlWord) (i : Nat) : Bool := bitOf w.v i

/-- A value between limits. -/
def within (lo hi x : Nat) : Bool := decide (lo ≤ x) && decide (x ≤ hi)

/-- Half of a 64-bit register replaced, then its reserved bits cleared. -/
def half64 (x : Nat) (hi : Bool) (m mask : Nat) : Nat :=
  (if hi then x % 2 ^ 32 + m * 2 ^ 32 else x / 2 ^ 32 * 2 ^ 32 + m) &&& mask

/-- A base address that must lie in a region: another is ignored (R4, R357). -/
def baseIn (r : Region) (old new : Nat) : Nat := if regionOf new = r then new else old

/-! Contexts (R361). -/

/-- The strands of a context, resident or saved: grid, core, slot and team identity. -/
def State.ctxStrands (s : State) (ctx : Nat) : List (Nat × Nat × Nat × Nat) :=
  let one (core : Nat) (t : Team) (st : Strand) := (t.grid, core, slotIndex (s.grid t.grid).kd st.role st.strandid, t.teamid)
  (s.strands.map (fun x => one x.2.core (s.team x.2.team) x.2) ++ s.saved.flatMap fun v => v.2.strands.map fun x => one v.2.core v.2.info x.2).filter
    fun g => (s.grid g.1).ctx == ctx

/-- Kill a context for system software (R353, R361): the kill record goes to the queue that started one of its teams. Without
any team its queues receive records of CODE 0x11 alone (R354). -/
def State.killContext (s : State) (ctx : Nat) : State :=
  match s.ctxStrands ctx with
  | [] => s.kill ⟨ctx, 5, 0, 0, 0, 0, 0, 0, 0, none, s.cycle, false⟩
  | x :: l =>
    let y := s.freeOf 0x17000000 x (x :: l)
    s.kill ⟨ctx, 5, 0, 0, 0, 0, y.2.1, y.2.2.1, y.2.2.2, (s.grid y.1).src.queue, s.cycle, true⟩

/-- CTXKILL_WRITE: arg context. -/
def execCtxkillWrite (s : State) : Out State := .next (s.ifRun fun s => s.killContext (s.arg 0 % 256))

/-- CTXCTL_KILLED_CLEAR: arg context. -/
def State.clearKilled (s : State) (ctx : Nat) : State := (s.modCtx ctx fun c => { c with killed := false }).settleSlots

def execCtxctlKilledClear (s : State) : Out State := .next (s.ifRun fun s => s.clearKilled (s.arg 0 % 256))

def State.ctxWrite (s : State) (o : Nat) (w : CtlWord) : State :=
  let n := o / 32
  let set (f : Ctx → Ctx) : State := s.modCtx n f
  match o % 32 with
  | 0x00 | 0x04 => set fun c => { c with root := half64 c.root (o % 8 == 4) w.m 0x00FFFFFFFFFFF800 }
  | 0x08 | 0x0C => set fun c => { c with save := baseIn .tier2 c.save (half64 c.save (o % 8 == 4) w.m 0x00FFFFFFFFFF0000) }
  | 0x10 => set fun c => { c with ssize := w.m }
  | 0x14 => set fun c => { c with pto := w.m }
  | 0x18 =>
    let s := set fun c => { c with sys := w.bit 1, valid := w.bit 0 }
    if w.one 2 then s.clearKilled n else s
  | 0x1C => if w.one 0 then s.killContext n else s
  | _ => s

/-! Scheduler (R315). -/

/-- Every core is hot or not by the HOTLIM that was written (R314). -/
def State.reheat (s : State) : State :=
  (List.range 256).foldl (fun s k =>
    let r := (s.core k).regs
    let h := hotNow s.sched.hotlim r.temp r.hot
    if h == r.hot then s else s.modCore k fun c => { c with regs := { c.regs with hot := h } }) s

def State.schedWrite (s : State) (o : Nat) (w : CtlWord) : State :=
  let set (f : Sched → Sched) : State := s.modSched f
  match o with
  | 0x00 => set fun d => { d with clresv := w.rw 31 16, starve := w.rw 15 8 (within 6 10), admitOn := w.bit 0 }
  | 0x08 | 0x0C => set fun d => { d with uqtbase := BitVec.ofNat 64 (half64 d.uqtbase.toNat (o == 0x0C) w.m (2 ^ 64 - 1)) }
  | 0x10 => set fun d => { d with pbudget := w.rw 31 0 (within 100 1500) }
  | 0x14 => (set fun d => { d with hotlim := w.rw 7 0 (within 60 105) }).reheat
  | 0x20 => s.uqReg (w.v % 2 ^ 14)
  | 0x24 => s.uqDereg (w.v % 2 ^ 14)
  | 0x30 => if w.one 16 then set fun d => { d with rej := false } else s
  | _ => s

/-! Loop and optics (R391 to R394). -/

def State.modInbox (s : State) (i : Nat) (f : Inbox → Inbox) : State :=
  s.modLoop fun l => { l with inboxes := nset l.inboxes i (f ((nget l.inboxes i).getD {})) }

/-- A change of an enabled inbox's ring leaves its contents undefined, until it is set up again with EN clear. -/
def Inbox.setBase (b : Inbox) (x : Nat) : Inbox := { b with base := x, undef := b.en && (b.undef || x != b.base) }
def Inbox.setCtl (b : Inbox) (lcnt : Nat) (en : Bool) : Inbox :=
  { b with lcnt := lcnt, en := en, undef := b.en && (b.undef || lcnt != b.lcnt) }

/-- The bytes of an inbox's ring, TAIL and HEAD with them, are undefined. -/
def State.undefineRing (s : State) (b : Inbox) : State := s.undefine b.base (64 + 64 * 2 ^ b.lcnt)

/-- A change of an inbox: where it changes the ring of an enabled one, the bytes of the ring as it was and as it becomes are undefined
(R394). -/
def State.setInbox (s : State) (i : Nat) (f : Inbox → Inbox) : State :=
  let was := (nget s.loop.inboxes i).getD {}
  let new := f was
  let s := s.modInbox i f
  if was.en && (new.base != was.base || new.lcnt != was.lcnt) then (s.undefineRing was).undefineRing new else s

/-- A write of a loop register. IBBASE takes addresses in tier 1. Of a write to one half of such a register, as of CTXSAVE, CKBASE and
LOGBASE, the address that results is looked at (DEDUCED, notes/assumptions/14.md). -/
def State.loopWrite (s : State) (o : Nat) (w : CtlWord) : State :=
  if 0x100 ≤ o ∧ o < 0x300 then
    let i := (o - 0x100) / 32
    match o % 32 with
    | 0x00 | 0x04 => s.setInbox i fun b => b.setBase (baseIn .tier1 b.base (half64 b.base (o % 8 == 4) w.m 0x00FFFFFFFFFFF000))
    | 0x08 => s.setInbox i fun b => b.setCtl (w.rw 7 4 (within 0 12)) (w.bit 0)
    | _ => s
  else if 0x1200 ≤ o ∧ o < 0x1240 then
    let i := (o - 0x1200) / 4
    let s := s.writeHeater i (w.rw 11 0)
    if w.one 31 then s.setMzm i { s.mzm i with qalarm := false } else s
  else match o with
    | 0x00 =>
      let s := (s.writeJoin (w.bit 0)).writeMaster (w.bit 1)
      if w.one 2 then s.writeStart else s
    | 0x24 => s.modLoop fun l => { l with optics := { l.optics with gain := w.rw 11 0 } }
    | _ => s

/-! Fabric (R403). -/

def State.fabWrite (s : State) (o : Nat) (w : CtlWord) : State :=
  if 0x100 ≤ o ∧ o < 0x180 then
    (s.modFab fun f => { f with fwd := nset f.fwd ((o - 0x100) / 4) (w.rw 7 0) }).flushFab
  else if 0x1000 ≤ o ∧ o < 0x1200 then
    if o % 64 = 0 then
      let n := (o - 0x1000) / 64
      let s := s.writePortEn n (w.bit 0)
      if w.one 2 then ((s.wakeWrite n (w.bit 1)).flushPort n).flushFab else s.writeLpreq n (w.bit 1)
    else s
  else match o with
    | 0x00 =>
    let s := s.modFab fun f => { f with en := w.bit 0 }
    if w.bit 0 then s.fabOn.flushFab else s
    | 0x08 | 0x0C => s.modFab fun f => { f with pfx := BitVec.ofNat 64 (half64 f.pfx.toNat (o == 0x0C) w.m (2 ^ 64 - 1)) }
    | 0x10 => s.modFab fun f => { f with fabto := w.rw 31 0 (within 100 1000000) }
    | 0x14 => s.modFab fun f => { f with ecnthr := w.m }
    | _ => s

/-! Host link and event queues (R408). -/

def State.modEvq (s : State) (e : Nat) (f : Evq → Evq) : State :=
  s.modHost fun h => { h with evqs := nset h.evqs e (f ((nget h.evqs e).getD {})) }

/-- The same as for inboxes: a ring changed while enabled is undefined from then on, until it is set up again with EN clear (DEDUCED,
notes/assumptions/65.md: a write that changes neither BASE nor LCNT is no such change). -/
def Evq.setBase (q : Evq) (x : Nat) : Evq := { q with base := x, undef := q.en && (q.undef || x != q.base) }
def Evq.setCtl (q : Evq) (vec lcnt : Nat) (en : Bool) : Evq :=
  { q with vec := vec, lcnt := lcnt, en := en, undef := q.en && (q.undef || lcnt != q.lcnt) }

/-- A change of an event queue: where it changes the ring of an enabled one, the ring's bytes as it was and as it becomes are undefined, as
is what is appended later (R408, R438). -/
def State.setEvq (s : State) (e : Nat) (f : Evq → Evq) : State :=
  let was := (nget s.host.evqs e).getD {}
  let new := f was
  let s := s.modEvq e f
  if was.en && (new.base != was.base || new.lcnt != was.lcnt) then
    (s.undefine (hostBase + was.base) (32 * 2 ^ was.lcnt)).undefine (hostBase + new.base) (32 * 2 ^ new.lcnt)
  else s

def State.hostRegWrite (s : State) (o : Nat) (w : CtlWord) : State :=
  if 0x1000 ≤ o ∧ o < 0x1800 then
    let e := (o - 0x1000) / 32
    match o % 32 with
    | 0x00 | 0x04 => s.setEvq e fun q => q.setBase (half64 q.base (o % 8 == 4) w.m 0xFFFFFFFFFFFFFFE0)
    | 0x08 => s.setEvq e fun q => q.setCtl (w.rw 13 8) (w.rw 7 4 (within 4 15)) (w.bit 0)
    | 0x0C => s.modEvq e fun q => { q with head := BitVec.ofNat 32 w.m }
    | _ => s
  else if o = 0 then s.modHost fun h => { h with atomok := w.bit 0 }
  else s

/-! Debug (R412). -/

/-- A command. -/
def State.debugCommand (s : State) (op ctx x : Nat) : State :=
  match op with
  | 1 => s.debugHalt ctx 1 0
  | 2 => s.debugResume ctx
  | 3 => s.dumpCommand ctx
  | 4 => s.checkpoint ctx
  | 5 => s.replayFrom ctx x
  | _ => s

def State.modCtxDbg (s : State) (n : Nat) (f : CtxDbg → CtxDbg) : State := s.modCtx n fun c => { c with dbg := f c.dbg }

def State.modBp (s : State) (k : Nat) (f : Bp → Bp) : State :=
  s.modDbg fun d => { d with bps := nset d.bps k (f ((nget d.bps k).getD {})) }

def State.debugWrite (s : State) (o : Nat) (w : CtlWord) : State :=
  if 0x1000 ≤ o ∧ o < 0x5000 then
    let n := (o - 0x1000) / 64
    match o % 64 with
    | 0x00 =>
      let p := w.rw 9 0 (within 0 1000)
      s.modCtxDbg n fun d => { d with dgx := w.bit 17, reexec := w.bit 16, period := p, full := d.full && p != 0 }
    | 0x08 | 0x0C => s.modCtxDbg n fun d => { d with ckbase := baseIn .tier2 d.ckbase (half64 d.ckbase (o % 8 == 4) w.m 0x00FFFFFFFFFF0000) }
    | 0x10 => s.modCtxDbg n fun d => { d with cksize := w.m }
    | 0x14 => s.modCtxDbg n fun d => { d with logsize := w.m }
    | 0x18 | 0x1C => s.modCtxDbg n fun d => { d with logbase := baseIn .tier2 d.logbase (half64 d.logbase (o % 8 == 4) w.m 0x00FFFFFFFFFF0000) }
    | 0x20 | 0x24 => s.modCtxDbg n fun d => { d with dumpva := half64 d.dumpva (o % 8 == 4) w.m 0x00FFFFFFFFFF0000 }
    | 0x28 => s.modCtxDbg n fun d => { d with dumpsize := w.m }
    | _ => s
  else if 0x40 ≤ o ∧ o < 0xC0 then
    let k := (o - 0x40) / 16
    match o % 16 with
    | 0x0 => s.modBp k fun b => { b with off := BitVec.ofNat 32 w.m }
    | 0x4 => s.modBp k fun b => { b with ord := BitVec.ofNat 32 w.m }
    | 0x8 => s.modBp k fun b => { b with ctx := w.rw 15 8, en := w.bit 0 }
    | _ => s
  else match o with
    | 0x00 => s.debugCommand (bitsOf w.v 31 28) (bitsOf w.v 27 20) (bitsOf w.v 19 0)
    | 0x04 => s.modDbg fun d => { d with ilog := w.rw 4 1 (within 8 15), sampEn := w.bit 0 }
    | 0x08 | 0x0C => s.modDbg fun d => { d with drbase := half64 d.drbase (o == 0x0C) w.m 0xFFFFFFFFFFFFFFC0 }
    | 0x10 => s.modDbg fun d => { d with vec := w.rw 13 8, lcnt := w.rw 7 4 (within 4 15), en := w.bit 0 }
    | 0x14 => s.modDbg fun d => { d with head := BitVec.ofNat 32 w.m }
    | _ => s

/-! The region. -/

/-- Write bytes of an aligned word at a control offset; until RUN nothing is written (R431). -/
def State.ctlWrite (s : State) (o mask v : Nat) : State :=
  let cur := s.ctlWord o
  let w : CtlWord := ⟨cur, mergeBytes mask v cur, mergeBytes mask v 0⟩
  if s.fw.st ≠ .run ∨ mask = 0 then s
  else if 0x400000 ≤ o ∧ o < 0x440000 then s.schedWrite (o - 0x400000) w
  else if 0x440000 ≤ o ∧ o < 0x442000 then
    if o % 32 = 0x0C then s.modRegs ((o - 0x440000) / 32) fun r => { r with mxcap := w.rw 15 0 } else s
  else if 0x480000 ≤ o ∧ o < 0x482000 then s.ctxWrite (o - 0x480000) w
  else if 0x4C0000 ≤ o ∧ o < 0x500000 then s.loopWrite (o - 0x4C0000) w
  else if 0x500000 ≤ o ∧ o < 0x540000 then s.fabWrite (o - 0x500000) w
  else if 0x540000 ≤ o ∧ o < 0x580000 then s.hostRegWrite (o - 0x540000) w
  else if 0x580000 ≤ o ∧ o < 0x5C0000 then s.debugWrite (o - 0x580000) w
  else if o = 0x5C0010 ∧ bitOf mask 0 then s.writeDiev 0 (w.rw 7 0)
  else if o = 0x5C0014 ∧ bitOf mask 0 then s.writeDiev 1 (w.rw 7 0)
  else s

/-- What a read of a word changes. -/
def State.ctlRead (s : State) (o : Nat) : State :=
  if o = 0x400018 then s.modSched fun d => { d with kickdrop := 0 }
  else if 0x440000 ≤ o ∧ o < 0x442000 then
    match o % 32 with
    | 0x08 => s.modRegs ((o - 0x440000) / 32) fun r => { r with rlstall := 0 }
    | 0x10 => s.modRegs ((o - 0x440000) / 32) fun r => { r with aqpmax := 0 }
    | _ => s
  else if 0x4C0100 ≤ o ∧ o < 0x4C0300 then
    if o % 32 = 0x0C then s.modLoop fun l => { l with inboxes := nmod l.inboxes ((o - 0x4C0100) / 32) fun b => { b with drop := 0 } } else s
  else if 0x4C1000 ≤ o ∧ o < 0x4C1130 then
    if o % 8 = 4 then s.setTap ((o - 0x4C1000) / 8) { s.tap ((o - 0x4C1000) / 8) with max := -32768, min := 32767 } else s
  else if 0x501000 ≤ o ∧ o < 0x501200 then
    let n := (o - 0x501000) / 64
    match o % 64 with
    | 0x8 => s.modPort n fun p => { p with lpabort := 0 }
    | 0xC => s.modPort n fun p => { p with drops := 0 }
    | _ => s
  else if 0x541000 ≤ o ∧ o < 0x541800 then
    if o % 32 = 0x14 then s.modHost fun h => { h with evqs := nmod h.evqs ((o - 0x541000) / 32) fun q => { q with drop := 0 } } else s
  else match o with
    | 0x4C0018 => s.modLoop fun l => { l with counts := { l.counts with grants := 0 } }
    | 0x4C001C => s.modLoop fun l => { l with counts := { l.counts with regen := 0 } }
    | 0x4C0020 => s.modLoop fun l => { l with counts := { l.counts with crcerr := 0 } }
    | 0x58001C => s.modDbg fun d => { d with drop := 0 }
    | 0x5C0020 => s.modFw fun f => { f with serrcnt := 0 }
    | 0x5C0024 => s.modFw fun f => { f with serrunc := 0 }
    | _ => s

/-! Accesses in order. -/

/-- An access of a word: written bytes, or a read. -/
inductive CtlOp where
  | write (o mask v : Nat)
  | read (o : Nat)
  deriving DecidableEq, Repr, Inhabited

/-- Gather bytes written to one word, latest word last. -/
def gatherCtl : List (Nat × Option Byte) → List CtlOp → List CtlOp
  | [], acc => acc.reverse
  | (a, none) :: rest, acc => gatherCtl rest (.read (a - controlBase) :: acc)
  | (a, some b) :: rest, acc =>
    let o := (a - controlBase) / 4 * 4
    let i := (a - controlBase) % 4
    match acc with
    | .write o' mask v :: acc' =>
      if o' = o ∧ !bitOf mask i then gatherCtl rest (.write o (mask + 2 ^ i) (v + b.toNat * 256 ^ i) :: acc')
      else gatherCtl rest (.write o (2 ^ i) (b.toNat * 256 ^ i) :: acc)
    | _ => gatherCtl rest (.write o (2 ^ i) (b.toNat * 256 ^ i) :: acc)

/-- A register that holds a base address in a region, by the offset of its low word: what a write of both its words makes of the state. -/
def State.baseWrite (s : State) (o v : Nat) : Option State :=
  let page := v &&& 0x00FFFFFFFFFF0000
  if 0x4C0100 ≤ o ∧ o < 0x4C0300 ∧ o % 32 = 0 then
    some (s.setInbox ((o - 0x4C0100) / 32) fun b => b.setBase (baseIn .tier1 b.base (v &&& 0x00FFFFFFFFFFF000)))
  else if 0x480000 ≤ o ∧ o < 0x482000 ∧ o % 32 = 8 then
    some (s.modCtx ((o - 0x480000) / 32) fun c => { c with save := baseIn .tier2 c.save page })
  else if 0x581000 ≤ o ∧ o < 0x585000 ∧ o % 64 = 8 then
    some (s.modCtxDbg ((o - 0x581000) / 64) fun d => { d with ckbase := baseIn .tier2 d.ckbase page })
  else if 0x581000 ≤ o ∧ o < 0x585000 ∧ o % 64 = 0x18 then
    some (s.modCtxDbg ((o - 0x581000) / 64) fun d => { d with logbase := baseIn .tier2 d.logbase page })
  else none

/-- Write both words of a 64-bit register at once (R390); words that are not such a register are written one after the other. -/
def State.ctlWrite64 (s : State) (o lo o' hi : Nat) : State :=
  match (if s.fw.st = .run ∧ o' = o + 4 then s.baseWrite o (lo + hi * 2 ^ 32) else none) with
  | some t => t
  | none => (s.ctlWrite o 15 lo).ctlWrite o' 15 hi

/-- Perform accesses; UQCLR takes effect when both of its words are written at once, and a base address is looked at whole. -/
def State.ctlOps (s : State) : List CtlOp → State
  | .write 0x400028 15 lo :: .write 0x40002C 15 hi :: rest =>
    (if s.fw.st = .run then s.uqClr ((lo + hi * 2 ^ 32) / 2 ^ 50) ((lo + hi * 2 ^ 32) % 2 ^ 50) else s).ctlOps rest
  | .write o 15 lo :: .write o' 15 hi :: rest => (s.ctlWrite64 o lo o' hi).ctlOps rest
  | .write o mask v :: rest => (s.ctlWrite o mask v).ctlOps rest
  | .read o :: rest => (s.ctlRead o).ctlOps rest
  | [] => s

/-- The accesses that engines have made in this step. -/
def State.drainCtl (s : State) : State :=
  if s.ctlq.isEmpty then s else ({ s with ctlq := [] }).ctlOps (gatherCtl s.ctlq [])

/-- CONTROL_REGISTER_WRITE: args control offset, bytes; the host writes through BAR 0. -/
def execControlRegisterWrite (s : State) : Out State :=
  .next (s.ctlOps (gatherCtl ((s.args.drop 1).zipIdx.map fun x => (controlBase + s.arg 0 + x.2, some (BitVec.ofNat 8 x.1))) []))

end Sys2Proof.Machine
end

