-- ==== Sys2Proof/Machine/Schedule.lean ====
section
/-! DEFINITION. What a clock brings: the words each partition issues (11_scheduling_launch.md R323; 01 R12, R13; 03 R85), and the
package's own events that are due or could go on, in the order in which one clock takes them (R324; 13 R369). -/

namespace Sys2Proof.Machine

/-- An internal event: its row and what it carries. -/
abbrev Due := Instr × List Nat

/-- An event that is due if a condition holds. -/
def dueIf (b : Bool) (i : Instr) (args : List Nat) : List Due := if b then [(i, args)] else []

/-! Strands. -/

/-- Waits of a strand whose condition holds, or will once its replay applies what they need. -/
def State.dueWaits (s : State) (sid : Nat) (st : Strand) : List Due :=
  if s.haltedStrand sid then []
  else st.waits.zipIdx.flatMap fun (w, i) =>
    match w.on with
    | .sleep till => dueIf (decide (till ≤ s.cycle)) .sleepIntervalElapsed [sid, i]
    | _ => dueIf ((s.replayFor sid w).waitHolds sid w) .waitConditionMet [sid, i]

/-- Loads, stores and latches of a strand that can complete. -/
def State.dueAccesses (s : State) (sid : Nat) (st : Strand) : List Due :=
  (st.fl.loads.zipIdx.flatMap fun (x, i) =>
    let can := (s.loadReady sid i x).isSome || ((s.ctxOf sid).ck.replay.isSome && match x.on with
      | .posts _ => true
      | _ => false)
    dueIf can .variableLatencyResult [sid, i]) ++
  (st.fl.stores.zipIdx.flatMap fun (x, i) =>
    dueIf (st.storeFree i x) .storeAcknowledge [sid, i, 0]) ++
  (st.ports.flatMap fun (n, b) => dueIf (b.latch.isSome && st.settled) .pushLatchWrite [sid, n])

/-- A strand's timers: its watchdog, quantum atomics that must be published, and loads from host memory whose time has run out. -/
def State.dueTimers (s : State) (sid : Nat) (st : Strand) : List Due :=
  (st.fl.stores.zipIdx.flatMap fun (x, i) =>
    dueIf (x.use == 3 && decide (x.issued + 4096 ≤ s.cycle)) .quantumPublishDeadline [sid, i]) ++
  (st.fl.loads.zipIdx.flatMap fun (x, i) => dueIf (x.on == .host && s.hostLate x.since) .hostCompletionTimeout [1, sid, i]) ++
  dueIf (!st.finished && decide ((s.gridOf sid).kd.period ≤ st.csr.wdog)) .watchdogExpiry [sid]

/-! Issue. -/

/-- A path that a breakpoint stopped stays before its word while its context is halted (R410, R413). -/
def State.stopped (s : State) (r : Run) : Bool :=
  r.path.resume.isNone && s.haltedStrand r.strand && r.path.lanes.all fun l => ((s.str r.strand).th l).pass == some r.path.wordPc

/-- A path that could issue in a clock: its strand, whether it needs the partition's second fetch port (R12), the port of its next word,
its lanes where it starts a clause, its rank under R323, and its turn. -/
structure IssueCand where
  strand : Nat
  beside : Bool
  port : IssuePort
  lanes : List Nat
  rank : Nat × Nat × Nat
  turn : Turn

/-- Paths that go on in a clause come first, then starving strands, longest waiting first, then the others by sequence number (R323). -/
def State.rankOf (s : State) (st : Strand) (begun : Bool) : Nat × Nat × Nat :=
  let starving := decide (2 ^ s.sched.starve ≤ st.aged)
  (natOf !begun, natOf !starving, if starving then s.cycle - st.aged else st.seq)

def rankLe (a b : Nat × Nat × Nat) : Bool :=
  decide (a.1 < b.1 ∨ (a.1 = b.1 ∧ (a.2.1 < b.2.1 ∨ (a.2.1 = b.2.1 ∧ a.2.2 ≤ b.2.2))))

/-- What a strand could issue: two begun paths, the first path first; or beside one that has begun, or alone, paths that start a clause
(R12). -/
def State.candsOf (s : State) (sid : Nat) (st : Strand) : List IssueCand :=
  let begun := sortBy (fun a b => !a.path.second || b.path.second) ((s.issuing sid).filter (!s.stopped ·))
  let run (r : Run) (i : Nat) : IssueCand :=
    ⟨sid, decide (1 ≤ i), issuePort (bitsOf r.path.hdr.toNat 6 4) (r.path.words.getD (r.path.pos - 1) 0).toNat, [], s.rankOf st true, .run r⟩
  let start (second beside : Bool) : List IssueCand :=
    if !s.mayIssue sid second then []
    else (st.offer second beside).toList.map fun o =>
      ⟨sid, beside || second, s.pathPort sid o.1, o.2, s.rankOf st false, .event .clauseIssue [sid, natOf second]⟩
  ((begun.take 2).zipIdx.map fun x => run x.1 x.2) ++
    (if (s.issuing sid).isEmpty then start false false ++ start true false else start false true ++ start true true)

/-- The ports a partition has left, and the strand that has its second fetch port. -/
structure Ports where
  v0 : Bool := true
  v1 : Bool := true
  m : Bool := true
  second : Option Nat := none

/-- Give a path its port, if one is left that it can use. -/
def Ports.take (p : Ports) (c : IssueCand) : Option Ports :=
  let p' := if c.beside then { p with second := some c.strand } else p
  if c.beside && p.second.isSome then none
  else match c.port with
    | .v => if p.v0 then some { p' with v0 := false } else if p.v1 then some { p' with v1 := false } else none
    | .v1 => if p.v1 then some { p' with v1 := false } else none
    | .m => if p.m then some { p' with m := false } else none

/-- The paths of a partition that issue in a clock: each port takes the first ranked path that needs it. -/
def pickCands (cs : List IssueCand) : List IssueCand :=
  ((sortBy (fun a b => rankLe a.rank b.rank) cs).foldl (fun (p, out) c => match p.take c with
    | some p => (p, out ++ [c])
    | none => (p, out)) (({} : Ports), [])).2

/-- What every partition issues in a clock; one of a throttled core issues one word at most (R435). -/
def State.issues (s : State) : List IssueCand :=
  let homes := (s.strands.map fun x => x.2.home).foldl (fun l h => if l.contains h then l else l ++ [h]) []
  homes.flatMap fun h =>
    let cs := pickCands (s.strands.flatMap fun (sid, st) => if st.home = h then s.candsOf sid st else [])
    if (s.core (h / 4)).regs.throttled then cs.take 1 else cs

/-- In a clock in which a strand issues, the starvation counts of its ready paths that do not issue go up by one (R13). -/
def State.countStarve (s : State) (cs : List IssueCand) : State :=
  { s with strands := nall s.strands fun sid st =>
      let mine := cs.filter (·.strand == sid)
      if mine.isEmpty then st
      else { st with lanes := nall st.lanes fun l t =>
        if t.st == .ready && mine.all fun c => !c.lanes.contains l then { t with starve := t.starve + 1 } else t } }

/-- A strand's turns of a clock, the second path's before the first's, so that each is chosen as the clock began. -/
def turnGroups (cs : List IssueCand) : List (List Turn) :=
  let sids := (cs.map (·.strand)).foldl (fun l h => if l.contains h then l else l ++ [h]) []
  sids.map fun sid => ((cs.filter (·.strand == sid)).map (·.turn)).reverse

/-- The turn is a word that writes a control and status register: what it writes is for later clocks (R139, R272). -/
def Turn.writesCsr : Turn → Bool
  | .run r => match decodeWord (r.path.words.getD (r.path.pos - 1) 0).toNat with
    | .ok (.csrWr _ _) => true
    | _ => false
  | _ => false

/-! Cores. -/

def State.dueBins (s : State) (c : Nat) (k : Core) : List Due :=
  k.bins.flatMap fun (i, b) =>
    let age := (s.grid (s.team b.team).grid).kd.age
    dueIf (!b.fired && decide ((if age = 0 then 2000 else age) ≤ b.age)) .binAgeTimerExpiry [c, i] ++
    dueIf b.readyAt.isSome .binLaunch [c, i]

def State.dueCopies (_s : State) (c : Nat) (k : Core) : List Due :=
  k.cp.flatMap fun (i, t) =>
    if t.st != .busy then []
    else if t.form = 3 then [(.cpQSlotFill, [c, i])]
    else (List.range ((cpDesc t.desc).rows - t.rowdone)).filterMap fun r =>
      if t.later.contains (t.rowdone + r) then none else some (.copyRow, [c, i, t.rowdone + r])

def State.dueArray (_s : State) (c : Nat) (k : Core) : List Due :=
  dueIf (k.arr.op.isSome || k.mx.any fun t => t.2.st == .queued || t.2.resumed) .weightReloadComplete [c] ++
  dueIf k.arr.op.isSome .wavefrontAdmission [c] ++
  dueIf (!k.arr.inflight.isEmpty) .wavefrontComplete [c] ++
  dueIf (k.arr.halt.isSome && !k.arr.held) .arrayQuiescentPoint [c] ++
  dueIf (!k.dre.queue.isEmpty) .drainUnitEntry [c] ++
  dueIf (!k.dre.units.isEmpty) .drainUnitCommit [c]

/-- Frames the compactor could move, in the register files where it runs. -/
def State.dueMoves (s : State) (c : Nat) : List Due :=
  (List.range 12).flatMap fun p =>
    let rs := s.frameRequests c p
    if rs.isEmpty || !s.compacting c p rs then []
    else s.strands.flatMap fun x => if x.2.core = c then (x.2.frames.filter (·.part == p)).map fun f => (.compactorMove, [c, p, f.uid]) else []

def State.dueCore (s : State) (c : Nat) (k : Core) : List Due := s.dueCopies c k ++ s.dueArray c k ++ s.dueMoves c

/-! Queues, packets and teams. -/

/-- The event of a packet type. -/
def packetEventOf (ty : Nat) : Instr :=
  match ty with
  | 2 => .clusterLaunchPacket
  | 3 => .copyPacket
  | 4 => .waitLsnPacket
  | 5 => .signalPacket
  | 6 => .barrierPacket
  | 7 => .graphPacket
  | _ => .launchPacket

/-- The head packet of a queue where it is in error. -/
def State.dueBad (s : State) (q : Nat) (u : Uq) : List Due :=
  match (s.headPacket q).1 with
  | .none => []
  | .fault _ => [(.launchPacket, [q])]
  | .packet _ b _ =>
    match s.checkPacket u.ctx b with
    | .error _ => [(packetEventOf (pkType b), [q])]
    | .ok _ => []

/-- The head packet of a queue, if it may start. -/
def State.dueHead (s : State) (q : Nat) (u : Uq) : List Due :=
  match (s.headPacket q).1 with
  | .none | .fault _ => []
  | .packet _ b _ =>
    match s.checkPacket u.ctx b with
    | .error _ => []
    | .ok _ => dueIf (u.mayStart b && (pkType b != 5 || decide (s.loop.postq.length < 1024))) (packetEventOf (pkType b)) [q]

/-- Work that is done: surely, or where the test itself may finish it. -/
def State.workDone (s : State) (ctx : Nat) (w : Work) : Bool :=
  match w with
  | .grid g => (s.grid g).finished
  | .waitLsn l => decide (l ≤ s.ctxLsn ctx)
  | .copy _ _ _ | .barrier | .ended => true
  | .waitWord _ | .post _ | .graph => false

def State.workMayEnd (s : State) (ctx : Nat) (w : Work) : Bool :=
  match w with
  | .waitWord _ => true
  | .waitLsn _ => (s.ctx ctx).ck.replay.isSome
  | _ => false

/-- Completions of started packets and nodes, by a test on their work. -/
def State.duePackets (s : State) (test : Nat → Work → Bool) (graph : Bool) : List Due :=
  s.sched.queues.flatMap fun (q, u) => u.started.flatMap fun (p, x) =>
    dueIf (test u.ctx x.work || (graph && x.work == .graph && x.nodes.all fun n => n.2.done)) .packetCompletion [q, p, 0] ++
    x.nodes.flatMap fun (n, nd) => dueIf (!nd.done && (nd.work.map (test u.ctx)).getD false) .packetCompletion [q, p, n + 1]

def State.dueNodes (s : State) : List Due :=
  s.sched.queues.flatMap fun (q, u) => u.started.flatMap fun (p, x) => x.nodes.flatMap fun (n, nd) =>
    dueIf (nd.work.isNone && nd.preds.all fun k => ((nget x.nodes k).map (·.done)).getD false) .graphNodeStart [q, p, n]

/-- What the sequencer admits or resumes next. -/
def State.dueAdmission (s : State) : List Due :=
  match s.choice with
  | .none => []
  | .fresh _ _ _ _ => [(.teamAdmission, [])]
  | .saved _ _ => [(.teamResumption, [])]

/-- A cluster has been a candidate for so long that it reserves a rectangle. -/
def State.dueReserve (s : State) : List Due :=
  (unionNat (s.sched.waiting.map fun c => s.candGrid c.1) []).flatMap fun g => dueIf (s.reserveDue g) .clusterReservationDelay [g]

def State.dueSlices (s : State) : List Due :=
  s.sched.slots.flatMap fun (k, x) =>
    dueIf (x.st == .active && decide ((s.uq x.queue).sliceUs * cyclesPerUs ≤ x.used)) .sliceExpiry [k]

def State.dueSaves (s : State) : List Due := s.teams.flatMap fun (t, x) => dueIf x.saving .saveComplete [t]

/-- Teams whose last strand may have stopped in this clock, or whose time to be saved has run out (R367, R369). -/
def State.dueTimeouts (s : State) : List Due :=
  s.teams.flatMap fun (t, x) => dueIf (x.saving && (x.stopAt.isNone || decide (s.saveBy t ≤ s.cycle))) .preemptionTimeout [t]

/-! Loop, fabric, debug, firmware. -/

/-- The event that applies the record at the head. -/
def applyEvent (r : LRec) (npkg : Nat) : Instr :=
  match r.ty with
  | 2 => .recordAtomicApply
  | 3 => .recordMsgApply
  | 4 => if r.killOrder npkg then .recordKillOrderApply else .recordLaunchApply
  | 5 => .recordXlateApply
  | 6 => .recordDigestApply
  | _ => .recordWriteApply

/-- A strand of a context waits for the loop (R385, R432). -/
def State.waitsLoop (s : State) (ctx : Nat) : Bool :=
  s.strands.any fun (sid, st) => (s.gridOf sid).ctx == ctx &&
    ((st.waits.any fun w => match w.on with
      | .lsn _ | .post _ | .postRoom _ | .posts _ | .locket _ => true
      | .mask m | .word m => bitOf m 5
      | _ => false) ||
     st.fl.loads.any fun x => match x.on with
      | .posts _ | .post _ => true
      | _ => false)

/-- What firmware does while the loop is DOWN (R432): it kills the contexts the loop concerns, then leaves the loop. -/
def State.dueFirmware (s : State) : List Due :=
  if s.fw.st != .run || s.loop.st != .down then []
  else
    let todo := s.ctxs.filter fun (n, c) => c.valid && !c.killed && (c.sys || !c.allot.isEmpty || s.waitsLoop n)
    if todo.isEmpty then dueIf s.loop.join .loopctlJoinWrite [0] else todo.map fun x => (.ctxkillWrite, [x.1])

def State.dueLoop (s : State) : List Due :=
  (match s.loop.rx with
   | x :: _ => dueIf (x.r.ty != 4 || s.canApply) (applyEvent x.r s.npkg) []
   | [] => []) ++
  s.dueFirmware

/-- What the loop's counts of circulations bring, before anything that reaches the tap in the same clock (R383, R384, R388). -/
def State.dueFirst (s : State) : List Due :=
  dueIf s.idleMissing .missingIdleTimeout [] ++
  dueIf (s.loop.master && s.loop.st == .run && decide (4 ≤ s.loop.noGrant)) .grantRegeneration []

/-- The next logged arrival of a replaying context. -/
def State.dueReplay (s : State) : List Due :=
  s.ctxs.flatMap fun (n, c) =>
    match c.ck.replay with
    | none => []
    | some r =>
      match s.logFind n (fun e => e.kind == 3) (s.logFuel n) r.fpos with
      | none => []
      | some (_, e) => match (frmOfBytes e.body).op with
        | 1 => [(.framePutReceive, [n])]
        | 2 => [(.frameGetreqReceive, [n])]
        | 3 => [(.frameGetrespReceive, [n])]
        | 4 => [(.frameAaddReceive, [n])]
        | 5 => [(.frameAcasReceive, [n])]
        | 6 => [(.frameAtomrespReceive, [n])]
        | _ => [(.frameNakfReceive, [n])]

def State.dueFabric (s : State) : List Due :=
  ((nkeys s.fab.conns).flatMap fun k =>
    dueIf (s.ackDue k) .ackDelayExpiry [k] ++ dueIf (s.resendDue k) .retransmitTimeout [k] ++
    dueIf (s.fabLate k) .fabOperationTimeout [k] ++ dueIf (s.rateDue k) .rateRecoveryTimer [k]) ++
  ((nkeys s.fab.ports).flatMap fun n => dueIf (s.drained n) .portDrainComplete [n]) ++ s.dueReplay

def State.dueDebug (s : State) : List Due :=
  (s.ctxs.flatMap fun (n, c) =>
    dueIf (c.dbg.period != 0 && decide (c.ck.last + c.dbg.period * 1000 * cyclesPerUs ≤ s.cycle)) .checkpointPeriodExpiry [n]) ++
  (s.dbg.due.flatMap fun (k, n) => dueIf (n == 0 && !nhas s.dbg.tags k) .sampleIntervalExpiry [k]) ++
  s.dbg.tags.flatMap fun (k, t) => dueIf (s.tagOver t) .sampleRecordAppend [k]

def State.duePower (s : State) : List Due :=
  dueIf s.formationLate .loopFormationTimeout [] ++
  dueIf (s.fw.st != .shut && s.cores.any fun c => decide (125 ≤ c.2.regs.temp)) .packageOvertempShut [] ++
  [0, 1].flatMap fun d =>
    dueIf ((s.die d).want.isSome && s.dieFree d) .dievSupplyChange [d] ++
    dueIf ((s.die d).settling && decide ((s.die d).since + 5 * cyclesPerUs ≤ s.cycle)) .dievSupplySettled [d]

/-! The choice. -/

/-- Ends of teams and packets. -/
def State.dueEnds (s : State) : List Due :=
  (s.teams.flatMap fun (t, _) => dueIf (s.teamDone t && (decide (s.loop.postq.length < 1024) || s.loop.st == .down)) .teamEnd [t]) ++
  s.duePackets s.workDone true

/-- Timers that have run out, and what comes at the first clock in which it can. -/
def State.dueClocked (s : State) : List Due :=
  (s.strands.flatMap fun (sid, st) => s.dueTimers sid st) ++
  (s.cores.flatMap fun (c, k) => s.dueBins c k ++ dueIf (s.idleCore c) .coreIdleTimeout [c]) ++
  s.dueReserve ++ s.dueDebug ++ s.duePower ++
  (s.host.reqs.zipIdx.flatMap fun (q, i) => dueIf (s.hostLate q.since) .hostCompletionTimeout [0, i])

/-- What goes on with a latency of its own. -/
def State.dueRest (s : State) : List Due :=
  (s.strands.flatMap fun (sid, st) => s.dueWaits sid st ++ s.dueAccesses sid st) ++
  (s.orphans.zipIdx.map fun x => (Instr.storeAcknowledge, [0, x.2, 1])) ++
  (s.cores.flatMap fun (c, k) => s.dueCore c k) ++
  (s.sched.queues.flatMap fun (q, u) => s.dueHead q u) ++ s.dueNodes ++ s.duePackets s.workMayEnd false ++
  s.dueLoop ++ s.dueFabric

/-- What of it this clock brings: a free choice; in every so many clocks all of it, the last of a strand's first, so that nothing due
stays undone for ever (R20; DESIGN CHOICE, notes/assumptions/3.md). -/
def State.dueNow (s : State) : List Due :=
  if s.cycle % (Config.latency + 1) = 0 then s.dueRest.reverse
  else s.dueRest.zipIdx.filterMap fun (d, i) => if s.freeB (0x16200000 + i) then some d else none

/-- The ends one clock can bring. -/
def State.endsMost (s : State) : Nat :=
  s.teams.length + (s.sched.queues.map fun x => (x.2.started.map fun y => y.2.nodes.length + 1).sum).sum

/-- A record is applied: before an `lp.fence` of the same clock issues (R388). -/
def applies (i : Instr) : Bool :=
  [Instr.recordWriteApply, .recordAtomicApply, .recordMsgApply, .recordLaunchApply, .recordKillOrderApply, .recordXlateApply,
    .recordDigestApply].contains i

/-- The heads of queues that are in error. -/
def State.dueErrors (s : State) : List Due := s.sched.queues.flatMap fun (q, u) => s.dueBad q u

/-- The turns of a clock (R324): what the loop has counted; what comes from outside; ends of teams and packets; packets in error; slices
and saves; timers; records applied; then in a free order the words and what goes on by itself; wavefronts admitted, after a supply's
write (R437); what `csr.wr` writes (R139, R272); timeouts of saves (R369) and an admission. -/
def State.newRound (s : State) (cs : List IssueCand) : List Turn :=
  let turn (d : Due) : Turn := .event d.1 d.2
  let now := s.dueNow
  let wave (d : Due) : Bool := d.1 == .wavefrontAdmission
  let mixed := turnGroups (cs.filter (!·.turn.writesCsr)) ++ (now.filter fun d => !applies d.1 && !wave d).map fun d => [turn d]
  (s.dueFirst ++ s.inputs.head?.toList).map turn ++ [.ends s.endsMost, .errors s.sched.queues.length] ++
    (s.dueSlices ++ s.dueSaves ++ s.dueClocked ++ now.filter (applies ·.1)).map turn ++
    (s.freeOrder 0x16000000 mixed.length mixed).flatten ++ (now.filter wave).map turn ++ (cs.map (·.turn)).filter Turn.writesCsr ++
    s.dueTimeouts.map turn ++ [.admission]

end Sys2Proof.Machine
end

