-- ==== Sys2Proof/Machine/Clock.lean ====
section
/-! DEFINITION. What a step does around an instruction: the clock that passes, the choice of what comes next, the word a path
issues with its breakpoints and samplers (16_debug_determinism.md R410 to R415), what the package settles at the end; and
the state that is about to issue a given word (notes/assumptions/5.md). -/

namespace Sys2Proof.Machine

/-- A clock passes (R32): watchdog counts (R356), waiting times (R323), age timers (R322) and slices (R310) go on. -/
def State.clock (s : State) : State :=
  State.countReloads <| State.takeOps { s with
    cycle := s.cycle + 1
    tick := s.tick + 1
    strands := nall s.strands fun sid st =>
      if s.haltedStrand sid then st
      else { st with
        aged := if st.paths.isEmpty && (s.issuing sid).isEmpty then st.aged else st.aged + 1
        csr := { st.csr with wdog := st.csr.wdog + 1 } }
    cores := nall s.cores fun _ c =>
      let c := { c with regs := { c.regs with wasHot := c.regs.hot, wasThrottled := c.regs.throttled } }
      if c.bins.isEmpty then c
      else { c with
        bins := nall c.bins fun _ b =>
          if (s.ctx (s.grid (s.team b.team).grid).ctx).dbg.halted || (s.team b.team).ptoHalted then b else { b with age := b.age + 1 } }
    sched := { s.sched with slots := nall s.sched.slots fun _ x => if x.st == .active then { x with used := x.used + 1 } else x } }

/-! What comes next. -/

/-- Where the last clock's turns are over, a clock passes and brings its own. -/
def State.opened (s : State) : State :=
  if !s.round.isEmpty then s
  else
    let s := s.clock.schedClock
    let cs := s.issues
    { s.countStarve cs with round := s.newRound cs, inputs := s.inputs.tail }

/-- The next turn among those of a clock that still has effect, and what is left of the clock after it. -/
def State.nextTurn (s : State) : List Turn → Option Turn × List Turn
  | [] => (none, [])
  | .run r :: rest => if s.runs.contains r && !s.stopped r then (some (.run r), rest) else s.nextTurn rest
  | .event i a :: rest => (some (.event i a), rest)
  | .ends 0 :: rest => s.nextTurn rest
  | .ends (n + 1) :: rest =>
    match s.dueEnds with
    | [] => s.nextTurn rest
    | d :: ds => let e := s.freeOf 0x16400000 d (d :: ds); (some (.event e.1 e.2), .ends n :: rest)
  | .errors 0 :: rest => s.nextTurn rest
  | .errors (n + 1) :: rest =>
    match s.dueErrors with
    | [] => s.nextTurn rest
    | d :: _ => (some (.event d.1 d.2), .errors n :: rest)
  | .admission :: rest =>
    match s.dueAdmission with
    | [] => s.nextTurn rest
    | d :: _ => (some (.event d.1 d.2), rest)

/-! Issuing a word. -/

/-- A sampler counts a partition's issues, those of its lead slots among them, and tags the word that the strand it chose issues
(R415). -/
def State.sampleIssue (s : State) (r : Run) : State :=
  let st := s.str r.strand
  let k := st.home
  let d := s.dbg
  if !d.sampEn then if d.due.isEmpty then s else s.modDbg fun d => { d with due := [] }
  else
    let due := match nget d.due k with
      | some n => nset d.due k (n - 1)
      | none => if nhas d.tags k then d.due else nset d.due k (2 ^ (d.ilog - 1) + Config.freeChoice s.tick 0x16100000 (2 ^ d.ilog + 1))
    let w := s.tagWord r.strand r.path.lanes r.path.wordPc (r.path.words.getD (r.path.pos - 1) 0)
    s.modDbg fun d => { d with
      due := due
      tags := nmod d.tags k fun t => if t.strand = r.strand ∧ t.word = none then { t with word := some w } else t }

/-- A path issues the word at hand: the path stands first, the word is decoded; or a breakpoint stops it. -/
def State.issue (s : State) (r : Run) : Option Instr × State :=
  let p := r.path
  let others := s.runs.erase r
  if !nhas s.strands r.strand then (none, { s with runs := others })
  else
    match (if p.resume.isNone then s.bpMatch r.strand p.lanes p.wordPc else none) with
    | some hit => (none, s.breakAt r.strand p.lanes p.wordPc hit)
    | none =>
      let s := if p.resume.isNone then
          s.sampleIssue r |>.modStr r.strand fun st => st.modThs p.lanes fun _ t => { t with pass := none }
        else s
      let s := s.modStr r.strand fun st => { st with aged := 0 }
      match decodeWord (p.words.getD (p.pos - 1) 0).toNat with
      | .ok i => (some i, { s with runs := r :: others }.follow r.strand p)
      | .error .reservedMajor => (none, ({ s with runs := others }).trapAll r.strand p.lanes 0x00 3 p.wordPc p.hdrAddr)
      | .error .unassigned => (none, ({ s with runs := others }).trapAll r.strand p.lanes 0x00 4 p.wordPc p.hdrAddr)
      | .error _ => (none, ({ s with runs := others }).trapAll r.strand p.lanes 0x01 8 p.wordPc p.hdrAddr)

/-- What a step executes, and in which state; where it executes nothing, the state that step ends in before it settles. An
instruction word is no event of the outside. -/
def State.plan (s : State) : Option Instr × State :=
  let s := s.opened
  let (t, rest) := s.nextTurn s.round
  let s := { s with tick := s.tick + 1, round := rest }
  match t with
  | some (.event i a) => if i.isWord then (none, s) else (some i, { s with args := a })
  | some (.run r) => s.issue r
  | _ => (none, s)

/-! The end of a step. -/

/-- The word of the path that `was` executes, where it finished its strand in this clock: what a sampler that chose the strand in the
same clock records (R415). -/
def State.exitWord (s was : State) (t : Tag) : Option (Word64 × Word × Nat × Word × Word) :=
  match was.runs.head? with
  | some r =>
    if r.strand = t.strand ∧ t.since = s.cycle ∧ !(was.str t.strand).finished ∧ nhas s.strands t.strand ∧ (s.str t.strand).finished then
      some (was.tagWord r.strand r.path.lanes r.path.wordPc (r.path.words.getD (r.path.pos - 1) 0))
    else none
  | none => none

/-- What a step makes of a sampler's tag (R415, R416). A word during which its strand is removed was trapped if it is the one this step
executed and is no `tkill`; else it ran (DESIGN CHOICE, notes/assumptions/47.md). -/
def State.settleTag (s was : State) (k : Nat) (t : Tag) : Tag :=
  match s.exitWord was t with
  | some w => { t with word := some w, status := some 2 }
  | none =>
    match t.word, t.status with
    | some (pc, w, m, _, _), none =>
      let lanes := lanesOf m
      let st := s.str t.strand
      let here (p : RunPath) := p.wordPc == pc && p.lanes.any (lanes.contains ·)
      let still := (st.waits.any fun w => w.on != .switch && here w.path) ||
        s.runs.any fun r => r.strand == t.strand && r.path.resume.isSome && here r.path
      let kills := match decodeWord w.toNat with
        | .ok (.tkill _) => true
        | _ => false
      let trapped := lanes.any fun l => decide ((was.str t.strand).group l < st.group l) || (match (st.th l).st with
        | .held _ => true
        | _ => false)
      if !nhas s.strands t.strand then { t with status := some (if was.dbg.following.contains k && !kills then 3 else 0) }
      else if still then t
      else { t with status := some (if trapped then 3 else 0) }
    | _, _ => t

/-- The words that samplers follow, at the end of a step. -/
def State.settleTags (s was : State) : State :=
  if s.dbg.tags.isEmpty then s
  else s.modDbg fun d => { d with following := [], tags := nall d.tags (s.settleTag was) }

/-- What the package does at the end of a step: samplers, the control registers its engines reached, the Chaend slot it may
write into, its bring-up. `was` is the state before the instruction. -/
def State.settle (s was : State) : State := (s.settleTags was).drainCtl.masterIdle.flushHeld.pausePeers.bootTick.dumpsGo

/-! The state that is about to issue a given word. -/

/-- The clause of one word at word 1 of a line: class 6, COUNT 1. -/
def loneHeader : Word := 0x61

/-- Its line at virtual address 0x20000, and tables that map 1 GiB from 0 to the first 1 GiB of tier 2. -/
def loneCells (w : Nat) : List Host.Cell :=
  let at' (a n x : Nat) := (leBytes n x).zipIdx.map fun b => (a + b.2, b.1)
  at' (tier2Base + 0x10000) 8 (tier2Base + 0x11000 + 1) ++ at' (tier2Base + 0x11000) 8 (tier2Base + 0x12000 + 1) ++
    at' (tier2Base + 0x12000) 8 (tier2Base + 0xF) ++
    at' (tier2Base + 0x20000) 4 0x0101 ++ at' (tier2Base + 0x20004) 4 loneHeader.toNat ++ at' (tier2Base + 0x20008) 4 w

def loneThread : Thread :=
  ⟨.run, 0x20004, 0, List.replicate 8 0, 0, [], none, false, 0xFFFFFFFF, 0x20004, 0, 0, none, none⟩

def loneFrame (uid : Nat) : Frame := ⟨uid, 128, none, [], 0, 0, [], []⟩

/-- A kernel of one role with one strand of 32 threads. -/
def loneKernel : KDesc :=
  { cw := 1, ch := 1, roles := [⟨0x20000, 32, 1, 128, 128⟩], lead := none, spSize := 0, stack := 0, csLo := 0, csHi := 0, age := 0,
    nbar := 16, wdog := 0, tbase := none, tsave := none, stkPlan := 0, psize := 0, safePts := [], liveMaps := [], qbinds := [] }

/-- A running package with one team of one strand, in system context 0, whose threads are about to issue a word. -/
def State.lone (s : State) (w : Nat) : State :=
  let sid := nnext s.strands
  let tid := nnext s.teams
  let gid := nnext s.grids
  let uid := s.ids.uid
  let thread := loneThread
  let path : RunPath :=
    { lanes := List.range 32, hdrAddr := 0x20004, hdr := loneHeader, words := [BitVec.ofNat 32 w], nxt := 0x20084, pos := 1,
      pfx := none, hi := none, resume := none, entered := 1, got := none, skips := [] }
  let strand : Strand :=
    { team := tid, core := 0, part := 0, role := 0, strandid := 0, lanes := (List.range 32).map fun l => (l, thread),
      frames := [loneFrame uid], ports := [], csr := {}, fl := {}, waits := [], seq := 0, aged := 0, stopping := false,
      bindErr := none, serial := 0, passed := [] }
  let team : Team :=
    { grid := gid, teamid := 0, cluIdx := 0, cluster := [tid], core := 0, slot := 0, spBase := 0, stackBlk := 0, bars := [],
      dgval := 0, dgcnt := 0, queues := [], finals := [], saving := false, stopReq := 0, ptoHalted := false, saveRes := 0,
      saveOff := 0, dgstep := 0 }
  let grid : Grid :=
    { ctx := 0, kdescVa := 0, kd := loneKernel, param := 0, teams := 1, next := 1, last := 1, share := (0, 1), ended := [],
      tbase := some 0, tickets := (List.range 8).map fun t => (t, {}), src := .packet 0 0, ck := none, serial := false, since := 0 }
  { s with
    mem := s.mem.writeCells (loneCells w)
    inputs := []
    round := [.run ⟨sid, path⟩]
    runs := [⟨sid, path⟩]
    strands := nset s.strands sid strand
    teams := nset s.teams tid team
    grids := nset s.grids gid grid
    ctxs := nset s.ctxs 0 { s.ctx 0 with root := tier2Base + 0x10000, sys := true, valid := true, killed := false }
    ids := { s.ids with uid := uid + 1, sid := max s.ids.sid (sid + 1), tid := max s.ids.tid (tid + 1), gid := max s.ids.gid (gid + 1) }
    fw := { s.fw with st := .run } }

end Sys2Proof.Machine
end

