-- ==== Sys2Proof/Machine/Arith.lean ====
section
/-! DEFINITION. Integer, bit, compare, float, conversion and constant forms (05_isa_arithmetic.md R141 to R163). -/

namespace Sys2Proof.Machine

/-! Integer arithmetic (R142, R143). -/

/-- Clamp to the range of a signed or an unsigned 32-bit value. -/
def satS32 (x : Int) : Word := BitVec.ofInt 32 (max (-2147483648) (min 2147483647 x))
def satN32 (x : Int) : Word := BitVec.ofInt 32 (max 0 (min 4294967295 x))

/-- Quotient and remainder of R143 for a divisor other than zero, or with the zero test off. -/
def divRemS (x y : Word) : Word × Word :=
  if y = 0 then (0xFFFFFFFF, x)
  else if x = 0x80000000 ∧ y = 0xFFFFFFFF then (0x80000000, 0)
  else
    let q : Word := BitVec.ofInt 32 (Int.tdiv x.toInt y.toInt)
    (q, x - q * y)
def divRemN (x y : Word) : Word × Word := if y = 0 then (0xFFFFFFFF, x) else (x / y, x % y)

/-- A division (R143): the lanes with a zero divisor trap while SSW.DZT is set. -/
def division (f : Word → Word → Word) (d a b : Sel) : State → Out State :=
  onPath fun sid p s => s.compute sid p [(a, 1), (b, 1)] (d, 1) true fun vals l =>
    let v := (nget vals l).getD []
    if arg32 v 1 = 0 ∧ (s.str sid).csr.dzt then .error (0x10, 0, 0) else .ok ((f (arg32 v 0) (arg32 v 1)).setWidth 64)

/-- Forms with a pair as destination or source only. -/
def op2p (f : Word → Word → Word64) (d a b : Sel) : State → Out State :=
  lanewise [(a, 1), (b, 1)] (d, 2) fun x => f (arg32 x 0) (arg32 x 1)
def opShift64 (f : Word64 → Nat → Word64) (d a b : Sel) : State → Out State :=
  lanewise [(a, 2), (b, 1)] (d, 2) fun x => f (arg x 0) (arg32 x 1).toNat
def cmp64 (f : Word64 → Word64 → Bool) (d a b : Sel) : State → Out State :=
  lanewise [(a, 2), (b, 2)] (d, 1) fun x => (maskOf (f (arg x 0) (arg x 1))).setWidth 64

def execIadd (d a b : Sel) : State → Out State := op2 (fun x y => x + y) d a b
def execIsub (d a b : Sel) : State → Out State := op2 (fun x y => x - y) d a b
def execImul (d a b : Sel) : State → Out State := op2 (fun x y => x * y) d a b
def execImulhS32 (d a b : Sel) : State → Out State := op2 (fun x y => BitVec.ofInt 32 (x.toInt * y.toInt / 2 ^ 32)) d a b
def execImulhN32 (d a b : Sel) : State → Out State := op2 (fun x y => BitVec.ofNat 32 (x.toNat * y.toNat / 2 ^ 32)) d a b
def execIdivS32 (d a b : Sel) : State → Out State := division (fun x y => (divRemS x y).1) d a b
def execIdivN32 (d a b : Sel) : State → Out State := division (fun x y => (divRemN x y).1) d a b
def execIremS32 (d a b : Sel) : State → Out State := division (fun x y => (divRemS x y).2) d a b
def execIremN32 (d a b : Sel) : State → Out State := division (fun x y => (divRemN x y).2) d a b
def execIminS32 (d a b : Sel) : State → Out State := op2 (fun x y => if x.toInt ≤ y.toInt then x else y) d a b
def execIminN32 (d a b : Sel) : State → Out State := op2 (fun x y => if x.toNat ≤ y.toNat then x else y) d a b
def execImaxS32 (d a b : Sel) : State → Out State := op2 (fun x y => if x.toInt ≤ y.toInt then y else x) d a b
def execImaxN32 (d a b : Sel) : State → Out State := op2 (fun x y => if x.toNat ≤ y.toNat then y else x) d a b
def execIabs (d a : Sel) : State → Out State := op1 (fun x => if x.msb then -x else x) d a
def execIaddsS32 (d a b : Sel) : State → Out State := op2 (fun x y => satS32 (x.toInt + y.toInt)) d a b
def execIsubsS32 (d a b : Sel) : State → Out State := op2 (fun x y => satS32 (x.toInt - y.toInt)) d a b
def execIaddsN32 (d a b : Sel) : State → Out State := op2 (fun x y => satN32 (x.toNat + y.toNat)) d a b
def execIsubsN32 (d a b : Sel) : State → Out State := op2 (fun x y => satN32 ((x.toNat : Int) - y.toNat)) d a b
def execAdd64 (d a b : Sel) : State → Out State := op2w (fun x y => x + y) d a b
def execSub64 (d a b : Sel) : State → Out State := op2w (fun x y => x - y) d a b
def execMulwS32 (d a b : Sel) : State → Out State := op2p (fun x y => BitVec.ofInt 64 (x.toInt * y.toInt)) d a b
def execMulwN32 (d a b : Sel) : State → Out State := op2p (fun x y => BitVec.ofNat 64 (x.toNat * y.toNat)) d a b

/-! Immediate forms (R144). -/

/-- A form with a source and a sign-extended 10-bit immediate. -/
def opImm (f : Word → Word → Word) (d a : Sel) (i : BitVec 10) : State → Out State := op1 (fun x => f x (i.signExtend 32)) d a

def execIaddi (d a : Sel) (i : BitVec 10) : State → Out State := opImm (fun x y => x + y) d a i
def execIandi (d a : Sel) (i : BitVec 10) : State → Out State := opImm (fun x y => x &&& y) d a i
def execIori (d a : Sel) (i : BitVec 10) : State → Out State := opImm (fun x y => x ||| y) d a i
def execIxori (d a : Sel) (i : BitVec 10) : State → Out State := opImm (fun x y => x ^^^ y) d a i
def execIshli (d a : Sel) (i : BitVec 10) : State → Out State := opImm (fun x y => x <<< min y.toNat 32) d a i
def execIshri (d a : Sel) (i : BitVec 10) : State → Out State := opImm (fun x y => x >>> y.toNat) d a i
def execIsrai (d a : Sel) (i : BitVec 10) : State → Out State := opImm (fun x y => x.sshiftRight y.toNat) d a i
def execIcmpiLt (d a : Sel) (i : BitVec 10) : State → Out State := opImm (fun x y => maskOf (x.slt y)) d a i

/-! Bit manipulation (R145 to R147). -/

/-- Number of set bits. -/
def popCount (x : Word) : Nat := ((List.range 32).filter fun i => x.getLsbD i).length
/-- Leading and trailing zero bits, 32 for 0. -/
def leadZeros (x : Word) : Nat := ((List.range 32).find? fun i => x.getLsbD (31 - i)).getD 32
def trailZeros (x : Word) : Nat := ((List.range 32).find? fun i => x.getLsbD i).getD 32

/-- Position and width of a bit field (R146). -/
def fieldPos (b : Word) : Nat := bitsOf b.toNat 4 0
def fieldWidth (b : Word) : Nat := min (bitsOf b.toNat 13 8) (32 - fieldPos b)
def bfxU (a b : Word) : Word := BitVec.ofNat 32 (a.toNat / 2 ^ fieldPos b % 2 ^ fieldWidth b)
def bfxI (a b : Word) : Word :=
  let w := fieldWidth b
  let f := (bfxU a b).toNat
  if w = 0 then 0 else if bitOf f (w - 1) then BitVec.ofInt 32 ((f : Int) - 2 ^ w) else BitVec.ofNat 32 f
def bfiW (d a b : Word) : Word :=
  let m : Word := BitVec.ofNat 32 ((2 ^ fieldWidth b - 1) * 2 ^ fieldPos b)
  (d &&& ~~~m) ||| ((a <<< fieldPos b) &&& m)

/-- A byte of `perm` for a nibble (R147). -/
def permByte (a s : Nat) : Nat :=
  let x := a / 2 ^ (8 * (s % 4)) % 256
  if bitOf s 2 then 0 else if bitOf s 3 then (if x ≥ 128 then 0xFF else 0) else x
def permW (a b : Word) : Word :=
  BitVec.ofNat 32 (((List.range 4).map fun k => permByte a.toNat (b.toNat / 2 ^ (4 * k) % 16) * 2 ^ (8 * k)).sum)

def execAnd (d a b : Sel) : State → Out State := op2 (fun x y => x &&& y) d a b
def execOr (d a b : Sel) : State → Out State := op2 (fun x y => x ||| y) d a b
def execXor (d a b : Sel) : State → Out State := op2 (fun x y => x ^^^ y) d a b
def execAndn (d a b : Sel) : State → Out State := op2 (fun x y => x &&& ~~~y) d a b
def execOrn (d a b : Sel) : State → Out State := op2 (fun x y => x ||| ~~~y) d a b
def execShl (d a b : Sel) : State → Out State := op2 (fun x y => x <<< min y.toNat 32) d a b
def execShr (d a b : Sel) : State → Out State := op2 (fun x y => x >>> y.toNat) d a b
def execSra (d a b : Sel) : State → Out State := op2 (fun x y => x.sshiftRight y.toNat) d a b
def execRotl (d a b : Sel) : State → Out State := op2 (fun x y => x.rotateLeft (y.toNat % 32)) d a b
def execShl64 (d a b : Sel) : State → Out State := opShift64 (fun x n => x <<< min n 64) d a b
def execShr64 (d a b : Sel) : State → Out State := opShift64 (fun x n => x >>> n) d a b
def execSra64 (d a b : Sel) : State → Out State := opShift64 (fun x n => x.sshiftRight n) d a b
def execPopc (d a : Sel) : State → Out State := op1 (fun x => BitVec.ofNat 32 (popCount x)) d a
def execClz (d a : Sel) : State → Out State := op1 (fun x => BitVec.ofNat 32 (leadZeros x)) d a
def execCtz (d a : Sel) : State → Out State := op1 (fun x => BitVec.ofNat 32 (trailZeros x)) d a
def execBrev (d a : Sel) : State → Out State := op1 (fun x => x.reverse) d a
def execBfxS (d a b : Sel) : State → Out State := op2 bfxI d a b
def execBfxN (d a b : Sel) : State → Out State := op2 bfxU d a b
def execBfi (d a b : Sel) : State → Out State := op2d bfiW d a b
def execPerm (d a b : Sel) : State → Out State := op2 permW d a b

/-! Comparisons (R148, R149). -/

def cmp32 (f : Word → Word → Bool) : Sel → Sel → Sel → State → Out State := op2 fun x y => maskOf (f x y)
/-- An FP32 comparison. -/
def fcmp (f : Ext → Ext → Bool) : Sel → Sel → Sel → State → Out State :=
  cmp32 fun x y => f (Fmt.f32.value x.toNat) (Fmt.f32.value y.toNat)

def execCeq (d a b : Sel) : State → Out State := cmp32 (fun x y => x == y) d a b
def execCne (d a b : Sel) : State → Out State := cmp32 (fun x y => x != y) d a b
def execCltS (d a b : Sel) : State → Out State := cmp32 (fun x y => x.slt y) d a b
def execCleS (d a b : Sel) : State → Out State := cmp32 (fun x y => x.sle y) d a b
def execCltN (d a b : Sel) : State → Out State := cmp32 (fun x y => x.ult y) d a b
def execCleN (d a b : Sel) : State → Out State := cmp32 (fun x y => x.ule y) d a b
def execFceq (d a b : Sel) : State → Out State := fcmp (fun x y => x.eqv y) d a b
def execFcne (d a b : Sel) : State → Out State := fcmp (fun x y => !x.eqv y) d a b
def execFclt (d a b : Sel) : State → Out State := fcmp (fun x y => x.lt y) d a b
def execFcle (d a b : Sel) : State → Out State := fcmp (fun x y => x.lt y || x.eqv y) d a b
def execFcun (d a b : Sel) : State → Out State := fcmp (fun x y => x.isNan || y.isNan) d a b
def execFclass (d a b : Sel) : State → Out State := cmp32 (fun x y => y.getLsbD (fclassOf x.toNat)) d a b
def execCeq64 (d a b : Sel) : State → Out State := cmp64 (fun x y => x == y) d a b
def execClt64S (d a b : Sel) : State → Out State := cmp64 (fun x y => x.slt y) d a b
def execClt64N (d a b : Sel) : State → Out State := cmp64 (fun x y => x.ult y) d a b

/-! Floating point (R150 to R153). -/

/-- Operations on FP32 codes. -/
def fop2 (f : Nat → Nat → Nat) : Sel → Sel → Sel → State → Out State := op2 fun x y => BitVec.ofNat 32 (f x.toNat y.toNat)
def fop1 (f : Nat → Nat) : Sel → Sel → State → Out State := op1 fun x => BitVec.ofNat 32 (f x.toNat)
/-- Operations that read the destination as an accumulator; it comes last. -/
def facc (f : Nat → Nat → Nat → Nat) : Sel → Sel → Sel → State → Out State :=
  op2d fun d x y => BitVec.ofNat 32 (f x.toNat y.toNat d.toNat)

/-- The byte products of `idp4` under a reading of a byte. -/
def idp4 (rd : Nat → Int) (d a b : Word) : Word :=
  d + BitVec.ofInt 32 (((List.range 4).map fun k =>
    rd (a.toNat / 2 ^ (8 * k) % 256) * rd (b.toNat / 2 ^ (8 * k) % 256)).sum)
def s8 (x : Nat) : Int := if x < 128 then x else (x : Int) - 256

def execFadd (d a b : Sel) : State → Out State := fop2 Fmt.f32.fadd d a b
def execFsub (d a b : Sel) : State → Out State := fop2 Fmt.f32.fsub d a b
def execFmul (d a b : Sel) : State → Out State := fop2 Fmt.f32.fmul d a b
def execFmin (d a b : Sel) : State → Out State := fop2 (Fmt.f32.minmax false) d a b
def execFmax (d a b : Sel) : State → Out State := fop2 (Fmt.f32.minmax true) d a b
def execFabs (d a : Sel) : State → Out State := op1 (fun x => x &&& 0x7FFFFFFF) d a
def execFneg (d a : Sel) : State → Out State := op1 (fun x => x ^^^ 0x80000000) d a
def execFdiv (d a b : Sel) : State → Out State := fop2 Fmt.f32.fdiv d a b
def execFsqrt (d a : Sel) : State → Out State := fop1 (f32Fn fsqrtExt) d a
def execFrcp (d a : Sel) : State → Out State := fop1 (f32Fn (Ext.div (.fin false 1 1))) d a
def execFrsqrt (d a : Sel) : State → Out State := fop1 (f32Fn frsqrtExt) d a
def execFexp2 (d a : Sel) : State → Out State := fop1 (f32Fn fexp2Ext) d a
def execFlog2 (d a : Sel) : State → Out State := fop1 (f32Fn flog2Ext) d a
def execFsinpi (d a : Sel) : State → Out State := fop1 (f32Fn fsinpiExt) d a
def execFcospi (d a : Sel) : State → Out State := fop1 (f32Fn fcospiExt) d a
def execFtanh (d a : Sel) : State → Out State := fop1 (f32Fn ftanhExt) d a
def execFaddF16x2 (d a b : Sel) : State → Out State := fop2 (perHalf Fmt.f16.fadd) d a b
def execFmulF16x2 (d a b : Sel) : State → Out State := fop2 (perHalf Fmt.f16.fmul) d a b
def execFaddBf16x2 (d a b : Sel) : State → Out State := fop2 (perHalf Fmt.bf16.fadd) d a b
def execFmulBf16x2 (d a b : Sel) : State → Out State := fop2 (perHalf Fmt.bf16.fmul) d a b
def execFminF16x2 (d a b : Sel) : State → Out State := fop2 (perHalf (Fmt.f16.minmax false)) d a b
def execFmaxF16x2 (d a b : Sel) : State → Out State := fop2 (perHalf (Fmt.f16.minmax true)) d a b
def execFscl (d a b : Sel) : State → Out State := op2 (fun x y => BitVec.ofNat 32 (fsclCode x.toNat y.toInt)) d a b
def execFrnd (d a : Sel) : State → Out State := fop1 (frintCode .rne) d a
def execFfmaF16x2 (d a b : Sel) : State → Out State := facc (perHalf3 Fmt.f16.ffma) d a b
def execFfmaBf16x2 (d a b : Sel) : State → Out State := facc (perHalf3 Fmt.bf16.ffma) d a b
def execFdot2Bf16 (d a b : Sel) : State → Out State := facc fdot2Code d a b
def execIdp4S8 (d a b : Sel) : State → Out State := op2d (idp4 s8) d a b
def execIdp4N8 (d a b : Sel) : State → Out State := op2d (idp4 fun x => x) d a b

/-! Conversions (R154 to R161). -/

/-- Element el of a register, in pieces of w bits. -/
def elemOf (w : Nat) (x : Word) (el : BitVec 2) : Nat := x.toNat / 2 ^ (w * el.toNat) % 2 ^ w
/-- Replace element el. -/
def merge (w : Nat) (x : Word) (el : BitVec 2) (v : Nat) : Word :=
  let sh := 2 ^ (w * el.toNat)
  BitVec.ofNat 32 (x.toNat - x.toNat / sh % 2 ^ w * sh + v % 2 ^ w * sh)

/-- FP32 into element el of d. -/
def pack (w : Nat) (f : Nat → Nat) (el : BitVec 2) : Sel → Sel → State → Out State :=
  op1d fun d x => merge w d el (f x.toNat)
/-- Element el of a into FP32. -/
def unpack (w : Nat) (f : Nat → Nat) (el : BitVec 2) : Sel → Sel → State → Out State :=
  op1 fun x => BitVec.ofNat 32 (f (elemOf w x el))

def execCvtF32S32 (d a : Sel) (rm : BitVec 2) : State → Out State := op1 (fun x => BitVec.ofNat 32 (intToF32 (rmOf rm) x.toInt)) d a
def execCvtF32N32 (d a : Sel) (rm : BitVec 2) : State → Out State := op1 (fun x => BitVec.ofNat 32 (intToF32 (rmOf rm) x.toNat)) d a
def execCvtS32F32 (d a : Sel) (sat : Bool) (rm : BitVec 2) : State → Out State := fop1 (f32ToS32 (rmOf rm) sat) d a
def execCvtN32F32 (d a : Sel) (sat : Bool) (rm : BitVec 2) : State → Out State := fop1 (f32ToN32 (rmOf rm) sat) d a
def execCvtF32F16 (d a : Sel) (el : BitVec 2) : State → Out State := unpack 16 Fmt.f16.widen el d a
def execCvtF32Bf16 (d a : Sel) (el : BitVec 2) : State → Out State := unpack 16 Fmt.bf16.widen el d a
def execPkF16 (d a : Sel) (el : BitVec 2) (sat : Bool) (rm : BitVec 2) : State → Out State := pack 16 (Fmt.f16.convert (rmOf rm) sat) el d a
def execPkBf16 (d a : Sel) (el : BitVec 2) (sat : Bool) (rm : BitVec 2) : State → Out State := pack 16 (Fmt.bf16.convert (rmOf rm) sat) el d a
def execPkE4m3 (d a : Sel) (el : BitVec 2) (sat : Bool) (rm : BitVec 2) : State → Out State := pack 8 (Fmt.e4m3.convert (rmOf rm) sat) el d a
def execPkE5m2 (d a : Sel) (el : BitVec 2) (sat : Bool) (rm : BitVec 2) : State → Out State := pack 8 (Fmt.e5m2.convert (rmOf rm) sat) el d a
/-- Two FP32 values into a byte of two nibbles (R158). -/
def execPkE2m1 (d a : Sel) (el : BitVec 2) (sat : Bool) (rm : BitVec 2) : State → Out State :=
  lanewise [(d, 1), (a, 2)] (d, 1) fun x =>
    let c (v : Nat) := Fmt.e2m1.convert (rmOf rm) sat v
    (merge 8 (arg32 x 0) el (c ((arg x 1).toNat % 2 ^ 32) + 16 * c ((arg x 1).toNat / 2 ^ 32))).setWidth 64
def execPkF8d (d a : Sel) (bias : BitVec 4) (el : BitVec 2) : State → Out State := pack 8 (f8dOfF32 (biasOf bias.toNat)) el d a
def execUpkE4m3 (d a : Sel) (el : BitVec 2) : State → Out State := unpack 8 Fmt.e4m3.widen el d a
def execUpkE5m2 (d a : Sel) (el : BitVec 2) : State → Out State := unpack 8 Fmt.e5m2.widen el d a
def execUpkE2m1 (d a : Sel) (el : BitVec 2) : State → Out State :=
  lanewise [(a, 1)] (d, 2) fun x =>
    let b := elemOf 8 (arg32 x 0) el
    BitVec.ofNat 64 (Fmt.e2m1.widen (b % 16) + 2 ^ 32 * Fmt.e2m1.widen (b / 16))
def execUpkF8d (d a : Sel) (bias : BitVec 4) (el : BitVec 2) : State → Out State := unpack 8 (f32OfF8d (biasOf bias.toNat)) el d a
def execCvtE8m0 (d a : Sel) (el : BitVec 2) (sat : Bool) (rm : BitVec 2) : State → Out State := pack 8 (e8m0OfF32 (rmOf rm) sat) el d a
def execFrint (d a : Sel) (rm : BitVec 2) : State → Out State := fop1 (frintCode (rmOf rm)) d a

/-! Four-operand forms and constants (R162, R163). -/

def execFfma (d a b c : Sel) : State → Out State := op3 (fun x y z => BitVec.ofNat 32 (Fmt.f32.ffma x.toNat y.toNat z.toNat)) d a b c
def execSel (d a b c : Sel) : State → Out State := op3 (fun x y z => if z ≠ 0 then x else y) d a b c
def execImad (d a b c : Sel) : State → Out State := op3 (fun x y z => x * y + z) d a b c
def execMovi (d : Sel) (i : BitVec 20) : State → Out State := lanewise [] (d, 1) fun _ => (i.signExtend 32).setWidth 64
def execMovh (d : Sel) (i : BitVec 12) : State → Out State := op1 (fun x => (i ++ x.setWidth 20 : BitVec 32)) d d

end Sys2Proof.Machine
end

