-- ==== Sys2Proof/Machine/Xln.lean ====
section
/-! DEFINITION. Cross-lane forms (06_isa_control_lanes.md R177): each lane's result from the values of all active lanes. -/

namespace Sys2Proof.Machine

/-- The values of the active lanes, ascending. -/
abbrev LaneVals := List (Nat × Word)

def LaneVals.at (v : LaneVals) (l : Nat) : Word := ((v.find? (·.1 == l)).map (·.2)).getD 0
def LaneVals.mask (v : LaneVals) (f : Word → Bool) : Word := laneWord ((v.filter fun x => f x.2).map (·.1))

/-- A form that reads one source of every active lane. -/
def xln1 (f : LaneVals → Nat → Word) (d a : Sel) : State → Out State :=
  onPath fun sid p s => s.compute sid p [(a, 1)] (d, 1) true fun vals l =>
    .ok ((f (vals.map fun x => (x.1, arg32 x.2 0)) l).setWidth 64)

/-- A permuting form: `j` gives the source lane from this lane and its second source. -/
def xlnPick (j : Nat → Word → Int) (d a b : Sel) : State → Out State :=
  onPath fun sid p s => s.compute sid p [(a, 1), (b, 1)] (d, 1) true fun vals l =>
    let from' (k : Nat) : Word := arg32 ((nget vals k).getD []) 0
    let k := j l (arg32 ((nget vals l).getD []) 1)
    .ok ((if 0 ≤ k ∧ k < 32 ∧ p.lanes.contains k.toNat then from' k.toNat else from' l).setWidth 64)

def execLxPick (d a b : Sel) : State → Out State := xlnPick (fun _ b => (b.toNat % 32 : Nat)) d a b
def execLxShift (d a b : Sel) : State → Out State := xlnPick (fun i b => i + b.toInt) d a b
def execLxRot (d a b : Sel) : State → Out State := xlnPick (fun i b => ((i + b.toNat) % 32 : Nat)) d a b
def execLxSwap (d a b : Sel) : State → Out State := xlnPick (fun i b => (i ^^^ b.toNat % 32 : Nat)) d a b

def execLxAny (d a : Sel) : State → Out State := xln1 (fun v _ => maskOf (v.any fun x => x.2 != 0)) d a
def execLxAll (d a : Sel) : State → Out State := xln1 (fun v _ => maskOf (v.all fun x => x.2 != 0)) d a
def execLxMask (d a : Sel) : State → Out State := xln1 (fun v _ => v.mask (· != 0)) d a
def execLxFirst (d a : Sel) : State → Out State := xln1 (fun v _ => (v.head?.map (·.2)).getD 0) d a
def execLxSumS32 (d a : Sel) : State → Out State := xln1 (fun v _ => v.foldl (fun t x => t + x.2) 0) d a
def execLxMinS32 (d a : Sel) : State → Out State :=
  xln1 (fun v _ => v.foldl (fun m x => if x.2.slt m then x.2 else m) 0x7FFFFFFF) d a
def execLxMaxS32 (d a : Sel) : State → Out State :=
  xln1 (fun v _ => v.foldl (fun m x => if m.slt x.2 then x.2 else m) 0x80000000) d a
def execLxFsum (d a : Sel) : State → Out State := xln1 (fun v _ => BitVec.ofNat 32 (fsumCode (v.map (·.2.toNat)))) d a
def execLxPrefixS32 (d a : Sel) : State → Out State :=
  xln1 (fun v l => (v.filter fun x => decide (x.1 ≤ l)).foldl (fun t x => t + x.2) 0) d a
def execLxSame (d a : Sel) : State → Out State := xln1 (fun v l => v.mask (· == v.at l)) d a

/-- A form without a source. -/
def xln0 (f : List Nat → Nat → Word) (d : Sel) : State → Out State :=
  onPath fun sid p s => s.compute sid p [] (d, 1) true fun _ l => .ok ((f p.lanes l).setWidth 64)

def execLxActive (d : Sel) : State → Out State := xln0 (fun ls _ => laneWord ls) d
def execLxLead (d : Sel) : State → Out State := xln0 (fun ls l => maskOf (l == lowest ls)) d

end Sys2Proof.Machine
end

