-- ==== Sys2Proof/Machine/Dispatch.lean ====
section
/-! DEFINITION. One arm per instruction: the direct call of its meaning. -/

namespace Sys2Proof.Machine

def exec (i : Instr) (s : State) : Host.Outcome State Fault Refusal :=
  match i with
  | .nop => Sys2Proof.Machine.execNop s
  | .loop a off => Sys2Proof.Machine.execLoop a off s
  | .brk n => Sys2Proof.Machine.execBrk n s
  | .swtrap t c => Sys2Proof.Machine.execSwtrap t c s
  | .yield => Sys2Proof.Machine.execYield s
  | .sleep n => Sys2Proof.Machine.execSleep n s
  | .iadd d a b => Sys2Proof.Machine.execIadd d a b s
  | .isub d a b => Sys2Proof.Machine.execIsub d a b s
  | .imul d a b => Sys2Proof.Machine.execImul d a b s
  | .imulhS32 d a b => Sys2Proof.Machine.execImulhS32 d a b s
  | .imulhN32 d a b => Sys2Proof.Machine.execImulhN32 d a b s
  | .idivS32 d a b => Sys2Proof.Machine.execIdivS32 d a b s
  | .idivN32 d a b => Sys2Proof.Machine.execIdivN32 d a b s
  | .iremS32 d a b => Sys2Proof.Machine.execIremS32 d a b s
  | .iremN32 d a b => Sys2Proof.Machine.execIremN32 d a b s
  | .iminS32 d a b => Sys2Proof.Machine.execIminS32 d a b s
  | .iminN32 d a b => Sys2Proof.Machine.execIminN32 d a b s
  | .imaxS32 d a b => Sys2Proof.Machine.execImaxS32 d a b s
  | .imaxN32 d a b => Sys2Proof.Machine.execImaxN32 d a b s
  | .iabs d a => Sys2Proof.Machine.execIabs d a s
  | .iaddsS32 d a b => Sys2Proof.Machine.execIaddsS32 d a b s
  | .isubsS32 d a b => Sys2Proof.Machine.execIsubsS32 d a b s
  | .iaddsN32 d a b => Sys2Proof.Machine.execIaddsN32 d a b s
  | .isubsN32 d a b => Sys2Proof.Machine.execIsubsN32 d a b s
  | .add64 d a b => Sys2Proof.Machine.execAdd64 d a b s
  | .sub64 d a b => Sys2Proof.Machine.execSub64 d a b s
  | .mulwS32 d a b => Sys2Proof.Machine.execMulwS32 d a b s
  | .mulwN32 d a b => Sys2Proof.Machine.execMulwN32 d a b s
  | .iaddi d a imm => Sys2Proof.Machine.execIaddi d a imm s
  | .iandi d a imm => Sys2Proof.Machine.execIandi d a imm s
  | .iori d a imm => Sys2Proof.Machine.execIori d a imm s
  | .ixori d a imm => Sys2Proof.Machine.execIxori d a imm s
  | .ishli d a imm => Sys2Proof.Machine.execIshli d a imm s
  | .ishri d a imm => Sys2Proof.Machine.execIshri d a imm s
  | .israi d a imm => Sys2Proof.Machine.execIsrai d a imm s
  | .icmpiLt d a imm => Sys2Proof.Machine.execIcmpiLt d a imm s
  | .and d a b => Sys2Proof.Machine.execAnd d a b s
  | .or d a b => Sys2Proof.Machine.execOr d a b s
  | .xor d a b => Sys2Proof.Machine.execXor d a b s
  | .andn d a b => Sys2Proof.Machine.execAndn d a b s
  | .orn d a b => Sys2Proof.Machine.execOrn d a b s
  | .shl d a b => Sys2Proof.Machine.execShl d a b s
  | .shr d a b => Sys2Proof.Machine.execShr d a b s
  | .sra d a b => Sys2Proof.Machine.execSra d a b s
  | .rotl d a b => Sys2Proof.Machine.execRotl d a b s
  | .shl64 d a b => Sys2Proof.Machine.execShl64 d a b s
  | .shr64 d a b => Sys2Proof.Machine.execShr64 d a b s
  | .sra64 d a b => Sys2Proof.Machine.execSra64 d a b s
  | .popc d a => Sys2Proof.Machine.execPopc d a s
  | .clz d a => Sys2Proof.Machine.execClz d a s
  | .ctz d a => Sys2Proof.Machine.execCtz d a s
  | .brev d a => Sys2Proof.Machine.execBrev d a s
  | .bfxS d a b => Sys2Proof.Machine.execBfxS d a b s
  | .bfxN d a b => Sys2Proof.Machine.execBfxN d a b s
  | .bfi d a b => Sys2Proof.Machine.execBfi d a b s
  | .perm d a b => Sys2Proof.Machine.execPerm d a b s
  | .ceq d a b => Sys2Proof.Machine.execCeq d a b s
  | .cne d a b => Sys2Proof.Machine.execCne d a b s
  | .cltS d a b => Sys2Proof.Machine.execCltS d a b s
  | .cleS d a b => Sys2Proof.Machine.execCleS d a b s
  | .cltN d a b => Sys2Proof.Machine.execCltN d a b s
  | .cleN d a b => Sys2Proof.Machine.execCleN d a b s
  | .fceq d a b => Sys2Proof.Machine.execFceq d a b s
  | .fcne d a b => Sys2Proof.Machine.execFcne d a b s
  | .fclt d a b => Sys2Proof.Machine.execFclt d a b s
  | .fcle d a b => Sys2Proof.Machine.execFcle d a b s
  | .fcun d a b => Sys2Proof.Machine.execFcun d a b s
  | .fclass d a b => Sys2Proof.Machine.execFclass d a b s
  | .ceq64 d a b => Sys2Proof.Machine.execCeq64 d a b s
  | .clt64S d a b => Sys2Proof.Machine.execClt64S d a b s
  | .clt64N d a b => Sys2Proof.Machine.execClt64N d a b s
  | .fadd d a b => Sys2Proof.Machine.execFadd d a b s
  | .fsub d a b => Sys2Proof.Machine.execFsub d a b s
  | .fmul d a b => Sys2Proof.Machine.execFmul d a b s
  | .fmin d a b => Sys2Proof.Machine.execFmin d a b s
  | .fmax d a b => Sys2Proof.Machine.execFmax d a b s
  | .fabs d a => Sys2Proof.Machine.execFabs d a s
  | .fneg d a => Sys2Proof.Machine.execFneg d a s
  | .fdiv d a b => Sys2Proof.Machine.execFdiv d a b s
  | .fsqrt d a => Sys2Proof.Machine.execFsqrt d a s
  | .frcp d a => Sys2Proof.Machine.execFrcp d a s
  | .frsqrt d a => Sys2Proof.Machine.execFrsqrt d a s
  | .fexp2 d a => Sys2Proof.Machine.execFexp2 d a s
  | .flog2 d a => Sys2Proof.Machine.execFlog2 d a s
  | .fsinpi d a => Sys2Proof.Machine.execFsinpi d a s
  | .fcospi d a => Sys2Proof.Machine.execFcospi d a s
  | .ftanh d a => Sys2Proof.Machine.execFtanh d a s
  | .faddF16x2 d a b => Sys2Proof.Machine.execFaddF16x2 d a b s
  | .fmulF16x2 d a b => Sys2Proof.Machine.execFmulF16x2 d a b s
  | .faddBf16x2 d a b => Sys2Proof.Machine.execFaddBf16x2 d a b s
  | .fmulBf16x2 d a b => Sys2Proof.Machine.execFmulBf16x2 d a b s
  | .fminF16x2 d a b => Sys2Proof.Machine.execFminF16x2 d a b s
  | .fmaxF16x2 d a b => Sys2Proof.Machine.execFmaxF16x2 d a b s
  | .fscl d a b => Sys2Proof.Machine.execFscl d a b s
  | .frnd d a => Sys2Proof.Machine.execFrnd d a s
  | .ffmaF16x2 d a b => Sys2Proof.Machine.execFfmaF16x2 d a b s
  | .ffmaBf16x2 d a b => Sys2Proof.Machine.execFfmaBf16x2 d a b s
  | .fdot2Bf16 d a b => Sys2Proof.Machine.execFdot2Bf16 d a b s
  | .idp4S8 d a b => Sys2Proof.Machine.execIdp4S8 d a b s
  | .idp4N8 d a b => Sys2Proof.Machine.execIdp4N8 d a b s
  | .cvtF32S32 d a rm => Sys2Proof.Machine.execCvtF32S32 d a rm s
  | .cvtF32N32 d a rm => Sys2Proof.Machine.execCvtF32N32 d a rm s
  | .cvtS32F32 d a sat rm => Sys2Proof.Machine.execCvtS32F32 d a sat rm s
  | .cvtN32F32 d a sat rm => Sys2Proof.Machine.execCvtN32F32 d a sat rm s
  | .cvtF32F16 d a el => Sys2Proof.Machine.execCvtF32F16 d a el s
  | .cvtF32Bf16 d a el => Sys2Proof.Machine.execCvtF32Bf16 d a el s
  | .pkF16 d a el sat rm => Sys2Proof.Machine.execPkF16 d a el sat rm s
  | .pkBf16 d a el sat rm => Sys2Proof.Machine.execPkBf16 d a el sat rm s
  | .pkE4m3 d a el sat rm => Sys2Proof.Machine.execPkE4m3 d a el sat rm s
  | .pkE5m2 d a el sat rm => Sys2Proof.Machine.execPkE5m2 d a el sat rm s
  | .pkE2m1 d a el sat rm => Sys2Proof.Machine.execPkE2m1 d a el sat rm s
  | .pkF8d d a bias el => Sys2Proof.Machine.execPkF8d d a bias el s
  | .upkE4m3 d a el => Sys2Proof.Machine.execUpkE4m3 d a el s
  | .upkE5m2 d a el => Sys2Proof.Machine.execUpkE5m2 d a el s
  | .upkE2m1 d a el => Sys2Proof.Machine.execUpkE2m1 d a el s
  | .upkF8d d a bias el => Sys2Proof.Machine.execUpkF8d d a bias el s
  | .cvtE8m0 d a el sat rm => Sys2Proof.Machine.execCvtE8m0 d a el sat rm s
  | .frint d a rm => Sys2Proof.Machine.execFrint d a rm s
  | .ffma d a b c => Sys2Proof.Machine.execFfma d a b c s
  | .sel d a b c => Sys2Proof.Machine.execSel d a b c s
  | .imad d a b c => Sys2Proof.Machine.execImad d a b c s
  | .ldN8 d a base off => Sys2Proof.Machine.execLdN8 d a base off s
  | .ldS8 d a base off => Sys2Proof.Machine.execLdS8 d a base off s
  | .ldN16 d a base off => Sys2Proof.Machine.execLdN16 d a base off s
  | .ldS16 d a base off => Sys2Proof.Machine.execLdS16 d a base off s
  | .ldB32 d a base off => Sys2Proof.Machine.execLdB32 d a base off s
  | .ldB64 d a base off => Sys2Proof.Machine.execLdB64 d a base off s
  | .ldB128 d a base off => Sys2Proof.Machine.execLdB128 d a base off s
  | .ldBlk d a base n => Sys2Proof.Machine.execLdBlk d a base n s
  | .stB8 d a base off => Sys2Proof.Machine.execStB8 d a base off s
  | .stB16 d a base off => Sys2Proof.Machine.execStB16 d a base off s
  | .stB32 d a base off => Sys2Proof.Machine.execStB32 d a base off s
  | .stB64 d a base off => Sys2Proof.Machine.execStB64 d a base off s
  | .stB128 d a base off => Sys2Proof.Machine.execStB128 d a base off s
  | .stBlk d a base n => Sys2Proof.Machine.execStBlk d a base n s
  | .aadd d a b base => Sys2Proof.Machine.execAadd d a b base s
  | .aand d a b base => Sys2Proof.Machine.execAand d a b base s
  | .aor d a b base => Sys2Proof.Machine.execAor d a b base s
  | .axor d a b base => Sys2Proof.Machine.execAxor d a b base s
  | .aminS32 d a b base => Sys2Proof.Machine.execAminS32 d a b base s
  | .amaxS32 d a b base => Sys2Proof.Machine.execAmaxS32 d a b base s
  | .aminN32 d a b base => Sys2Proof.Machine.execAminN32 d a b base s
  | .amaxN32 d a b base => Sys2Proof.Machine.execAmaxN32 d a b base s
  | .axchg d a b base => Sys2Proof.Machine.execAxchg d a b base s
  | .acas d a b base => Sys2Proof.Machine.execAcas d a b base s
  | .aadd64 d a b base => Sys2Proof.Machine.execAadd64 d a b base s
  | .acas64 d a b base => Sys2Proof.Machine.execAcas64 d a b base s
  | .afadd d a b base => Sys2Proof.Machine.execAfadd d a b base s
  | .afaddBf16x2 d a b base => Sys2Proof.Machine.execAfaddBf16x2 d a b base s
  | .aincWrap d a b base => Sys2Proof.Machine.execAincWrap d a b base s
  | .bra off => Sys2Proof.Machine.execBra off s
  | .bz a off => Sys2Proof.Machine.execBz a off s
  | .bnz a off => Sys2Proof.Machine.execBnz a off s
  | .blz a off => Sys2Proof.Machine.execBlz a off s
  | .bgez a off => Sys2Proof.Machine.execBgez a off s
  | .call a off => Sys2Proof.Machine.execCall a off s
  | .bany a off => Sys2Proof.Machine.execBany a off s
  | .ball a off => Sys2Proof.Machine.execBall a off s
  | .jr a => Sys2Proof.Machine.execJr a s
  | .callr d a => Sys2Proof.Machine.execCallr d a s
  | .ret a => Sys2Proof.Machine.execRet a s
  | .exit => Sys2Proof.Machine.execExit s
  | .reform n => Sys2Proof.Machine.execReform n s
  | .spawn c a b => Sys2Proof.Machine.execSpawn c a b s
  | .rbar => Sys2Proof.Machine.execRbar s
  | .lxPick d a b => Sys2Proof.Machine.execLxPick d a b s
  | .lxShift d a b => Sys2Proof.Machine.execLxShift d a b s
  | .lxRot d a b => Sys2Proof.Machine.execLxRot d a b s
  | .lxSwap d a b => Sys2Proof.Machine.execLxSwap d a b s
  | .lxAny d a => Sys2Proof.Machine.execLxAny d a s
  | .lxAll d a => Sys2Proof.Machine.execLxAll d a s
  | .lxMask d a => Sys2Proof.Machine.execLxMask d a s
  | .lxActive d => Sys2Proof.Machine.execLxActive d s
  | .lxFirst d a => Sys2Proof.Machine.execLxFirst d a s
  | .lxSumS32 d a => Sys2Proof.Machine.execLxSumS32 d a s
  | .lxMinS32 d a => Sys2Proof.Machine.execLxMinS32 d a s
  | .lxMaxS32 d a => Sys2Proof.Machine.execLxMaxS32 d a s
  | .lxFsum d a => Sys2Proof.Machine.execLxFsum d a s
  | .lxPrefixS32 d a => Sys2Proof.Machine.execLxPrefixS32 d a s
  | .lxSame d a => Sys2Proof.Machine.execLxSame d a s
  | .lxLead d => Sys2Proof.Machine.execLxLead d s
  | .barArrive n => Sys2Proof.Machine.execBarArrive n s
  | .barWait n => Sys2Proof.Machine.execBarWait n s
  | .barSync n => Sys2Proof.Machine.execBarSync n s
  | .barInit e n => Sys2Proof.Machine.execBarInit e n s
  | .fence k sl => Sys2Proof.Machine.execFence k sl s
  | .fenceOpnd => Sys2Proof.Machine.execFenceOpnd s
  | .fenceIfetch => Sys2Proof.Machine.execFenceIfetch s
  | .wait m => Sys2Proof.Machine.execWait m s
  | .tktWait t => Sys2Proof.Machine.execTktWait t s
  | .tktPass t => Sys2Proof.Machine.execTktPass t s
  | .mxGo d a b => Sys2Proof.Machine.execMxGo d a b s
  | .mxWait d a retire => Sys2Proof.Machine.execMxWait d a retire s
  | .mxTest d a => Sys2Proof.Machine.execMxTest d a s
  | .mxStat d a => Sys2Proof.Machine.execMxStat d a s
  | .mxAbort a => Sys2Proof.Machine.execMxAbort a s
  | .drnLoad sl a => Sys2Proof.Machine.execDrnLoad sl a s
  | .qBind p b => Sys2Proof.Machine.execQBind p b s
  | .qUnbind p => Sys2Proof.Machine.execQUnbind p s
  | .qTake d p => Sys2Proof.Machine.execQTake d p s
  | .qGive p => Sys2Proof.Machine.execQGive p s
  | .qAlloc d p => Sys2Proof.Machine.execQAlloc d p s
  | .qPost p => Sys2Proof.Machine.execQPost p s
  | .qCnt d p => Sys2Proof.Machine.execQCnt d p s
  | .qClose p => Sys2Proof.Machine.execQClose p s
  | .cpGo d a => Sys2Proof.Machine.execCpGo d a s
  | .cpFill d a => Sys2Proof.Machine.execCpFill d a s
  | .cpGather d a => Sys2Proof.Machine.execCpGather d a s
  | .cpQ d a => Sys2Proof.Machine.execCpQ d a s
  | .cpWait d a retire => Sys2Proof.Machine.execCpWait d a retire s
  | .cpTest d a => Sys2Proof.Machine.execCpTest d a s
  | .lpLd d a => Sys2Proof.Machine.execLpLd d a s
  | .lpPut d a b => Sys2Proof.Machine.execLpPut d a b s
  | .lpAdd d a b => Sys2Proof.Machine.execLpAdd d a b s
  | .lpCas d a b => Sys2Proof.Machine.execLpCas d a b s
  | .lpMsg d a b => Sys2Proof.Machine.execLpMsg d a b s
  | .lpFence a => Sys2Proof.Machine.execLpFence a s
  | .lpGate => Sys2Proof.Machine.execLpGate s
  | .lpNow d => Sys2Proof.Machine.execLpNow d s
  | .lpSeq d a => Sys2Proof.Machine.execLpSeq d a s
  | .lpLaunch d a => Sys2Proof.Machine.execLpLaunch d a s
  | .fabPut d a => Sys2Proof.Machine.execFabPut d a s
  | .fabGet d a => Sys2Proof.Machine.execFabGet d a s
  | .fabAadd d a b => Sys2Proof.Machine.execFabAadd d a b s
  | .fabAcas d a b => Sys2Proof.Machine.execFabAcas d a b s
  | .fabFence => Sys2Proof.Machine.execFabFence s
  | .fabWait a => Sys2Proof.Machine.execFabWait a s
  | .movi d imm => Sys2Proof.Machine.execMovi d imm s
  | .movh d imm => Sys2Proof.Machine.execMovh d imm s
  | .scopeOpen n => Sys2Proof.Machine.execScopeOpen n s
  | .scopeClose => Sys2Proof.Machine.execScopeClose s
  | .wbase k => Sys2Proof.Machine.execWbase k s
  | .safept n => Sys2Proof.Machine.execSafept n s
  | .dgOn clear => Sys2Proof.Machine.execDgOn clear s
  | .dgOff => Sys2Proof.Machine.execDgOff s
  | .dgChk d a cmp => Sys2Proof.Machine.execDgChk d a cmp s
  | .dgFold d a => Sys2Proof.Machine.execDgFold d a s
  | .csrRd d n => Sys2Proof.Machine.execCsrRd d n s
  | .csrWr a n => Sys2Proof.Machine.execCsrWr a n s
  | .tret => Sys2Proof.Machine.execTret s
  | .tkill a => Sys2Proof.Machine.execTkill a s
  | .tlbInv a pod size => Sys2Proof.Machine.execTlbInv a pod size s
  | .tlbProbe d a => Sys2Proof.Machine.execTlbProbe d a s
  | .dbgHalt a => Sys2Proof.Machine.execDbgHalt a s
  | .mattr scope order use hint => Sys2Proof.Machine.execMattr scope order use hint s
  | .clauseIssue => Sys2Proof.Machine.execClauseIssue s
  | .waitConditionMet => Sys2Proof.Machine.execWaitConditionMet s
  | .variableLatencyResult => Sys2Proof.Machine.execVariableLatencyResult s
  | .storeAcknowledge => Sys2Proof.Machine.execStoreAcknowledge s
  | .pushLatchWrite => Sys2Proof.Machine.execPushLatchWrite s
  | .quantumPublishDeadline => Sys2Proof.Machine.execQuantumPublishDeadline s
  | .sleepIntervalElapsed => Sys2Proof.Machine.execSleepIntervalElapsed s
  | .watchdogExpiry => Sys2Proof.Machine.execWatchdogExpiry s
  | .binAgeTimerExpiry => Sys2Proof.Machine.execBinAgeTimerExpiry s
  | .binLaunch => Sys2Proof.Machine.execBinLaunch s
  | .compactorMove => Sys2Proof.Machine.execCompactorMove s
  | .teamEnd => Sys2Proof.Machine.execTeamEnd s
  | .atomicopCompletion => Sys2Proof.Machine.execAtomicopCompletion s
  | .copyRow => Sys2Proof.Machine.execCopyRow s
  | .cpQSlotFill => Sys2Proof.Machine.execCpQSlotFill s
  | .wavefrontAdmission => Sys2Proof.Machine.execWavefrontAdmission s
  | .wavefrontComplete => Sys2Proof.Machine.execWavefrontComplete s
  | .weightReloadComplete => Sys2Proof.Machine.execWeightReloadComplete s
  | .arrayQuiescentPoint => Sys2Proof.Machine.execArrayQuiescentPoint s
  | .drainUnitEntry => Sys2Proof.Machine.execDrainUnitEntry s
  | .drainUnitCommit => Sys2Proof.Machine.execDrainUnitCommit s
  | .mxcapWrite => Sys2Proof.Machine.execMxcapWrite s
  | .rlstallRead => Sys2Proof.Machine.execRlstallRead s
  | .aqpmaxRead => Sys2Proof.Machine.execAqpmaxRead s
  | .kick => Sys2Proof.Machine.execKick s
  | .kickPageOtherWrite => Sys2Proof.Machine.execKickPageOtherWrite s
  | .uqregWrite => Sys2Proof.Machine.execUqregWrite s
  | .uqderegWrite => Sys2Proof.Machine.execUqderegWrite s
  | .uqclrWrite => Sys2Proof.Machine.execUqclrWrite s
  | .uqstatRejClear => Sys2Proof.Machine.execUqstatRejClear s
  | .kickdropRead => Sys2Proof.Machine.execKickdropRead s
  | .launchPacket => Sys2Proof.Machine.execLaunchPacket s
  | .clusterLaunchPacket => Sys2Proof.Machine.execClusterLaunchPacket s
  | .copyPacket => Sys2Proof.Machine.execCopyPacket s
  | .waitLsnPacket => Sys2Proof.Machine.execWaitLsnPacket s
  | .signalPacket => Sys2Proof.Machine.execSignalPacket s
  | .barrierPacket => Sys2Proof.Machine.execBarrierPacket s
  | .graphPacket => Sys2Proof.Machine.execGraphPacket s
  | .graphNodeStart => Sys2Proof.Machine.execGraphNodeStart s
  | .packetCompletion => Sys2Proof.Machine.execPacketCompletion s
  | .sliceExpiry => Sys2Proof.Machine.execSliceExpiry s
  | .teamAdmission => Sys2Proof.Machine.execTeamAdmission s
  | .clusterReservationDelay => Sys2Proof.Machine.execClusterReservationDelay s
  | .saveComplete => Sys2Proof.Machine.execSaveComplete s
  | .preemptionTimeout => Sys2Proof.Machine.execPreemptionTimeout s
  | .teamResumption => Sys2Proof.Machine.execTeamResumption s
  | .coreHot => Sys2Proof.Machine.execCoreHot s
  | .coreCool => Sys2Proof.Machine.execCoreCool s
  | .coreThrottle => Sys2Proof.Machine.execCoreThrottle s
  | .coreUnthrottle => Sys2Proof.Machine.execCoreUnthrottle s
  | .packageOvertempShut => Sys2Proof.Machine.execPackageOvertempShut s
  | .coreIdleTimeout => Sys2Proof.Machine.execCoreIdleTimeout s
  | .ctxkillWrite => Sys2Proof.Machine.execCtxkillWrite s
  | .ctxctlKilledClear => Sys2Proof.Machine.execCtxctlKilledClear s
  | .loopGrantArrival => Sys2Proof.Machine.execLoopGrantArrival s
  | .loopIdleArrival => Sys2Proof.Machine.execLoopIdleArrival s
  | .numberedRecordReceive => Sys2Proof.Machine.execNumberedRecordReceive s
  | .recordWriteApply => Sys2Proof.Machine.execRecordWriteApply s
  | .recordAtomicApply => Sys2Proof.Machine.execRecordAtomicApply s
  | .recordMsgApply => Sys2Proof.Machine.execRecordMsgApply s
  | .recordLaunchApply => Sys2Proof.Machine.execRecordLaunchApply s
  | .recordKillOrderApply => Sys2Proof.Machine.execRecordKillOrderApply s
  | .recordXlateApply => Sys2Proof.Machine.execRecordXlateApply s
  | .recordDigestApply => Sys2Proof.Machine.execRecordDigestApply s
  | .grantRegeneration => Sys2Proof.Machine.execGrantRegeneration s
  | .lossOfSignal => Sys2Proof.Machine.execLossOfSignal s
  | .missingIdleTimeout => Sys2Proof.Machine.execMissingIdleTimeout s
  | .loopctlJoinWrite => Sys2Proof.Machine.execLoopctlJoinWrite s
  | .loopctlMasterWrite => Sys2Proof.Machine.execLoopctlMasterWrite s
  | .loopctlStartWrite => Sys2Proof.Machine.execLoopctlStartWrite s
  | .mzmHeaterWrite => Sys2Proof.Machine.execMzmHeaterWrite s
  | .qalarmClear => Sys2Proof.Machine.execQalarmClear s
  | .tapMinmaxRead => Sys2Proof.Machine.execTapMinmaxRead s
  | .grantsRead => Sys2Proof.Machine.execGrantsRead s
  | .regenRead => Sys2Proof.Machine.execRegenRead s
  | .crcerrRead => Sys2Proof.Machine.execCrcerrRead s
  | .ibdropRead => Sys2Proof.Machine.execIbdropRead s
  | .loopFormationTimeout => Sys2Proof.Machine.execLoopFormationTimeout s
  | .framePutReceive => Sys2Proof.Machine.execFramePutReceive s
  | .frameGetreqReceive => Sys2Proof.Machine.execFrameGetreqReceive s
  | .frameGetrespReceive => Sys2Proof.Machine.execFrameGetrespReceive s
  | .frameAaddReceive => Sys2Proof.Machine.execFrameAaddReceive s
  | .frameAcasReceive => Sys2Proof.Machine.execFrameAcasReceive s
  | .frameAtomrespReceive => Sys2Proof.Machine.execFrameAtomrespReceive s
  | .frameAckReceive => Sys2Proof.Machine.execFrameAckReceive s
  | .frameNaksReceive => Sys2Proof.Machine.execFrameNaksReceive s
  | .frameNakfReceive => Sys2Proof.Machine.execFrameNakfReceive s
  | .frameSleepReceive => Sys2Proof.Machine.execFrameSleepReceive s
  | .frameWakeReceive => Sys2Proof.Machine.execFrameWakeReceive s
  | .pfcPauseReceive => Sys2Proof.Machine.execPfcPauseReceive s
  | .ackDelayExpiry => Sys2Proof.Machine.execAckDelayExpiry s
  | .retransmitTimeout => Sys2Proof.Machine.execRetransmitTimeout s
  | .fabOperationTimeout => Sys2Proof.Machine.execFabOperationTimeout s
  | .rateRecoveryTimer => Sys2Proof.Machine.execRateRecoveryTimer s
  | .portctlEnWrite => Sys2Proof.Machine.execPortctlEnWrite s
  | .portctlLpreqWrite => Sys2Proof.Machine.execPortctlLpreqWrite s
  | .portctlWakeWrite => Sys2Proof.Machine.execPortctlWakeWrite s
  | .portLinkUp => Sys2Proof.Machine.execPortLinkUp s
  | .portLinkLost => Sys2Proof.Machine.execPortLinkLost s
  | .portDrainComplete => Sys2Proof.Machine.execPortDrainComplete s
  | .portLanesReady => Sys2Proof.Machine.execPortLanesReady s
  | .lpabortRead => Sys2Proof.Machine.execLpabortRead s
  | .dropsRead => Sys2Proof.Machine.execDropsRead s
  | .hostWindowRead => Sys2Proof.Machine.execHostWindowRead s
  | .hostWindowWrite => Sys2Proof.Machine.execHostWindowWrite s
  | .hostAtomicopRequest => Sys2Proof.Machine.execHostAtomicopRequest s
  | .hostCompletionTimeout => Sys2Proof.Machine.execHostCompletionTimeout s
  | .hostLinkDown => Sys2Proof.Machine.execHostLinkDown s
  | .hostLinkUp => Sys2Proof.Machine.execHostLinkUp s
  | .eqdropRead => Sys2Proof.Machine.execEqdropRead s
  | .controlRegisterWrite => Sys2Proof.Machine.execControlRegisterWrite s
  | .dbgcmdHalt => Sys2Proof.Machine.execDbgcmdHalt s
  | .dbgcmdResume => Sys2Proof.Machine.execDbgcmdResume s
  | .dbgcmdDump => Sys2Proof.Machine.execDbgcmdDump s
  | .dbgcmdCheckpoint => Sys2Proof.Machine.execDbgcmdCheckpoint s
  | .dbgcmdReplay => Sys2Proof.Machine.execDbgcmdReplay s
  | .checkpointPeriodExpiry => Sys2Proof.Machine.execCheckpointPeriodExpiry s
  | .sampleIntervalExpiry => Sys2Proof.Machine.execSampleIntervalExpiry s
  | .sampleRecordAppend => Sys2Proof.Machine.execSampleRecordAppend s
  | .drdropRead => Sys2Proof.Machine.execDrdropRead s
  | .packageReset => Sys2Proof.Machine.execPackageReset s
  | .suppliesGood => Sys2Proof.Machine.execSuppliesGood s
  | .powerCycle => Sys2Proof.Machine.execPowerCycle s
  | .dievWrite => Sys2Proof.Machine.execDievWrite s
  | .dievSupplyChange => Sys2Proof.Machine.execDievSupplyChange s
  | .dievSupplySettled => Sys2Proof.Machine.execDievSupplySettled s
  | .serrcntRead => Sys2Proof.Machine.execSerrcntRead s
  | .serruncRead => Sys2Proof.Machine.execSerruncRead s
  | .pcieConfigWrite => Sys2Proof.Machine.execPcieConfigWrite s
  | .tapPowerSample => Sys2Proof.Machine.execTapPowerSample s

end Sys2Proof.Machine
end

