-- ==== Sys2Proof/Machine/Step.lean ====
section
/-! DEFINITION. One step of the machine: an event, or a word that a path issues. -/

namespace Sys2Proof.Machine

/-- One step: a word or an event of the clock at hand takes effect; a clock passes where the one before has no more of them. -/
def step (s : State) : Host.Outcome State Fault Refusal :=
  match s.plan with
  | (none, t) => .next (t.settle t)
  | (some i, t) =>
    match exec i t with
    | .next u => .next (u.settle t)
    | .fault f => .fault f
    | .refused r => .refused r

/-- The state whose next step issues a word (notes/assumptions/5.md). -/
def State.withFetchWord (s : State) (_nbits w : Nat) : State := s.lone w

end Sys2Proof.Machine
end

