-- ==== Sys2Proof/Certificates/Slice0/Obligations.lean ====
section
/-! DEFINITION. The statements for the provers. The definitions of the namespace `Claim` say in the words of the spec what the
statements share: a path that issues, the operand phase that passes, a result written. -/

namespace Sys2Proof.Claim

open Sys2Proof.Machine

/-- A path of a resident strand stands first to issue; `rest` are the others. -/
def issues (s : State) (sid : Nat) (p : RunPath) (rest : List Run) : Prop :=
  s.runs = ⟨sid, p⟩ :: rest ∧ nhas s.strands sid = true

/-- The state while its word executes. -/
def begun (s : State) (rest : List Run) : State := { s with runs := rest }

/-- Some operand names a register beyond the current frame in some active lane (R22, R139 step 1). -/
def outside (s : State) (sid : Nat) (p : RunPath) (xs : List Opd) : Bool := xs.any ((s.str sid).outside p.lanes)

/-- The queue ports among the sources, each once, in the order of their first use, and the port of the destination (R28, R137). -/
def popsOf (srcs : List Opd) : List Nat := firsts (srcs.filterMap fun x => portOf x.1)
def pushOf (dsts : List Opd) : Option Nat := (dsts.filterMap fun x => portOf x.1).head?

/-- Steps 1 to 3 of R139 where they pass (no register beyond the frame, none with a soft error in it, ports that have what is asked of
them): the path, which notes the pops it made; the state after them; and every active lane's source values. -/
def ready (s : State) (sid : Nat) (p : RunPath) (srcs dsts : List Opd) : Option (RunPath × State × NMap (List Word64)) :=
  if outside s sid p (srcs ++ dsts) || !((s.str sid).softLanes p.lanes srcs).isEmpty then none
  else if (popsOf srcs).isEmpty && (pushOf dsts).isNone then
    let t := s.touchSrcs sid p.lanes srcs
    some (p, t, t.srcVals sid [] p.lanes srcs)
  else match s.portGate sid p.lanes (popsOf srcs) (pushOf dsts) with
    | .go =>
      let popped := s.makePops sid p.lanes (popsOf srcs)
      let t := popped.2.touchSrcs sid p.lanes srcs
      some ({ p with undo := s.popsMade t sid p.lanes (popsOf srcs) }, t, t.srcVals sid popped.1 p.lanes srcs)
    | _ => none

/-- Lane l's sources as 32-bit and as 64-bit values. -/
def x32 (vals : NMap (List Word64)) (l i : Nat) : Word := arg32 ((nget vals l).getD []) i
def x64 (vals : NMap (List Word64)) (l i : Nat) : Word64 := arg ((nget vals l).getD []) i

/-- R137's end of a form with a result: the destination and `lr` of the active lanes are written, the path goes on. -/
def wrote (s : State) (sid : Nat) (p : RunPath) (d : Opd) (res : Nat → Word64) : State :=
  ((s.writeDst sid d (p.lanes.map fun l => (l, res l))).modStr sid
    (·.setLr (p.lanes.map fun l => (l, if d.2 ≤ 1 then ((res l).setWidth 32).setWidth 64 else res l)))).advance sid p

/-- The instruction completes wherever its operand phase passes, and gives each active lane the result `f` says. -/
def gives (i : Instr) (srcs : List Opd) (d : Opd) (f : NMap (List Word64) → RunPath → Nat → Word64) : Prop :=
  ∀ (s : State) (sid : Nat) (p : RunPath) (rest : List Run) (q : RunPath) (t : State) (vals : NMap (List Word64)),
    issues s sid p rest → ready (begun s rest) sid p srcs [d] = some (q, t, vals) →
    exec i s = .next (wrote t sid q d (f vals q))

/-- The shapes of R137: 32-bit sources and result. -/
def gives1 (i : Instr) (d a : Sel) (f : Word → Word) : Prop :=
  gives i [(a, 1)] (d, 1) fun v _ l => (f (x32 v l 0)).setWidth 64
def gives2 (i : Instr) (d a b : Sel) (f : Word → Word → Word) : Prop :=
  gives i [(a, 1), (b, 1)] (d, 1) fun v _ l => (f (x32 v l 0) (x32 v l 1)).setWidth 64
def gives3 (i : Instr) (d a b c : Sel) (f : Word → Word → Word → Word) : Prop :=
  gives i [(a, 1), (b, 1), (c, 1)] (d, 1) fun v _ l => (f (x32 v l 0) (x32 v l 1) (x32 v l 2)).setWidth 64
/-- A form that reads d first. -/
def gives1d (i : Instr) (d a : Sel) (f : Word → Word → Word) : Prop :=
  gives i [(d, 1), (a, 1)] (d, 1) fun v _ l => (f (x32 v l 0) (x32 v l 1)).setWidth 64
def gives2d (i : Instr) (d a b : Sel) (f : Word → Word → Word → Word) : Prop :=
  gives i [(d, 1), (a, 1), (b, 1)] (d, 1) fun v _ l => (f (x32 v l 0) (x32 v l 1) (x32 v l 2)).setWidth 64
/-- Pair sources and result. -/
def gives2w (i : Instr) (d a b : Sel) (f : Word64 → Word64 → Word64) : Prop :=
  gives i [(a, 2), (b, 2)] (d, 2) fun v _ l => f (x64 v l 0) (x64 v l 1)
/-- 32-bit sources and a pair as result. -/
def gives2p (i : Instr) (d a b : Sel) (f : Word → Word → Word64) : Prop :=
  gives i [(a, 1), (b, 1)] (d, 2) fun v _ l => f (x32 v l 0) (x32 v l 1)

/-- s() of a register as an integer, and the two's complement words of integers. -/
def sInt (x : Word) : Int := x.toInt
def toS (x : Int) : Word := BitVec.ofInt 32 x
def clampS (x : Int) : Int := if x < -2 ^ 31 then -2 ^ 31 else if 2 ^ 31 - 1 < x then 2 ^ 31 - 1 else x
def clampN (x : Int) : Int := if x < 0 then 0 else if 2 ^ 32 - 1 < x then 2 ^ 32 - 1 else x
/-- A comparison's result (R148). -/
def truth (b : Prop) [Decidable b] : Word := if b then 0xFFFFFFFF else 0

end Sys2Proof.Claim

open Sys2Proof Sys2Proof.Machine Sys2Proof.Claim

/-- R142: the ALU forms but division. -/
def Sys2Proof.Claim.IntegerArithmeticResults : Prop := ∀ d a b : Sel,
  gives2 (.iadd d a b) d a b (fun x y => BitVec.ofNat 32 ((x.toNat + y.toNat) % 2 ^ 32)) ∧
  gives2 (.isub d a b) d a b (fun x y => toS (sInt x - sInt y)) ∧
  gives2 (.imul d a b) d a b (fun x y => BitVec.ofNat 32 (x.toNat * y.toNat % 2 ^ 32)) ∧
  gives2 (.imulhS32 d a b) d a b (fun x y => ((BitVec.ofInt 64 (sInt x * sInt y)) >>> 32).setWidth 32) ∧
  gives2 (.imulhN32 d a b) d a b (fun x y => ((BitVec.ofNat 64 (x.toNat * y.toNat)) >>> 32).setWidth 32) ∧
  gives2 (.iminS32 d a b) d a b (fun x y => toS (min (sInt x) (sInt y))) ∧
  gives2 (.iminN32 d a b) d a b (fun x y => BitVec.ofNat 32 (min x.toNat y.toNat)) ∧
  gives2 (.imaxS32 d a b) d a b (fun x y => toS (max (sInt x) (sInt y))) ∧
  gives2 (.imaxN32 d a b) d a b (fun x y => BitVec.ofNat 32 (max x.toNat y.toNat)) ∧
  gives1 (.iabs d a) d a (fun x => BitVec.ofNat 32 (sInt x).natAbs) ∧
  gives2 (.iaddsS32 d a b) d a b (fun x y => toS (clampS (sInt x + sInt y))) ∧
  gives2 (.isubsS32 d a b) d a b (fun x y => toS (clampS (sInt x - sInt y))) ∧
  gives2 (.iaddsN32 d a b) d a b (fun x y => toS (clampN (x.toNat + y.toNat))) ∧
  gives2 (.isubsN32 d a b) d a b (fun x y => toS (clampN ((x.toNat : Int) - y.toNat))) ∧
  gives2w (.add64 d a b) d a b (fun x y => BitVec.ofNat 64 ((x.toNat + y.toNat) % 2 ^ 64)) ∧
  gives2w (.sub64 d a b) d a b (fun x y => BitVec.ofInt 64 (x.toInt - y.toInt)) ∧
  gives2p (.mulwS32 d a b) d a b (fun x y => BitVec.ofInt 64 (sInt x * sInt y)) ∧
  gives2p (.mulwN32 d a b) d a b (fun x y => BitVec.ofNat 64 (x.toNat * y.toNat))

namespace Sys2Proof.Claim
open Sys2Proof.Machine

/-- R143 for the lanes `ok` where it does not trap: their results are written and they go on; the others, with a zero divisor
while SSW.DZT is set, trap with cause 0x10 and have nothing written. -/
def divides (i : Instr) (d a b : Sel) (f : Word → Word → Word) : Prop :=
  ∀ (s : State) (sid : Nat) (p : RunPath) (rest : List Run) (q : RunPath) (t : State) (vals : NMap (List Word64)),
    issues s sid p rest → ready (begun s rest) sid p [(a, 1), (b, 1)] [(d, 1)] = some (q, t, vals) →
    let traps : Nat → Bool := fun l => (t.str sid).csr.dzt && x32 vals l 1 == 0
    let res := (p.lanes.filter fun l => !traps l).map fun l => (l, (f (x32 vals l 0) (x32 vals l 1)).setWidth 64)
    let u := (t.writeDst sid (d, 1) res).modStr sid (·.setLr res)
    exec i s = .next (u.splitOff sid q ((p.lanes.filter traps).map fun l => (l, 0x10, 0, 0)))

/-- The quotient and the remainder of R143. -/
def quotS (x y : Word) : Word := if y = 0 then 0xFFFFFFFF else toS (Int.tdiv (sInt x) (sInt y))
def remS (x y : Word) : Word := if y = 0 then x else toS (Int.tmod (sInt x) (sInt y))
def quotN (x y : Word) : Word := if y = 0 then 0xFFFFFFFF else BitVec.ofNat 32 (x.toNat / y.toNat)
def remN (x y : Word) : Word := if y = 0 then x else BitVec.ofNat 32 (x.toNat % y.toNat)

end Sys2Proof.Claim

/-- R143: quotients truncate toward zero, remainders carry the dividend's sign, and a zero divisor traps only its lanes. -/
def Obligations.DivisionResultsAndTraps : Prop := ∀ d a b : Sel,
  divides (.idivS32 d a b) d a b quotS ∧ divides (.idivN32 d a b) d a b quotN ∧
  divides (.iremS32 d a b) d a b remS ∧ divides (.iremN32 d a b) d a b remN

/-- R144: the ALUI forms; the immediate is sign-extended. -/
def Sys2Proof.Claim.ImmediateResults : Prop := ∀ (d a : Sel) (i : BitVec 10),
  gives1 (.iaddi d a i) d a (fun x => toS (sInt x + i.toInt)) ∧
  gives1 (.iandi d a i) d a (fun x => x &&& toS i.toInt) ∧
  gives1 (.iori d a i) d a (fun x => x ||| toS i.toInt) ∧
  gives1 (.ixori d a i) d a (fun x => x ^^^ toS i.toInt) ∧
  (i.toNat < 32 → gives1 (.ishli d a i) d a (fun x => BitVec.ofNat 32 (x.toNat * 2 ^ i.toNat % 2 ^ 32))) ∧
  (i.toNat < 32 → gives1 (.ishri d a i) d a (fun x => BitVec.ofNat 32 (x.toNat / 2 ^ i.toNat))) ∧
  (i.toNat < 32 → gives1 (.israi d a i) d a (fun x => toS (sInt x / 2 ^ i.toNat))) ∧
  gives1 (.icmpiLt d a i) d a (fun x => truth (sInt x < i.toInt))

namespace Sys2Proof.Claim

/-- The field of R146: bits p to p + w' - 1 of a. -/
def posOf (b : Word) : Nat := b.toNat % 32
def widthOf (b : Word) : Nat := min (b.toNat / 256 % 64) (32 - posOf b)
/-- Bit i of the result of a form, given by a condition. -/
def bitsWhere (f : Nat → Bool) : Word := BitVec.ofNat 32 (((List.range 32).filter f).map (2 ^ ·)).sum

end Sys2Proof.Claim

/-- R145 to R147: the BIT forms, most of them bit by bit. -/
def Sys2Proof.Claim.BitResults : Prop := ∀ d a b : Sel,
  gives2 (.and d a b) d a b (fun x y => bitsWhere fun i => x.getLsbD i && y.getLsbD i) ∧
  gives2 (.or d a b) d a b (fun x y => bitsWhere fun i => x.getLsbD i || y.getLsbD i) ∧
  gives2 (.xor d a b) d a b (fun x y => bitsWhere fun i => x.getLsbD i != y.getLsbD i) ∧
  gives2 (.andn d a b) d a b (fun x y => bitsWhere fun i => x.getLsbD i && !y.getLsbD i) ∧
  gives2 (.orn d a b) d a b (fun x y => bitsWhere fun i => x.getLsbD i || !y.getLsbD i) ∧
  gives2 (.shl d a b) d a b (fun x y => bitsWhere fun i => decide (y.toNat ≤ i) && x.getLsbD (i - y.toNat)) ∧
  gives2 (.shr d a b) d a b (fun x y => bitsWhere fun i => x.getLsbD (i + y.toNat)) ∧
  gives2 (.sra d a b) d a b (fun x y => bitsWhere fun i => x.getLsbD (min 31 (i + y.toNat))) ∧
  gives2 (.rotl d a b) d a b (fun x y => bitsWhere fun i => x.getLsbD ((i + 32 - y.toNat % 32) % 32)) ∧
  gives (.shl64 d a b) [(a, 2), (b, 1)] (d, 2) (fun v _ l => if (x32 v l 1).toNat < 64 then x64 v l 0 <<< (x32 v l 1).toNat else 0) ∧
  gives (.shr64 d a b) [(a, 2), (b, 1)] (d, 2) (fun v _ l => if (x32 v l 1).toNat < 64 then x64 v l 0 >>> (x32 v l 1).toNat else 0) ∧
  gives (.sra64 d a b) [(a, 2), (b, 1)] (d, 2) (fun v _ l => (x64 v l 0).sshiftRight (x32 v l 1).toNat) ∧
  gives1 (.popc d a) d a (fun x => BitVec.ofNat 32 ((List.range 32).countP fun i => x.getLsbD i)) ∧
  gives1 (.clz d a) d a (fun x => BitVec.ofNat 32 (if x = 0 then 32 else 31 - x.toNat.log2)) ∧
  gives1 (.ctz d a) d a (fun x => BitVec.ofNat 32 (((List.range 32).takeWhile fun i => !x.getLsbD i).length)) ∧
  gives1 (.brev d a) d a (fun x => bitsWhere fun i => x.getLsbD (31 - i)) ∧
  gives2 (.bfxN d a b) d a b (fun x y => bitsWhere fun i => decide (i < widthOf y) && x.getLsbD (i + posOf y)) ∧
  gives2 (.bfxS d a b) d a b (fun x y => bitsWhere fun i =>
    widthOf y != 0 && x.getLsbD (min i (widthOf y - 1) + posOf y)) ∧
  gives2d (.bfi d a b) d a b (fun z x y => bitsWhere fun i =>
    if posOf y ≤ i ∧ i < posOf y + widthOf y then x.getLsbD (i - posOf y) else z.getLsbD i) ∧
  gives2 (.perm d a b) d a b (fun x y => bitsWhere fun i =>
    !y.getLsbD (4 * (i / 8) + 2) &&
      x.getLsbD (8 * (y.toNat / 2 ^ (4 * (i / 8)) % 4) + if y.getLsbD (4 * (i / 8) + 3) then 7 else i % 8))

/-- R142, R144 to R147: the ALU forms but division, the ALUI and the BIT forms. -/
def Obligations.IntegerAndBitResults : Prop := Claim.IntegerArithmeticResults ∧ Claim.ImmediateResults ∧ Claim.BitResults

namespace Sys2Proof.Claim
open Sys2Proof.Machine

/-- The value of an FP32 register (R46), and the register a value rounds to (R60). -/
def f32 (x : Word) : Ext := Fmt.f32.value x.toNat
def rne (v : Ext) : Word := BitVec.ofNat 32 (Fmt.f32.roundNE v)
/-- The halves of a register (R140), and the register two codes make. -/
def lo16 (x : Word) : Nat := x.toNat % 2 ^ 16
def hi16 (x : Word) : Nat := x.toNat / 2 ^ 16
def pair16 (lo hi : Nat) : Word := BitVec.ofNat 32 (lo + 2 ^ 16 * hi)
/-- Byte k of a register, unsigned and signed. -/
def byteN (x : Word) (k : Nat) : Int := (x.toNat / 2 ^ (8 * k) % 256 : Nat)
def byteS (x : Word) (k : Nat) : Int := if byteN x k < 128 then byteN x k else byteN x k - 256
/-- Ordered and less, ordered and equal (R148). -/
def ltF (x y : Word) : Prop := (f32 x).lt (f32 y) = true
def eqF (x y : Word) : Prop := (f32 x).eqv (f32 y) = true
def nanF (x : Word) : Prop := (f32 x).isNan = true

end Sys2Proof.Claim

open Classical in
/-- R148, R149: the CMP forms. -/
def Obligations.CompareResults : Prop := ∀ d a b : Sel,
  gives2 (.ceq d a b) d a b (fun x y => truth (x = y)) ∧
  gives2 (.cne d a b) d a b (fun x y => truth (x ≠ y)) ∧
  gives2 (.cltS d a b) d a b (fun x y => truth (sInt x < sInt y)) ∧
  gives2 (.cleS d a b) d a b (fun x y => truth (sInt x ≤ sInt y)) ∧
  gives2 (.cltN d a b) d a b (fun x y => truth (x.toNat < y.toNat)) ∧
  gives2 (.cleN d a b) d a b (fun x y => truth (x.toNat ≤ y.toNat)) ∧
  gives2 (.fceq d a b) d a b (fun x y => truth (¬nanF x ∧ ¬nanF y ∧ eqF x y)) ∧
  gives2 (.fcne d a b) d a b (fun x y => truth (nanF x ∨ nanF y ∨ ¬eqF x y)) ∧
  gives2 (.fclt d a b) d a b (fun x y => truth (¬nanF x ∧ ¬nanF y ∧ ltF x y)) ∧
  gives2 (.fcle d a b) d a b (fun x y => truth (¬nanF x ∧ ¬nanF y ∧ ¬ltF y x)) ∧
  gives2 (.fcun d a b) d a b (fun x y => truth (nanF x ∨ nanF y)) ∧
  gives2 (.fclass d a b) d a b (fun x y => truth (∃ c, y.getLsbD c = true ∧
    ((c = 0 ∧ x = 0xFF800000) ∨ (c = 1 ∧ 0x80800000 ≤ x ∧ x < 0xFF800000) ∨ (c = 2 ∧ 0x80000000 < x ∧ x < 0x80800000) ∨
     (c = 3 ∧ x = 0x80000000) ∨ (c = 4 ∧ x = 0) ∨ (c = 5 ∧ 0 < x ∧ x < 0x00800000) ∨
     (c = 6 ∧ 0x00800000 ≤ x ∧ x < 0x7F800000) ∨ (c = 7 ∧ x = 0x7F800000) ∨
     (c = 8 ∧ 0x7F800000 < x &&& 0x7FFFFFFF)))) ∧
  gives (.ceq64 d a b) [(a, 2), (b, 2)] (d, 1) (fun v _ l => (truth (x64 v l 0 = x64 v l 1)).setWidth 64) ∧
  gives (.clt64S d a b) [(a, 2), (b, 2)] (d, 1) (fun v _ l => (truth ((x64 v l 0).toInt < (x64 v l 1).toInt)).setWidth 64) ∧
  gives (.clt64N d a b) [(a, 2), (b, 2)] (d, 1) (fun v _ l => (truth ((x64 v l 0).toNat < (x64 v l 1).toNat)).setWidth 64)

/-- R150 to R153, R60 to R62: the FPU forms. A result is rounded once from the exact value of its operation. For `fexp2`, `flog2`,
`fsinpi`, `fcospi` and `ftanh` that value is the model's series (`fexp2Ext` and its like), far past the precision the rounding
needs: the model's choice, log 7 (DEDUCED). -/
def Obligations.FloatResults : Prop := ∀ d a b : Sel,
  gives2 (.fadd d a b) d a b (fun x y => rne ((f32 x).add (f32 y))) ∧
  gives2 (.fsub d a b) d a b (fun x y => rne ((f32 x).add (f32 y).neg)) ∧
  gives2 (.fmul d a b) d a b (fun x y => rne ((f32 x).mul (f32 y))) ∧
  gives2 (.fmin d a b) d a b (fun x y => BitVec.ofNat 32 (Fmt.f32.minmax false x.toNat y.toNat)) ∧
  gives2 (.fmax d a b) d a b (fun x y => BitVec.ofNat 32 (Fmt.f32.minmax true x.toNat y.toNat)) ∧
  gives1 (.fabs d a) d a (fun x => BitVec.ofNat 32 (x.toNat % 2 ^ 31)) ∧
  gives1 (.fneg d a) d a (fun x => BitVec.ofNat 32 ((x.toNat + 2 ^ 31) % 2 ^ 32)) ∧
  gives2 (.fdiv d a b) d a b (fun x y => rne ((f32 x).div (f32 y))) ∧
  gives1 (.fsqrt d a) d a (fun x => rne (fsqrtExt (f32 x))) ∧
  gives1 (.frcp d a) d a (fun x => rne (Ext.div (.fin false 1 1) (f32 x))) ∧
  gives1 (.frsqrt d a) d a (fun x => rne (frsqrtExt (f32 x))) ∧
  gives1 (.fexp2 d a) d a (fun x => rne (fexp2Ext (f32 x))) ∧
  gives1 (.flog2 d a) d a (fun x => rne (flog2Ext (f32 x))) ∧
  gives1 (.fsinpi d a) d a (fun x => rne (fsinpiExt (f32 x))) ∧
  gives1 (.fcospi d a) d a (fun x => rne (fcospiExt (f32 x))) ∧
  gives1 (.ftanh d a) d a (fun x => rne (ftanhExt (f32 x))) ∧
  gives2 (.faddF16x2 d a b) d a b (fun x y => pair16 (Fmt.f16.fadd (lo16 x) (lo16 y)) (Fmt.f16.fadd (hi16 x) (hi16 y))) ∧
  gives2 (.fmulF16x2 d a b) d a b (fun x y => pair16 (Fmt.f16.fmul (lo16 x) (lo16 y)) (Fmt.f16.fmul (hi16 x) (hi16 y))) ∧
  gives2 (.faddBf16x2 d a b) d a b (fun x y => pair16 (Fmt.bf16.fadd (lo16 x) (lo16 y)) (Fmt.bf16.fadd (hi16 x) (hi16 y))) ∧
  gives2 (.fmulBf16x2 d a b) d a b (fun x y => pair16 (Fmt.bf16.fmul (lo16 x) (lo16 y)) (Fmt.bf16.fmul (hi16 x) (hi16 y))) ∧
  gives2 (.fminF16x2 d a b) d a b (fun x y =>
    pair16 (Fmt.f16.minmax false (lo16 x) (lo16 y)) (Fmt.f16.minmax false (hi16 x) (hi16 y))) ∧
  gives2 (.fmaxF16x2 d a b) d a b (fun x y =>
    pair16 (Fmt.f16.minmax true (lo16 x) (lo16 y)) (Fmt.f16.minmax true (hi16 x) (hi16 y))) ∧
  gives2 (.fscl d a b) d a b (fun x y => BitVec.ofNat 32 (fsclCode x.toNat (sInt y))) ∧
  gives1 (.frnd d a) d a (fun x => BitVec.ofNat 32 (frintCode .rne x.toNat)) ∧
  gives2d (.ffmaF16x2 d a b) d a b (fun z x y =>
    pair16 (Fmt.f16.ffma (lo16 x) (lo16 y) (lo16 z)) (Fmt.f16.ffma (hi16 x) (hi16 y) (hi16 z))) ∧
  gives2d (.ffmaBf16x2 d a b) d a b (fun z x y =>
    pair16 (Fmt.bf16.ffma (lo16 x) (lo16 y) (lo16 z)) (Fmt.bf16.ffma (hi16 x) (hi16 y) (hi16 z))) ∧
  gives2d (.fdot2Bf16 d a b) d a b (fun z x y => BitVec.ofNat 32 (fdot2Code x.toNat y.toNat z.toNat)) ∧
  gives2d (.idp4S8 d a b) d a b (fun z x y => toS (sInt z + byteS x 0 * byteS y 0 + byteS x 1 * byteS y 1 +
    byteS x 2 * byteS y 2 + byteS x 3 * byteS y 3)) ∧
  gives2d (.idp4N8 d a b) d a b (fun z x y => toS (sInt z + byteN x 0 * byteN y 0 + byteN x 1 * byteN y 1 +
    byteN x 2 * byteN y 2 + byteN x 3 * byteN y 3))

/-- R60 to R63: the special values. A NaN operand gives the default NaN, the identities of zeros and infinities hold, and
`fadd` and `fmul` commute. -/
def Sys2Proof.Claim.FloatSpecialValues : Prop :=
  (∀ x y : Word, nanF x ∨ nanF y →
    rne ((f32 x).add (f32 y)) = 0x7FC00000 ∧ rne ((f32 x).add (f32 y).neg) = 0x7FC00000 ∧ rne ((f32 x).mul (f32 y)) = 0x7FC00000 ∧
    rne ((f32 x).div (f32 y)) = 0x7FC00000 ∧ Fmt.f32.minmax false x.toNat y.toNat = 0x7FC00000 ∧
    Fmt.f32.minmax true x.toNat y.toNat = 0x7FC00000) ∧
  (∀ x : Word, nanF x → rne (fsqrtExt (f32 x)) = 0x7FC00000 ∧ rne (frsqrtExt (f32 x)) = 0x7FC00000 ∧
    rne (fexp2Ext (f32 x)) = 0x7FC00000 ∧ rne (flog2Ext (f32 x)) = 0x7FC00000 ∧ rne (fsinpiExt (f32 x)) = 0x7FC00000 ∧
    rne (fcospiExt (f32 x)) = 0x7FC00000 ∧ rne (ftanhExt (f32 x)) = 0x7FC00000) ∧
  (∀ x y : Word, rne ((f32 x).add (f32 y)) = rne ((f32 y).add (f32 x)) ∧ rne ((f32 x).mul (f32 y)) = rne ((f32 y).mul (f32 x))) ∧
  (∀ x y : Word, (f32 x).isNan = false → (f32 x).isInf = false → (f32 x).isZero = false → (f32 y).isZero = true →
    rne ((f32 x).div (f32 y)) = if x.msb = y.msb then 0x7F800000 else 0xFF800000) ∧
  (∀ x y : Word, (f32 x).isZero = true → (f32 y).isZero = true → rne ((f32 x).div (f32 y)) = 0x7FC00000) ∧
  (∀ x y : Word, (f32 x).isInf = true → (f32 y).isInf = true → rne ((f32 x).div (f32 y)) = 0x7FC00000) ∧
  (∀ x : Word, x.msb = true → (f32 x).isZero = false → (f32 x).isNan = false →
    rne (fsqrtExt (f32 x)) = 0x7FC00000 ∧ rne (frsqrtExt (f32 x)) = 0x7FC00000 ∧ rne (flog2Ext (f32 x)) = 0x7FC00000) ∧
  rne (fsqrtExt (f32 0x80000000)) = 0x80000000 ∧ rne (fsqrtExt (f32 0x7F800000)) = 0x7F800000 ∧
  rne (frsqrtExt (f32 0)) = 0x7F800000 ∧ rne (frsqrtExt (f32 0x80000000)) = 0xFF800000 ∧ rne (frsqrtExt (f32 0x7F800000)) = 0 ∧
  rne (fexp2Ext (f32 0xFF800000)) = 0 ∧ rne (fexp2Ext (f32 0x7F800000)) = 0x7F800000 ∧
  rne (flog2Ext (f32 0)) = 0xFF800000 ∧ rne (flog2Ext (f32 0x80000000)) = 0xFF800000 ∧ rne (flog2Ext (f32 0x3F800000)) = 0 ∧
  rne (flog2Ext (f32 0x7F800000)) = 0x7F800000 ∧
  rne (fsinpiExt (f32 0x7F800000)) = 0x7FC00000 ∧ rne (fsinpiExt (f32 0x80000000)) = 0x80000000 ∧
  rne (fsinpiExt (f32 0xBF800000)) = 0x80000000 ∧ rne (fsinpiExt (f32 0x3F800000)) = 0 ∧
  rne (fcospiExt (f32 0xFF800000)) = 0x7FC00000 ∧ rne (fcospiExt (f32 0x3F000000)) = 0 ∧
  rne (ftanhExt (f32 0x7F800000)) = 0x3F800000 ∧ rne (ftanhExt (f32 0xFF800000)) = 0xBF800000 ∧
  rne (ftanhExt (f32 0x80000000)) = 0x80000000 ∧
  Fmt.f32.minmax false 0 0x80000000 = 0x80000000 ∧ Fmt.f32.minmax true 0x80000000 0 = 0 ∧
  Fmt.f32.fadd 0x80000000 0x80000000 = 0x80000000 ∧ Fmt.f32.fadd 0 0x80000000 = 0

/-- R46, R54: rounding the exact value of a code that is no NaN gives the code back; widening is exact. -/
def Sys2Proof.Claim.RoundingKeepsExactValues : Prop :=
  (∀ x : Word, ¬nanF x → rne (f32 x) = x) ∧
  (∀ c < 2 ^ 16, (Fmt.f16.value c).isNan = false → Fmt.f16.roundNE (Fmt.f32.value (Fmt.f16.widen c)) = c) ∧
  (∀ c < 2 ^ 16, (Fmt.bf16.value c).isNan = false → Fmt.bf16.widen c = c * 2 ^ 16)

/-- R46, R54, R60 to R63: special values and rounding. -/
def Obligations.FloatValues : Prop := Claim.FloatSpecialValues ∧ Claim.RoundingKeepsExactValues

namespace Sys2Proof.Claim
open Sys2Proof.Machine

/-- Piece el of a register, in pieces of w bits, and the register with that piece replaced (R154). -/
def piece (w : Nat) (x : Word) (el : Nat) : Nat := x.toNat / 2 ^ (w * el) % 2 ^ w
def withPiece (w : Nat) (x : Word) (el v : Nat) : Word :=
  bitsWhere fun i => if w * el ≤ i ∧ i < w * el + w then v.testBit (i - w * el) else x.getLsbD i
/-- The rounding mode of two bits (R154). -/
def mode (rm : BitVec 2) : Rm := if rm = 0 then .rne else if rm = 1 then .rtz else if rm = 2 then .rdn else .rup
/-- The decade bias of R58, in two's complement. -/
def bias (b : BitVec 4) : Int := b.toInt

end Sys2Proof.Claim

/-- R154 to R161: the CVT forms. -/
def Sys2Proof.Claim.ConversionResults : Prop := ∀ (d a : Sel) (rm : BitVec 2) (sat : Bool) (el : BitVec 2) (db : BitVec 4),
  gives1 (.cvtF32S32 d a rm) d a (fun x => BitVec.ofNat 32 (intToF32 (mode rm) (sInt x))) ∧
  gives1 (.cvtF32N32 d a rm) d a (fun x => BitVec.ofNat 32 (intToF32 (mode rm) x.toNat)) ∧
  gives1 (.cvtS32F32 d a sat rm) d a (fun x => BitVec.ofNat 32 (f32ToS32 (mode rm) sat x.toNat)) ∧
  gives1 (.cvtN32F32 d a sat rm) d a (fun x => BitVec.ofNat 32 (f32ToN32 (mode rm) sat x.toNat)) ∧
  (el.toNat < 2 → gives1 (.cvtF32F16 d a el) d a (fun x => BitVec.ofNat 32 (Fmt.f16.widen (piece 16 x el.toNat)))) ∧
  (el.toNat < 2 → gives1 (.cvtF32Bf16 d a el) d a (fun x => BitVec.ofNat 32 (Fmt.bf16.widen (piece 16 x el.toNat)))) ∧
  (el.toNat < 2 → gives1d (.pkF16 d a el sat rm) d a (fun z x =>
    withPiece 16 z el.toNat (Fmt.f16.convert (mode rm) sat x.toNat))) ∧
  (el.toNat < 2 → gives1d (.pkBf16 d a el sat rm) d a (fun z x =>
    withPiece 16 z el.toNat (Fmt.bf16.convert (mode rm) sat x.toNat))) ∧
  gives1d (.pkE4m3 d a el sat rm) d a (fun z x => withPiece 8 z el.toNat (Fmt.e4m3.convert (mode rm) sat x.toNat)) ∧
  gives1d (.pkE5m2 d a el sat rm) d a (fun z x => withPiece 8 z el.toNat (Fmt.e5m2.convert (mode rm) sat x.toNat)) ∧
  gives (.pkE2m1 d a el sat rm) [(d, 1), (a, 2)] (d, 1) (fun v _ l => (withPiece 8 (x32 v l 0) el.toNat
    (Fmt.e2m1.convert (mode rm) sat ((x64 v l 1).toNat % 2 ^ 32) +
      16 * Fmt.e2m1.convert (mode rm) sat ((x64 v l 1).toNat / 2 ^ 32))).setWidth 64) ∧
  gives1d (.pkF8d d a db el) d a (fun z x => withPiece 8 z el.toNat (f8dOfF32 (bias db) x.toNat)) ∧
  gives1 (.upkE4m3 d a el) d a (fun x => BitVec.ofNat 32 (Fmt.e4m3.widen (piece 8 x el.toNat))) ∧
  gives1 (.upkE5m2 d a el) d a (fun x => BitVec.ofNat 32 (Fmt.e5m2.widen (piece 8 x el.toNat))) ∧
  gives (.upkE2m1 d a el) [(a, 1)] (d, 2) (fun v _ l => BitVec.ofNat 64
    (Fmt.e2m1.widen (piece 8 (x32 v l 0) el.toNat % 16) + 2 ^ 32 * Fmt.e2m1.widen (piece 8 (x32 v l 0) el.toNat / 16))) ∧
  gives1 (.upkF8d d a db el) d a (fun x => BitVec.ofNat 32 (f32OfF8d (bias db) (piece 8 x el.toNat))) ∧
  gives1d (.cvtE8m0 d a el sat rm) d a (fun z x => withPiece 8 z el.toNat (e8m0OfF32 (mode rm) sat x.toNat)) ∧
  gives1 (.frint d a rm) d a (fun x => BitVec.ofNat 32 (frintCode (mode rm) x.toNat))

/-- R162, R163: the four-operand forms and the constants. -/
def Sys2Proof.Claim.FourOperandAndConstantResults : Prop := ∀ (d a b c : Sel) (i20 : BitVec 20) (i12 : BitVec 12),
  gives3 (.ffma d a b c) d a b c (fun x y z => rne (((f32 x).mul (f32 y)).add (f32 z))) ∧
  gives3 (.sel d a b c) d a b c (fun x y z => if z = 0 then y else x) ∧
  gives3 (.imad d a b c) d a b c (fun x y z => toS (sInt x * sInt y + sInt z)) ∧
  gives (.movi d i20) [] (d, 1) (fun _ _ _ => (toS i20.toInt).setWidth 64) ∧
  gives (.movh d i12) [(d, 1)] (d, 1) (fun v _ l => BitVec.ofNat 64 (i12.toNat * 2 ^ 20 + (x32 v l 0).toNat % 2 ^ 20))

/-- R154 to R163: the CVT forms, the four-operand forms and the constants. -/
def Obligations.ConversionsAndConstants : Prop := Claim.ConversionResults ∧ Claim.FourOperandAndConstantResults

namespace Sys2Proof.Claim
open Sys2Proof.Machine

/-- The mask of the lanes that meet a condition. -/
def maskWhere (p : RunPath) (f : Nat → Bool) : Word := bitsWhere fun j => p.lanes.contains j && f j
/-- A permuting form of R177: the lane's own value where the source lane is outside 0 to 31 or not active. -/
def permutes (i : Instr) (d a b : Sel) (j : Nat → Word → Int) : Prop :=
  gives i [(a, 1), (b, 1)] (d, 1) fun v p l => (x32 v
    (let k := j l (x32 v l 1)
     if 0 ≤ k ∧ k ≤ 31 ∧ k.toNat ∈ p.lanes then k.toNat else l) 0).setWidth 64
def gathers (i : Instr) (d a : Sel) (f : (Nat → Word) → RunPath → Nat → Word) : Prop :=
  gives i [(a, 1)] (d, 1) fun v p l => (f (fun j => x32 v j 0) p l).setWidth 64
/-- The active lanes are distinct lanes of a strand, ascending, and there are some; the state of every path that issues. -/
def lanesOk (p : RunPath) : Prop := p.lanes ≠ [] ∧ p.lanes.Pairwise (· < ·) ∧ ∀ l ∈ p.lanes, l < 32
/-- `gathers`, for paths whose lanes are such. -/
def gathersOk (i : Instr) (d a : Sel) (f : (Nat → Word) → RunPath → Nat → Word) : Prop :=
  ∀ (s : State) (sid : Nat) (p : RunPath) (rest : List Run) (q : RunPath) (t : State) (vals : NMap (List Word64)),
    lanesOk p → issues s sid p rest → ready (begun s rest) sid p [(a, 1)] [(d, 1)] = some (q, t, vals) →
    exec i s = .next (wrote t sid q (d, 1) fun l => (f (fun j => x32 vals j 0) p l).setWidth 64)
/-- The tree sum of R64 over a list, one level after another. -/
def treePairs : List Word → List Word
  | x :: y :: r => rne ((f32 x).add (f32 y)) :: treePairs r
  | l => l
def treeSum : Nat → List Word → Word
  | 0, l => l.headD 0
  | k + 1, l => treeSum k (treePairs l)

end Sys2Proof.Claim

open Classical in
/-- R177: the cross-lane forms. -/
def Obligations.CrossLaneResults : Prop := ∀ d a b : Sel,
  permutes (.lxPick d a b) d a b (fun _ y => y.toNat % 32) ∧
  permutes (.lxShift d a b) d a b (fun i y => i + sInt y) ∧
  permutes (.lxRot d a b) d a b (fun i y => ((i + y.toNat) % 32 : Nat)) ∧
  permutes (.lxSwap d a b) d a b (fun i y => (i ^^^ (y.toNat % 32) : Nat)) ∧
  gathersOk (.lxAny d a) d a (fun x p _ => truth (∃ j ∈ p.lanes, x j ≠ 0)) ∧
  gathersOk (.lxAll d a) d a (fun x p _ => truth (∀ j ∈ p.lanes, x j ≠ 0)) ∧
  gathersOk (.lxMask d a) d a (fun x p _ => maskWhere p fun j => x j != 0) ∧
  gives (.lxActive d) [] (d, 1) (fun _ p _ => (maskWhere p fun _ => true).setWidth 64) ∧
  gathersOk (.lxFirst d a) d a (fun x p _ => x (p.lanes.headD 0)) ∧
  gathersOk (.lxSumS32 d a) d a (fun x p _ => toS (p.lanes.map fun j => sInt (x j)).sum) ∧
  gathersOk (.lxMinS32 d a) d a (fun x p _ => toS ((p.lanes.map fun j => sInt (x j)).foldr min (2 ^ 31 - 1))) ∧
  gathersOk (.lxMaxS32 d a) d a (fun x p _ => toS ((p.lanes.map fun j => sInt (x j)).foldr max (-2 ^ 31))) ∧
  gathersOk (.lxFsum d a) d a (fun x p _ =>
    let r := treeSum p.lanes.length (p.lanes.map x)
    if nanF r then 0x7FC00000 else r) ∧
  gathersOk (.lxPrefixS32 d a) d a (fun x p i => toS ((p.lanes.filter (· ≤ i)).map fun j => sInt (x j)).sum) ∧
  gathersOk (.lxSame d a) d a (fun x p i => maskWhere p fun j => x j == x i) ∧
  gives (.lxLead d) [] (d, 1) (fun _ p l => (truth (p.lanes.headD 0 = l)).setWidth 64)

namespace Sys2Proof.Claim
open Sys2Proof.Machine

/-- The number a value is, if it is neither NaN nor an infinity; the sign of a zero goes by separate clauses. -/
def num : Ext → Option ℚ
  | .fin s n d => some ((if s then -1 else 1) * (n : ℚ) / d)
  | _ => none
/-- Code c of a format has the value v. -/
def has (f : Fmt) (c : Nat) (v : ℚ) : Prop := c < 2 ^ f.width ∧ num (f.value c) = some v
/-- The codes of E8M0 with their values (R48), and of F8D (R52). -/
def hasE8m0 (c : Nat) (v : ℚ) : Prop := c < 0xFF ∧ v = 2 ^ ((c : ℤ) - 127)
def hasF8d (bias : ℤ) (c : Nat) (v : ℚ) : Prop := c < 2 ^ 8 ∧ num (f8dValue bias c) = some v
/-- Bit 0 of a code is clear. -/
def evenCode (c : Nat) : Prop := c % 2 = 0
/-- An F8D payload that counts as even (R58). -/
def evenF8d (c : Nat) : Prop := c % 2 = 0 ∨ c % 128 = 1

/-- R56: code c is the one that mode m picks for x among the codes of a format. -/
def below (V : Nat → ℚ → Prop) (x : ℚ) (c : Nat) : Prop := ∃ v, V c v ∧ v ≤ x ∧ ∀ c' v', V c' v' → v' ≤ x → v' ≤ v
def above (V : Nat → ℚ → Prop) (x : ℚ) (c : Nat) : Prop := ∃ v, V c v ∧ x ≤ v ∧ ∀ c' v', V c' v' → x ≤ v' → v ≤ v'
def nearest (V : Nat → ℚ → Prop) (x : ℚ) (c : Nat) : Prop :=
  ∃ v, V c v ∧ ∀ c' v', V c' v' → |x - v| ≤ |x - v'| ∧ (|x - v| = |x - v'| → v ≠ v' → evenCode c)
def picks (V : Nat → ℚ → Prop) (m : Rm) (x : ℚ) (c : Nat) : Prop :=
  match m with
  | .rne => nearest V x c
  | .rtz => if x < 0 then above V x c else below V x c
  | .rdn => below V x c
  | .rup => above V x c
/-- R56: the pick is "overflow", for a format whose largest finite value is `top` with half an ulp of `half`. -/
def overflows (top half : ℚ) (m : Rm) (x : ℚ) : Prop :=
  match m with
  | .rne => top + half ≤ |x|
  | .rtz => False
  | .rdn => x < -top
  | .rup => top < x
/-- The sign bit of a format. -/
def signBit (f : Fmt) (s : Bool) : Nat := if s then 2 ^ (f.width - 1) else 0

/-- R60, R61: code r is the exact result x rounded to nearest even, `s` the sign that a zero keeps. -/
def roundsTo (f : Fmt) (top half : ℚ) (s : Bool) (x : ℚ) (r : Nat) : Prop :=
  (top + half ≤ |x| → r = signBit f (decide (x < 0)) + (f.maxFin + 1)) ∧
  (|x| < top + half → nearest (has f) x r ∧ (has f r 0 → r = signBit f s))

/-- The formats of R46 and the ASUM of R71 with their fraction bits, bias, largest finite value and half an ulp of it; those of 32, 16 and 16 bits, and
the narrower ones with the codes of R57: the largest finite one and what an overflow gives. -/
def layouts : List (Fmt × Nat × ℤ) :=
  [(Fmt.f32, 23, 127), (Fmt.f16, 10, 15), (Fmt.bf16, 7, 127), (Fmt.e4m3, 3, 7), (Fmt.e5m2, 2, 15), (Fmt.e2m1, 1, 1),
   (Fmt.asum, 29, 511)]
def wide : List (Fmt × ℚ × ℚ) :=
  [(Fmt.f32, (2 ^ 24 - 1) * 2 ^ 104, 2 ^ 103), (Fmt.f16, 65504, 16), (Fmt.bf16, (2 ^ 8 - 1) * 2 ^ 120, 2 ^ 119),
   (Fmt.asum, (2 ^ 30 - 1) * 2 ^ 482, 2 ^ 481)]
def narrow : List (Fmt × ℚ × ℚ × Nat × Nat) :=
  [(Fmt.f16, 65504, 16, 0x7BFF, 0x7C00), (Fmt.bf16, (2 ^ 8 - 1) * 2 ^ 120, 2 ^ 119, 0x7F7F, 0x7F80), (Fmt.e4m3, 448, 16, 0x7E, 0x7F),
   (Fmt.e5m2, 57344, 4096, 0x7B, 0x7C), (Fmt.e2m1, 6, 1, 7, 7)]

/-- RoundToIntegral of R156 and R161. -/
def integral (m : Rm) (x : ℚ) : ℤ :=
  match m with
  | .rtz => if x < 0 then ⌈x⌉ else ⌊x⌋
  | .rdn => ⌊x⌋
  | .rup => ⌈x⌉
  | .rne => if 2 * (x - ⌊x⌋) < 1 ∨ (2 * (x - ⌊x⌋) = 1 ∧ ⌊x⌋ % 2 = 0) then ⌊x⌋ else ⌊x⌋ + 1
/-- R156: the integer of a range, saturated, or the indefinite value. -/
def inRange (sat : Bool) (lo hi : ℤ) (indef : Word) (k : ℤ) : Word :=
  if lo ≤ k ∧ k ≤ hi then BitVec.ofInt 32 k else if sat then BitVec.ofInt 32 (if k < 0 then lo else hi) else indef
def toInteger (g : Rm → Bool → Nat → Nat) (lo hi : ℤ) (indef : Word) : Prop := ∀ (m : Rm) (sat : Bool) (v : Word),
  (nanF v → BitVec.ofNat 32 (g m sat v.toNat) = if sat then 0 else indef) ∧
  (∀ s, f32 v = .inf s → BitVec.ofNat 32 (g m sat v.toNat) = if sat then BitVec.ofInt 32 (if s then lo else hi) else indef) ∧
  (∀ x, num (f32 v) = some x → BitVec.ofNat 32 (g m sat v.toNat) = inRange sat lo hi indef (integral m x))

end Sys2Proof.Claim

/-- R46, R60, R61: what a code stands for; rounding to FP32, FP16 and BF16 picks the nearest code, ties to even, overflowing to an
infinity; sums, products and quotients are exact before it. -/
def Sys2Proof.Claim.RoundingValues : Prop :=
  (∀ f fb b, (f, fb, b) ∈ layouts → ∀ c < 2 ^ f.width, c % 2 ^ (f.width - 1) ≤ f.maxFin →
    num (f.value c) = some ((if c / 2 ^ (f.width - 1) = 1 then (-1 : ℚ) else 1) *
      (let e := c / 2 ^ fb % 2 ^ (f.width - 1 - fb)
       if e = 0 then (c % 2 ^ fb : ℕ) / 2 ^ fb * (2 : ℚ) ^ (1 - b)
       else (1 + (c % 2 ^ fb : ℕ) / 2 ^ fb) * (2 : ℚ) ^ ((e : ℤ) - b)))) ∧
  (∀ f top half, (f, top, half) ∈ wide → ∀ (s : Bool) (n d : ℕ), 0 < d →
    roundsTo f top half s ((if s then -1 else 1) * (n : ℚ) / d) (f.roundNE (.fin s n d))) ∧
  (∀ (s t : Bool) (n d m e : ℕ), 0 < d → 0 < e →
    let u : ℚ := (if s then -1 else 1) * (n : ℚ) / d
    let v : ℚ := (if t then -1 else 1) * (m : ℚ) / e
    num ((Ext.fin s n d).add (.fin t m e)) = some (u + v) ∧ num ((Ext.fin s n d).mul (.fin t m e)) = some (u * v) ∧
    (m ≠ 0 → num ((Ext.fin s n d).div (.fin t m e)) = some (u / v)) ∧
    ((Ext.fin s n d).lt (.fin t m e) = true ↔ u < v))

/-- R62, R152, R153: `fmin` and `fmax` choose by value with −0 below +0; `fscl` rounds a × 2^s(b) once; `fdot2.bf16` rounds the exact
sum of the accumulator and the two products once. -/
def Sys2Proof.Claim.MinMaxScaleDotValues : Prop :=
  (∀ f ∈ [Fmt.f32, Fmt.f16, Fmt.bf16], ∀ a b, a < 2 ^ f.width → b < 2 ^ f.width →
    ((f.value a).isNan = true ∨ (f.value b).isNan = true → ∀ w, f.minmax w a b = f.nan) ∧
    ((f.value a).isNan = false → (f.value b).isNan = false → ∀ w, let r := f.minmax w a b
      (r = a ∨ r = b) ∧
      (if w then (f.value r).lt (f.value a) = false ∧ (f.value r).lt (f.value b) = false
       else (f.value a).lt (f.value r) = false ∧ (f.value b).lt (f.value r) = false) ∧
      ((f.value a).isZero = true → (f.value b).isZero = true →
        r = if w then (if a = 0 ∨ b = 0 then 0 else signBit f true) else (if a = 0 ∧ b = 0 then 0 else signBit f true)))) ∧
  (∀ (v b : Word), (nanF v → fsclCode v.toNat (sInt b) = 0x7FC00000) ∧
    (∀ s, f32 v = .inf s → fsclCode v.toNat (sInt b) = v.toNat) ∧
    (∀ x, num (f32 v) = some x →
      roundsTo Fmt.f32 ((2 ^ 24 - 1) * 2 ^ 104) (2 ^ 103) v.msb (x * (2 : ℚ) ^ sInt b) (fsclCode v.toNat (sInt b)))) ∧
  (∀ (a b z : Word) (x₀ y₀ x₁ y₁ w : ℚ),
    num (Fmt.bf16.value (lo16 a)) = some x₀ → num (Fmt.bf16.value (lo16 b)) = some y₀ →
    num (Fmt.bf16.value (hi16 a)) = some x₁ → num (Fmt.bf16.value (hi16 b)) = some y₁ → num (f32 z) = some w →
    let x := w + x₀ * y₀ + x₁ * y₁
    roundsTo Fmt.f32 ((2 ^ 24 - 1) * 2 ^ 104) (2 ^ 103)
      (if x = 0 then decide (z = 0x80000000 ∧ x₀ * y₀ = 0 ∧ x₁ * y₁ = 0) && (a.getLsbD 15 != b.getLsbD 15) && (a.msb != b.msb)
       else decide (x < 0)) x (fdot2Code a.toNat b.toNat z.toNat)) ∧
  (∀ a b z : Word, (nanF z ∨ (Fmt.bf16.value (lo16 a)).isNan = true ∨ (Fmt.bf16.value (hi16 a)).isNan = true ∨
    (Fmt.bf16.value (lo16 b)).isNan = true ∨ (Fmt.bf16.value (hi16 b)).isNan = true) → fdot2Code a.toNat b.toNat z.toNat = 0x7FC00000)

/-- R54, R56, R57, R156, R161: conversions between FP32, the narrower formats and the integers, by value. -/
def Sys2Proof.Claim.ConversionValues : Prop :=
  (∀ f top half big past, (f, top, half, big, past) ∈ narrow → ∀ (m : Rm) (sat : Bool) (v : Word),
    let r := f.convert m sat v.toNat
    (nanF v → r = f.nan) ∧
    (∀ s, f32 v = .inf s → r = signBit f s + if sat then big else past) ∧
    (∀ x, num (f32 v) = some x →
      (overflows top half m x → r = signBit f (decide (x < 0)) + if sat then big else past) ∧
      (¬overflows top half m x → picks (has f) m x r ∧ (has f r 0 → r = if f.width = 4 then 0 else signBit f v.msb)))) ∧
  (∀ f top half big past, (f, top, half, big, past) ∈ narrow → ∀ c < 2 ^ f.width, let w := BitVec.ofNat 32 (f.widen c)
    (∀ x, num (f.value c) = some x → num (f32 w) = some x ∧ w.msb = decide (2 ^ (f.width - 1) ≤ c)) ∧
    (∀ s, f.value c = .inf s → w = if s then 0xFF800000 else 0x7F800000) ∧ ((f.value c).isNan = true → w = 0x7FC00000)) ∧
  (∀ (m : Rm) (x : ℤ), |x| ≤ 2 ^ 32 → picks (has Fmt.f32) m x (intToF32 m x) ∧ (x = 0 → intToF32 m x = 0)) ∧
  toInteger f32ToS32 (-2 ^ 31) (2 ^ 31 - 1) 0x80000000 ∧ toInteger f32ToN32 0 (2 ^ 32 - 1) 0xFFFFFFFF ∧
  (∀ (m : Rm) (v : Word), let r := BitVec.ofNat 32 (frintCode m v.toNat)
    (nanF v → r = 0x7FC00000) ∧ (∀ s, f32 v = .inf s → r = v) ∧
    (∀ x, num (f32 v) = some x → num (f32 r) = some (integral m x : ℚ) ∧ r.msb = v.msb))

/-- R52, R55, R58, R160: Facet-8 and E8M0, by value. What a tie of `rne` at 1.5 × 2¹²⁷ gives in E8M0 is the model's choice
(log 32) and not said here. -/
def Sys2Proof.Claim.DecimalAndScaleValues : Prop :=
  (∀ bias : ℤ, -8 ≤ bias → bias ≤ 7 →
    (f8dValue bias 0x80).isNan = true ∧ num (f8dValue bias 0) = some 0 ∧
    (∀ c < 2 ^ 8, c % 128 ≠ 0 → let z : ℕ := 6 - (c % 128).log2
      let j : ℕ := c % 128 - 2 ^ (6 - z)
      num (f8dValue bias c) = some ((if 128 ≤ c then (-1 : ℚ) else 1) * (1 + 9 * (j : ℚ) / 2 ^ (6 - z)) * (10 : ℚ) ^ ((z : ℤ) - 3 + bias))) ∧
    (∀ v : Word, let r := f8dOfF32 bias v.toNat
      (nanF v → r = 0x80) ∧ (∀ s, f32 v = .inf s → r = if s then 0x81 else 0x01) ∧
      (∀ x, num (f32 v) = some x →
        (∃ u, hasF8d bias r u ∧ (u = 0 → r = 0) ∧
          ∀ c' u', hasF8d bias c' u' → |x - u| ≤ |x - u'| ∧
            (|x - u| = |x - u'| → u ≠ u' → evenF8d r ∧ (evenF8d c' → |u| ≤ |u'|))) ∧
        (1000 * (10 : ℚ) ^ bias < |x| → r = if v.msb then 0x81 else 0x01))) ∧
    (∀ c < 2 ^ 8, (f8dValue bias c).isNan = true → f32OfF8d bias c = 0x7FC00000) ∧
    (∀ c x, hasF8d bias c x →
      roundsTo Fmt.f32 ((2 ^ 24 - 1) * 2 ^ 104) (2 ^ 103) (decide (128 ≤ c)) x (f32OfF8d bias c))) ∧
  (∀ (m : Rm) (sat : Bool) (v : Word), let r := e8m0OfF32 m sat v.toNat
    (nanF v → r = 0xFF) ∧ (∀ s, f32 v = .inf s → r = if s = false ∧ sat = true then 0xFE else 0xFF) ∧
    (∀ x, num (f32 v) = some x →
      (x < 0 → r = 0xFF) ∧ (0 ≤ x → x < 2 ^ (-127 : ℤ) → r = 0) ∧
      (2 ^ (-127 : ℤ) ≤ x → x ≤ 2 ^ 127 → picks hasE8m0 m x r) ∧
      (2 ^ 127 < x → m = .rtz ∨ m = .rdn → r = 0xFE) ∧ (2 ^ 127 < x → m = .rup → r = if sat then 0xFE else 0xFF) ∧
      (2 ^ 127 < x → m = .rne → (x < 3 * 2 ^ 126 → r = 0xFE) ∧ (3 * 2 ^ 126 < x → r = if sat then 0xFE else 0xFF))))

/-- R46, R48, R52 to R62, R152, R153, R156 to R161: rounding, conversions and the float forms by value. -/
def Obligations.RoundedValues : Prop := Claim.RoundingValues ∧ Claim.MinMaxScaleDotValues ∧ Claim.ConversionValues ∧ Claim.DecimalAndScaleValues

namespace Sys2Proof.Claim
open Sys2Proof.Machine

/-- Sources and destination of the forms of R137 and R177 with their numbers of registers. -/
def shape : Instr → Option (List Opd × Opd)
  | .iadd d a b | .isub d a b | .imul d a b | .imulhS32 d a b | .imulhN32 d a b | .idivS32 d a b | .idivN32 d a b
  | .iremS32 d a b | .iremN32 d a b | .iminS32 d a b | .iminN32 d a b | .imaxS32 d a b | .imaxN32 d a b | .iaddsS32 d a b
  | .isubsS32 d a b | .iaddsN32 d a b | .isubsN32 d a b | .and d a b | .or d a b | .xor d a b | .andn d a b | .orn d a b
  | .shl d a b | .shr d a b | .sra d a b | .rotl d a b | .bfxS d a b | .bfxN d a b | .perm d a b | .ceq d a b | .cne d a b
  | .cltS d a b | .cleS d a b | .cltN d a b | .cleN d a b | .fceq d a b | .fcne d a b | .fclt d a b | .fcle d a b
  | .fcun d a b | .fclass d a b | .fadd d a b | .fsub d a b | .fmul d a b | .fmin d a b | .fmax d a b | .fdiv d a b
  | .faddF16x2 d a b | .fmulF16x2 d a b | .faddBf16x2 d a b | .fmulBf16x2 d a b | .fminF16x2 d a b | .fmaxF16x2 d a b
  | .fscl d a b | .lxPick d a b | .lxShift d a b | .lxRot d a b | .lxSwap d a b => some ([(a, 1), (b, 1)], (d, 1))
  | .iabs d a | .iaddi d a _ | .iandi d a _ | .iori d a _ | .ixori d a _ | .ishli d a _ | .ishri d a _ | .israi d a _
  | .icmpiLt d a _ | .popc d a | .clz d a | .ctz d a | .brev d a | .fabs d a | .fneg d a | .fsqrt d a | .frcp d a
  | .frsqrt d a | .fexp2 d a | .flog2 d a | .fsinpi d a | .fcospi d a | .ftanh d a | .frnd d a | .cvtF32S32 d a _
  | .cvtF32N32 d a _ | .cvtS32F32 d a _ _ | .cvtN32F32 d a _ _ | .cvtF32F16 d a _ | .cvtF32Bf16 d a _ | .upkE4m3 d a _
  | .upkE5m2 d a _ | .upkF8d d a _ _ | .frint d a _ | .lxAny d a | .lxAll d a | .lxMask d a | .lxFirst d a | .lxSumS32 d a
  | .lxMinS32 d a | .lxMaxS32 d a | .lxFsum d a | .lxPrefixS32 d a | .lxSame d a => some ([(a, 1)], (d, 1))
  | .add64 d a b | .sub64 d a b => some ([(a, 2), (b, 2)], (d, 2))
  | .mulwS32 d a b | .mulwN32 d a b => some ([(a, 1), (b, 1)], (d, 2))
  | .shl64 d a b | .shr64 d a b | .sra64 d a b => some ([(a, 2), (b, 1)], (d, 2))
  | .bfi d a b | .ffmaF16x2 d a b | .ffmaBf16x2 d a b | .fdot2Bf16 d a b | .idp4S8 d a b | .idp4N8 d a b =>
    some ([(d, 1), (a, 1), (b, 1)], (d, 1))
  | .ceq64 d a b | .clt64S d a b | .clt64N d a b => some ([(a, 2), (b, 2)], (d, 1))
  | .pkF16 d a _ _ _ | .pkBf16 d a _ _ _ | .pkE4m3 d a _ _ _ | .pkE5m2 d a _ _ _ | .pkF8d d a _ _ | .cvtE8m0 d a _ _ _ =>
    some ([(d, 1), (a, 1)], (d, 1))
  | .pkE2m1 d a _ _ _ => some ([(d, 1), (a, 2)], (d, 1))
  | .upkE2m1 d a _ => some ([(a, 1)], (d, 2))
  | .ffma d a b c | .sel d a b c | .imad d a b c => some ([(a, 1), (b, 1), (c, 1)], (d, 1))
  | .movi d _ | .lxActive d | .lxLead d => some ([], (d, 1))
  | .movh d _ => some ([(d, 1)], (d, 1))
  | _ => none

/-- The path has words after the one at hand, and no switch marker at which it must wait (R89). -/
def midClause (s : State) (sid : Nat) (p : RunPath) : Prop :=
  p.pos < p.count ∧ p.lanes ≠ [] ∧
    (p.marked = false ∨ (s.str sid).switchHeld = false)

/-- The path at its next word. -/
def nextWord (p : RunPath) : RunPath :=
  { p with pos := p.pos + 1, pfx := none, hi := none, resume := none, got := none, undo := [], taken := none }

/-- A register of the destination in some active lane. -/
def isDst (st : Strand) (p : RunPath) (d : Opd) (r : RegLoc) : Prop := ∃ l ∈ p.lanes, ∃ k < d.2, st.loc l d.1 k = some r

end Sys2Proof.Claim

/-- R11, R343, R12: the paths of a strand partition its ready threads by their PC and, while lanes trap, by their group (R343): each
path's lanes are ascending lane numbers whose threads are ready at its PC, in one group, and ready threads of one PC and one group
stand in one path. The first path offered is the one with the lowest PC; the second, among the others (or, beside a first path that
issues already, among all that are ready: log 84), is the starving one that has waited longest, ties to the lower PC, else the one
with the lowest PC. -/
def Obligations.PathsPartitionReadyThreads : Prop :=
  ∀ st : Strand, nsorted st.lanes = true → (∀ x ∈ st.lanes, x.1 < 32) →
    (∀ x ∈ st.paths, x.2 ≠ [] ∧ x.2.Pairwise (· < ·) ∧ ∀ l ∈ x.2, l < 32 ∧ (st.th l).st = .ready ∧ (st.th l).pc = x.1) ∧
    (∀ l t, nget st.lanes l = some t → t.st = .ready → ∃ x ∈ st.paths, l ∈ x.2 ∧ x.1 = t.pc) ∧
    (∀ x ∈ st.paths, ∀ l ∈ x.2, ∀ m ∈ x.2, st.group l = st.group m) ∧
    (∀ l t m u, nget st.lanes l = some t → nget st.lanes m = some u → t.st = .ready → u.st = .ready → t.pc = u.pc →
      st.group l = st.group m → ∃ x ∈ st.paths, l ∈ x.2 ∧ m ∈ x.2) ∧
    (∀ x ∈ st.paths, ∀ y ∈ st.paths, ∀ l, l ∈ x.2 → l ∈ y.2 → x = y) ∧
    (st.paths.Pairwise fun x y => x.1.toNat ≤ y.1.toNat) ∧
    (∀ beside, st.offer false beside = st.paths.head?) ∧
    (∀ beside x, st.offer true beside = some x →
      let others := if beside then st.paths else st.paths.tail
      x ∈ others ∧
      ((∃ y ∈ others, 1024 ≤ st.starve y.2) → 1024 ≤ st.starve x.2 ∧
        ∀ y ∈ others, st.starve y.2 ≤ st.starve x.2 ∧ (st.starve y.2 = st.starve x.2 → x.1.toNat ≤ y.1.toNat)) ∧
      ((∀ y ∈ others, st.starve y.2 < 1024) → ∀ y ∈ others, x.1.toNat ≤ y.1.toNat)) ∧
    (∀ l ∈ st.lanes, ∀ x ∈ st.paths, l.1 ∈ x.2 → l.2.starve ≤ st.starve x.2)

/-- R139 steps 1 to 3: a register beyond the frame traps the path before anything else (its TADDR the spec leaves open), then
a misused port does, then a pop or push that cannot be made holds it. -/
def Sys2Proof.Claim.OperandPhaseStops : Prop :=
  ∀ (i : Instr) (srcs : List Opd) (d : Opd) (s : State) (sid : Nat) (p : RunPath) (rest : List Run),
    shape i = some (srcs, d) → issues s sid p rest →
    let u := begun s rest
    (outside u sid p (srcs ++ [d]) = true → ∃ addr, exec i s = .next (u.trapAll sid p.lanes 0x30 1 addr p.recPc)) ∧
    (outside u sid p (srcs ++ [d]) = false → (u.str sid).softLanes p.lanes srcs = [] → ¬(popsOf srcs = [] ∧ pushOf [d] = none) →
      (∀ port desc, u.portGate sid p.lanes (popsOf srcs) (pushOf [d]) = .misuse port desc →
        exec i s = .next (u.trapPath sid p 0x61 port (BitVec.ofNat 64 desc))) ∧
      (u.portGate sid p.lanes (popsOf srcs) (pushOf [d]) = .wait →
        exec i s = .next (u.await sid p (.ports (popsOf srcs) (pushOf [d])))))

/-- R137, R22, R26, R27: after a form of R137 or R177 (a division with SSW.DZT clear), a register of the destination holds its
lane's result, `lr` the result extended, and the path stands at the next word; every other register of every strand, all of
memory, and the rest of the machine are as before. Said for a word inside its clause, with no operand a port and no operation
in the core's matrix engine; what a port does is stated of the queues. -/
def Obligations.RegisterFormsFrame : Prop :=
  ∀ (i : Instr) (srcs : List Opd) (d : Opd) (s : State) (sid : Nat) (p : RunPath) (rest : List Run),
    shape i = some (srcs, d) → issues s sid p rest → lanesOk p → midClause s sid p → (s.coreOf sid).mx = [] →
    (s.str sid).unread = [] → (s.str sid).softRegs = [] →
    ((s.str sid).csr.dzt = false ∨ ∀ x y z, i ≠ .idivS32 x y z ∧ i ≠ .idivN32 x y z ∧ i ≠ .iremS32 x y z ∧ i ≠ .iremN32 x y z) →
    outside s sid p (srcs ++ [d]) = false → popsOf srcs = [] → pushOf [d] = none →
    (d.1 = .zero ∨ d.1.isRun d.2 = true) →
    ∃ u, exec i s = .next u ∧
      u.runs = ⟨sid, nextWord p⟩ :: rest ∧
      (∃ res : Nat → Word64,
        (∀ l ∈ p.lanes, nhas (s.str sid).lanes l = true →
          ((u.str sid).th l).lr = if d.2 ≤ 1 then ((res l).setWidth 32).setWidth 64 else res l) ∧
        (∀ l ∈ p.lanes, ∀ k < d.2, ∀ r, nhas (s.str sid).lanes l = true → (s.str sid).loc l d.1 k = some r →
          (u.str sid).peek r = if k = 0 then (res l).setWidth 32 else (res l >>> 32).setWidth 32)) ∧
      (∀ r : RegLoc, r.lane < 32 → ¬isDst (s.str sid) p d r → (u.str sid).peek r = (s.str sid).peek r) ∧
      (∀ l, l ∉ p.lanes → (u.str sid).th l = (s.str sid).th l) ∧
      (∀ l, ((u.str sid).th l).st = ((s.str sid).th l).st ∧ ((u.str sid).th l).pc = ((s.str sid).th l).pc ∧
        ((u.str sid).th l).wb = ((s.str sid).th l).wb ∧ ((u.str sid).th l).loops = ((s.str sid).th l).loops) ∧
      (u.str sid).csr = (s.str sid).csr ∧ (u.str sid).ports = (s.str sid).ports ∧ (u.str sid).waits = (s.str sid).waits ∧
      (∀ j, j ≠ sid → u.str j = s.str j) ∧
      (∀ a, u.mem.read a = s.mem.read a) ∧
      u = { s with runs := u.runs, strands := u.strands }

/-- R30, R29: the hard-wired operands read as constants and take nothing. -/
def Sys2Proof.Claim.HardwiredOperands : Prop :=
  (∀ (s : State) (sid l k site : Nat) (pops : NMap (NMap Word)), s.src sid pops l .zero k site = 0) ∧
  (∀ (s : State) (sid l site : Nat) (pops : NMap (NMap Word)), s.src sid pops l .ones 0 site = 0xFFFFFFFF ∧
    s.src sid pops l .laneid 0 site = BitVec.ofNat 32 l) ∧
  (∀ (s : State) (sid l site : Nat) (pops : NMap (NMap Word)) (c : BitVec 5),
    (s.src sid pops l (.imm c) 0 site).toInt = (c.toNat : Int) - 16 ∧
    (s.srcVal sid pops l (.imm c, 2) site).toInt = (c.toNat : Int) - 16) ∧
  (∀ (s : State) (sid n : Nat) (res : NMap Word64), s.writeDst sid (.zero, n) res = s)

/-- R22, R28 to R30, R139: where the operand phase stops or waits, and operands whose value is fixed. -/
def Obligations.OperandPhase : Prop := Claim.OperandPhaseStops ∧ Claim.HardwiredOperands

/-- R80, R89, R172: past its word a path issues the next one, waits at a switch marker while loads are pending, or leaves the
clause at its end. -/
def Sys2Proof.Claim.WordSequence : Prop :=
  ∀ (s : State) (sid : Nat) (p : RunPath), nhas s.strands sid = true → p.lanes ≠ [] →
    (midClause s sid p → s.advance sid p = { s with runs := ⟨sid, nextWord p⟩ :: s.runs }) ∧
    (p.marked = true → (s.str sid).switchHeld = true →
      s.advance sid p = s.modStr sid fun st => { st with waits := st.waits ++ [⟨{ nextWord p with prev := p.recPc }, .switch⟩] }) ∧
    (p.count ≤ p.pos → p.marked = false → s.advance sid p = s.clauseExit sid p [] p.lanes)

/-- R81, R172: at a clause's end without a loop step every thread goes to the sequential successor, or where its `loop` word
sent it, and nothing else changes. -/
def Sys2Proof.Claim.ClauseEndGoesOn : Prop :=
  ∀ (s : State) (sid : Nat) (p : RunPath), nhas s.strands sid = true → (s.str sid).csr.sstep = false →
    (∀ l ∈ p.lanes, ((s.str sid).th l).loops.head?.map (·.e) ≠ some p.hdrAddr) →
    let u := s.clauseExit sid p [] p.lanes
    u = { s with strands := u.strands } ∧ (∀ j, j ≠ sid → u.str j = s.str j) ∧
    (∀ l, ((u.str sid).th l).st = if l ∈ p.lanes ∧ nhas (s.str sid).lanes l then .ready else ((s.str sid).th l).st) ∧
    (∀ l, ((u.str sid).th l).pc = if l ∈ p.lanes ∧ nhas (s.str sid).lanes l then p.out l else ((s.str sid).th l).pc) ∧
    (∀ l, ((u.str sid).th l).o = ((s.str sid).th l).o ∧ ((u.str sid).th l).lr = ((s.str sid).th l).lr ∧
      ((u.str sid).th l).loops = ((s.str sid).th l).loops) ∧
    (u.str sid).frames = (s.str sid).frames ∧ (u.str sid).csr = (s.str sid).csr

/-- R171, R172: the loop step. A thread at the end of the clause its innermost loop ends with goes back while the count has
not run out; at its end the enclosing loop that ends there too takes its step. -/
def Sys2Proof.Claim.LoopStep : Prop :=
  (∀ (e nxt : Word64), loopStep [] e nxt = ([], nxt)) ∧
  (∀ (x : LoopEnt) (r : List LoopEnt) (e nxt : Word64), x.e ≠ e → loopStep (x :: r) e nxt = (x :: r, nxt)) ∧
  (∀ (x : LoopEnt) (r : List LoopEnt) (nxt : Word64), x.count ≠ 1 →
    loopStep (x :: r) x.e nxt = ({ x with count := x.count - 1 } :: r, x.start)) ∧
  (∀ (x : LoopEnt) (nxt : Word64), x.count = 1 → loopStep [x] x.e nxt = ([], nxt)) ∧
  (∀ (x y : LoopEnt) (r : List LoopEnt) (nxt : Word64), x.count = 1 → y.e = x.e → y.count ≠ 1 →
    loopStep (x :: y :: r) x.e nxt = ({ y with count := y.count - 1 } :: r, y.start)) ∧
  (∀ (x y : LoopEnt) (r : List LoopEnt) (nxt : Word64), x.count = 1 → y.e ≠ x.e → loopStep (x :: y :: r) x.e nxt = (y :: r, nxt)) ∧
  (∀ (x y : LoopEnt) (nxt : Word64), x.count = 1 → y.e = x.e → y.count = 1 → loopStep [x, y] x.e nxt = ([], nxt))

/-- R80, R81, R89, R171, R172: the word after a word, the end of a clause, the loop step. -/
def Obligations.WordsAndLoops : Prop := Claim.WordSequence ∧ Claim.ClauseEndGoesOn ∧ Claim.LoopStep

namespace Sys2Proof.Claim
open Sys2Proof.Machine

/-- No lane is in a sub-strand, and the handler of the lowest lane's cause can be entered (R82, R343, R346). -/
def canEnter (s : State) (sid : Nat) (lanes : List Nat) (cause : Nat) : Prop :=
  nhas s.strands sid = true ∧ (s.str sid).csr.tlevel = 0 ∧ (s.str sid).csr.s1 = [] ∧ (s.str sid).csr.s2 = [] ∧
  lanes ≠ [] ∧ lanes.Nodup ∧ (∀ l ∈ lanes, nhas (s.str sid).lanes l = true ∧ l < 32) ∧
  (s.gridOf sid).tbase.getD 0 ≠ 0 ∧
  (s.target sid ((s.gridOf sid).tbase.getD 0 + BitVec.ofNat 64 (128 * (cause / 16) + 4)) true).1 = .ok

/-- The detail of a lane (R348): its cause, its SUB and bits 47 to 0 of its address. -/
def laneDetail (h : LaneTrap) : Word64 := BitVec.ofNat 64 (h.cause * 2 ^ 56 + h.sub % 256 * 2 ^ 48 + h.addr.toNat % 2 ^ 48)

/-- The bank that entry by traps of some lanes writes (R346, R348); its cause, PC and address are those of the lowest lane. -/
def banked (st : Strand) (hits : List LaneTrap) (b : Bank) : Prop :=
  let low := hits.headD default
  b.cause = BitVec.ofNat 32 low.cause ∧ b.epc = low.pc ∧ b.addr = low.addr ∧
  b.lanes = bitsWhere ((hits.map (·.lane)).contains ·) ∧ b.epcWritten = false ∧
  (∀ h ∈ hits, nget b.savedLr h.lane = some (st.th h.lane).lr ∧ nget b.resumePc h.lane = some h.pc ∧
    nget b.detail h.lane = some (laneDetail h)) ∧
  (∀ l, l ∉ hits.map (·.lane) → nget b.detail l = none)

/-- What entry to level 1 by traps of some lanes leaves (R343 to R348): `t` after, `s` before. -/
def enteredBy (s t : State) (sid : Nat) (hits : List LaneTrap) : Prop :=
  let st := t.str sid
  let lanes := hits.map (·.lane)
  let low := hits.headD default
  st.csr.tlevel = 1 ∧ st.csr.s1 = lanes ∧ st.csr.s2 = [] ∧ banked (s.str sid) hits st.csr.bankA ∧
  (∀ l ∈ lanes, (st.th l).st = .ready ∧
    (st.th l).pc = (s.gridOf sid).tbase.getD 0 + BitVec.ofNat 64 (128 * (low.cause / 16) + 4)) ∧
  (∀ l, l ∉ lanes → st.th l = (s.str sid).th l) ∧
  (∀ l ∈ lanes, (st.th l).lr = ((s.str sid).th l).lr ∧ (st.th l).o = ((s.str sid).th l).o ∧ (st.th l).wb = ((s.str sid).th l).wb) ∧
  st.frames = (s.str sid).frames ∧ st.csr.bankB = (s.str sid).csr.bankB ∧ st.csr.tsave = (s.str sid).csr.tsave ∧
  st.csr.dzt = (s.str sid).csr.dzt ∧ st.csr.wdog = 0

/-- The same trap in every lane, each with its recorded PC. -/
def entered (s t : State) (sid : Nat) (lanes : List Nat) (cause sub : Nat) (addr : Word64) (pc : Nat → Word64) : Prop :=
  enteredBy s t sid (lanes.map fun l => ⟨l, cause, sub, addr, pc l⟩)

/-- The record of a kill by a fatal trap (R353, R354). -/
def isKill (s : State) (sid reason cause : Nat) (addr pc : Word64) (lanes : List Nat) (k : Kill) : Prop :=
  k.ctx = (s.gridOf sid).ctx ∧ k.reason = reason ∧ k.cause = cause ∧ k.addr = addr ∧ k.pc = pc ∧
  k.lanes = bitsWhere (lanes.contains ·) ∧ k.core = (s.str sid).core ∧ k.team = (s.teamOf sid).teamid ∧ k.cycle = s.cycle ∧ k.here = true

/-- A fatal trap kills the context for a reason; where dumps are enabled, a dump phase of that kill comes first (R353, R423). -/
def fatal (s t : State) (sid reason cause : Nat) (addr pc : Word64) (lanes : List Nat) : Prop :=
  let c := (s.gridOf sid).ctx
  (s.ctx c).killed = false → (s.ctx c).dbg.dump = none →
    ((s.ctx c).dbg.dumpsize = 0 → (t.ctx c).killed = true ∧
      (s.loop.st ≠ .down → ∃ k, isKill s sid reason cause addr pc lanes k ∧ t.kills = s.kills ++ [k])) ∧
    ((s.ctx c).dbg.dumpsize ≠ 0 → (t.ctx c).killed = false ∧ (t.ctx c).dbg.halted = true ∧ (t.ctx c).dbg.why = 3 ∧ t.kills = s.kills ∧
      ∃ k, isKill s sid reason cause addr pc lanes k ∧ (t.ctx c).dbg.dump = some { kill := some k })

end Sys2Proof.Claim

/-- R343 to R348: entry to trap level 1, for every cause: bank A, the lanes' detail, saved `lr` and PCs, S1, TLEVEL, and the handler's
PC in the trapping lanes; the other lanes go on untouched. -/
def Sys2Proof.Claim.TrapEntryToLevelOne : Prop :=
  (∀ (s : State) (sid : Nat) (hits : List LaneTrap), canEnter s sid (hits.map (·.lane)) (hits.headD default).cause →
    enteredBy s (s.trap sid hits) sid hits) ∧
  (∀ (s : State) (sid : Nat) (p : RunPath) (lanes : List Nat) (cause sub : Nat) (addr pc : Word64), canEnter s sid lanes cause →
    entered s (s.trapAll sid lanes cause sub addr pc) sid lanes cause sub addr (fun _ => pc) ∧
    (p.undo = [] → entered s (s.trapPath sid { p with lanes := lanes } cause sub addr) sid lanes cause sub addr (fun _ => p.recPc)))

/-- R344, R345: at level 1 a trap by lanes of S1 enters level 2 through bank B and leaves bank A; one by lanes outside S1 is
held until level 0; a context without a handler table is killed for reason 2, a trap by lanes of S2 for reason 1 (R353); where the
context's DUMPSIZE is not 0 its dump phase comes before the kill (R423). -/
def Sys2Proof.Claim.TrapAtHigherLevels : Prop :=
  ∀ (s : State) (sid : Nat) (lanes : List Nat) (cause sub : Nat) (addr pc : Word64),
    nhas s.strands sid = true → lanes ≠ [] → lanes.Nodup → (∀ l ∈ lanes, nhas (s.str sid).lanes l = true) →
    ((s.str sid).csr.tlevel = 1 → (∀ l ∈ lanes, (s.str sid).group l = 1) → (s.gridOf sid).tbase.getD 0 ≠ 0 →
      (s.target sid ((s.gridOf sid).tbase.getD 0 + BitVec.ofNat 64 (128 * (cause / 16) + 4)) true).1 = .ok →
      let t := s.trapAll sid lanes cause sub addr pc
      (t.str sid).csr.tlevel = 2 ∧ (t.str sid).csr.s2 = lanes ∧ (t.str sid).csr.bankA = (s.str sid).csr.bankA ∧
      banked (s.str sid) (lanes.map fun l => ⟨l, cause, sub, addr, pc⟩) (t.str sid).csr.bankB) ∧
    ((s.str sid).csr.tlevel = 1 → (∀ l ∈ lanes, (s.str sid).group l = 0) →
      let t := s.trapAll sid lanes cause sub addr pc
      (t.str sid).csr = (s.str sid).csr ∧ (∀ l ∈ lanes, ((t.str sid).th l).st = .held 0 ∧ ((t.str sid).th l).pc = pc) ∧
      (∀ l, l ∉ lanes → (t.str sid).th l = (s.str sid).th l)) ∧
    ((s.str sid).csr.tlevel = 0 ∨ ((s.str sid).csr.tlevel = 1 ∧ ∀ l ∈ lanes, (s.str sid).group l = 1) →
      (s.gridOf sid).tbase.getD 0 = 0 → fatal s (s.trapAll sid lanes cause sub addr pc) sid 2 cause addr pc lanes) ∧
    ((s.str sid).csr.tlevel = 2 → (∀ l ∈ lanes, (s.str sid).group l = 2) →
      fatal s (s.trapAll sid lanes cause sub addr pc) sid 1 cause addr pc lanes)

/-- R343 to R348, R353: taking a trap at level 0, and at higher levels. -/
def Obligations.TrapEntry : Prop := Claim.TrapEntryToLevelOne ∧ Claim.TrapAtHigherLevels

namespace Sys2Proof.Claim
open Sys2Proof.Machine

/-- The target of a BR word: the clause header plus four times the sign-extended offset (R166). -/
def brTo (p : RunPath) (off : BitVec 17) : Word64 := p.hdrAddr + BitVec.ofInt 64 (4 * off.toInt)

/-- How a transfer whose targets pass ends: the threads leave the clause, those taken to their targets, the others to its end; at its
switch marker they first wait for the strand's pending loads (R89). -/
def leaves (u : State) (sid : Nat) (p : RunPath) (taken : List (Nat × Word64)) (others : List Nat) : State :=
  if p.marked ∧ (u.str sid).switchHeld then u.modStr sid fun st => { st with waits := st.waits ++ [⟨p, .leave taken⟩] }
  else u.clauseExit sid p taken others

/-- A transfer completes where every taken lane's target passes R82: the taken lanes leave for their targets, the others to
the clause's end. `u` is the state after the checks, which may fetch lines. -/
def branches (i : Instr) (a : Sel) (off : BitVec 17) (take : (Nat → Word) → RunPath → Nat → Bool) : Prop :=
  ∀ (s : State) (sid : Nat) (p : RunPath) (rest : List Run) (q : RunPath) (t u : State) (vals : NMap (List Word64)),
    issues s sid p rest → ready (begun s rest) sid p [(a, 1)] [] = some (q, t, vals) → lanesOk p →
    let taken := p.lanes.filter (take (fun j => x32 vals j 0) p)
    t.checkTargets sid true (taken.map fun l => (l, brTo p off)) = (taken.map fun l => (l, brTo p off), [], u) →
    nhas u.strands sid = true ∧
    exec i s = .next (leaves u sid q (taken.map fun l => (l, brTo p off)) (p.lanes.filter fun l => !taken.contains l))

/-- A jump to each lane's own address, with or without a link (R169). -/
def jumps (i : Instr) (a : Sel) (tmap : Bool) (link : Option Sel) : Prop :=
  ∀ (s : State) (sid : Nat) (p : RunPath) (rest : List Run) (q : RunPath) (t u : State) (vals : NMap (List Word64)),
    issues s sid p rest → ready (begun s rest) sid p [(a, 2)] (link.toList.map fun d => (d, 2)) = some (q, t, vals) → lanesOk p →
    let want := p.lanes.map fun l => (l, x64 vals l 0)
    t.checkTargets sid tmap want = (want, [], u) →
    exec i s = .next (leaves (match link with
      | some d => u.writeDst sid (d, 2) (p.lanes.map fun l => (l, p.nxt))
      | none => u) sid q want [])

/-- A transfer some of whose targets fail: the lanes whose targets pass get the link and leave for them; those whose targets fail trap at
the transfer word with the target as their address; the others go to the clause's end. -/
def leavesSome (t : State) (sid : Nat) (p : RunPath) (tmap : Bool) (link : Option Sel) (want : List (Nat × Word64)) : State :=
  let r : List (Nat × Word64) × List (Nat × Nat × Nat × Word64) × State := t.checkTargets sid tmap want
  let linked := match link with
    | some d => r.2.2.writeDst sid (d, 2) (r.1.map fun (x : Nat × Word64) => (x.1, p.nxt))
    | none => r.2.2
  let hit := (linked.unpopHeld sid p.undo (r.2.1.map Prod.fst)).trap sid (r.2.1.map fun (x : Nat × Nat × Nat × Word64) => ⟨x.1, x.2.1, x.2.2.1, x.2.2.2, p.recPc⟩)
  let left := p.lanes.filter fun l => !(r.2.1.map Prod.fst).contains l
  if nhas hit.strands sid = false then hit
  else if left = [] then hit.clauseExit sid { p with lanes := [] } r.1 []
  else leaves hit sid { p with lanes := left } r.1 (left.filter fun l => !(want.map (·.1)).contains l)

/-- The conditional branches with the lanes that take them (R166). -/
def conditional (a : Sel) (off : BitVec 17) : List (Instr × ((Nat → Word) → RunPath → Nat → Bool)) :=
  [(.bz a off, fun x _ l => x l == 0), (.bnz a off, fun x _ l => x l != 0), (.blz a off, fun x _ l => decide (sInt (x l) < 0)),
   (.bgez a off, fun x _ l => decide (0 ≤ sInt (x l))), (.bany a off, fun x p _ => p.lanes.any fun j => x j != 0),
   (.ball a off, fun x p _ => p.lanes.all fun j => x j != 0)]

end Sys2Proof.Claim

/-- R166: the BR forms but `call`. Conditions 1 to 4 are taken lane by lane, `bany` and `ball` by all of the path. -/
def Sys2Proof.Claim.BranchResults : Prop := ∀ (a : Sel) (off : BitVec 17),
  (∀ (s : State) (sid : Nat) (p : RunPath) (rest : List Run) (u : State), issues s sid p rest → lanesOk p →
    (begun s rest).checkTargets sid true (p.lanes.map fun l => (l, brTo p off)) =
      (p.lanes.map fun l => (l, brTo p off), [], u) →
    exec (.bra off) s = .next (leaves u sid p (p.lanes.map fun l => (l, brTo p off)) [])) ∧
  branches (.bz a off) a off (fun x _ l => x l == 0) ∧
  branches (.bnz a off) a off (fun x _ l => x l != 0) ∧
  branches (.blz a off) a off (fun x _ l => decide (sInt (x l) < 0)) ∧
  branches (.bgez a off) a off (fun x _ l => decide (0 ≤ sInt (x l))) ∧
  branches (.bany a off) a off (fun x p _ => p.lanes.any fun j => x j != 0) ∧
  branches (.ball a off) a off (fun x p _ => p.lanes.all fun j => x j != 0)

/-- R166, R169: calls write the sequential successor of the clause as their link, jumps and returns go to each lane's own
address; `ret` needs no TMAP bit at its target. -/
def Sys2Proof.Claim.CallJumpReturnResults : Prop := ∀ (d a : Sel) (off : BitVec 17),
  (∀ (s : State) (sid : Nat) (p : RunPath) (rest : List Run) (q : RunPath) (t u : State) (vals : NMap (List Word64)),
    issues s sid p rest → ready (begun s rest) sid p [] [(a, 2)] = some (q, t, vals) → lanesOk p →
    let want := p.lanes.map fun l => (l, brTo p off)
    t.checkTargets sid true want = (want, [], u) →
    exec (.call a off) s = .next (leaves (u.writeDst sid (a, 2) (p.lanes.map fun l => (l, p.nxt))) sid q want [])) ∧
  jumps (.jr a) a true none ∧ jumps (.callr d a) a true (some d) ∧ jumps (.ret a) a false none

/-- R166, R169: branches, jumps, calls and returns. -/
def Obligations.BranchesCallsReturns : Prop := Claim.BranchResults ∧ Claim.CallJumpReturnResults

/-- R82, R442: a target passes where it is the address of a clause header whose bits are set in SMAP and (but for `ret`) TMAP of its
line; elsewhere it fails, or the fetch of its line does. -/
def Sys2Proof.Claim.TargetsChecked : Prop :=
  ∀ (s : State) (sid : Nat) (a : Word64) (tmap : Bool),
    (2 ^ 56 ≤ a.toNat ∨ (a.toNat % 128 ≠ 4 ∧ a.toNat % 16 ≠ 0) ∨ a.toNat % 128 = 0 → s.target sid a tmap = (.bad, s)) ∧
    (∀ q < 8, a.toNat < 2 ^ 56 → a.toNat % 128 = (if q = 0 then 4 else 16 * q) →
      (∀ e u, s.fetchLine sid (a.toNat / 128 * 128) = (.error e, u) → s.target sid a tmap = (.fault e, u)) ∧
      (∀ line u, s.fetchLine sid (a.toNat / 128 * 128) = (.ok line, u) → s.target sid a tmap =
        (if (line.getD 0 0).getLsbD q ∧ (tmap = true → (line.getD 0 0).getLsbD (8 + q)) then .ok else .bad, u)))

/-- R166, R169, R108, R82: a target that fails the check traps its lane with ILL 0x03, or with its fetch's fault, and the target as its
address; the lane neither goes anywhere nor gets a link, the path's other lanes do as they would without it. What a trap does is
said of trap entry. -/
def Sys2Proof.Claim.FailedTargetsTrap : Prop :=
  (∀ (d a : Sel) (off : BitVec 17),
    (∀ (s : State) (sid : Nat) (p : RunPath) (rest : List Run), issues s sid p rest →
      exec (.bra off) s = .next (leavesSome (begun s rest) sid p true none (p.lanes.map fun l => (l, brTo p off)))) ∧
    (∀ i take, (i, take) ∈ conditional a off →
      ∀ (s : State) (sid : Nat) (p : RunPath) (rest : List Run) (q : RunPath) (t : State) (vals : NMap (List Word64)),
        issues s sid p rest → ready (begun s rest) sid p [(a, 1)] [] = some (q, t, vals) → lanesOk p →
        exec i s = .next (leavesSome t sid q true none
          ((p.lanes.filter (take (fun j => x32 vals j 0) p)).map fun l => (l, brTo p off)))) ∧
    (∀ (s : State) (sid : Nat) (p : RunPath) (rest : List Run) (q : RunPath) (t : State) (vals : NMap (List Word64)),
      issues s sid p rest → ready (begun s rest) sid p [] [(a, 2)] = some (q, t, vals) →
      exec (.call a off) s = .next (leavesSome t sid q true (some a) (p.lanes.map fun l => (l, brTo p off)))) ∧
    (∀ i tmap link, (i, tmap, link) ∈ [(Instr.jr a, true, none), (Instr.ret a, false, none), (Instr.callr d a, true, some d)] →
      ∀ (s : State) (sid : Nat) (p : RunPath) (rest : List Run) (q : RunPath) (t : State) (vals : NMap (List Word64)),
        issues s sid p rest → ready (begun s rest) sid p [(a, 2)] (link.toList.map fun x => (x, 2)) = some (q, t, vals) →
        exec i s = .next (leavesSome t sid q tmap link (p.lanes.map fun l => (l, x64 vals l 0))))) ∧
  ∀ (s : State) (sid : Nat) (tmap : Bool) (want : List (Nat × Word64)),
    let r := s.checkTargets sid tmap want
    (∀ x ∈ r.1, x ∈ want) ∧
    (∀ l a, want = [(l, a)] → r = match s.target sid a tmap with
      | (.ok, u) => ([(l, a)], [], u)
      | (.bad, u) => ([], [(l, 0x03, 0, a)], u)
      | (.fault e, u) => ([], [(l, e.1, e.2, a)], u)) ∧
    (∀ x ∈ r.2.1, ∃ y ∈ want, y.1 = x.1 ∧ x.2.2.2 = y.2 ∧ (x.2.1 = 0x03 ∧ x.2.2.1 = 0 ∨ x.2.1 / 16 = 2)) ∧
    r.1.length + r.2.1.length = want.length ∧
    (∀ x ∈ want, (x.2.toNat % 4 ≠ 0 ∨ 2 ^ 56 ≤ x.2.toNat ∨ (x.2.toNat % 128 ≠ 4 ∧ x.2.toNat % 16 ≠ 0) ∨ x.2.toNat % 128 = 0) →
      (x.1, 0x03, 0, x.2) ∈ r.2.1)

/-- R167, R172: a thread that leaves by a transfer goes to its target and keeps its loop stack; the path's other threads
complete the clause. -/
def Sys2Proof.Claim.TransferLeavesClause : Prop :=
  ∀ (s : State) (sid : Nat) (p : RunPath) (taken : List (Nat × Word64)), nhas s.strands sid = true →
    (s.str sid).csr.sstep = false → (taken.map (·.1)).Nodup → (∀ x ∈ taken, x.1 ∈ p.lanes) →
    let others := p.lanes.filter fun l => !(taken.map (·.1)).contains l
    (∀ l ∈ others, ((s.str sid).th l).loops.head?.map (·.e) ≠ some p.hdrAddr) →
    let u := s.clauseExit sid p taken others
    u = { s with strands := u.strands } ∧
    (∀ x ∈ taken, nhas (s.str sid).lanes x.1 = true →
      ((u.str sid).th x.1).st = .ready ∧ ((u.str sid).th x.1).pc = x.2 ∧
      ((u.str sid).th x.1).loops = ((s.str sid).th x.1).loops ∧ ((u.str sid).th x.1).o = ((s.str sid).th x.1).o ∧
      ((u.str sid).th x.1).wb = ((s.str sid).th x.1).wb) ∧
    (∀ l ∈ others, nhas (s.str sid).lanes l = true →
      ((u.str sid).th l).st = .ready ∧ ((u.str sid).th l).pc = p.out l) ∧
    (∀ l, l ∉ p.lanes → (u.str sid).th l = (s.str sid).th l) ∧
    (u.str sid).frames = (s.str sid).frames ∧ (u.str sid).ports = (s.str sid).ports

/-- R82, R108, R166, R167, R169, R172: a transfer leaves its clause, or its failed target traps. -/
def Obligations.TransfersLeaveOrTrap : Prop := Claim.TargetsChecked ∧ Claim.FailedTargetsTrap ∧ Claim.TransferLeavesClause

/-- R171: `loop`. Lanes with a count push it with the start and the end clause; lanes with a count of zero will skip the body;
a third entry traps its lane with ACCESS 0x32 and writes nothing there, the others going on; an end clause that SMAP does not mark
traps the whole path with ILL 0x03. -/
def Sys2Proof.Claim.LoopWord : Prop :=
  ∀ (a : Sel) (off : BitVec 14) (s : State) (sid : Nat) (p : RunPath) (rest : List Run) (u : State),
    issues s sid p rest →
    let e := p.hdrAddr + BitVec.ofNat 64 (4 * off.toNat)
    (∀ (after : Word64) (q : RunPath) (t : State) (vals : NMap (List Word64)),
      (begun s rest).clauseSucc sid e = (.ok (some after), u) → ready u sid p [(a, 1)] [] = some (q, t, vals) → lanesOk p →
      (∀ l ∈ p.lanes, x32 vals l 0 ≠ 0 → ((t.str sid).th l).loops.length < 2) →
      exec (.loop a off) s = .next ((t.modStr sid fun st =>
        st.modThs (p.lanes.filter fun l => x32 vals l 0 != 0) fun l th =>
          { th with loops := ⟨x32 vals l 0, p.nxt, e⟩ :: th.loops }).advance sid
        { q with skips := (p.lanes.filter fun l => x32 vals l 0 == 0).map fun l => (l, after) })) ∧
    (∀ (after : Word64) (q : RunPath) (t : State) (vals : NMap (List Word64)),
      (begun s rest).clauseSucc sid e = (.ok (some after), u) → ready u sid p [(a, 1)] [] = some (q, t, vals) → lanesOk p →
      let third := p.lanes.filter fun l => x32 vals l 0 != 0 && decide (2 ≤ ((t.str sid).th l).loops.length)
      let left := p.lanes.filter fun l => !third.contains l
      let q' := { q with skips := (p.lanes.filter fun l => x32 vals l 0 == 0).map fun l => (l, after) }
      let pushed := t.modStr sid fun st => st.modThs (left.filter fun l => x32 vals l 0 != 0) fun l th =>
        { th with loops := ⟨x32 vals l 0, p.nxt, e⟩ :: th.loops }
      third ≠ [] → (t.str sid).csr.tlevel = 0 →
      exec (.loop a off) s = .next (((pushed.modStr sid fun st => st.modThs left fun l th => { th with pc := q'.nextPc l }).trap sid
        (third.map fun l => ⟨l, 0x32, 0, 0, p.recPc⟩)).advance sid { q' with lanes := left })) ∧
    ((begun s rest).clauseSucc sid e = (.ok none, u) → exec (.loop a off) s = .next (u.trapPath sid p 0x03 0 e))

/-- R171: `loop` completes at every end clause that SMAP marks, in a strand whose lanes hold at most one loop: the path stands at its
next word, a lane with a count has the loop on top of its stack, and one with a count of zero will leave the clause past the loop. -/
def Sys2Proof.Claim.LoopCompletes : Prop :=
  ∀ (a : Sel) (off : BitVec 14) (s : State) (sid : Nat) (p : RunPath) (rest : List Run) (after : Word64),
    issues s sid p rest → lanesOk p → midClause s sid p →
    let e := p.hdrAddr + BitVec.ofNat 64 (4 * off.toNat)
    ((begun s rest).clauseSucc sid e).1 = .ok (some after) →
    outside s sid p [(a, 1)] = false → popsOf [(a, 1)] = [] → (s.str sid).softRegs = [] →
    (∀ l ∈ p.lanes, ((s.str sid).th l).loops.length < 2) →
    ∃ (t : State) (n : Nat → Word), exec (.loop a off) s = .next t ∧
      t.runs = ⟨sid, { nextWord p with skips := (p.lanes.filter fun l => n l == 0).map fun l => (l, after) }⟩ :: rest ∧
      (∀ l ∈ p.lanes, nhas (s.str sid).lanes l = true →
        ((t.str sid).th l).loops = if n l = 0 then ((s.str sid).th l).loops else ⟨n l, p.nxt, e⟩ :: ((s.str sid).th l).loops) ∧
      ((s.coreOf sid).mx = [] → (s.str sid).unread = [] →
        ∀ l ∈ p.lanes, ∀ r, (s.str sid).loc l a 0 = some r → (s.str sid).pendingFor r = [] → n l = (s.str sid).peek r)

/-- R171, R172: the `loop` word, and that it completes. -/
def Obligations.LoopResults : Prop := Claim.LoopWord ∧ Claim.LoopCompletes

/-- R141, R101, R182, R183: words that only pass on, hold a prefix, yield or sleep. -/
def Sys2Proof.Claim.PlainWordResults : Prop :=
  ∀ (s : State) (sid : Nat) (p : RunPath) (rest : List Run), issues s sid p rest →
    exec .nop s = .next ((begun s rest).advance sid p) ∧
    (∀ (sc : BitVec 3) (o : BitVec 2) (us : BitVec 3) (h : BitVec 2), exec (.mattr sc o us h) s =
      .next { s with runs := ⟨sid, { nextWord p with pfx := some ⟨sc.toNat, o.toNat, us.toNat, h.toNat⟩ }⟩ :: rest }) ∧
    (∀ n : BitVec 21, n ≠ 0 → exec (.sleep n) s =
      .next ((begun s rest).modStr sid fun st => { st with waits := st.waits ++ [⟨p, .sleep (s.cycle + n.toNat)⟩] })) ∧
    (∀ i, i = .yield ∨ i = .sleep 0 → ∃ q, exec i s =
      .next (((begun s rest).modStr sid fun st => { st with seq := q, aged := 0 }).advance sid p) ∧
      ∀ x ∈ s.strands, x.2.home = (s.str sid).home → x.2.seq < q)

/-- R181, R343 to R348: `brk` and `swtrap` take their traps, recorded at the next word. -/
def Sys2Proof.Claim.TrapOnRequest : Prop :=
  ∀ (s : State) (sid : Nat) (p : RunPath) (rest : List Run), issues s sid p rest →
    (∀ n : BitVec 21, canEnter (begun s rest) sid p.lanes 0x90 → ∃ t, exec (.brk n) s = .next t ∧
      entered s t sid p.lanes 0x90 0 (BitVec.ofNat 64 n.toNat) p.nextPc) ∧
    (∀ (t' : BitVec 13) (c : BitVec 8), canEnter (begun s rest) sid p.lanes c.toNat → ∃ t, exec (.swtrap t' c) s = .next t ∧
      entered s t sid p.lanes c.toNat 0 (BitVec.ofNat 64 t'.toNat) p.nextPc)

/-- R101, R141, R181 to R183: words without a result, and traps on request. -/
def Obligations.PlainWordsAndTraps : Prop := Claim.PlainWordResults ∧ Claim.TrapOnRequest

/-- R170, R10, R173: `exit` ends the path's threads, the others being untouched; `rbar` waits, and goes on once released. -/
def Sys2Proof.Claim.ExitAndReconverge : Prop :=
  ∀ (s : State) (sid : Nat) (p : RunPath) (rest : List Run), issues s sid p rest →
    (∃ t, exec .exit s = .next t ∧
      ((s.str sid).csr.tlevel = 0 → (∃ l th, l ∉ p.lanes ∧ nget (s.str sid).lanes l = some th ∧ th.live = true) →
        nsorted (s.str sid).lanes = true →
        (∀ l ∈ p.lanes, nhas (s.str sid).lanes l = true → ((t.str sid).th l).st = .exited ∧ ((t.str sid).th l).loops = []) ∧
        (∀ l, l ∉ p.lanes → (t.str sid).th l = (s.str sid).th l) ∧ t.runs = rest ∧ t.mem = s.mem ∧ t.teams = s.teams)) ∧
    (p.resume = none → exec .rbar s =
      .next ((begun s rest).modStr sid fun st => { st with waits := st.waits ++ [⟨p, .rbar⟩] })) ∧
    (p.resume = some .released → exec .rbar s = .next ((begun s rest).advance sid p))

namespace Sys2Proof.Claim
open Sys2Proof.Machine

/-- A thread filed by `reform`: its own, at the key, with its window base cleared, and the live registers' values. -/
def filed (key : Word64) (th : Thread) (l : Nat) (regs : NMap Word) : Filing :=
  { lane := l, key := key, thread := { th with pc := key, wb := 0, arrival := none, resumeWait := false, starve := 0 },
    regs := regs, defined := false }
/-- A thread filed by `spawn` for lane l: ready at its entry with its arguments in `o` registers. -/
def spawned (key : Word64) (l : Nat) (o : List Word) : Filing :=
  { lane := l, key := key, regs := [], defined := true,
    thread := { st := .ready, pc := key, wb := 0, o := o, lr := 0, loops := [], arrival := none, resumeWait := false,
                anchorOrd := 0xFFFFFFFF, anchorPc := key, starve := 0, safeOrd := 0xFFFFFFFF, chk := none, pass := none } }
/-- The frame `scope.open` makes for a strand. -/
def openedFrame (s : State) (sid n base : Nat) : Frame :=
  { uid := s.ids.uid, size := n, fill := some s.ids.uid, cells := [], part := (s.str sid).part, base := base,
    wbs := (s.str sid).lanes.map fun x => (x.1, x.2.wb), pubs := [] }
/-- The strand after `safept n`. -/
def atSafept (st : Strand) (p : RunPath) (n : Nat) : Strand :=
  let u := st.modThs p.lanes fun _ t => { t with anchorOrd := BitVec.ofNat 32 n, anchorPc := p.hdrAddr + BitVec.ofNat 64 (4 * p.pos) }
  let c := st.csr
  { u with csr := { c with safept := BitVec.ofNat 32 n, wdog := 0 } }

end Sys2Proof.Claim

/-- R175, R176, R14, R18: `reform` files the path's threads, each with the live registers its map names, under its clause's
successor; `spawn` files one new thread a lane with its arguments, and goes on. -/
def Sys2Proof.Claim.ReformAndSpawnResults : Prop :=
  (∀ (n : BitVec 7) (s : State) (sid : Nat) (p : RunPath) (rest : List Run) (u : State),
    issues s sid p rest → p.resume = none →
    (s.str sid).group (lowest p.lanes) = 0 → (s.str sid).frames.length ≤ 1 → (s.str sid).ports = [] →
    (s.str sid).pending = false → (s.str sid).fl.stores = [] → (s.str sid).hostAtoms = false → (s.str sid).unread = [] →
    (s.coreOf sid).mx = [] → (s.coreOf sid).cp = [] →
    let live := (nget (s.gridOf sid).kd.liveMaps n.toNat).getD []
    let todo := p.lanes.map fun l => filed p.nxt ((s.str sid).th l) l (live.filterMap fun r =>
      let at' := ((s.str sid).th l).wb + r
      if at' < (s.str sid).frameSize then some (r, (s.str sid).frame.cell at' l) else none)
    ((begun s rest).modStr sid fun st => { st with reformed := true }).fileSome sid true s.cycle todo = ([], u) →
    exec (.reform n) s = .next (u.settleStrand sid)) ∧
  (∀ (c : BitVec 3) (a b : Sel) (s : State) (sid : Nat) (p : RunPath) (rest : List Run) (q : RunPath) (t t' u : State)
    (vals : NMap (List Word64)),
    issues s sid p rest → p.resume = none → p.lanes ≠ [] → ready (begun s rest) sid p [(a, 2), (b, c.toNat)] [] = some (q, t, vals) →
    let want := p.lanes.map fun l => (l, x64 vals l 0)
    t.checkTargets sid true want = (want, [], t') →
    let todo := p.lanes.map fun l => spawned (x64 vals l 0) l ((t'.srcRun sid l b c.toNat 8 ++ List.replicate 8 0).take 8)
    t'.fileSome sid false t'.cycle todo = ([], u) →
    exec (.spawn c a b) s = .next (u.advance sid q))

/-- R175: what `reform` checks and awaits before it files, in its order: parked lanes and open frames, bound queue ports, what the strand has
begun, and the fault of a token that has stopped. -/
def Sys2Proof.Claim.ReformOrders : Prop :=
  ∀ (n : BitVec 7) (s : State) (sid : Nat) (p : RunPath) (rest : List Run), issues s sid p rest → p.resume = none →
    let st := s.str sid
    let stopped (k : Nat) (t : MxTok) : Prop := ((begun s rest).mxHeld sid).find? (fun t => t.2.st == .stopped && !t.2.reported) = some (k, t)
    (st.group (lowest p.lanes) ≠ 0 ∨ 1 < st.frames.length → exec (.reform n) s = .next ((begun s rest).trapPath sid p 0x32 0 0)) ∧
    (st.group (lowest p.lanes) = 0 → st.frames.length ≤ 1 →
      (∀ port b more, st.ports = (port, b) :: more → exec (.reform n) s = .next ((begun s rest).trapPath sid p 0x61 port (BitVec.ofNat 64 0))) ∧
      (st.ports = [] → st.pending = true ∨ (∃ t ∈ (begun s rest).mxHeld sid, t.2.st.busy = true) ∨ (∃ t ∈ (begun s rest).cpHeld sid, t.2.st = .busy) →
        exec (.reform n) s = .next ((begun s rest).await sid p .reformWait)) ∧
      (st.ports = [] → (begun s rest).reformReady sid = true → (∀ l ∈ p.lanes, st.holds l = false) →
        (∀ k t, stopped k t → exec (.reform n) s = .next (((begun s rest).modMx st.core k fun t => { t with reported := true }).trapPopped
          sid p 0x52 t.dcause (BitVec.ofNat 64 t.faultAddr))) ∧
        (∀ k t, (∀ j u, ¬stopped j u) → ((begun s rest).cpHeld sid).find? (fun t => t.2.st == .stopped && !t.2.reported) = some (k, t) →
          exec (.reform n) s = .next (((begun s rest).modCp st.core k fun t => { t with reported := true }).trapPopped
            sid p 0x53 t.cause (BitVec.ofNat 64 t.faultAddr)))))

/-- R14, R15: a thread filed where a bin of its key has room joins it, in the next lane position. -/
def Sys2Proof.Claim.FilingJoinsBin : Prop :=
  ∀ (s : State) (sid since k : Nat) (x : Filing) (b : Bin),
    (s.team (s.str sid).team).saving = false → nget (s.core (s.str sid).core).bins k = some b →
    (∀ y ∈ (s.core (s.str sid).core).bins, y.2.team = b.team → y.2.role = b.role → y.2.pc = b.pc → y = (k, b)) →
    b.team = (s.str sid).team → b.role = (s.str sid).role → b.pc = x.key → b.threads.length < 32 →
    ∃ u b', s.fileOne sid x since = some u ∧ nget (u.core (s.str sid).core).bins k = some b' ∧
      b'.threads = b.threads ++ [x] ∧
      (∀ r v, nget x.regs r = some v → x.regs.Pairwise (fun y z => y.1 ≠ z.1) →
        b'.frame.cell r b.threads.length = v ∨ 32 ≤ b.threads.length) ∧
      u.strands = s.strands ∧ u.mem = s.mem

/-- R23, R24, R178, R179: the SCOPE forms where every thread of the strand stands at them. -/
def Sys2Proof.Claim.ScopeResults : Prop :=
  ∀ (s : State) (sid : Nat) (p : RunPath) (rest : List Run), issues s sid p rest →
    (∀ (n : BitVec 21) (base : Nat), (s.str sid).group (lowest p.lanes) = 0 → (s.str sid).waits = [] → lanesOk p → p.resume = none →
      ((s.str sid).scopeLanes.all fun l => p.lanes.contains l) = true →
      ((s.str sid).frames.map (·.size)).sum + n.toNat ≤ ((s.gridOf sid).kd.role (s.str sid).role).budget →
      (s.str sid).frames.length < 16 →
      (∀ x ∈ s.openRequests (s.str sid).core (s.str sid).part, s.cycle ≤ x) →
      (begun s rest).findBlock (s.str sid).core (s.str sid).part n.toNat = some base →
      ∃ t : State, exec (.scopeOpen n) s = .next (t.advance sid p) ∧
        (t.str sid).frames = openedFrame s sid n.toNat base :: (s.str sid).frames ∧
        (∀ l, nhas (s.str sid).lanes l = true → ((t.str sid).th l).wb = 0) ∧ t.mem = s.mem) ∧
    ((s.str sid).group (lowest p.lanes) = 0 → (s.str sid).waits = [] → lanesOk p →
      ((s.str sid).scopeLanes.all fun l => p.lanes.contains l) = true →
      1 < (s.str sid).frames.length → s.frameNamed (s.str sid).core (s.str sid).frame.uid = false →
      ∃ t : State, exec .scopeClose s = .next (t.advance sid p) ∧ (t.str sid).frames = (s.str sid).frames.tail ∧
        (∀ l, nhas (s.str sid).lanes l = true → ((t.str sid).th l).wb = (nget (s.str sid).frame.wbs l).getD 0)) ∧
    (∀ k : BitVec 21, (8 * k.toNat < (s.str sid).frameSize →
        exec (.wbase k) s = .next (((begun s rest).modStr sid fun st =>
          st.modThs p.lanes fun _ t => { t with wb := 8 * k.toNat }).advance sid p)) ∧
      ((s.str sid).frameSize ≤ 8 * k.toNat → exec (.wbase k) s = .next ((begun s rest).trapPath sid p 0x32 0 0))) ∧
    (∀ n : BitVec 21, (s.str sid).stopping = false →
      exec (.safept n) s = .next (((begun s rest).modStr sid fun st =>
        atSafept st p n.toNat).advance sid p))

/-- R10, R23, R24, R170, R173, R174, R178, R179: ends of threads, reconvergence, scopes. -/
def Obligations.ExitReconvergeScope : Prop := Claim.ExitAndReconverge ∧ Claim.ScopeResults

/-! Encodings. -/

/-- R90 to R110, R137 to R275: an encoded well-formed instruction decodes to itself. -/
def Obligations.DecodeOfEncode : Prop := ∀ i : Instr, i.WellFormed = true → encode i < 2 ^ 32 ∧ decodeWord (encode i) = .ok i

/-- R104, R105: what decodes is well formed, and each word has one meaning: it is the encoding of what it decodes to. -/
def Obligations.EncodeOfDecode : Prop :=
  ∀ (w : Nat) (i : Instr), w < 2 ^ 32 → decodeWord w = .ok i → i.WellFormed = true ∧ encode i = w

/-- R92 to R100 and the entries of R143, R153, R158, R166, R171, R177, R178: words written out field by field decode to what they stand
for; R105: majors 28 to 31 are reserved. -/
def Obligations.SampleWordsDecode : Prop :=
  decodeWord 0x08A18103 = .ok (.idivS32 (.v 6) (.v 2) (.v 3)) ∧
  decodeWord 0x3100C114 = .ok (.pkE4m3 (.v 3) (.v 2) 2 true 0) ∧
  decodeWord 0x2B610082 = .ok (.idp4S8 (.v 4) (.v 1) (.v 2)) ∧
  decodeWord 0x79A08080 = .ok (.lxPrefixS32 (.v 2) (.v 1)) ∧
  decodeWord 0xC0000080 = .ok (.scopeOpen 128) ∧
  decodeWord 0xC0400008 = .ok (.wbase 8) ∧
  decodeWord 0xC0600011 = .ok (.safept 17) ∧
  decodeWord 0x6907FFBF = .ok (.bz (.v 3) (-65)) ∧
  decodeWord 0x0020800C = .ok (.loop (.v 2) 12) ∧
  decodeWord 0 = .ok .nop ∧
  (∀ w < 2 ^ 32, 28 ≤ w / 2 ^ 27 → decodeWord w = .error .reservedMajor)

/-! Steps. -/

namespace Sys2Proof.Claim
open Sys2Proof.Machine

/-- The turn that a step takes (none where the clock brings none). -/
def turnOf (s : State) : Option Turn := (s.opened.nextTurn s.opened.round).1

/-- The state in which the turn acts: where the last clock's turns were over, one more clock has passed; the turn is no longer ahead. -/
def atTurn (s : State) : State :=
  let c := s.opened
  { c with tick := c.tick + 1, round := (c.nextTurn c.round).2 }

/-- What a step answers once it has executed an instruction in a state. -/
def executes (s t : State) (i : Instr) : Prop :=
  step s = match exec i t with
    | .next u => .next (u.settle t)
    | .fault f => .fault f
    | .refused r => .refused r

/-- The word a path is at. -/
def wordAtHand (p : RunPath) : Nat := (p.words.getD (p.pos - 1) 0).toNat

/-- A path's turn to issue has come, and neither a sampler nor a breakpoint has a part in it. -/
def chosen (s : State) (r : Run) : Prop :=
  turnOf s = some (.run r) ∧ nhas (atTurn s).strands r.strand = true ∧ (atTurn s).dbg.sampEn = false ∧ (atTurn s).dbg.due = [] ∧
  (atTurn s).dbg.tags = [] ∧
  (r.path.resume = none → (atTurn s).bpMatch r.strand r.path.lanes r.path.wordPc = none)

/-- The strand of a path that issues: it has been chosen, and its threads have passed the word a breakpoint stopped them before. -/
def issuing (r : Run) (st : Strand) : Strand :=
  { (if r.path.resume = none then st.modThs r.path.lanes fun _ t => { t with pass := none } else st) with aged := 0 }

/-- The state in which the word of a path is executed: the path stands first. -/
def atWord (s : State) (r : Run) : State :=
  { (atTurn s).modStr r.strand (issuing r) with runs := r :: (atTurn s).runs.erase r }

end Sys2Proof.Claim

/-- A step in which a path has its turn executes the instruction its word decodes to, and settles what the package does by itself. -/
def Obligations.StepRunsDecodedWord : Prop :=
  (∀ (s : State) (r : Run) (i : Instr), chosen s r → decodeWord (wordAtHand r.path) = .ok i → executes s (atWord s r) i) ∧
  (∀ (w : Nat) (i : Instr), w < 2 ^ 32 → decodeWord w = .ok i → ∃ t, executes (State.reset.withFetchWord 32 w) t i ∧
    ∃ p, t.runs = [⟨0, p⟩] ∧ wordAtHand p = w ∧ p.lanes = List.range 32)

/-- An event that has its turn is executed with what it carries. One that the outside gives has its turn first in the clock that takes
it, but for a core that becomes hot or throttled. -/
def Sys2Proof.Claim.StepTakesInput : Prop :=
  (∀ (s : State) (i : Instr) (args : List Nat), turnOf s = some (.event i args) → i.isWord = false →
    executes s { atTurn s with args := args } i) ∧
  (∀ (s : State) (i : Instr) (args : List Nat) (rest : List (Instr × List Nat)),
    s.round = [] → s.inputs = (i, args) :: rest → i ≠ .coreHot → i ≠ .coreThrottle → turnOf s = some (.event i args) ∧ (atTurn s).inputs = rest) ∧
  (∀ (s : State) (i : Instr) (args : List Nat), turnOf s = some (.event i args) → i.isWord = true →
    step s = .next ((atTurn s).settle (atTurn s)))

/-- A step of any state answers a next state: every word and every event has its effect, a trap included, and none ends in a fault or a
refusal (R343: a trap is taken, not an end). -/
def Obligations.EveryStepAnswers : Prop := ∀ s : State, Machine.Safe s

/-- R32, R13, R322, R326, R356: a clock passes where the turns of the last one are over. CYCLE, the watchdogs of strands that are not
halted, the age timers of bins whose team is not halted, the slices of ACTIVE slots go on; an idle array takes the operation that is
next, and clocks it waits for weights are counted (R329); of a strand that issues, ready threads that do not are starved one clock
more; the rest stands still: everything else of the cores, of the scheduler, the debug unit and the package. -/
def Obligations.ClockPasses : Prop :=
  ∀ s : State,
    (s.round ≠ [] → s.opened = s) ∧ (s.round = [] → s.opened.cycle = s.cycle + 1) ∧
    (s.round = [] → ∀ j st, nget s.strands j = some st →
      let mine := s.clock.schedClock.issues.filter (·.strand == j)
      (s.opened.str j).lanes = nall st.lanes fun l t =>
        if !mine.isEmpty && t.st == .ready && mine.all fun c => !c.lanes.contains l then { t with starve := t.starve + 1 } else t) ∧
    s.clock.cycle = s.cycle + 1 ∧ s.clock.mem = s.mem ∧ s.clock.runs = s.runs ∧ s.clock.teams = s.teams ∧ s.clock.grids = s.grids ∧
    s.clock.ctxs = s.ctxs ∧ s.clock.loop = s.loop ∧ s.clock.fab = s.fab ∧ s.clock.host = s.host ∧ s.clock.saved = s.saved ∧
    s.clock.dbg = s.dbg ∧ s.clock.fw = s.fw ∧ s.clock.sent = s.sent ∧ s.clock.kills = s.kills ∧ s.clock.ids = s.ids ∧
    s.clock.orphans = s.orphans ∧ s.clock.xcache = s.xcache ∧ s.clock.inputs = s.inputs ∧
    s.clock.sched = { s.sched with slots := s.clock.sched.slots } ∧
    (nsorted s.cores = true → ∀ k, (nget s.clock.cores k).isSome = (nget s.cores k).isSome ∧
      let c := s.core k
      let d := s.clock.core k
      d.bins = nall c.bins (fun _ b => if (s.ctx (s.grid (s.team b.team).grid).ctx).dbg.halted || (s.team b.team).ptoHalted then b
        else { b with age := b.age + 1 }) ∧
      d.rcache = c.rcache ∧ d.ibuf = c.ibuf ∧ d.tlb = c.tlb ∧ d.cp = c.cp ∧ d.drn = c.drn ∧ d.dre = c.dre ∧ d.resvs = c.resvs ∧
      (c.arr.op.isSome = true ∨ c.arr.halt.isSome = true → d.arr = c.arr ∧ d.mx = c.mx) ∧
      d.regs = { c.regs with rlstall := d.regs.rlstall, wasHot := d.regs.wasHot, wasThrottled := d.regs.wasThrottled }) ∧
    (∀ j st, nget s.strands j = some st → s.haltedStrand j = false →
      ((s.clock.str j).csr.wdog = st.csr.wdog + 1 ∧ (s.clock.str j).lanes = st.lanes ∧ (s.clock.str j).frames = st.frames)) ∧
    (∀ j st, nget s.strands j = some st → s.haltedStrand j = true → s.clock.str j = st) ∧
    (∀ k x, nget s.sched.slots k = some x →
      nget s.clock.sched.slots k = some { x with used := if x.st = .active then x.used + 1 else x.used })

/-- R32, R391 to R394, R403, R408, R412, R436, R315, R329, R361: what reset leaves. The control region reads, register by register,
as the spec's tables give their reset values (FWSVN's fused half comes from the fuses; it is not named here), CYCLE is 0, no
strand, team or path exists, every engine's tokens are FREE, every drain slot is empty. -/
def Obligations.ResetLeaves : Prop :=
  let s := State.reset
  s.cycle = 0 ∧ s.strands = [] ∧ s.teams = [] ∧ s.saved = [] ∧ s.runs = [] ∧ s.fw.st = .reset ∧ s.mem.wf = true ∧
  (∀ k, (s.core k).mx = [] ∧ (s.core k).cp = [] ∧ (s.core k).drn = [] ∧ (s.core k).regs.wfcnt = 0) ∧
  (∀ x ∈ [(0x400000, 0x000A0800), (0x400010, 1500), (0x400014, 95), (0x400018, 0), (0x400030, 0), (0x410000, 0),
      (0x4C0000, 0), (0x4C0004, 0), (0x4C0008, 0), (0x4C000C, 0), (0x4C0010, 0), (0x4C0014, 0), (0x4C0018, 0), (0x4C001C, 0),
      (0x4C0020, 0), (0x4C0024, 0x800), (0x4C0108, 0), (0x4C1000, 0x80008000), (0x4C1004, 0x80007FFF), (0x4C1200, 0x800),
      (0x500000, 0), (0x500008, 0), (0x50000C, 0), (0x500010, 10000), (0x500014, 256), (0x500100, 0), (0x501000, 0), (0x501004, 0),
      (0x501008, 0), (0x50100C, 0), (0x502000, 800), (0x540000, 0), (0x540004, 0), (0x541000, 0), (0x541008, 0), (0x54100C, 0),
      (0x541010, 0), (0x541014, 0), (0x580004, 20), (0x580008, 0), (0x580010, 0), (0x580014, 0), (0x580018, 0), (0x58001C, 0),
      (0x580040, 0), (0x580044, 0), (0x580048, 0), (0x5C0000, 0), (0x5C0004, 0), (0x5C0010, 5), (0x5C0014, 5), (0x5C0018, 0),
      (0x5C0020, 0), (0x5C0024, 0), (0x5C0028, 0), (0x5C0030, 0), (0x5C1000, 0), (0x5C1800, 0)], s.ctlWord x.1 = x.2)

/-! Memory. -/

namespace Sys2Proof.Claim
open Sys2Proof.Machine

/-- The path is at the start of its word, and its strand has nothing in flight. -/
def quiet (s : State) (sid : Nat) (p : RunPath) : Prop :=
  let st := s.str sid
  p.resume = none ∧ p.got = none ∧ p.taken = none ∧
  st.fl.loads = [] ∧ st.fl.stores = [] ∧ st.fl.fabs = [] ∧ (∀ x ∈ st.fl.posts, s.postDone sid x.2 = true) ∧
  st.fl.soft = [] ∧ st.fl.hostBad = [] ∧ st.fl.hostLost = [] ∧ st.fl.fabFails = [] ∧ st.fl.gate = false ∧ s.heldPosts sid = [] ∧
  ∀ w ∈ st.waits, w.on.loading = false ∧ w.on.inHost = false ∧ ∀ scope, w.on ≠ .full scope

/-- The core has room for so many requests of each of the path's lanes among the 8,192 it can have outstanding (R2). -/
def roomy (s : State) (sid : Nat) (p : RunPath) (per : Nat) : Prop := s.requests (s.str sid).core + per * p.lanes.length ≤ 8192

/-- The path keeps what its operand phase read. -/
def kept (p : RunPath) (vals : NMap (List Word64)) : RunPath := { p with got := some vals }

/-- How many registers an address takes in a base (R36, R187). -/
def addrRegs (base : Base) : Nat := if base = .virt then 2 else 1

/-- The accesses of a path's lanes. -/
def accesses (t : State) (sid : Nat) (p : RunPath) (acc : Acc) (base : Base) (vals : NMap (List Word64)) (disp : Int)
    (n align : Nat) : List LaneAcc :=
  p.lanes.map fun l => t.laneAccess sid acc base l (x64 vals l 0) disp n align

/-- The traps of those that fail. -/
def failsOf (as : List LaneAcc) : List (Nat × Nat × Nat × Word64) :=
  as.filterMap fun x => x.fail.map fun e => (x.lane, e.1, e.2.1, BitVec.ofNat 64 e.2.2)
def goodOf (as : List LaneAcc) : List LaneAcc := as.filter fun x => x.fail.isNone

/-- Bytes as a number, the first the least significant (R3), and the registers they load (R188). -/
def leSum (bs : List Byte) : Nat := (bs.zipIdx.map fun b => b.1.toNat * 256 ^ b.2).sum
def loaded (size : Nat) (signed : Bool) (bs : List Byte) : List Word :=
  if size < 4 then
    let v : Int := leSum bs % 2 ^ (8 * size)
    [if signed then toS (if v < 2 ^ (8 * size - 1) then v else v - 2 ^ (8 * size)) else BitVec.ofNat 32 (leSum bs)]
  else (List.range (size / 4)).map fun i => BitVec.ofNat 32 (leSum ((bs.drop (4 * i)).take 4))

/-- Registers become pending. What the load reads of host memory while the link is down is lost at once: those lanes' registers keep
their values, and a trap of theirs is due (R352, R406). -/
def pending (u : State) (sid : Nat) (x : PendLoad) : State :=
  if x.hosts = [] then u.pend sid x
  else if u.host.up then u.pend sid { x with since := u.cycle }
  else (u.modStr sid fun st => { st with fl := { st.fl with
      hostBad := st.fl.hostBad ++ x.hosts.map fun l => (l, (nget x.vaddr l).getD 0) } }).pend sid
    { x with on := .ready, hosts := [], writes := x.writes.filter fun w => !x.hosts.contains w.1.lane }

/-- A load: its failing lanes trap, the registers of the others are pending with the bytes read now (R186, R188 to R190, R89). -/
def loads (i : Instr) (size : Nat) (signed : Bool) (d a : Sel) (base : Base) (off : BitVec 8) : Prop :=
  ∀ (s : State) (sid : Nat) (p : RunPath) (rest : List Run) (q : RunPath) (t : State) (vals : NMap (List Word64)),
    issues s sid p rest → quiet (begun s rest) sid p → roomy (begun s rest) sid p 1 →
    ready (begun s rest) sid p [(a, addrRegs base)] [(d, (size + 3) / 4)] = some (q, t, vals) →
    let as := accesses t sid p .ld base vals (off.toInt * size) size size
    let good := goodOf as
    let u := (t.accTouch sid as).useAcc sid base .read as
    exec i s = .next ((if good = [] then u else pending u sid
        { writes := good.flatMap fun x => (t.str sid).dstWrites x.lane d (loaded size signed (t.accBytes sid x))
          on := if good.any (·.inRegion .host) then .host else .ready
          vaddr := good.map fun x => (x.lane, x.addr)
          hosts := (good.filter (·.inRegion .host)).map (·.lane)
          acq := if p.order = 1 then some (p.scopeOr 0) else none }).splitOff sid (kept q vals) (failsOf as))

/-- The bytes a lane stores: its registers' words, least significant byte first, as many as the form has (R190). -/
def storedBytes (t : State) (sid : Nat) (d : Sel) (size : Nat) (x : LaneAcc) : List Byte :=
  ((((t.srcRun sid x.lane d ((size + 3) / 4) 16).flatMap fun v => leBytes 4 v.toNat)).take size).take x.done

/-- What a store is while the link is up or down: without the link it has lost its bytes in host memory, and the lanes that wrote
them are noted (R352, R406). -/
def onLink (up : Bool) (x : PendStore) : PendStore :=
  if x.host && !up then { x with
    cells := x.cells.filter fun c => regionOf c.1 != .host
    parts := x.parts.filter fun q => regionOf q.2.1 != .host
    host := false } else x
def lostOn (up : Bool) (x : PendStore) : List (Nat × Nat) :=
  if x.host && !up then (x.parts.filter fun q => regionOf q.2.1 == .host).map fun q => (q.1, (nget x.vaddr q.1).getD 0) else []

/-- The traps of the accesses that fail. Those of a block add to the SUB of an XLATE cause a count of complete words, at most as many as
lie before the failing page (R193, R349). -/
def trapsAs (blk : Bool) (as : List LaneAcc) (hits : List (Nat × Nat × Nat × Word64)) : Prop :=
  ∃ words : Nat → Nat, (∀ x ∈ as, words x.lane ≤ x.done / 4) ∧
    hits = as.filterMap fun x => x.fail.map fun e =>
      (x.lane, e.1, e.2.1 + (if blk ∧ e.1 / 16 = 2 then words x.lane else 0), BitVec.ofNat 64 e.2.2)

/-- A store: its failing lanes trap, the bytes of the others wait to be performed, those of a block word by word (R192); of a block
that fails on a later page the words before are stored (R193). With DGON they are folded (R190, R268). -/
def stores (i : Instr) (size width align : Nat) (blk : Bool) (d a : Sel) (base : Base) (disp : Int) : Prop :=
  ∀ (s : State) (sid : Nat) (p : RunPath) (rest : List Run) (q : RunPath) (t : State) (vals : NMap (List Word64)),
    issues s sid p rest → quiet (begun s rest) sid p → roomy (begun s rest) sid p (if blk then size / 4 else 1) →
    ready (begun s rest) sid p [(a, addrRegs base), (d, (size + 3) / 4)] [] = some (q, t, vals) →
    let as := accesses t sid p .st base vals disp size align
    let live := (as.map fun x => (x, storedBytes t sid d size x)).filter fun x =>
      !x.2.isEmpty && !(x.1.fail.isSome && (t.str sid).holds x.1.lane)
    let u := t.useAcc sid base .write as
    let v := if (t.str sid).csr.dgon then u.modTeamOf sid fun g => g.fold (live.flatMap fun x => storeItems base width x.1 x.2) else u
    let st : PendStore :=
      { cells := live.flatMap fun x => partCells x.1.parts x.2
        rmws := [], scope := if p.order = 2 then p.scopeOr 0 else 0, release := p.order == 2, use := 0
        host := live.any fun x => x.1.inRegion .host
        parts := live.flatMap fun x => x.1.parts.map fun q => (x.1.lane, q.pa, q.len)
        vaddr := live.map fun x => (x.1.lane, x.1.addr)
        ctl := live.any fun x => x.1.inRegion .control
        issued := t.cycle }
    let sent := if blk then blkStores live st else [st]
    ∃ hits, trapsAs blk as hits ∧ exec i s = .next ((if live = [] then v else v.modStr sid fun x =>
      { x with fl := { x.fl with
        stores := x.fl.stores ++ sent.map (onLink v.host.up)
        hostLost := x.fl.hostLost ++ sent.flatMap (lostOn v.host.up) } }).splitOff sid (kept q vals) hits)

/-- Registers of an atomic's operand (R197), and its read-modify-write in a lane. -/
def rmwRegs (op : Nat) : Nat := if op = 10 ∨ op = 11 then 2 else 1
def isCas (op : Nat) : Prop := op = 9 ∨ op = 11
def rmwOf (op : Nat) (vals : NMap (List Word64)) (x : LaneAcc) : Rmw :=
  ⟨op, ((x.parts.head?).map (·.pa)).getD 0, x64 vals x.lane 1, if op = 9 ∨ op = 11 then x64 vals x.lane 2 else 0, x.lane, x.addr⟩
def atomSrcs (op : Nat) (d a b : Sel) (base : Base) : List Opd :=
  [(a, addrRegs base), (b, rmwRegs op)] ++ if op = 9 ∨ op = 11 then [(d, rmwRegs op)] else []

/-- What host memory allows of an atomic: the forms of R200, and those only where the link was trained with completer support (R406). -/
def hostAllowed (u : State) (op : Nat) (x : LaneAcc) : LaneAcc :=
  if x.fail = none ∧ x.inRegion .host then
    if op = 0 ∨ op = 8 ∨ op = 9 ∨ op = 10 ∨ op = 11 then
      if u.host.atomok = true ∧ u.host.atomEn = true then x else { x with fail := some (0xB2, 1, x.addr), parts := [] }
    else { x with fail := some (0x32, 0, x.addr), parts := [] }
  else x

/-- The end of an atomic that has been performed, with its old values by lane: they are pending for the destination, or an acquire
without one returns (R196, R198); failing lanes trap. -/
def atomicEnds (u : State) (sid : Nat) (q : RunPath) (op : Nat) (d : Sel) (old : NMap Word64)
    (hits : List (Nat × Nat × Nat × Word64)) : State :=
  (if old = [] then u
    else if d = .zero then (if q.order = 1 ∨ q.order = 3 then u.acquireAt (u.str sid).core (q.scopeOr 0) else u)
    else u.pend sid
      { writes := old.flatMap fun x => (u.str sid).dstWrites x.1 d
          ((List.range (rmwRegs op)).map fun k => BitVec.setWidth 32 ((x.2 : Word64) >>> (32 * k)))
        on := .ready
        acq := if q.order = 1 ∨ q.order = 3 then some (q.scopeOr 0) else none }).splitOff sid q hits

/-- An atomic. Where lanes reach host memory, their requests go out and the path waits for the completions, the other lanes being
performed; without a link those lanes trap (R200, R406). Else, with a destination or an acquire, it is performed at its issue and the
destination is pending with the old values (the model's timing, log 13); otherwise it waits as a store does (R197, R198, R199). -/
def atomics (i : Instr) (op : Nat) (d a b : Sel) (base : Base) : Prop :=
  ∀ (s : State) (sid : Nat) (p : RunPath) (rest : List Run) (q : RunPath) (t : State) (vals : NMap (List Word64)),
    issues s sid p rest → quiet (begun s rest) sid p → roomy (begun s rest) sid p 1 →
    ready (begun s rest) sid p (atomSrcs op d a b base) [(d, rmwRegs op)] = some (q, t, vals) →
    let as := (accesses t sid p .atom base vals 0 (4 * rmwRegs op) (4 * rmwRegs op)).map (hostAllowed t op)
    let host := (goodOf as).filter (·.inRegion .host)
    let rs := (goodOf as).map (rmwOf op vals)
    let u := (t.useAcc sid base .write as).noteSpec sid p.use rs
    (host = [] → d ≠ .zero ∨ p.order = 1 ∨ p.order = 3 →
      let r := u.performRmws (u.str sid).core 0x8400000 rs
      exec i s = .next (atomicEnds r.2 sid (kept q vals) op d r.1 (failsOf as))) ∧
    (host ≠ [] →
      let todo := rs.filter fun r => (host.map (·.lane)).contains r.lane
      let r := u.performRmws (u.str sid).core 0x8400000 (rs.filter fun r => !(host.map (·.lane)).contains r.lane)
      let reqs : List HostReq := todo.map fun x => ⟨sid, x.lane, x, r.2.cycle⟩
      (r.2.host.up = true →
        let v := reqs.foldl (fun v q => v.send (.atomicOp q)) (r.2.modHost fun h => { h with reqs := h.reqs ++ reqs })
        exec i s = .next (v.modStr sid fun st => { st with waits := st.waits ++
          [⟨kept q vals, .host op d todo r.1 ((failsOf as).map fun x => (x.1, x.2.1, x.2.2.1, x.2.2.2.toNat))⟩] })) ∧
      (r.2.host.up = false → exec i s = .next (atomicEnds r.2 sid (kept q vals) op d r.1
        (failsOf as ++ todo.map fun r => (r.lane, 0xB0, 0, BitVec.ofNat 64 r.va))))) ∧
    (host = [] → d = .zero → p.order = 0 ∨ p.order = 2 →
      exec i s = .next ((if rs = [] then u else u.modStr sid fun x =>
        let new : PendStore := { cells := [], rmws := rs, scope := if p.order = 2 then p.scopeOr 0 else 0, release := p.order == 2, use := p.use, host := false
                                 parts := (goodOf as).flatMap fun x => x.parts.map fun q => (x.lane, q.pa, q.len)
                                 vaddr := (goodOf as).map fun x => (x.lane, x.addr), ctl := false, issued := u.cycle }
        { x with fl := { x.fl with stores := x.fl.stores ++ [new] } }).splitOff sid (kept q vals) (failsOf as)))

/-- A completion reaches the paths of a strand that await it for a lane: the old value, or the lane's trap, and one less to come. -/
def answered (u : State) (sid lane : Nat) (old : Option Word64) (bad : List (Nat × Nat × Nat × Nat)) : State :=
  u.modStr sid fun st => { st with waits := st.waits.map fun w => match w.on with
    | .host op d todo vals traps =>
      if todo.any (·.lane == lane) then
        { w with on := .host op d (todo.filter fun r => r.lane != lane) ((old.map (nset vals lane)).getD vals) (traps ++ bad) }
      else w
    | _ => w }

end Sys2Proof.Claim

/-- R186, R36, R37, R39: what a lane's access fails with, in the order of the checks: the limit of the space, then its
alignment, then its pages. -/
def Sys2Proof.Claim.AccessChecks : Prop :=
  ∀ (s : State) (sid : Nat) (acc : Acc) (l : Nat) (v : Word64) (disp : Int) (n align : Nat),
    let va := (v + BitVec.ofInt 64 disp).toNat
    let off := (v.setWidth 32 + BitVec.ofInt 32 disp).toNat
    let kd := (s.gridOf sid).kd
    (2 ^ 56 ≤ va → (s.laneAccess sid acc .virt l v disp n align).fail = some (0x32, 0, va)) ∧
    (va < 2 ^ 56 → va % align ≠ 0 → (s.laneAccess sid acc .virt l v disp n align).fail = some (0x31, 0, va)) ∧
    (va < 2 ^ 56 → va % align = 0 → (s.laneAccess sid acc .virt l v disp n align).fail =
      (s.accessParts sid acc 0x8000000 (pageParts va n)).2) ∧
    (s.windowRange (s.str sid).team 1 off n = false → (s.laneAccess sid acc .team l v disp n align).fail = some (0x30, 0, off)) ∧
    (s.windowRange (s.str sid).team 1 off n = true → off % align ≠ 0 →
      (s.laneAccess sid acc .team l v disp n align).fail = some (0x31, 0, off)) ∧
    (s.windowRange (s.str sid).team 1 off n = true → off % align = 0 → (s.laneAccess sid acc .team l v disp n align).fail = none) ∧
    (s.windowRange (s.str sid).team 2 off n = false → (s.laneAccess sid acc .clu l v disp n align).fail = some (0x30, 0, off)) ∧
    (s.windowRange (s.str sid).team 2 off n = true → off % align ≠ 0 →
      (s.laneAccess sid acc .clu l v disp n align).fail = some (0x31, 0, off)) ∧
    (s.windowRange (s.str sid).team 2 off n = true → off % align = 0 → (s.laneAccess sid acc .clu l v disp n align).fail = none) ∧
    (kd.stack < off + n → (s.laneAccess sid acc .stk l v disp n align).fail = some (0x30, 2, off)) ∧
    (off + n ≤ kd.stack → off % align ≠ 0 → (s.laneAccess sid acc .stk l v disp n align).fail = some (0x31, 0, off))

/-- R37: an access in a team's scratchpad reaches the bytes at its offset from the scratchpad's base, and reads them as they
stand there when no store of the strand is on its way and no live queue takes them. -/
def Sys2Proof.Claim.ScratchpadAccess : Prop :=
  ∀ (s : State) (sid : Nat) (acc : Acc) (l : Nat) (v : Word64) (disp : Int) (n align : Nat),
    let off := (v.setWidth 32 + BitVec.ofInt 32 disp).toNat
    let base := (s.teamOf sid).spBase
    0 < n → off + n ≤ (s.gridOf sid).kd.spSize → (s.gridOf sid).kd.spSize ≤ 0x600000 → off % align = 0 →
    let x := s.laneAccess sid acc .team l v disp n align
    x.fail = none ∧ x.addr = off ∧ x.done = n ∧
    (∀ bs : List Byte, bs.length = n → partCells x.parts bs = bs.zipIdx.map fun b => (base + off + b.2, b.1)) ∧
    ((s.str sid).fl.stores = [] → base + off + n ≤ 0x80000000 → (∀ k < n, s.liveByte (base + off + k) = false) →
      s.accBytes sid x = (List.range n).map fun k => s.mem.read (base + off + k))

/-- R37, R38: the bytes that the two windows map, and where they lie. A range is checked in full. A team's own scratchpad has the
same bytes in both. -/
def Sys2Proof.Claim.WindowsMap : Prop :=
  ∀ (s : State) (tid off n : Nat), 0 < n →
    let t := s.team tid
    let kd := (s.grid t.grid).kd
    let S := cluStride kd.spSize
    ((∃ k, S = 2 ^ k) ∧ max kd.spSize 0x10000 ≤ S ∧ S < 2 * max kd.spSize 0x10000) ∧
    (kd.spSize ≤ 0x600000 → kd.csHi ≤ 0x4000 → (s.windowRange tid 1 off n = true ↔ ∀ i < n,
      off + i < kd.spSize ∨ (0x800000 ≤ off + i ∧ off + i < 0xA00000 ∧ kd.csLo ≤ (off + i) % 0x4000 ∧ (off + i) % 0x4000 < kd.csHi))) ∧
    (s.windowRange tid 2 off n = true ↔ ∀ i < n, (off + i) / S < t.cluster.length ∧ (off + i) % S < kd.spSize) ∧
    (∀ bs : List Byte, bs.length = n →
      (∀ col k, col < 128 → k + n ≤ 0x4000 → off = 0x800000 + 0x4000 * col + k →
        partCells (s.windowParts tid 1 off n) bs =
          bs.zipIdx.map fun b => (0x800000 * t.core + 0x600000 + 0x4000 * col + k + b.2, b.1)) ∧
      (∀ c o mate, t.cluster[c]? = some mate → o + n ≤ kd.spSize → kd.spSize ≤ 0x600000 → off = c * S + o →
        partCells (s.windowParts tid 2 off n) bs = bs.zipIdx.map fun b => ((s.team mate).spBase + o + b.2, b.1)))

/-- R36 to R39, R186: the checks of an access in order, and what a team window, the column store and the cluster window reach. -/
def Obligations.AccessAndScratchpad : Prop := Claim.AccessChecks ∧ Claim.ScratchpadAccess ∧ Claim.WindowsMap

/-- R188, R189: the LD forms but `ld.blk`. -/
def Sys2Proof.Claim.LoadForms : Prop := ∀ (d a : Sel) (base : Base) (off : BitVec 8),
  loads (.ldN8 d a base off) 1 false d a base off ∧ loads (.ldS8 d a base off) 1 true d a base off ∧
  loads (.ldN16 d a base off) 2 false d a base off ∧ loads (.ldS16 d a base off) 2 true d a base off ∧
  loads (.ldB32 d a base off) 4 false d a base off ∧ loads (.ldB64 d a base off) 8 false d a base off ∧
  loads (.ldB128 d a base off) 16 false d a base off

namespace Sys2Proof.Claim
open Sys2Proof.Machine

/-- The word a lane of a block load reads at a physical address. -/
def wordRead (u : State) (sid lane pa : Nat) : Word :=
  BitVec.ofNat 32 (leSum (if regionOf pa = .control then u.physBytes pa 4
    else (List.range 4).map fun i => u.loadByte sid (some lane) (pa + i) 0x8200000))

/-- Where word k of a lane's block lies. -/
def wordPa (k : Nat) (x : BlkLane) : Nat := partAt x.2.2 (4 * k)

/-- The lanes' registers k of a block load, with the word each reads. -/
def blkWords (u : State) (sid : Nat) (d : Sel) (k : Nat) (lanes : List BlkLane) : List (RegLoc × Word) :=
  lanes.flatMap fun x => (((u.str sid).loc x.1 d k).map fun r => (r, wordRead u sid x.1 (wordPa k x))).toList

/-- Word k of a block load is read in every lane, and some registers are pending. -/
def blkReads (u : State) (sid : Nat) (p : RunPath) (k : Nat) (lanes : List BlkLane) (writes : List (RegLoc × Word)) : State :=
  pending (u.blkTouch sid k lanes) sid
    { writes := writes
      on := if lanes.all fun x => regionOf (wordPa k x) != .host then .ready else .host
      vaddr := lanes.map fun x => (x.1, x.2.1)
      hosts := (lanes.filter fun x => regionOf (wordPa k x) == .host).map (·.1)
      acq := if p.order = 1 then some (p.scopeOr 0) else none }

/-- Word k, of those left, is read: its registers are pending, but those among the address's registers `srcs`, which the last word
brings with it (R194). The path waits to read another, or after the last goes on, the failing lanes trapping. -/
def blkGoes (u : State) (sid : Nat) (p : RunPath) (d : Sel) (k : Nat) (left : List Nat) (lanes : List BlkLane)
    (bad : List (Nat × Nat × Nat × Nat)) (srcs : List RegLoc) (keep : List (RegLoc × Word)) : State :=
  let all := blkWords u sid d k lanes
  let now := all.filter fun w => !srcs.contains w.1
  let keep := keep ++ all.filter fun w => srcs.contains w.1
  if left.erase k = [] then
    (blkReads u sid p k lanes (now ++ keep)).splitOff sid p (bad.map fun x => (x.1, x.2.1, x.2.2.1, BitVec.ofNat 64 x.2.2.2))
  else (blkReads u sid p k lanes now).modStr sid fun st =>
    { st with waits := st.waits ++ [⟨p, .words d (left.erase k) lanes bad srcs keep⟩] }

end Sys2Proof.Claim

/-- R192, R193, R194: `ld.blk` where no lane fails reads the words of its block one after another, in an order that the spec leaves
open. -/
def Sys2Proof.Claim.BlockLoad : Prop :=
  ∀ (d a : Sel) (base : Base) (n : BitVec 5) (s : State) (sid : Nat) (p : RunPath),
    (∀ (rest : List Run) (q : RunPath) (t : State) (vals : NMap (List Word64)), issues s sid p rest → quiet (begun s rest) sid p → roomy (begun s rest) sid p (n.toNat + 1) → p.lanes ≠ [] →
      ready (begun s rest) sid p [(a, addrRegs base)] [(d, n.toNat + 1)] = some (q, t, vals) →
      let as := accesses t sid p .ld base vals 0 (4 * (n.toNat + 1)) 4
      failsOf as = [] →
      let lanes := as.map fun x => (x.lane, x.addr, x.parts.map fun y => (y.pa, y.len))
      ∃ k ∈ List.range (n.toNat + 1), exec (.ldBlk d a base n) s =
        .next (blkGoes (t.useAcc sid base .read as) sid (kept q vals) d k (List.range (n.toNat + 1)) lanes []
          ((t.str sid).opdLocs p.lanes (a, addrRegs base)) [])) ∧
    (∀ (i : Nat) (left : List Nat) (lanes : List BlkLane) (bad : List (Nat × Nat × Nat × Nat)) (srcs : List RegLoc)
        (keep : List (RegLoc × Word)), s.args = [sid, i] → s.haltedStrand sid = false →
      (s.str sid).waits[i]? = some ⟨p, .words d left lanes bad srcs keep⟩ → left ≠ [] →
      ∃ k ∈ left, exec .waitConditionMet s =
        .next (blkGoes ((s.modStr sid fun st => { st with waits := st.waits.eraseIdx i }).follow sid p) sid p d k left lanes bad srcs keep))

/-- R188, R189, R192, R193: loads and block loads. -/
def Obligations.LoadsAndBlockLoads : Prop := Claim.LoadForms ∧ Claim.BlockLoad

/-- R190, R192, R193: the ST forms. -/
def Sys2Proof.Claim.StoresWait : Prop := ∀ (d a : Sel) (base : Base) (off : BitVec 8) (n : BitVec 5),
  stores (.stB8 d a base off) 1 1 1 false d a base off.toInt ∧
  stores (.stB16 d a base off) 2 2 2 false d a base (off.toInt * 2) ∧
  stores (.stB32 d a base off) 4 4 4 false d a base (off.toInt * 4) ∧
  stores (.stB64 d a base off) 8 8 8 false d a base (off.toInt * 8) ∧
  stores (.stB128 d a base off) 16 8 16 false d a base (off.toInt * 16) ∧
  stores (.stBlk d a base n) (4 * (n.toNat + 1)) 4 4 true d a base 0

/-- R191, R192: the words of a block store are stores of their own, each of the lanes' words at one place of their blocks, and every
word of every lane is among them; where lanes meet, a byte is the highest lane's. -/
def Sys2Proof.Claim.BlockStoreWords : Prop :=
  (∀ (live : List (LaneAcc × List Byte)) (x : PendStore) (k : Nat), ∀ z ∈ live, 4 * k + 4 ≤ z.2.length →
    ∃ y, (blkStores live x)[k]? = some y ∧
      ∀ c ∈ cellsAt (partAt (z.1.parts.map fun q => (q.pa, q.len)) (4 * k)) ((z.2.drop (4 * k)).take 4),
        c ∈ y.cells ∨ ∃ w ∈ live, z.1.lane < w.1.lane ∧ ∃ v ∈ partCells w.1.parts w.2, v.1 = c.1) ∧
  ∀ (live : List (LaneAcc × List Byte)) (x : PendStore) (k : Nat) (y : PendStore), (blkStores live x)[k]? = some y →
    y.rmws = x.rmws ∧ y.scope = x.scope ∧ y.release = x.release ∧ y.use = x.use ∧ y.issued = x.issued ∧
    (∀ c ∈ y.cells, ∃ z ∈ live, 4 * k < z.2.length ∧
      c ∈ cellsAt (partAt (z.1.parts.map fun q => (q.pa, q.len)) (4 * k)) ((z.2.drop (4 * k)).take 4) ∧
      ∀ w ∈ live, z.1.lane < w.1.lane → ∀ v ∈ partCells w.1.parts w.2, v.1 ≠ c.1)

/-- R190 to R192: the ST forms, and the words of a block store. -/
def Obligations.StoreForms : Prop := Claim.StoresWait ∧ Claim.BlockStoreWords

/-- R197, R198: the ATOM forms. -/
def Sys2Proof.Claim.AtomicForms : Prop := ∀ (d a b : Sel) (base : Base),
  atomics (.aadd d a b base) 0 d a b base ∧ atomics (.aand d a b base) 1 d a b base ∧ atomics (.aor d a b base) 2 d a b base ∧
  atomics (.axor d a b base) 3 d a b base ∧ atomics (.aminS32 d a b base) 4 d a b base ∧
  atomics (.amaxS32 d a b base) 5 d a b base ∧ atomics (.aminN32 d a b base) 6 d a b base ∧
  atomics (.amaxN32 d a b base) 7 d a b base ∧ atomics (.axchg d a b base) 8 d a b base ∧
  atomics (.acas d a b base) 9 d a b base ∧ atomics (.aadd64 d a b base) 10 d a b base ∧
  atomics (.acas64 d a b base) 11 d a b base ∧ atomics (.afadd d a b base) 12 d a b base ∧
  atomics (.afaddBf16x2 d a b base) 13 d a b base ∧ atomics (.aincWrap d a b base) 14 d a b base

/-- R200, R406: the completions of the requests to host memory, and the end of the wait for them. Status 0 is success, 1 Unsupported
Request; after any other end the location may have been changed. -/
def Sys2Proof.Claim.HostAtomicsComplete : Prop :=
  (∀ (s : State) (i status : Nat) (q : HostReq), s.args = [i, status] → s.host.up = true → s.host.reqs[i]? = some q →
    let u := s.modHost fun h => { h with reqs := h.reqs.eraseIdx i }
    let r := u.performRmw noCore q.rmw 0xC800000
    let lost := answered u q.strand q.lane none [(q.lane, 0xB0, 0, q.rmw.va)]
    (status = 0 → exec .atomicopCompletion s = .next (answered r.2 q.strand q.lane (some (BitVec.ofNat 64 r.1)) [])) ∧
    (status = 1 → exec .atomicopCompletion s = .next (answered u q.strand q.lane none [(q.lane, 0xB2, 2, q.rmw.va)])) ∧
    (2 ≤ status → exec .atomicopCompletion s = .next lost ∨
      exec .atomicopCompletion s = .next (lost.performRmw noCore q.rmw 0xC800000).2)) ∧
  (∀ (s : State) (sid i : Nat) (p : RunPath) (op : Nat) (d : Sel) (old : List (Nat × Word64)) (bad : List (Nat × Nat × Nat × Nat)),
    s.args = [sid, i] → s.haltedStrand sid = false → (s.str sid).waits[i]? = some ⟨p, .host op d [] old bad⟩ →
    exec .waitConditionMet s = .next (atomicEnds (s.modStr sid fun st => { st with waits := st.waits.eraseIdx i }) sid p op d old
      (bad.map fun x => (x.1, x.2.1, x.2.2.1, BitVec.ofNat 64 x.2.2.2))))

/-- R197: the new value of a location from its old value m, the operand b and, for a compare, the expected value x. -/
def Sys2Proof.Claim.AtomicResults : Prop := ∀ (m b x : Word) (m' b' x' : Word64),
  rmwNew 0 m.toNat b.toNat 0 = (m.toNat + b.toNat) % 2 ^ 32 ∧
  rmwNew 1 m.toNat b.toNat 0 = (bitsWhere fun i => m.getLsbD i && b.getLsbD i).toNat ∧
  rmwNew 2 m.toNat b.toNat 0 = (bitsWhere fun i => m.getLsbD i || b.getLsbD i).toNat ∧
  rmwNew 3 m.toNat b.toNat 0 = (bitsWhere fun i => m.getLsbD i != b.getLsbD i).toNat ∧
  rmwNew 4 m.toNat b.toNat 0 = (toS (min (sInt m) (sInt b))).toNat ∧
  rmwNew 5 m.toNat b.toNat 0 = (toS (max (sInt m) (sInt b))).toNat ∧
  rmwNew 6 m.toNat b.toNat 0 = min m.toNat b.toNat ∧ rmwNew 7 m.toNat b.toNat 0 = max m.toNat b.toNat ∧
  rmwNew 8 m.toNat b.toNat 0 = b.toNat ∧ rmwNew 9 m.toNat b.toNat x.toNat = (if m = x then b else m).toNat ∧
  rmwNew 10 m'.toNat b'.toNat 0 = (m'.toNat + b'.toNat) % 2 ^ 64 ∧
  rmwNew 11 m'.toNat b'.toNat x'.toNat = (if m' = x' then b' else m').toNat ∧
  rmwNew 12 m.toNat b.toNat 0 = (rne ((f32 m).add (f32 b))).toNat ∧
  rmwNew 13 m.toNat b.toNat 0 = (pair16 (Fmt.bf16.fadd (lo16 m) (lo16 b)) (Fmt.bf16.fadd (hi16 m) (hi16 b))).toNat ∧
  rmwNew 14 m.toNat b.toNat 0 = (if b.toNat ≤ m.toNat then 0 else m.toNat + 1)

/-- R198: one read-modify-write outside the control region changes its location's bytes and no other byte, and answers the old
value; here where no live queue has the bytes and no matrix operation of a core reads them. -/
def Sys2Proof.Claim.AtomicTouchesItsBytes : Prop :=
  ∀ (s : State) (core site : Nat) (r : Rmw),
    let n := 4 * rmwRegs r.op
    (∀ k < n, s.liveByte (r.addr + k) = false ∧ regionOf (r.addr + k) ≠ .control) → (∀ c ∈ s.cores, c.2.mx = []) → s.mem.wf = true →
    let old := leSum ((List.range n).map fun k => s.mem.read (r.addr + k))
    let new := rmwNew r.op old (r.b.toNat % 256 ^ n) (r.x.toNat % 256 ^ n)
    (s.performRmw core r site).1 = old ∧
    (∀ k < n, ((s.performRmw core r site).2.mem.read (r.addr + k)).toNat = new / 256 ^ k % 256) ∧
    (∀ a, a < r.addr ∨ r.addr + n ≤ a → (s.performRmw core r site).2.mem.read a = s.mem.read a) ∧
    (s.performRmw core r site).2.strands = s.strands ∧ (s.performRmw core r site).2.teams = s.teams

/-- R197, R198, R200, R406: the ATOM forms, those on host memory too, the new value of every atomic, and the bytes it touches. When an atomic is
performed is the model's choice (notes/assumptions/13.md). -/
def Obligations.AtomicFormsAndEffects : Prop := Claim.AtomicForms ∧ Claim.HostAtomicsComplete ∧ Claim.AtomicResults ∧ Claim.AtomicTouchesItsBytes

/-- R89, R190, R291: a result lands in its registers and is no longer pending; a store's bytes, and no others, change when it is
performed; a quantum atomic is published when its 4,096 cycles are over. -/
def Obligations.ResultsLandAndStoresPerform : Prop :=
  (∀ (s : State) (sid i : Nat) (x : PendLoad), s.args = [sid, i] → nhas s.strands sid = true →
    (s.str sid).fl.loads[i]? = some x → x.on = .ready →
    let u := (s.modStr sid fun st => { st with fl := { st.fl with loads := st.fl.loads.eraseIdx i } }).regPuts sid x.writes
    exec .variableLatencyResult s = .next (match x.acq with
      | some scope => u.acquireAt (u.str sid).core scope
      | none => u)) ∧
  (∀ (s : State) (sid i : Nat) (x : PendStore), s.args = [sid, i, 0] → nhas s.strands sid = true → (s.str sid).csr.tlevel = 0 →
    (s.str sid).fl.stores[i]? = some x → (s.str sid).storeFree i x = true → x.rmws = [] →
    (x.host = true → s.host.up = true) → (∀ c ∈ x.cells, s.liveByte c.1 = false ∧ regionOf c.1 ≠ .control) →
    (∀ c ∈ s.cores, c.2.mx = []) →
    ∃ u, exec .storeAcknowledge s = .next u ∧ u.mem = s.mem.writeCells x.cells ∧
      (u.str sid).fl.stores = (s.str sid).fl.stores.eraseIdx i ∧ (u.str sid).frames = (s.str sid).frames ∧
      (u.str sid).lanes = (s.str sid).lanes ∧ u.teams = s.teams ∧ u.runs = s.runs) ∧
  (∀ (s : State) (sid i : Nat) (x : PendStore), s.args = [sid, i] → nhas s.strands sid = true → (s.str sid).fl.stores[i]? = some x →
    x.use = 3 →
    (x.issued + 4096 ≤ s.cycle → (s.str sid).storeFree i x = true → (∀ j, (s.str sid).fl.stores[j]? = some x → j = i) →
      exec .quantumPublishDeadline s = .next (s.storeAck sid i)) ∧
    (x.issued + 4096 ≤ s.cycle →
      ∃ u, exec .quantumPublishDeadline s = .next u ∧ (u.str sid).fl.stores.length < (s.str sid).fl.stores.length) ∧
    (s.cycle < x.issued + 4096 → exec .quantumPublishDeadline s = .next s))

/-- R3 and R357: memory keeps its canonical form under every write, a byte written reads back, and the others are unchanged. -/
def Obligations.MemoryReadsBack : Prop :=
  ∀ (m : Memory), m.wf = true →
    (∀ a b, (m.write a b).wf = true ∧ (m.write a b).read a = b ∧ ∀ c, c ≠ a → (m.write a b).read c = m.read c) ∧
    (∀ a bs, (m.writeN a bs).wf = true ∧ (m.writeN a bs).readN a bs.length = bs ∧
      ∀ c, c < a ∨ a + bs.length ≤ c → (m.writeN a bs).read c = m.read c) ∧
    (∀ cells, (m.writeCells cells).wf = true ∧ ∀ c, (∀ x ∈ cells, x.1 ≠ c) → (m.writeCells cells).read c = m.read c) ∧
    (∀ a n x, (m.writeLe a n x).readLe a n = x % 256 ^ n) ∧
    (∀ m' : Memory, m'.wf = true → (∀ a, m.read a = m'.read a) → m = m')

/-! Synchronisation. -/

namespace Sys2Proof.Claim
open Sys2Proof.Machine

/-- A word whose strand has nothing in flight completes where `ok` holds of its operands; `res` is the state after it. -/
def does (i : Instr) (srcs dsts : List Opd) (ok : State → Nat → RunPath → NMap (List Word64) → Prop)
    (res : State → Nat → RunPath → NMap (List Word64) → State) : Prop :=
  ∀ (s : State) (sid : Nat) (p : RunPath) (rest : List Run) (q : RunPath) (t : State) (vals : NMap (List Word64)),
    issues s sid p rest → quiet (begun s rest) sid p → ready (begun s rest) sid p srcs dsts = some (q, t, vals) →
    ok t sid q vals → exec i s = .next (res t sid q vals)

/-- The same of a word without operands. -/
def plainly (i : Instr) (ok : State → Nat → RunPath → Prop) (res : State → Nat → RunPath → State) : Prop :=
  ∀ (s : State) (sid : Nat) (p : RunPath) (rest : List Run),
    issues s sid p rest → quiet (begun s rest) sid p → ok (begun s rest) sid p → exec i s = .next (res (begun s rest) sid p)

/-- The first source of the lowest lane. -/
def low32 (p : RunPath) (vals : NMap (List Word64)) (i : Nat) : Nat := (x32 vals (p.lanes.headD 0) i).toNat
def low64 (p : RunPath) (vals : NMap (List Word64)) (i : Nat) : Nat := (x64 vals (p.lanes.headD 0) i).toNat

/-- Every active lane's destination takes one value. -/
def giveW (s : State) (sid : Nat) (p : RunPath) (d : Sel) (v : Word) : State :=
  s.writeDst sid (d, 1) (p.lanes.map fun l => (l, v.setWidth 64))
def giveP (s : State) (sid : Nat) (p : RunPath) (d : Sel) (v : Word64) : State := s.writeDst sid (d, 2) (p.lanes.map fun l => (l, v))

/-- Every line of a core's read cache becomes stale. -/
def stale (s : State) (core : Nat) : State := s.modCore core fun c => { c with rcache := [] }

/-- A barrier of the strand's team, and that it can be used (R202). -/
def barOf (s : State) (sid n : Nat) : Barrier := (nget (s.teamOf sid).bars n).getD {}
def usable (s : State) (sid n : Nat) : Prop := n < (s.gridOf sid).kd.nbar ∧ (barOf s sid n).init = true

/-- Threads' RESUMEWAIT is clear (R203). -/
def cleared (s : State) (sid : Nat) (p : RunPath) : State :=
  s.modStr sid fun st => st.modThs p.lanes fun _ t => { t with resumeWait := false }
def setBar (s : State) (sid n : Nat) (b : Barrier) : State := s.modTeamOf sid fun t => { t with bars := nset t.bars n b }

/-- The strand has passed phases of a barrier (R206). -/
def passing (s : State) (sid n : Nat) (phases : List Nat) : State :=
  s.modStr sid fun st => { st with passed := (phases.map fun x => (n, x)) ++ st.passed }

/-- A path whose trap leaves what it popped popped, unless all of it is held (R234, R345). -/
def spent (s : State) (sid : Nat) (p : RunPath) : RunPath := if p.lanes.all (s.str sid).holds then p else { p with undo := [] }

/-- A ticket of the strand's grid. -/
def ticketOf (s : State) (sid t : Nat) : Ticket := (nget (s.gridOf sid).tickets t).getD {}

end Sys2Proof.Claim

/-- R202 to R206: barriers, for a strand with nothing in flight. An arrival is counted in its phase, publishes the strand's
fenced register writes and, when it is the last, completes the phase; one beyond EXPECT, or at a barrier that is not
initialised, traps; a wait goes on if the phase it awaits is over, else it waits for it. -/
def Obligations.BarrierForms : Prop := ∀ (n : BitVec 7) (e : BitVec 11),
  plainly (.barInit e n) (fun s sid _ => n.toNat < (s.gridOf sid).kd.nbar ∧ (barOf s sid n.toNat).arrived = 0)
    (fun s sid p => (cleared (setBar s sid n.toNat
      ⟨true, e.toNat, 0, (barOf s sid n.toNat).phase⟩) sid p).advance sid p) ∧
  plainly (.barInit e n) (fun s sid _ => (s.gridOf sid).kd.nbar ≤ n.toNat ∨ 0 < (barOf s sid n.toNat).arrived)
    (fun s sid p => s.trapPath sid p 0x62 n.toNat (BitVec.ofNat 64 n.toNat)) ∧
  (∀ i, i = .barArrive n ∨ i = .barWait n ∨ i = .barSync n → plainly i (fun s sid _ => ¬usable s sid n.toNat)
    (fun s sid p => s.trapPath sid p 0x62 n.toNat (BitVec.ofNat 64 n.toNat))) ∧
  plainly (.barArrive n) (fun s sid p => usable s sid n.toNat ∧
      (barOf s sid n.toNat).expect < (barOf s sid n.toNat).arrived + p.lanes.length)
    (fun s sid p => s.trapPath sid p 0x62 n.toNat (BitVec.ofNat 64 n.toNat)) ∧
  (∀ (s : State) (sid : Nat) (p : RunPath) (rest : List Run), issues s sid p rest → quiet (begun s rest) sid p →
    usable s sid n.toNat → nhas s.teams (s.str sid).team = true →
    let b := barOf s sid n.toNat
    let k := b.arrived + p.lanes.length
    k ≤ b.expect →
    ∃ u : State, exec (.barArrive n) s = .next (u.advance sid p) ∧
      barOf u sid n.toNat = (if k = b.expect then { b with arrived := 0, phase := (b.phase + 1) % 65536 } else { b with arrived := k }) ∧
      (∀ l, nhas (s.str sid).lanes l = true → (u.str sid).th l =
        if l ∈ p.lanes then { (s.str sid).th l with arrival := some (n.toNat, b.phase), resumeWait := false } else (s.str sid).th l) ∧
      (u.str sid).frames = ((s.str sid).publish n.toNat b.phase).frames ∧
      (∀ j, j ≠ sid → ((u.str j).lanes = (s.str j).lanes ∧ (u.str j).frames = (s.str j).frames ∧ (u.str j).fl = (s.str j).fl)) ∧
      (k = b.expect → ∀ j w ph ts, (s.str j).team = (s.str sid).team → ⟨w, .bar n.toNat ph ts⟩ ∈ (s.str j).waits →
        ⟨w, .bar n.toNat ph (ts.filter fun x => x.2 == (b.phase + 1) % 65536)⟩ ∈ (u.str j).waits) ∧
      u.mem = s.mem) ∧
  (∀ (s : State) (sid : Nat) (p : RunPath) (rest : List Run), issues s sid p rest → quiet (begun s rest) sid p →
    usable s sid n.toNat →
    let b := barOf s sid n.toNat
    let target (l : Nat) : Nat := match ((s.str sid).th l).arrival with
      | some a => if a.1 = n.toNat then a.2 else b.phase
      | none => b.phase
    let u := cleared (begun s rest) sid p
    let phases := dedup (p.lanes.map target)
    ((∀ l ∈ p.lanes, target l ≠ b.phase) → exec (.barWait n) s = .next ((passing u sid n.toNat phases).advance sid p)) ∧
    ((∃ l ∈ p.lanes, target l = b.phase) → exec (.barWait n) s = .next (u.await sid p
      (.bar n.toNat phases ((p.lanes.map fun l => (l, target l)).filter fun t => t.2 == b.phase))))) ∧
  (∀ (s : State) (sid : Nat) (p : RunPath) (rest : List Run) (m : Nat) (phases : List Nat) (ts : List (Nat × Nat)),
    issues s sid p rest → p.resume = some (.bar m phases ts) → ∀ i, i = .barWait n ∨ i = .barSync n →
      exec i s = .next ((passing (begun s rest) sid n.toNat phases).advance sid p)) ∧
  (∀ (s : State) (sid : Nat) (p : RunPath) (rest : List Run), issues s sid p rest → quiet (begun s rest) sid p → lanesOk p →
    usable s sid n.toNat → nhas s.teams (s.str sid).team = true →
    (∀ l ∈ p.lanes, nhas (s.str sid).lanes l = true ∧ ((s.str sid).th l).resumeWait = false) →
    let b := barOf s sid n.toNat
    b.arrived + p.lanes.length = b.expect →
    ∃ u : State, exec (.barSync n) s = .next (u.advance sid p) ∧ (barOf u sid n.toNat).arrived = 0 ∧
      (barOf u sid n.toNat).phase = (b.phase + 1) % 65536 ∧ u.mem = s.mem)

/-- R205 to R208, R196: fences and waits of a strand with nothing in flight; a release that has stores to wait for waits. An
acquire at `.pkg` or beyond makes the core's read cache stale; `fence.opnd` publishes the registers written; `fence.ifetch`
empties the instruction buffer; `wait` goes on where its mask's conditions hold, with bit 3 as a return from `mx.wait` for the
strand's ended operations (the model's reading, log 71). -/
def Sys2Proof.Claim.FenceAndWaitForms : Prop :=
  (∀ (k : BitVec 2) (sc : BitVec 3), plainly (.fence k sc) (fun _ _ _ => True) fun s sid p =>
    (if k ≠ 2 ∧ 3 ≤ sc.toNat then stale s (s.str sid).core else s).advance sid p) ∧
  (∀ (sc : BitVec 3) (s : State) (sid : Nat) (p : RunPath) (rest : List Run), issues s sid p rest →
    (∃ x ∈ (s.str sid).fl.stores, x.use ≠ 2) →
    exec (.fence 2 sc) s = .next ((begun s rest).await sid p (.release sc.toNat)) ∧
    exec (.fence 3 sc) s = .next ((begun s rest).await sid p (.full sc.toNat))) ∧
  plainly .fenceOpnd (fun s sid _ => (∀ w ∈ (s.str sid).waits, w.on.owes = false) ∧
      ∀ r ∈ s.runs, r.strand = sid → ∀ w, r.path.resume = some w → w.owes = false) (fun s sid p => (s.modStr sid fun st => { st with frames := st.frames.map fun f =>
    { f with pubs := f.pubs.map fun x => (x.1, match x.2 with
      | .unfenced => .fenced []
      | .fenced a => .fenced a) } }).advance sid p) ∧
  plainly .fenceIfetch (fun s sid _ => (∀ r ∈ s.runs, r.strand ≠ sid) ∧ (s.str sid).waits = [])
    (fun s sid p => (s.modCoreOf sid fun c => { c with ibuf := [] }).advance sid p) ∧
  (∀ m : BitVec 7, plainly (.wait m) (fun s sid _ => s.maskHolds sid m.toNat = true) fun s sid p =>
    (if m.toNat.testBit 3 then s.modCoreOf sid fun c => { c with mx := c.mx.map fun x => (x.1,
        if x.2.strand = sid ∧ (x.2.st = .done ∨ x.2.st = .aborted) then { x.2 with waited := unionNat [sid] x.2.waited } else x.2) }
      else s).advance sid p) ∧
  (∀ m : BitVec 7, plainly (.wait m) (fun s sid _ => s.maskHolds sid m.toNat = false) fun s sid p => s.await sid p (.word m.toNat))

/-- R88: the conditions of a WAIT mask, bit by bit. -/
def Sys2Proof.Claim.WaitMaskConditions : Prop :=
  ∀ (s : State) (sid : Nat) (m : Nat), s.maskHolds sid m = true ↔
    (m.testBit 0 = true → (s.str sid).fl.loads = [] ∧ ∀ w ∈ (s.str sid).waits, w.on.loading = false) ∧
    (m.testBit 1 = true → (s.str sid).fl.stores = [] ∧ ∀ w ∈ (s.str sid).waits, w.on.hostAtom = false) ∧
    (m.testBit 2 = true → ∀ t ∈ (s.coreOf sid).cp, t.2.strand = sid → t.2.st ≠ .busy) ∧
    (m.testBit 3 = true → ∀ t ∈ (s.coreOf sid).mx, t.2.strand = sid → t.2.st ≠ .queued ∧ t.2.st ≠ .array ∧ t.2.st ≠ .drain) ∧
    (m.testBit 4 = true → ∀ f ∈ (s.str sid).fl.fabs, f.2.done = true) ∧
    (m.testBit 5 = true → ∀ x ∈ (s.str sid).fl.posts, ∃ l, x.2.lsn = some l ∧ l ≤ s.appliedLsn sid) ∧
    (m.testBit 6 = true → (∀ q ∈ (s.str sid).ports, q.2.latch = none) ∧
      ∀ w ∈ (s.str sid).waits, ∀ a l push, w.on ≠ .ports (a :: l) push)

/-- R88, R196, R205 to R208: fences, waits, and what the mask bits ask. -/
def Obligations.FenceWaitMask : Prop := Claim.FenceAndWaitForms ∧ Claim.WaitMaskConditions

/-- R209 to R211: a team whose number a ticket shows goes on past `tkt.wait`, others wait, or trap where the holder's poison
has taken effect; `tkt.pass` gives the ticket to the next team that has not ended, and does nothing where the team does
not hold it. -/
def Obligations.TicketForms : Prop := ∀ t : BitVec 3,
  plainly (.tktWait t) (fun s sid _ => (ticketOf s sid t.toNat).value = (s.teamOf sid).teamid)
    (fun s sid p => (stale s (s.str sid).core).advance sid p) ∧
  plainly (.tktWait t) (fun s sid _ => (ticketOf s sid t.toNat).value ≠ (s.teamOf sid).teamid ∧ (ticketOf s sid t.toNat).effect = true)
    (fun s sid p => s.trapPath sid p 0x60 t.toNat (BitVec.ofNat 64 t.toNat)) ∧
  plainly (.tktWait t) (fun s sid _ => (ticketOf s sid t.toNat).value ≠ (s.teamOf sid).teamid ∧ (ticketOf s sid t.toNat).effect = false)
    (fun s sid p => s.await sid p (.ticket t.toNat)) ∧
  plainly (.tktPass t) (fun s sid _ => (ticketOf s sid t.toNat).value ≠ (s.teamOf sid).teamid) (fun s sid p => s.advance sid p) ∧
  (∀ (s : State) (sid : Nat) (p : RunPath) (rest : List Run), issues s sid p rest → quiet (begun s rest) sid p →
    nhas s.grids (s.teamOf sid).grid = true → (ticketOf s sid t.toNat).value = (s.teamOf sid).teamid →
    ∃ u : State, exec (.tktPass t) s = .next (u.advance sid p) ∧
      let k := ticketOf u sid t.toNat
      (s.teamOf sid).teamid < k.value ∧ k.poison = false ∧ k.effect = false ∧
      (∀ j, (s.teamOf sid).teamid < j → j < k.value → j ∈ (s.gridOf sid).ended) ∧
      (k.value < (s.gridOf sid).teams → k.value ∉ (s.gridOf sid).ended) ∧
      (∀ j, j ≠ t.toNat → ticketOf u sid j = ticketOf s sid j) ∧ u.strands = s.strands ∧ u.mem = s.mem)

/-! Queues. -/

namespace Sys2Proof.Claim
open Sys2Proof.Machine

/-- The live queue that a port of a strand is bound to, with its descriptor's offset. -/
def bound (s : State) (sid n : Nat) (desc : Nat) (q : LiveQ) : Prop :=
  (∃ l, nget (s.str sid).ports n = some ⟨desc, l⟩) ∧ nget (s.teamOf sid).queues desc = some q
/-- A live queue's fields change. -/
def setQ (s : State) (sid desc : Nat) (q : LiveQ) : State := s.modTeamOf sid fun t => { t with queues := nset t.queues desc q }
/-- Two counters of 32 bits: how far the first is ahead. -/
def ahead (x y : Nat) : Nat := (x + 2 ^ 32 - y % 2 ^ 32) % 2 ^ 32
def inc32 (x : Nat) : Nat := (x + 1) % 2 ^ 32

end Sys2Proof.Claim

/-- R212 to R224: the QU forms. ALLOC, POST, TAKE and GIVE of a slot queue are its counters c0 to c3, TAIL and HEAD of the
others c0 and c1. What a write-back does to stores that are on their way is the model's reading (log 35). -/
def Obligations.QueueForms : Prop := ∀ (n : BitVec 3) (d b : Sel),
  does (.qBind n b) [(b, 1)] [] (fun s sid p v =>
      low32 p v 0 % 32 = 0 ∧ low32 p v 0 + 32 ≤ (s.gridOf sid).kd.spSize ∧ nhas (s.str sid).ports n.toNat = false ∧
      nget (s.teamOf sid).queues (low32 p v 0) = none ∧ (s.teamOf sid).queues.length < 16 ∧ (s.gridOf sid).kd.spSize ≤ 0x600000 ∧
      validDescriptor (s.gridOf sid).kd.spSize (s.mem.readN ((s.teamOf sid).spBase + low32 p v 0) 32) = true)
    (fun s sid p v =>
      let x := low32 p v 0
      let q := liveOfBytes (s.mem.readN ((s.teamOf sid).spBase + x) 32)
      ((s.modTeamOf sid fun t => { t with queues := nset t.queues x q }).modStr sid fun st =>
        { st with ports := nset st.ports n.toNat ⟨x, none⟩ }).advance sid p) ∧
  does (.qBind n b) [(b, 1)] [] (fun s sid p v =>
      low32 p v 0 % 32 = 0 ∧ low32 p v 0 + 32 ≤ (s.gridOf sid).kd.spSize ∧ nhas (s.str sid).ports n.toNat = false ∧
      nhas (s.teamOf sid).queues (low32 p v 0) = true)
    (fun s sid p v => (s.modStr sid fun st => { st with ports := nset st.ports n.toNat ⟨low32 p v 0, none⟩ }).advance sid p) ∧
  (∀ desc, plainly (.qUnbind n) (fun s sid _ => nget (s.str sid).ports n.toNat = some ⟨desc, none⟩)
    (fun s sid p => ((s.modStr sid fun st => { st with ports := ndel st.ports n.toNat }).settleQueue (s.str sid).team desc).advance sid p)) ∧
  (∀ (s : State) (tid desc : Nat) (q : LiveQ), nget (s.team tid).queues desc = some q →
    (s.queueUsed tid desc = true → s.settleQueue tid desc = s) ∧
    (s.queueUsed tid desc = false → desc < 0x800000 →
      (s.settleQueue tid desc).mem = s.mem.writeN ((s.team tid).spBase + desc) (leBytes 4 q.base ++ leBytes 4 q.shape ++
        leBytes 4 q.c0 ++ leBytes 4 q.c1 ++ leBytes 4 q.c2 ++ leBytes 4 q.c3 ++ leBytes 4 (if q.closed then 1 else 0) ++ leBytes 4 0) ∧
      ((∀ x ∈ s.strands, x.2.fl.stores = []) → (s.settleQueue tid desc).strands = s.strands) ∧
      (∀ j, ∀ y ∈ ((s.settleQueue tid desc).str j).fl.stores, ∀ c ∈ y.cells,
        c.1 < (s.team tid).spBase + desc ∨ (s.team tid).spBase + desc + 32 ≤ c.1))) ∧
  (∀ desc q, does (.qAlloc d n) [] [(d, 1)] (fun s sid _ _ =>
      bound s sid n.toNat desc q ∧ q.kind = 3 ∧ q.closed = false ∧ ahead q.c0 q.c3 < q.count)
    (fun s sid p _ => (giveW (setQ s sid desc { q with c0 := inc32 q.c0 }) sid p d
      (BitVec.ofNat 32 (q.base + q.c0 % q.count * q.size))).advance sid p)) ∧
  (∀ desc q, does (.qAlloc d n) [] [(d, 1)] (fun s sid _ _ =>
      bound s sid n.toNat desc q ∧ q.kind = 3 ∧ q.closed = false ∧ q.count ≤ ahead q.c0 q.c3)
    (fun s sid p _ => s.await sid p (.slotAlloc n.toNat))) ∧
  (∀ desc q, does (.qTake d n) [] [(d, 1)] (fun s sid _ _ => bound s sid n.toNat desc q ∧ q.kind = 3 ∧ q.c1 ≠ q.c2)
    (fun s sid p _ => (giveW (setQ s sid desc { q with c2 := inc32 q.c2 }) sid p d
      (BitVec.ofNat 32 (q.base + q.c2 % q.count * q.size))).advance sid p)) ∧
  (∀ desc q, does (.qTake d n) [] [(d, 1)] (fun s sid _ _ => bound s sid n.toNat desc q ∧ q.kind = 3 ∧ q.c1 = q.c2)
    (fun s sid p _ => if q.closed then (giveW s sid p d 0xFFFFFFFF).advance sid p else s.await sid p (.slotTake n.toNat))) ∧
  (∀ desc q, plainly (.qPost n) (fun s sid _ => bound s sid n.toNat desc q ∧ q.kind = 3 ∧ q.c1 ≠ q.c0)
    (fun s sid p => (setQ s sid desc { q with c1 := inc32 q.c1 }).advance sid p)) ∧
  (∀ desc q, plainly (.qGive n) (fun s sid _ => bound s sid n.toNat desc q ∧ q.kind = 3 ∧ q.c3 ≠ q.c2)
    (fun s sid p => (setQ s sid desc { q with c3 := inc32 q.c3 }).advance sid p)) ∧
  (∀ desc q, does (.qCnt d n) [] [(d, 1)] (fun s sid _ _ => bound s sid n.toNat desc q)
    (fun s sid p _ =>
      let c := if q.kind = 3 then ahead q.c1 q.c2 else ahead q.c0 q.c1
      (giveW s sid p d (if q.closed = true ∧ c = 0 then 0xFFFFFFFF else BitVec.ofNat 32 c)).advance sid p)) ∧
  (∀ desc q, plainly (.qClose n) (fun s sid _ =>
      nget (s.str sid).ports n.toNat = some ⟨desc, none⟩ ∧ nget (s.teamOf sid).queues desc = some q)
    (fun s sid p => (setQ s sid desc { q with closed := true }).advance sid p)) ∧
  (∀ i, i = .qUnbind n ∨ i = .qPost n ∨ i = .qGive n ∨ i = .qClose n → plainly i
    (fun s sid _ => nget (s.str sid).ports n.toNat = none) (fun s sid p => s.trapPath sid p 0x61 n.toNat 0))

/-- R217 to R220: what a pop of an active set takes, and what a push puts into the latch and, once its latch is written, into
the ring. Kind 0 moves a row of 32 words, kind 1 a word a lane, kind 2 one word for all. -/
def Obligations.QueuePortsMove : Prop :=
  (∀ (s : State) (tid desc : Nat) (lanes : List Nat) (q : LiveQ), nget (s.team tid).queues desc = some q → q.base + q.count * q.size ≤ 0x800000 →
    let n := min (if q.kind = 1 then lanes.length else 1) (if q.kind = 3 then ahead q.c1 q.c2 else ahead q.c0 q.c1)
    let at' (k w : Nat) : Word := BitVec.ofNat 32 (s.mem.readLe ((s.team tid).spBase + (q.base + (q.c1 + k) % q.count * q.size) + 4 * w) 4)
    let r := s.popQ tid desc lanes
    let after : LiveQ := { q with c1 := (q.c1 + n) % 2 ^ 32 }
    r.2 = s.modTeam tid (fun t => { t with queues := nset t.queues desc after }) ∧
    (q.kind = 1 → q.size = 4 → r.1 = lanes.zipIdx.map fun x => (x.1, if x.2 < n then at' x.2 0 else 0)) ∧
    (q.kind = 2 → q.size = 4 → r.1 = lanes.map fun l => (l, if n = 0 then 0 else at' 0 0)) ∧
    (q.kind = 0 → q.size = 128 → (∀ l ∈ lanes, l < 32) → r.1 = lanes.map fun l => (l, if n = 0 then 0 else at' 0 l))) ∧
  (∀ (s : State) (sid n desc : Nat) (h : n < 8) (m : Nat) (res : NMap Word64) (q : LiveQ) (l : Option (List Word)),
    nget (s.str sid).ports n = some ⟨desc, l⟩ → nget (s.teamOf sid).queues desc = some q →
    let ws : List Word := if q.kind = 0 then (List.range 32).map fun k => ((nget res k).map (BitVec.setWidth 32)).getD 0
      else if q.kind = 1 then res.map fun x => x.2.setWidth 32 else (res.map fun x => x.2.setWidth 32).take 1
    s.writeDst sid (.q ⟨n, h⟩, m) res = s.modStr sid fun st => { st with ports := nset st.ports n ⟨desc, some ws⟩ }) ∧
  (∀ (s : State) (sid port desc : Nat) (ws : List Word) (q : LiveQ), s.args = [sid, port] → nhas s.strands sid = true →
    nhas s.teams (s.str sid).team = true → (s.str sid).finished = false → (s.str sid).csr.tlevel = 0 →
    nget (s.str sid).ports port = some ⟨desc, some ws⟩ → nget (s.teamOf sid).queues desc = some q → q.kind ≠ 3 → ws ≠ [] →
    q.base + q.count * q.size ≤ 0x800000 → (s.str sid).fl.loads = [] → (s.str sid).fl.stores = [] →
    (∀ w ∈ (s.str sid).waits, w.on.loading = false ∧ w.on.hostAtom = false) →
    let entries : List (List Word) := if q.kind = 0 then [ws] else ws.map fun w => [w]
    ∃ u, exec .pushLatchWrite s = .next u ∧ nget (u.str sid).ports port = some ⟨desc, none⟩ ∧
      nget (u.teamOf sid).queues desc = some { q with c0 := (q.c0 + entries.length) % 2 ^ 32 } ∧
      u.mem = entries.zipIdx.foldl (fun m x => m.writeN ((s.teamOf sid).spBase + (q.base + (q.c0 + x.2) % q.count * q.size))
        (x.1.flatMap fun w => leBytes 4 w.toNat)) s.mem)

/-! Engines. -/

namespace Sys2Proof.Claim
open Sys2Proof.Machine

/-- A token of the strand's core. -/
def mxAt (s : State) (sid k : Nat) : Option MxTok := nget (s.coreOf sid).mx k
def cpAt (s : State) (sid k : Nat) : Option CpTok := nget (s.coreOf sid).cp k
/-- Token states as `mx.test` gives them (R233), 0 for FREE. -/
def mxCode : Option MxTok → Nat
  | none => 0
  | some t => match t.st with
    | .queued => 1 | .array => 2 | .drain => 3 | .done => 4 | .stopped => 5 | .aborted => 6
def cpCode : Option CpTok → Nat
  | none => 0
  | some t => match t.st with
    | .busy => 1 | .done => 2 | .stopped => 3

/-- The state of a CP form's result: some FREE token is allocated as BUSY with the descriptor's bytes, its number given to d. -/
def cpStarts (i : Instr) (form : Nat) (d a : Sel) : Prop :=
  ∀ (s : State) (sid : Nat) (p : RunPath) (rest : List Run) (q : RunPath) (t : State) (vals : NMap (List Word64)),
    issues s sid p rest → quiet (begun s rest) sid p → ready (begun s rest) sid p [(a, 1)] [(d, 1)] = some (q, t, vals) →
    let x := low32 p vals 0
    let b := t.mem.readN ((t.teamOf sid).spBase + x) 64
    (t.gridOf sid).kd.spSize ≤ 0x600000 →
    (x % 64 ≠ 0 → exec i s = .next (t.trapPath sid q 0x31 0 (BitVec.ofNat 64 x))) ∧
    (x % 64 = 0 → (t.gridOf sid).kd.spSize < x + 64 → exec i s = .next (t.trapPath sid q 0x30 0 (BitVec.ofNat 64 x))) ∧
    (x % 64 = 0 → x + 64 ≤ (t.gridOf sid).kd.spSize →
      (∀ o, t.cpFails sid form (cpDesc b) = some o → exec i s = .next (t.trapPath sid q 0x41 3 (BitVec.ofNat 64 (x + o)))) ∧
      (t.cpFails sid form (cpDesc b) = none → ∀ o, t.cpOutside sid form (cpDesc b) = some o →
        exec i s = .next (t.trapPath sid q 0x30 0 (BitVec.ofNat 64 o))) ∧
      (t.cpFails sid form (cpDesc b) = none → t.cpOutside sid form (cpDesc b) = none →
        t.portGate sid q.lanes [] (portOf d) = .go →
        ((t.coreOf sid).freeCp = [] → exec i s = .next (t.await sid q (.cpFree x b (portOf d)))) ∧
        ((t.coreOf sid).freeCp ≠ [] → ∃ (k : Nat) (u : State), k ∈ (t.coreOf sid).freeCp ∧
          exec i s = .next ((giveW u sid q d (BitVec.ofNat 32 k)).advance sid q) ∧
          (∃ c, cpAt u sid k = some c ∧ c.st = .busy ∧ c.reported = false ∧ c.strand = sid ∧ c.team = (t.str sid).team ∧
            c.form = form ∧ c.desc = b ∧ c.rowdone = 0 ∧ c.qclosed = false) ∧
          (∀ j, j ≠ k → cpAt u sid j = cpAt t sid j) ∧ u.mem = t.mem ∧ u.strands = t.strands)))

end Sys2Proof.Claim

/-- R225 to R231: `mx.go`. The operands are checked in the order of R230; where they pass, some FREE token takes the operation,
QUEUED for the array, with the parameter block as it stands; where no token is FREE the path waits. -/
def Obligations.MatrixStart : Prop :=
  ∀ (d a b : Sel) (s : State) (sid : Nat) (p : RunPath) (rest : List Run) (q : RunPath) (t : State) (vals : NMap (List Word64)),
    issues s sid p rest → quiet (begun s rest) sid p → lanesOk p →
    ready (begun s rest) sid p [(a, 1), (b, 1)] [(d, 1)] = some (q, t, vals) →
    let f := low32 p vals 1
    let blk := low32 p vals 0
    let par := t.mem.readN ((t.teamOf sid).spBase + blk) 64
    (t.gridOf sid).kd.spSize ≤ 0x600000 →
    ((∃ l ∈ p.lanes, x32 vals l 1 ≠ x32 vals (p.lanes.headD 0) 1) → exec (.mxGo d a b) s = .next (t.trapPath sid q 0x40 1 0)) ∧
    ((∀ l ∈ p.lanes, x32 vals l 1 = x32 vals (p.lanes.headD 0) 1) →
      (∀ n, formatFails f = some n → exec (.mxGo d a b) s = .next (t.trapPath sid q 0x41 n (BitVec.ofNat 64 f))) ∧
      (formatFails f = none → blk % 64 ≠ 0 → exec (.mxGo d a b) s = .next (t.trapPath sid q 0x31 0 (BitVec.ofNat 64 blk))) ∧
      (formatFails f = none → blk % 64 = 0 → (t.gridOf sid).kd.spSize < blk + 64 →
        exec (.mxGo d a b) s = .next (t.trapPath sid q 0x30 0 (BitVec.ofNat 64 blk))) ∧
      (formatFails f = none → blk % 64 = 0 → blk + 64 ≤ (t.gridOf sid).kd.spSize →
        (∀ i r, t.parFails sid f par = i :: r → exec (.mxGo d a b) s = .next (t.trapPath sid q 0x41 4 (BitVec.ofNat 64 (blk + 4 * i)))) ∧
        (t.parFails sid f par = [] → (∀ o, t.bFails sid f (mxPar par) = some o →
          exec (.mxGo d a b) s = .next (t.trapPath sid q 0x42 5 (BitVec.ofNat 64 o)))) ∧
        (t.parFails sid f par = [] → t.bFails sid f (mxPar par) = none → t.portGate sid q.lanes [] (portOf d) = .go →
          (t.coreOf sid).freeMx = [] → exec (.mxGo d a b) s = .next (t.await sid q (.mxFree blk f par (portOf d)))) ∧
        (t.parFails sid f par = [] → t.bFails sid f (mxPar par) = none → t.portGate sid q.lanes [] (portOf d) = .go → (t.coreOf sid).freeMx ≠ [] →
          ∃ (k : Nat) (u : State), k ∈ (t.coreOf sid).freeMx ∧
            exec (.mxGo d a b) s = .next ((giveW u sid q d (BitVec.ofNat 32 k)).advance sid q) ∧
            (∃ m, mxAt u sid k = some m ∧ m.st = .queued ∧ m.reported = false ∧ m.strand = sid ∧ m.team = (t.str sid).team ∧
              m.fmt = BitVec.ofNat 32 f ∧ m.param = par ∧ m.order = t.ids.ord ∧ m.kdone = 0 ∧ m.abort = false) ∧
            u.ids.ord = t.ids.ord + 1 ∧ (∀ j, j ≠ k → mxAt u sid j = mxAt t sid j) ∧ u.mem = t.mem ∧ u.strands = t.strands)))

/-- R233 to R237: the other MX forms on a token k of the strand's team: `mx.test` gives its state, `mx.stat` its record,
`mx.wait` the record of a complete operation, retiring it on request; it waits for one that is not complete, and reports one
that a fault has stopped; `mx.abort` of an operation that has not begun leaves it ABORTED. -/
def Sys2Proof.Claim.MatrixTokenForms : Prop := ∀ (d a : Sel) (retire : Bool),
  does (.mxTest d a) [(a, 1)] [(d, 1)] (fun s sid p v => low32 p v 0 < 32 ∧
      ∀ m, mxAt s sid (low32 p v 0) = some m → m.team = (s.str sid).team)
    (fun s sid p v => (giveW s sid p d (BitVec.ofNat 32 (mxCode (mxAt s sid (low32 p v 0))))).advance sid p) ∧
  does (.mxStat d a) [(a, 1)] [(d, 2)] (fun s sid p v => low32 p v 0 < 32 ∧
      ∀ m, mxAt s sid (low32 p v 0) = some m → m.team = (s.str sid).team)
    (fun s sid p v => (giveP s sid p d (((mxAt s sid (low32 p v 0)).map MxTok.record).getD 0)).advance sid p) ∧
  (∀ i n, (i, n) = (.mxTest d a, 1) ∨ (i, n) = (.mxStat d a, 2) →
    does i [(a, 1)] [(d, n)] (fun s sid p v => 32 ≤ low32 p v 0 ∨ ∃ m, mxAt s sid (low32 p v 0) = some m ∧ m.team ≠ (s.str sid).team)
      (fun s sid p v => s.trapPath sid p 0x50 0 (BitVec.ofNat 64 (low32 p v 0)))) ∧
  (∀ m : MxTok, does (.mxWait d a retire) [(a, 1)] [(d, 1)] (fun s sid p v => low32 p v 0 < 32 ∧
      mxAt s sid (low32 p v 0) = some m ∧ m.team = (s.str sid).team ∧ (m.st = .done ∨ m.st = .aborted))
    (fun s sid p v =>
      let k := low32 p v 0
      let u := giveW (s.modCoreOf sid fun c => { c with mx := nmod c.mx k fun x => { x with waited := sid :: x.waited } }) sid p d
        (m.record.setWidth 32)
      (if retire then u.freeMxTok (s.str sid).core k else u).advance sid p)) ∧
  (∀ m : MxTok, does (.mxWait d a retire) [(a, 1)] [(d, 1)] (fun s sid p v => low32 p v 0 < 32 ∧
      mxAt s sid (low32 p v 0) = some m ∧ m.team = (s.str sid).team ∧ (m.st = .queued ∨ m.st = .array ∨ m.st = .drain))
    (fun s sid p v => s.await sid p (.mx (low32 p v 0) retire))) ∧
  (∀ m : MxTok, does (.mxWait d a retire) [(a, 1)] [(d, 1)] (fun s sid p v => low32 p v 0 < 32 ∧
      mxAt s sid (low32 p v 0) = some m ∧ m.team = (s.str sid).team ∧ m.st = .stopped ∧ m.reported = false ∧ m.strand = sid ∧
      (s.str sid).csr.tlevel = 0 ∧ p.lanes ≠ [])
    (fun s sid p v => (s.modCoreOf sid fun c => { c with mx := nmod c.mx (low32 p v 0) fun x => { x with reported := true } }).trapAll
      sid p.lanes 0x52 m.dcause (BitVec.ofNat 64 m.faultAddr) p.recPc)) ∧
  (∀ i, i = .mxWait d a retire ∨ i = .mxAbort a →
    does i [(a, 1)] (if i = .mxAbort a then [] else [(d, 1)]) (fun s sid p v => 32 ≤ low32 p v 0 ∨ mxAt s sid (low32 p v 0) = none ∨
        ∃ m, mxAt s sid (low32 p v 0) = some m ∧ m.team ≠ (s.str sid).team)
      (fun s sid p v => s.trapPath sid (if i = .mxAbort a then p else spent s sid p) 0x50 0 (BitVec.ofNat 64 (low32 p v 0)))) ∧
  (∀ (s : State) (sid : Nat) (p : RunPath) (rest : List Run) (q : RunPath) (t : State) (vals : NMap (List Word64)) (m : MxTok),
    issues s sid p rest → quiet (begun s rest) sid p → ready (begun s rest) sid p [(a, 1)] [] = some (q, t, vals) →
    low32 p vals 0 < 32 → mxAt t sid (low32 p vals 0) = some m → m.team = (t.str sid).team → m.st = .queued →
    ∃ u : State, exec (.mxAbort a) s = .next (u.advance sid q) ∧ (mxAt u sid (low32 p vals 0)).map (·.st) = some .aborted ∧
      u.loop = t.loop ∧ u.grids = t.grids)

/-- R239: `drn.load` loads the 32 words at its address into a drain slot where they are valid, and traps at the first that is
not. -/
def Sys2Proof.Claim.DrainLoad : Prop :=
  ∀ (sl : BitVec 7) (a : Sel) (s : State) (sid : Nat) (p : RunPath) (rest : List Run) (q : RunPath) (t : State)
    (vals : NMap (List Word64)) (ps : List XPart),
    issues s sid p rest → quiet (begun s rest) sid p → ready (begun s rest) sid p [(a, 2)] [] = some (q, t, vals) →
    let x := low64 p vals 0
    x < 2 ^ 56 → (∀ y, nget (t.coreOf sid).drn sl.toNat = some y → y.team = (t.str sid).team) → (t.coreOf sid).resvs = [] →
    (t.coreOf sid).mx = [] →
    (x % 128 ≠ 0 → exec (.drnLoad sl a) s = .next (t.trapPath sid q 0x31 0 (BitVec.ofNat 64 x))) ∧
    (x % 128 = 0 → t.accessParts sid .ld 0x8000000 (pageParts x 128) = (ps, none) →
      let bs := t.pocParts sid 0x8800000 ps
      let img := (List.range 32).map fun i => BitVec.ofNat 32 (leSum ((bs.drop (4 * i)).take 4))
      let u := t.pocTouch sid ps
      (drainInvalid img = none → exec (.drnLoad sl a) s = .next ((u.modCoreOf sid fun c =>
        { c with drn := nset c.drn sl.toNat ⟨(t.str sid).team, img⟩ }).advance sid q)) ∧
      (∀ i, drainInvalid img = some i → exec (.drnLoad sl a) s = .next (u.trapPath sid q 0x41 0 (BitVec.ofNat 64 (x + 4 * i)))))

/-- R233 to R239: the forms on matrix tokens, and loading a drain slot. -/
def Obligations.MatrixTokensAndDrainLoad : Prop := Claim.MatrixTokenForms ∧ Claim.DrainLoad

/-- R249 to R254: the CP forms: the checks of R251 in order, then a token BUSY with the descriptor as it stands; `cp.test` gives a
token's state, `cp.wait` the status of a DONE one. -/
def Obligations.CopyForms : Prop := ∀ (d a : Sel) (retire : Bool),
  cpStarts (.cpGo d a) 0 d a ∧ cpStarts (.cpFill d a) 1 d a ∧ cpStarts (.cpGather d a) 2 d a ∧ cpStarts (.cpQ d a) 3 d a ∧
  does (.cpTest d a) [(a, 1)] [(d, 1)] (fun s sid p v => low32 p v 0 < 64 ∧
      ∀ m, cpAt s sid (low32 p v 0) = some m → m.team = (s.str sid).team)
    (fun s sid p v => (giveW s sid p d (BitVec.ofNat 32 (cpCode (cpAt s sid (low32 p v 0))))).advance sid p) ∧
  (∀ m : CpTok, does (.cpWait d a retire) [(a, 1)] [(d, 1)] (fun s sid p v => low32 p v 0 < 64 ∧
      cpAt s sid (low32 p v 0) = some m ∧ m.team = (s.str sid).team ∧ m.st = .done)
    (fun s sid p v =>
      let u := giveW s sid p d (BitVec.ofNat 32 (m.rowdone * 2048 + (if m.qclosed then 1024 else 0) + 2))
      (if retire then u.freeCpTok (s.str sid).core (low32 p v 0) else u).advance sid p)) ∧
  (∀ m : CpTok, does (.cpWait d a retire) [(a, 1)] [(d, 1)] (fun s sid p v => low32 p v 0 < 64 ∧
      cpAt s sid (low32 p v 0) = some m ∧ m.team = (s.str sid).team ∧ m.st = .busy)
    (fun s sid p v => s.await sid p (.cp (low32 p v 0) retire))) ∧
  does (.cpWait d a retire) [(a, 1)] [(d, 1)] (fun s sid p v => 64 ≤ low32 p v 0 ∨ cpAt s sid (low32 p v 0) = none)
    (fun s sid p v => s.trapPath sid (spent s sid p) 0x53 0 (BitVec.ofNat 64 (low32 p v 0)))

/-! Loop, fabric, digests and the system forms. -/

namespace Sys2Proof.Claim
open Sys2Proof.Machine

/-- The strand's context is not being replayed; the loop takes posts and its queue has room (R258). -/
def live (s : State) (sid : Nat) : Prop := (s.ctxOf sid).ck.replay = none
def postable (s : State) (sid : Nat) : Prop := live s sid ∧ s.loop.st ≠ .down ∧ s.loop.postq.length < 1024
/-- The handle of the strand's next post. -/
def nextPost (s : State) (sid : Nat) : Nat := (s.str sid).fl.postCount

/-- The state after a post: PostCount counts it, it is in the post queue, the gate is open again. -/
def posted (s : State) (sid : Nat) (p : RunPath) (ty arg len : Nat) (payload : List Byte) : State :=
  let h := nextPost s sid
  let r : LRec := ⟨ty, arg, 0, s.pkgid, len, (payload ++ leBytes 48 0).take 48⟩
  let c := (s.gridOf sid).ctx
  let x : PostSt := { lsn := none, off := arg % 2 ^ 24, len := if ty = 1 then len else if ty = 2 then 8 else 0, lanes := p.lanes }
  let t := (s.reached 6).modStr sid fun st =>
    let f := st.fl
    { st with fl := { f with postCount := (h + 1) % 2 ^ 32, posts := nset f.posts h x, gate := false } }
  t.modLoop fun l => { l with postq := l.postq ++ [⟨r, .strand sid h, c⟩] }

/-- The same with the handle given to d, and the path gone on. -/
def postedTo (s : State) (sid : Nat) (p : RunPath) (d : Sel) (ty arg len : Nat) (payload : List Byte) : State :=
  (giveW (posted s sid p ty arg len payload) sid p d (BitVec.ofNat 32 (nextPost s sid))).advance sid p

/-- The checks of R257 pass for n bytes at a locket offset with `extra` bits above it in use. -/
def locketOk (s : State) (sid a n extra : Nat) : Prop :=
  a % 8 = 0 ∧ a < 2 ^ (24 + extra) ∧ a % 2 ^ 24 + n ≤ 2 ^ 24 ∧
  ((s.ctxOf sid).sys = true ∨ ∀ i < n, ∃ q ∈ (s.ctxOf sid).allot, q.1 ≤ a % 2 ^ 24 + i ∧ a % 2 ^ 24 + i < q.2)

/-- A pair of every active lane, to be written later: its low word is marked 0, its high word 1. -/
def pairs (s : State) (sid : Nat) (lanes : List Nat) (d : Sel) : List (RegLoc × Word) :=
  lanes.flatMap fun l => (s.str sid).dstWrites l d [0, 1]

/-- The bytes of n registers of the lowest lane from a selector on. -/
def runOf (s : State) (sid : Nat) (p : RunPath) (b : Sel) (n : Nat) : List Byte :=
  (s.srcRun sid (p.lanes.headD 0) b n 16).flatMap fun w => leBytes 4 w.toNat

/-- A form with an acquire (R101). -/
def acquires (p : RunPath) : Prop := p.order = 1 ∨ p.order = 3

end Sys2Proof.Claim

/-- R256 to R260: the LP forms of a strand with nothing in flight, whose checks pass and whose posts have room: each post goes
to the end of the post queue with the strand's next handle, which d takes; `lp.ld` is pending until the posts before it are
complete, `lp.add` and `lp.cas` until their record has returned. A payload is read at the issue. -/
def Sys2Proof.Claim.LoopForms : Prop := ∀ (d a b : Sel),
  does (.lpLd d a) [(a, 1)] [(d, 2)] (fun s sid p v => locketOk s sid (low32 p v 0) 8 0)
    (fun s sid p v => ((s.reached 6).pend sid
      { writes := pairs s sid p.lanes d, on := .posts (nextPost s sid), off := low32 p v 0, vaddr := (p.lanes.map fun l => (l, low32 p v 0)),
        acq := if p.order = 1 then some 4 else none }).advance sid (kept p v)) ∧
  does (.lpPut d a b) [(a, 1)] [(d, 1), (b, 2)] (fun s sid p v =>
      let n := 2 * (low32 p v 0 / 2 ^ 24 % 4 + 1)
      locketOk s sid (low32 p v 0) (4 * n) 2 ∧ b.isRun n = true ∧ (s.str sid).outside p.lanes (b, n) = false ∧
      (s.str sid).softLanes p.lanes [(b, n)] = [] ∧ postable s sid)
    (fun s sid p v =>
      let n := 2 * (low32 p v 0 / 2 ^ 24 % 4 + 1)
      let u := s.touchSrcs sid p.lanes [(b, n)]
      postedTo u sid (kept p v) d 1 (low32 p v 0 % 2 ^ 24) (4 * n) (runOf u sid p b n)) ∧
  (∀ cas : Bool, does (if cas then .lpCas d a b else .lpAdd d a b) ([(a, 1), (b, 2)] ++ if cas then [(d, 2)] else []) [(d, 2)]
    (fun s sid p v => locketOk s sid (low32 p v 0) 8 0 ∧ postable s sid)
    (fun s sid p v =>
      let u := posted s sid p 2 (low32 p v 0 + if cas then 2 ^ 24 else 0) 16
        (leBytes 8 (low64 p v 1) ++ leBytes 8 (if cas then low64 p v 2 else 0))
      if d ≠ .zero then (u.pend sid { writes := pairs u sid p.lanes d, on := .post (nextPost s sid)
                                      acq := if p.order = 1 ∨ p.order = 3 then some 4 else none }).advance sid (kept p v)
      else if p.order = 1 ∨ p.order = 3 then u.await sid (kept p v) (.post (nextPost s sid))
      else u.advance sid (kept p v))) ∧
  does (.lpMsg d a b) [(a, 1)] [(d, 1), (b, 12)] (fun s sid p v =>
      low32 p v 0 / 2 ^ 5 % 8 = 0 ∧ low32 p v 0 < 2 ^ 12 ∧ low32 p v 0 % 32 < s.npkg ∧
      (s.str sid).softLanes p.lanes [(b, 12)] = [] ∧ postable s sid)
    (fun s sid p v =>
      let u := s.touchSrcs sid p.lanes [(b, 12)]
      postedTo u sid (kept p v) d 3 (low32 p v 0) 48 (runOf u sid p b 12)) ∧
  (∀ ps : List XPart, does (.lpLaunch d a) [(a, 2)] [(d, 1)] (fun s sid p v =>
      low64 p v 0 < 2 ^ 56 ∧ low64 p v 0 % 16 = 0 ∧ s.accessParts sid .ld 0xA000000 (pageParts (low64 p v 0) 48) = (ps, none) ∧
      postable s sid)
    (fun s sid p v =>
      postedTo (s.pocTouch sid ps) sid (kept p v) d 4 0 48 (s.pocParts sid 0xA100000 ps))) ∧
  does (.lpFence a) [(a, 2)] [] (fun s sid p v => low64 p v 0 ≤ s.appliedLsn sid)
    (fun s sid p v => (stale s (s.str sid).core).advance sid (kept p v)) ∧
  does (.lpFence a) [(a, 2)] [] (fun s sid p v => s.appliedLsn sid < low64 p v 0)
    (fun s sid p v => s.await sid (kept p v) (.lsn (low64 p v 0))) ∧
  plainly .lpGate (fun _ _ _ => True) (fun s sid p => (s.modStr sid fun st =>
    let f := st.fl
    { st with fl := { f with gate := true } }).advance sid p) ∧
  does (.lpNow d) [] [(d, 2)] (fun s sid _ _ => live s sid)
    (fun s sid p _ => (giveP s sid p d (BitVec.ofNat 64 s.loop.applied)).advance sid p) ∧
  (∀ (l : Nat) (x : PostSt), does (.lpSeq d a) [(a, 1)] [(d, 2)] (fun s sid p v =>
      1 ≤ ahead (nextPost s sid) (low32 p v 0) ∧ ahead (nextPost s sid) (low32 p v 0) ≤ 256 ∧ live s sid ∧
      nget (s.str sid).fl.posts (low32 p v 0) = some x ∧ x.lsn = some l ∧ l ≤ s.loop.applied)
    (fun s sid p v => (giveP s sid p d (BitVec.ofNat 64 l)).advance sid (kept p v)))

/-- R257: the first check that fails: alignment, the locket's end, the allotment of a user context. -/
def Sys2Proof.Claim.LocketChecks : Prop :=
  ∀ (d a : Sel), does (.lpLd d a) [(a, 1)] [(d, 2)] (fun s sid p v => ¬locketOk s sid (low32 p v 0) 8 0)
    (fun s sid p v =>
      let x := low32 p v 0
      if x % 8 ≠ 0 then s.trapPath sid (kept p v) 0x31 0 (BitVec.ofNat 64 x)
      else if 2 ^ 24 ≤ x ∨ 2 ^ 24 < x % 2 ^ 24 + 8 then s.trapPath sid (kept p v) 0x41 2 (BitVec.ofNat 64 x)
      else s.trapPath sid (kept p v) 0x32 0 (BitVec.ofNat 64 x))

/-- R256 to R260: the forms of the loop, and the checks of a locket access. -/
def Obligations.LoopFormsAndLocket : Prop := Claim.LoopForms ∧ Claim.LocketChecks

namespace Sys2Proof.Claim
open Sys2Proof.Machine

/-- A fabric descriptor that passes check 3 of R263 (08-byte local and remote addresses, 16 bytes, 20 control, 24 reserved). -/
def fabOk (s : State) (b : List Byte) : Prop :=
  let f (o n : Nat) := leSum ((b.drop o).take n)
  f 0 8 % 4 = 0 ∧ (f 20 4 % 4 ≠ 0 → f 0 8 < 2 ^ 32) ∧ f 8 8 % 4 = 0 ∧ f 8 8 < 2 ^ 61 ∧ f 8 8 / 2 ^ 56 < s.npkg ∧
  f 16 4 % 4 = 0 ∧ 0 < f 16 4 ∧ f 16 4 ≤ 2 ^ 24 ∧ f 20 4 % 4 ≠ 3 ∧ f 20 4 / 4 % 4 = 0 ∧ f 20 4 < 64 ∧ f 24 8 = 0

/-- The frames on their way or in the queue of a connection. -/
def framesOn (s : State) (k : Nat) : List Machine.Frm :=
  let c := (nget s.fab.conns k).getD {}
  c.unacked.map (·.frm) ++ c.queued

/-- A frame of an operation (R397). -/
def ofOp (s : State) (sid tag op cls dst : Nat) (f : Machine.Frm) : Prop :=
  f.op = op ∧ f.cls = cls ∧ f.ctx = (s.gridOf sid).ctx ∧ f.src = s.pkgid ∧ f.dst = dst ∧ f.tag = tag ∧ f.cause = 0

/-- `fab.put` and `fab.get`: the operation is recorded under the next tag and handle, on the connection of its package and class, and d
takes the handle. Frames stand on that connection that carry each byte of a put to its place, or ask for each byte of a get; none goes
beyond 4 KiB of the remote address space (R262 to R264, R397). -/
def fabMoves (i : Instr) (get : Bool) (d a : Sel) : Prop :=
  ∀ (s : State) (sid : Nat) (p : RunPath) (rest : List Run) (q : RunPath) (t : State) (vals : NMap (List Word64)) (ps : List XPart),
    issues s sid p rest → quiet (begun s rest) sid p → ready (begun s rest) sid p [(a, 1)] [(d, 1)] = some (q, t, vals) →
    (t.gridOf sid).kd.spSize ≤ 0x600000 → live t sid →
    let x := low32 p vals 0
    let b := t.mem.readN ((t.teamOf sid).spBase + x) 32
    let trap (c sub y : Nat) : State := t.trapPath sid (kept q vals) c sub (BitVec.ofNat 64 y)
    (x % 32 ≠ 0 → exec i s = .next (trap 0x31 0 x)) ∧
    (x % 32 = 0 → (t.gridOf sid).kd.spSize < x + 32 → exec i s = .next (trap 0x30 0 x)) ∧
    (x % 32 = 0 → x + 32 ≤ (t.gridOf sid).kd.spSize →
      (¬fabOk t b → ∃ o, exec i s = .next (trap 0x41 3 (x + o)) ∧ (o = 0 ∨ o = 8 ∨ o = 16 ∨ o = 20 ∨ o = 24)) ∧
      (fabOk t b → t.fabLocal sid (if get then .st else .ld) (fabDesc b) = .ok ps →
        ∃ u : State, exec i s = .next ((giveW u sid (kept q vals) d (BitVec.ofNat 32 (t.str sid).fl.fabCount)).advance sid (kept q vals)) ∧
          (u.str sid).fl.fabCount = ((t.str sid).fl.fabCount + 1) % 2 ^ 32 ∧
          nget (u.str sid).fl.fabs (t.str sid).fl.fabSeq = some ⟨false, get, 0,
            if get = true ∧ p.order = 1 then some (p.scopeOr 4) else none, some (t.str sid).fl.fabCount⟩ ∧
          ∃ o, nget u.fab.ops t.fab.tag = some o ∧ o.strand = sid ∧ o.num = (t.str sid).fl.fabSeq ∧
            o.op = (if get then 2 else 1) ∧ o.remote = leSum ((b.drop 8).take 8) ∧ o.failed = false ∧ o.posted = false ∧
            let dst := o.remote / 2 ^ 56
            let cls := leSum ((b.drop 20).take 4) / 16 % 4
            let at' := o.remote % 2 ^ 56
            o.conn = 4 * dst + cls ∧
            ∀ k < leSum ((b.drop 16).take 4), ∃ f ∈ framesOn u o.conn, ofOp t sid t.fab.tag o.op cls dst f ∧
              f.addr / 4096 = (at' + k) / 4096 ∧ f.addr ≤ at' + k ∧
              (get = false → f.data[at' + k - f.addr]? = (t.pocParts sid 0xA400000 ps)[k]?) ∧
              (get = true → ∃ n, f.data = leBytes 8 n ∧ at' + k < f.addr + n ∧ (f.addr + n - 1) / 4096 = f.addr / 4096)))

/-- `fab.aadd` and `fab.acas`: every lane gets an operation of its own, in lane order, and its frame, with the operand and for a
compare the expected value before it, stands on the class-0 connection to the package (R265, R397). -/
def fabAtoms (i : Instr) (cas : Bool) (d a b : Sel) : Prop :=
  ∀ (s : State) (sid : Nat) (p : RunPath) (rest : List Run) (q : RunPath) (t : State) (vals : NMap (List Word64)),
    issues s sid p rest → quiet (begun s rest) sid p → lanesOk p → live t sid →
    ready (begun s rest) sid p ([(a, 2), (b, 2)] ++ if cas then [(d, 2)] else []) [(d, 2)] = some (q, t, vals) →
    (∀ l ∈ p.lanes, (x64 vals l 0).toNat < 2 ^ 61 ∧ (x64 vals l 0).toNat / 2 ^ 56 < t.npkg ∧ (x64 vals l 0).toNat % 8 = 0) →
    t.fab.tag < 2 ^ 32 →
    ∃ u : State, exec i s = .next (u.advance sid (kept q vals)) ∧ (u.str sid).fl.fabSeq = (t.str sid).fl.fabSeq + p.lanes.length ∧
      ∀ x ∈ p.lanes.zipIdx, ∃ o, nget u.fab.ops ((t.fab.tag + x.2) % 2 ^ 32) = some o ∧ o.strand = sid ∧ o.lane = x.1 ∧
        o.op = (if cas then 5 else 4) ∧ o.remote = (x64 vals x.1 0).toNat ∧ o.posted = (d == .zero) ∧
        o.conn = 4 * (o.remote / 2 ^ 56) ∧
        ∃ f ∈ framesOn u o.conn, ofOp t sid ((t.fab.tag + x.2) % 2 ^ 32) o.op 0 (o.remote / 2 ^ 56) f ∧ f.addr = o.remote % 2 ^ 56 ∧
          f.data = (if cas then leBytes 8 (x64 vals x.1 2).toNat else []) ++ leBytes 8 (x64 vals x.1 1).toNat

end Sys2Proof.Claim

/-- R261 to R267: the FAB forms of a strand with nothing in flight. -/
def Obligations.FabricForms : Prop := ∀ (d a b : Sel),
  fabMoves (.fabPut d a) false d a ∧ fabMoves (.fabGet d a) true d a ∧
  fabAtoms (.fabAadd d a b) false d a b ∧ fabAtoms (.fabAcas d a b) true d a b ∧
  (∀ cas : Bool, does (if cas then .fabAcas d a b else .fabAadd d a b) ([(a, 2), (b, 2)] ++ if cas then [(d, 2)] else []) [(d, 2)]
    (fun s _ p v => lanesOk p ∧ ∃ l ∈ p.lanes, ¬((x64 v l 0).toNat < 2 ^ 61 ∧ (x64 v l 0).toNat / 2 ^ 56 < s.npkg))
    (fun s sid p v => s.trapPath sid (kept p v) 0x41 0
      (((p.lanes.find? fun l => decide (¬((x64 v l 0).toNat < 2 ^ 61 ∧ (x64 v l 0).toNat / 2 ^ 56 < s.npkg))).map
        fun l => x64 v l 0).getD 0))) ∧
  plainly .fabFence (fun _ _ _ => True) (fun s sid p => (s.modStr sid fun st =>
    let f := st.fl
    { st with fl := { f with fabFence := f.fabSeq } }).advance sid p) ∧
  does (.fabWait a) [(a, 1)] [] (fun s sid p v => ahead (s.str sid).fl.fabCount (low32 p v 0) ≤ 2 ^ 31 ∧
      1 ≤ ahead (s.str sid).fl.fabCount (low32 p v 0))
    (fun s sid p v => s.advance sid (kept p v)) ∧
  (∀ (s : State) (sid : Nat) (p : RunPath) (rest : List Run) (q : RunPath) (t : State) (vals : NMap (List Word64)) (f : Nat × FabSt),
    issues s sid p rest → p.resume = none → p.got = none → (s.str sid).acqHeld = false → (s.str sid).fl.fabFails = [] →
    ready (begun s rest) sid p [(a, 1)] [] = some (q, t, vals) → (s.str sid).fl.fabs = [f] → f.2.done = false →
    f.2.handle = some (low32 p vals 0) → ahead (s.str sid).fl.fabCount (low32 p vals 0) = 1 →
    exec (.fabWait a) s = .next (t.await sid (kept q vals) (.fab (low32 p vals 0)))) ∧
  (∀ (s : State) (sid : Nat) (p : RunPath) (rest : List Run) (q : RunPath) (t : State) (vals : NMap (List Word64)) (x : FabFail) (r : List FabFail),
    issues s sid p rest → p.resume = none → p.got = none → (s.str sid).acqHeld = false → (s.str sid).csr.tlevel = 0 →
    p.lanes ≠ [] → (s.str sid).fl.fabFails = x :: r →
    ready (begun s rest) sid p [(a, 1)] [] = some (q, t, vals) →
    exec (.fabWait a) s = .next (((t.unpop sid q.undo).modStr sid fun st =>
      let f := st.fl
      { st with fl := { f with fabFails := [] } }).trap sid (p.lanes.map fun l => ⟨l, 0x54, x.cause, x.remote, p.recPc⟩)))

namespace Sys2Proof.Claim
open Sys2Proof.Machine

/-- The keyed digest K of the strand's team (R270). -/
def keyOf (s : State) (sid : Nat) : Word64 :=
  mix64 ((s.teamOf sid).dgval ^^^ BitVec.ofNat 64 ((s.teamOf sid).teamid * 0x9E3779B97F4A7C15))
def setCsr (s : State) (sid : Nat) (f : Csrs → Csrs) : State := s.modStr sid fun st => { st with csr := f st.csr }
/-- The high half of a 64-bit register, and its low half. -/
def hiHalf (x : Word64) : Word := BitVec.ofNat 32 (x.toNat / 2 ^ 32)
def loHalf (x : Word64) : Word := BitVec.ofNat 32 (x.toNat % 2 ^ 32)
def joined (hi lo : Word) : Word64 := BitVec.ofNat 64 (hi.toNat * 2 ^ 32 + lo.toNat)
def oneIf (b : Bool) : Nat := if b then 1 else 0

/-- The DIGEST record of a lead strand's check (R421): K, the context, the team's STEP, which goes on, and the team; a post outside
PostCount, which the model numbers 2^32 + STEP (log 46). -/
def digestPosted (s : State) (sid : Nat) (p : RunPath) (k : Word64) : State :=
  let t := s.teamOf sid
  let c := (s.gridOf sid).ctx
  let body := leBytes 8 k.toNat ++ leBytes 4 c ++ leBytes 4 t.dgstep ++ leBytes 4 t.teamid
  let u := (s.modTeamOf sid fun t => { t with dgstep := t.dgstep + 1 }).reached 6
  let u := u.modStr sid fun st =>
    let f := st.fl
    { st with fl := { f with posts := nset f.posts (2 ^ 32 + t.dgstep) { lsn := none, lanes := p.lanes }, gate := false } }
  u.modLoop fun l => { l with postq := l.postq ++ [⟨⟨6, 0, 0, s.pkgid, 20, (body ++ leBytes 48 0).take 48⟩, .strand sid (2 ^ 32 + t.dgstep), c⟩] }

/-- The 64-bit registers of R32, by the number of their low half. -/
def csr64 (s : State) (sid : Nat) : List (Nat × Word64) :=
  let c := (s.str sid).csr
  [(0x02, (s.gridOf sid).tbase.getD 0), (0x04, c.tsave), (0x09, c.bankA.epc), (0x0B, c.bankA.addr), (0x11, c.bankB.epc),
   (0x13, c.bankB.addr), (0x18, BitVec.ofNat 64 (s.appliedLsn sid)), (0x1A, BitVec.ofNat 64 s.cycle), (0x20, (s.teamOf sid).dgval)]
/-- Its 32-bit registers. -/
def csr32 (s : State) (sid : Nat) : List (Nat × Word) :=
  let st := s.str sid
  let c := st.csr
  [(0x00, BitVec.ofNat 32 (oneIf c.dzt + 4 * oneIf c.sstep + 8 * oneIf c.dgon + 16 * oneIf (s.ctxOf sid).sys + 32 * oneIf (st.role == 4) +
      65536 * st.frames.length)),
   (0x01, BitVec.ofNat 32 c.tlevel), (0x08, c.bankA.cause), (0x0D, c.bankA.lanes), (0x10, c.bankB.cause), (0x15, c.bankB.lanes),
   (0x1C, c.safept), (0x22, (s.teamOf sid).dgcnt), (0x23, BitVec.ofNat 32 (s.teamOf sid).teamid)]
/-- Lane detail of the bank in use (R348). -/
def bankDetail (s : State) (sid l : Nat) : Word64 :=
  (nget (if (s.str sid).csr.tlevel = 2 then (s.str sid).csr.bankB else (s.str sid).csr.bankA).detail l).getD 0

end Sys2Proof.Claim

/-- R268 to R270, R345, R421: the DG forms; a strand with nothing in flight and no copy of its own still running. With DGX a lead
strand's check posts a DIGEST record. A trap that is held has written nothing. -/
def Sys2Proof.Claim.DigestForms : Prop := ∀ (d a : Sel) (clear cmp : Bool),
  plainly (.dgOn clear) (fun _ _ _ => True) (fun s sid p =>
    let u := setCsr s sid fun c => { c with dgon := true }
    (if clear then u.modTeamOf sid fun t => { t with dgval := 0, dgcnt := 0 } else u).advance sid p) ∧
  plainly .dgOff (fun _ _ _ => True) (fun s sid p => (setCsr s sid fun c => { c with dgon := false }).advance sid p) ∧
  does (.dgFold d a) [(d, 2), (a, 2)] [(d, 2)] (fun _ _ _ _ => True) (fun s sid p v =>
    (giveP s sid p d (mix64 (x64 v (p.lanes.headD 0) 0 ^^^ x64 v (p.lanes.headD 0) 1))).advance sid p) ∧
  does (.dgChk d a cmp) [(a, 2)] [(d, 2)] (fun s sid p v => (s.coreOf sid).cp = [] ∧ (s.ctxOf sid).dbg.dgx = false ∧
      (cmp = true → x64 v (p.lanes.headD 0) 0 = keyOf s sid))
    (fun s sid p v => (giveP s sid p d (keyOf s sid)).advance sid (kept p v)) ∧
  does (.dgChk d a cmp) [(a, 2)] [(d, 2)] (fun s sid p v => (s.coreOf sid).cp = [] ∧ (s.ctxOf sid).dbg.dgx = true ∧
      (s.str sid).role = 4 ∧ postable s sid ∧ (cmp = true → x64 v (p.lanes.headD 0) 0 = keyOf s sid))
    (fun s sid p v => (digestPosted (giveP s sid p d (keyOf s sid)) sid p (keyOf s sid)).advance sid (kept p v)) ∧
  does (.dgChk d a true) [(a, 2)] [(d, 2)] (fun s sid p v => (s.coreOf sid).cp = [] ∧ p.lanes.all (s.str sid).holds = true ∧
      x64 v (p.lanes.headD 0) 0 ≠ keyOf s sid)
    (fun s sid p _ => s.trapPath sid p 0xA0 0 (keyOf s sid)) ∧
  does (.dgChk d a true) [(a, 2)] [(d, 2)] (fun s sid p v => (s.coreOf sid).cp = [] ∧ p.lanes.all (s.str sid).holds = false ∧
      (s.ctxOf sid).dbg.dgx = false ∧ (s.gridOf sid).ck = none ∧ x64 v (p.lanes.headD 0) 0 ≠ keyOf s sid)
    (fun s sid p v => (giveP s sid p d (keyOf s sid)).trapPath sid (kept p v) 0xA0 0 (keyOf s sid))

/-- R269, R32: what folding adds to DGVAL and DGCNT, and that the order of the items does not matter. -/
def Sys2Proof.Claim.DigestFolds : Prop :=
  (∀ (t : Team) (xs : List DgItem),
    (t.fold xs).dgval = t.dgval + (xs.map fun x => mix64 ((BitVec.ofNat 64 x.addr ^^^ (BitVec.ofNat 64 x.code <<< 58)) +
      BitVec.ofNat 64 x.val * 0x9E3779B97F4A7C15)).sum ∧
    (t.fold xs).dgcnt.toNat = min (t.dgcnt.toNat + xs.length) 0xFFFFFFFF) ∧
  (∀ (t : Team) (xs ys : List DgItem), xs.Perm ys → t.fold xs = t.fold ys)

/-- R32, R268 to R270, R421: digest forms, and what a fold does (the number that a DIGEST post counts under is the model's choice:
notes/assumptions/46.md). -/
def Obligations.DigestFormsAndFolds : Prop := Claim.DigestForms ∧ Claim.DigestFolds

/-- R32, R33, R271, R272: a read of each control and status register; a read of a low half latches the high half for the next
word. A write changes the register named where it may be written and nothing elsewhere; below the register's trap level it
traps in a user context, and a base with low bits set traps. -/
def Obligations.StatusRegisterForms : Prop := ∀ (d a : Sel) (n : BitVec 7),
  (∀ v : Word, does (.csrRd d n) [] [(d, 1)] (fun s sid p _ => p.hi = none ∧ (n.toNat, v) ∈ csr32 s sid)
    (fun s sid p _ => (giveW s sid p d v).advance sid p)) ∧
  (∀ v : Word64, does (.csrRd d n) [] [(d, 1)] (fun s sid p _ => p.hi = none ∧ (n.toNat, v) ∈ csr64 s sid)
    (fun s sid p _ => (giveW s sid p d (loHalf v)).advanceHi sid p (some (n.toNat + 1, hiHalf v)))) ∧
  (∀ v : Word64, does (.csrRd d n) [] [(d, 1)] (fun s sid p _ => p.hi = none ∧ 0 < n.toNat ∧ (n.toNat - 1, v) ∈ csr64 s sid)
    (fun s sid p _ => (giveW s sid p d (hiHalf v)).advance sid p)) ∧
  (∀ w : Word, does (.csrRd d n) [] [(d, 1)] (fun s sid p _ => p.hi = some (n.toNat, w) ∧ ∀ v, (n.toNat, v) ∉ csr64 s sid)
    (fun s sid p _ => (giveW s sid p d w).advance sid p)) ∧
  does (.csrRd d n) [] [(d, 1)] (fun _ _ p _ => p.hi = none ∧ 0x40 ≤ n.toNat)
    (fun s sid p _ => (giveW s sid p d (if n.toNat < 0x60 then loHalf (bankDetail s sid (n.toNat - 0x40))
      else hiHalf (bankDetail s sid (n.toNat - 0x60)))).advance sid p) ∧
  (let level : Nat := if n.toNat ∈ [2, 3, 4, 5, 8, 9, 10, 11, 12, 13] then 1 else if n.toNat ∈ [0x10, 0x11, 0x12, 0x13, 0x14, 0x15] then 2 else 0
   let v (p : RunPath) (vals : NMap (List Word64)) : Word := x32 vals (p.lanes.headD 0) 0
   let allowed (s : State) (sid : Nat) : Prop := level ≤ (s.str sid).csr.tlevel ∨ (s.ctxOf sid).sys = true
   does (.csrWr a n) [(a, 1)] [] (fun s sid _ _ => ¬allowed s sid) (fun s sid p _ => s.trapPath sid p 0x04 0 p.wordPc) ∧
   does (.csrWr a n) [(a, 1)] [] (fun s sid p vals => allowed s sid ∧ ((n = 2 ∧ (v p vals).toNat % 128 ≠ 0) ∨
       (n = 4 ∧ (v p vals).toNat % 512 ≠ 0))) (fun s sid p _ => s.trapPath sid p 0x01 0 p.wordPc) ∧
   does (.csrWr a n) [(a, 1)] [] (fun s sid p vals => allowed s sid ∧ (n = 2 → (v p vals).toNat % 128 = 0) ∧
       (n = 4 → (v p vals).toNat % 512 = 0))
     (fun s sid p vals =>
       let x := v p vals
       let bank (f : Csrs → Bank) (put : Csrs → Bank → Csrs) (g : Bank → Bank) : State := setCsr s sid fun c => put c (g (f c))
       let inBank (k : Nat) (f : Csrs → Bank) (put : Csrs → Bank → Csrs) : State := bank f put fun b =>
         if k = 0 then { b with cause := x }
         else if k = 1 then { b with epc := joined (hiHalf b.epc) x, epcWritten := true }
         else if k = 2 then { b with epc := joined x (loHalf b.epc), epcWritten := true }
         else if k = 3 then { b with addr := joined (hiHalf b.addr) x }
         else if k = 4 then { b with addr := joined x (loHalf b.addr) }
         else { b with lanes := x }
       let u := if n = 0 then setCsr s sid fun c => { c with dzt := x.getLsbD 0, sstep := x.getLsbD 2 }
         else if n = 2 then s.modGrid (s.teamOf sid).grid fun g => { g with tbase := some (joined (hiHalf (g.tbase.getD 0)) x) }
         else if n = 3 then s.modGrid (s.teamOf sid).grid fun g => { g with tbase := some (joined x (loHalf (g.tbase.getD 0))) }
         else if n = 4 then setCsr s sid fun c => { c with tsave := joined (hiHalf c.tsave) x }
         else if n = 5 then setCsr s sid fun c => { c with tsave := joined x (loHalf c.tsave) }
         else if 8 ≤ n.toNat ∧ n.toNat ≤ 13 then inBank (n.toNat - 8) Csrs.bankA fun c b => { c with bankA := b }
         else if 16 ≤ n.toNat ∧ n.toNat ≤ 21 then inBank (n.toNat - 16) Csrs.bankB fun c b => { c with bankB := b }
         else s
       u.advance sid p))

namespace Sys2Proof.Claim
open Sys2Proof.Machine

/-- The sub-strand of the current level, and its bank. -/
def subLanes (st : Strand) : List Nat := (if st.csr.tlevel = 2 then st.csr.s2 else st.csr.s1).filter (st.liveLanes.contains ·)
def subBank (st : Strand) : Bank := if st.csr.tlevel = 2 then st.csr.bankB else st.csr.bankA

end Sys2Proof.Claim

/-- R273, R350: `tret` outside a sub-strand traps; once every thread of the current sub-strand has come to it and the strand's
stores are performed, each gets its saved `lr` and goes on at its recorded PC, or at TEPC where that has been written, and the
level ends; a PC that names no word of a clause is checked then (`checkResume`). -/
def Sys2Proof.Claim.TrapReturn : Prop :=
  (∀ (s : State) (sid : Nat) (p : RunPath) (rest : List Run), issues s sid p rest → (s.str sid).group (p.lanes.headD 0) = 0 →
    exec .tret s = .next ((begun s rest).trapPath sid p 0x04 0 p.wordPc)) ∧
  (∀ (s : State) (sid : Nat) (p : RunPath) (rest : List Run), issues s sid p rest → (s.str sid).fl.stores = [] →
    (s.str sid).group (p.lanes.headD 0) = (s.str sid).csr.tlevel → (s.str sid).csr.tlevel = 1 ∨ (s.str sid).csr.tlevel = 2 →
    (∀ l ∈ subLanes (s.str sid), l ∈ p.lanes) →
    ∃ u : State, exec .tret s = .next (u.checkResume sid (subLanes (s.str sid))) ∧
      (u.str sid).csr.tlevel = (s.str sid).csr.tlevel - 1 ∧
      (∀ l ∈ subLanes (s.str sid), ((u.str sid).th l).st = .ready ∧
        ((u.str sid).th l).lr = (nget (subBank (s.str sid)).savedLr l).getD 0 ∧
        ((u.str sid).th l).pc = if (subBank (s.str sid)).epcWritten then (subBank (s.str sid)).epc
          else (nget (subBank (s.str sid)).resumePc l).getD 0) ∧
      (∀ l, l ∉ subLanes (s.str sid) → ((u.str sid).th l).pc = ((s.str sid).th l).pc ∧ ((u.str sid).th l).lr = ((s.str sid).th l).lr ∧
        (((s.str sid).th l).st = .held ((s.str sid).csr.tlevel - 1) → ((u.str sid).th l).st = .ready) ∧
        (((s.str sid).th l).st ≠ .held ((s.str sid).csr.tlevel - 1) → ((u.str sid).th l).st = ((s.str sid).th l).st)) ∧
      (u.str sid).frames = (s.str sid).frames ∧ (u.str sid).csr.s2 = [] ∧
      ((s.str sid).csr.tlevel = 1 → (u.str sid).csr.s1 = []) ∧ ((s.str sid).csr.tlevel = 2 → (u.str sid).csr.s1 = (s.str sid).csr.s1) ∧
      u.mem = s.mem) ∧
  (∀ (s : State) (sid : Nat) (p : RunPath) (rest : List Run), issues s sid p rest → (s.str sid).group (p.lanes.headD 0) ≠ 0 →
    (s.str sid).fl.stores ≠ [] → exec .tret s = .next ((begun s rest).await sid p .tret))

/-- R273 to R275, R353, R410: `tkill` kills its context for reason 3, `tlb.inv` makes the package forget translations and for the pod posts
an XLATE record and waits, `tlb.probe` answers later, `dbg.halt` halts a context that exists. -/
def Sys2Proof.Claim.SystemForms : Prop := ∀ (d a : Sel) (size : BitVec 2),
  (∀ (s : State) (sid : Nat) (p : RunPath) (rest : List Run) (q : RunPath) (t : State) (vals : NMap (List Word64)),
    issues s sid p rest → lanesOk p → ready (begun s rest) sid p [(a, 1)] [] = some (q, t, vals) → (t.ctxOf sid).killed = false →
    nsorted t.strands = true → nsorted t.teams = true → (∀ x ∈ t.strands, nhas t.teams x.2.team = true) →
    ∃ u : State, exec (.tkill a) s = .next u ∧ fatal t u sid 3 0 (BitVec.ofNat 64 (low32 p vals 0)) p.wordPc p.lanes ∧
      ((t.ctxOf sid).dbg.dumpsize = 0 → ∀ j, nhas u.strands j = true → nhas t.strands j = true ∧ (t.gridOf j).ctx ≠ (t.gridOf sid).ctx)) ∧
  does (.tlbInv a false size) [(a, 2)] [] (fun _ _ _ _ => True)
    (fun s sid p v => (s.invalidate (s.gridOf sid).ctx size.toNat (low64 p v 0)).advance sid (kept p v)) ∧
  (∀ (s : State) (ctx va : Nat) (e : TlbEnt), e.ctx = ctx → (size = 3 ∨ (e.vbase ≤ va ∧ va < e.vbase + 2 ^ levelShift e.level)) →
    e ∉ (s.invalidate ctx size.toNat va).xcache ∧ ∀ c, e ∉ ((s.invalidate ctx size.toNat va).core c).tlb) ∧
  does (.tlbInv a true size) [(a, 2)] [] (fun s sid _ _ => postable s sid)
    (fun s sid p v => (posted s sid p 5 0 13 (leBytes 8 (low64 p v 0) ++ leBytes 4 (s.gridOf sid).ctx ++ leBytes 1 size.toNat)).await sid
      (kept p v) (.post (nextPost s sid))) ∧
  does (.tlbProbe d a) [(a, 2)] [(d, 2)] (fun _ _ _ _ => True)
    (fun s sid p v =>
      let r := s.probe sid (low64 p v 0)
      (s.pend sid { writes := p.lanes.flatMap fun l => (s.str sid).dstWrites l d [loHalf r, hiHalf r], on := .ready,
                    probe := true }).advance sid p) ∧
  does (.dbgHalt a) [(a, 1)] [] (fun s _ p v => low32 p v 0 < 256 ∧ (s.ctx (low32 p v 0)).valid = true ∧
      (s.ctx (low32 p v 0)).dbg.halted = false)
    (fun s sid p v => ((s.modCtx (low32 p v 0) fun c =>
      let g := c.dbg
      { c with dbg := { g with halted := true, why := 1, bp := 0 } }).haltArrays (s.inCtx (low32 p v 0)) .debug).advance sid p) ∧
  does (.dbgHalt a) [(a, 1)] [] (fun s _ p v => 256 ≤ low32 p v 0 ∨ (s.ctx (low32 p v 0)).valid = false ∨
      (s.ctx (low32 p v 0)).dbg.halted = true) (fun s sid p _ => s.advance sid p)

/-- R273 to R275, R350, R353, R410: the return from a trap, and the system forms. -/
def Obligations.ReturnAndSystemForms : Prop := Claim.TrapReturn ∧ Claim.SystemForms

/-! Events of strands, bins and teams. -/

namespace Sys2Proof.Claim
open Sys2Proof.Machine

/-- Waits after which a path goes on with its word, without more: not those before a clause or at its end, those of several paths, the
sleep, those whose words go on at once (a block load, an atomic on host memory), and those for which a replay may first apply posts. -/
def resumesWord : Wait → Bool
  | .mask _ | .word _ | .switch | .leave _ | .rbar | .scopeOpen _ | .scopeClose | .lsn _ | .post _ | .locket _ | .sleep _
  | .words _ _ _ _ _ _ | .host _ _ _ _ _ => false
  | _ => true

/-- A strand without one of its waits. -/
def unwaited (s : State) (sid i : Nat) : State := s.modStr sid fun st => { st with waits := st.waits.eraseIdx i }

/-- The chosen path's threads run and are no longer starved (R13); registers that a soft error has struck are noted (R352). -/
def underWay (s : State) (sid : Nat) (lanes : List Nat) (soft : List RegLoc) : State :=
  s.modStr sid fun st => { st with
    aged := 0
    softRegs := st.softRegs ++ soft
    lanes := st.lanes.map fun (l, t) => if lanes.contains l then (l, { t with st := .run, starve := 0 }) else (l, t) }

/-- A path at the first word of a clause. -/
def atFirst (lanes : List Nat) (va : Nat) (line : List Word) (h n : Nat) (second : Bool) : RunPath :=
  { lanes := lanes, hdrAddr := BitVec.ofNat 64 (va + 4 * h), hdr := BitVec.ofNat 32 (wordAt line h),
    words := (List.range n).map fun i => line.getD (h + 1 + i) 0,
    nxt := BitVec.ofNat 64 (seqSucc va line h n), pos := 1, pfx := none, hi := none, resume := none, entered := 1, got := none,
    skips := [], second := second }

/-- No path of the strand waits for the mask of a clause. -/
def noMasks (st : Strand) : Prop := ∀ w ∈ st.waits, ∀ m, w.on ≠ .mask m

/-- A strand is resident and neither its context nor its team is debug-halted. -/
def mayMove (s : State) (sid : Nat) : Prop := nhas s.strands sid = true ∧ s.haltedStrand sid = false

end Sys2Proof.Claim

/-- R10, R88, R89, R183, R344, R356: a wait that is over lets its path go on at its word; one that is not over does not. A path that
waited for a clause's mask is ready at the clause's header again, where it joins the threads that are ready there (R11; log 34). What a
switch marker's loads left due is log 58's choice, so only a path with nothing due is spoken of. A watchdog whose period has
passed traps every live thread at level 0. -/
def Sys2Proof.Claim.WaitsEnd : Prop :=
  (∀ (s : State) (sid i : Nat) (w : WaitPath), s.args = [sid, i] → mayMove s sid → (s.str sid).waits[i]? = some w →
    (resumesWord w.on = true →
      (s.waitHolds sid w = true →
        exec .waitConditionMet s = .next ((unwaited s sid i).addRun ⟨sid, { w.path with resume := some w.on }⟩)) ∧
      (s.waitHolds sid w = false → exec .waitConditionMet s = .next s)) ∧
    (∀ m, w.on = .mask m → bitOf m 5 = false →
      (s.maskHolds sid m = true →
        exec .waitConditionMet s = .next ((unwaited s sid i).modStr sid fun st => st.modThs w.path.lanes fun _ t =>
          { t with st := .ready, pc := w.path.hdrAddr })) ∧
      (s.maskHolds sid m = false → exec .waitConditionMet s = .next s)) ∧
    (w.on = .switch →
      ((s.str sid).pending = false → (s.str sid).due w.path.lanes true false false = [] →
        exec .waitConditionMet s = .next ((unwaited s sid i).goOn sid w.path)) ∧
      ((s.str sid).pending = true → exec .waitConditionMet s = .next s)) ∧
    (∀ taken, w.on = .leave taken → (∀ x ∈ taken, x.1 ∈ w.path.lanes) →
      ((s.str sid).pending = false → (s.str sid).due w.path.lanes true false false = [] →
        exec .waitConditionMet s = .next ((unwaited s sid i).clauseExit sid w.path taken
          (w.path.lanes.filter fun l => !(taken.map (·.1)).contains l))) ∧
      ((s.str sid).pending = true → exec .waitConditionMet s = .next s)) ∧
    (∀ till, w.on = .sleep till →
      (till ≤ s.cycle → exec .sleepIntervalElapsed s = .next ((unwaited s sid i).advance sid w.path)) ∧
      (s.cycle < till → exec .sleepIntervalElapsed s = .next s))) ∧
  (∀ (s : State) (sid : Nat), s.args = [sid] → nhas s.strands sid = true → (s.str sid).finished = false → nsorted (s.str sid).lanes = true →
    ((s.str sid).csr.wdog < (s.gridOf sid).kd.period → exec .watchdogExpiry s = .next s) ∧
    ((s.gridOf sid).kd.period ≤ (s.str sid).csr.wdog → (s.str sid).csr.tlevel = 0 →
      (∀ w ∈ (s.str sid).waits, w.path.undo = []) → (∀ r ∈ s.issuing sid, r.path.undo = []) →
      let a := s.abandon sid
      exec .watchdogExpiry s =
        .next (a.trap sid ((a.str sid).liveLanes.map fun l => ⟨l, 0x70, 0, 0, s.pcOf sid l⟩)) ∧
      (a.str sid).waits = [] ∧ (a.str sid).liveLanes = (s.str sid).liveLanes ∧ a.mem = s.mem ∧ (a.str sid).frames = (s.str sid).frames))

/-- R10 to R13, R88, R105: a clause issues. The offered path's threads run; with no breakpoint there and nothing the header's mask
waits for, a clause that passes the checks is begun at its first word; one that waits stands before it. That the mask comes before the
checks is the model's choice (log 68), and that the start takes no issue slot of its own (log 34). -/
def Sys2Proof.Claim.ClauseIssues : Prop :=
  ∀ (s : State) (sid : Nat) (second : Bool) (codes : List Nat) (pc : Word64) (lanes : List Nat), s.args = sid :: natOf second :: codes →
    let beside := !(s.issuing sid).isEmpty
    let soft := codes.map regOfCode
    (s.mayIssue sid second = false → exec .clauseIssue s = .next s) ∧
    (s.mayIssue sid second = true → (s.str sid).offer second beside = none → exec .clauseIssue s = .next s) ∧
    (s.mayIssue sid second = true → (s.str sid).offer second beside = some (pc, lanes) → s.bpMatch sid lanes pc = none →
      (s.str sid).bindErr = none → noMasks (s.str sid) →
      exec .clauseIssue s = .next ((underWay s sid lanes soft).startClause sid lanes pc second) ∧
      ∀ (line : List Word) (t : State) (n : Nat),
        let w := pc.toNat % 128 / 4
        let va := pc.toNat / 128 * 128
        let p := atFirst lanes va line w n second
        let mask := bitsOf p.hdr.toNat 28 22
        (underWay s sid lanes soft).fetchLine sid va = (.ok line, t) → lineOk va line = true → clauseAt line w = some (w, n) → n ≠ 0 →
        (∃ q, quadOf w = some q ∧ bitOf (lineSmap line) q = true) → (∀ l ∈ lanes, ((t.str sid).th l).chk = none) →
        t.bpMatch sid lanes p.wordPc = none → headerFails (t.str sid).isLead p.hdr.toNat = false →
        clauseFails (t.issueCtx sid) p.hdr.toNat (p.words.map BitVec.toNat) = none →
        (t.maskHolds sid mask = true → (t.str sid).due lanes (bitOf mask 0) (bitOf mask 1) (bitOf mask 4) = [] →
          ∃ u, exec .clauseIssue s = .next u ∧ u.runs = ⟨sid, p⟩ :: t.runs ∧ u.mem = t.mem ∧ (u.str sid).frames = (t.str sid).frames) ∧
        (t.maskHolds sid mask = false → exec .clauseIssue s = .next (t.await sid { p with pos := 0 } (.mask mask))))

/-- R10 to R13, R88, R105, R183, R344, R356: waits end, clauses issue (the order of choices that the spec leaves free is the model's:
notes/assumptions/34.md, 58.md). -/
def Obligations.WaitsAndClauses : Prop := Claim.WaitsEnd ∧ Claim.ClauseIssues

/-- R105, R106: a clause that fails a check is not begun. Every thread of the path traps, with the header in TEPC, and in TADDR the word
that failed or, for checks 1 and 2, the header; which check and which word come from the order of R105's table, the checks of a
word among them by its place, its class and what it decodes to. -/
def Sys2Proof.Claim.IllegalClausesTrap : Prop :=
  (∀ (s : State) (sid : Nat) (second : Bool) (codes : List Nat) (pc : Word64) (lanes : List Nat) (line : List Word) (t : State),
    s.args = sid :: natOf second :: codes → s.mayIssue sid second = true →
    (s.str sid).offer second (!(s.issuing sid).isEmpty) = some (pc, lanes) → s.bpMatch sid lanes pc = none →
    (s.str sid).bindErr = none → noMasks (s.str sid) →
    let w := pc.toNat % 128 / 4
    let va := pc.toNat / 128 * 128
    (underWay s sid lanes (codes.map regOfCode)).fetchLine sid va = (.ok line, t) → t.bpMatch sid lanes (pc + 4) = none →
    pc.toNat % 4 = 0 →
    (lineOk va line = false → exec .clauseIssue s = .next (t.trapAll sid lanes 0x01 1 pc pc)) ∧
    ∀ n q, lineOk va line = true → clauseAt line w = some (w, n) → quadOf w = some q → bitOf (lineSmap line) q = true →
      (∀ l ∈ lanes, ((t.str sid).th l).chk = none) →
      let hdr := wordAt line w
      let mask := bitsOf hdr 28 22
      let words := (List.range n).map fun i => (line.getD (w + 1 + i) 0).toNat
      let u := t.passMask sid mask
      t.maskHolds sid mask = true → (u.str sid).due lanes (bitOf mask 0) (bitOf mask 1) (bitOf mask 4) = [] →
      (headerFails (t.str sid).isLead hdr = true → exec .clauseIssue s = .next (u.trapAll sid lanes 0x01 2 pc pc)) ∧
      (headerFails (t.str sid).isLead hdr = false → n ≠ 0 → ∀ k sub cause, clauseFails (u.issueCtx sid) hdr words = some (k, sub, cause) →
        exec .clauseIssue s = .next (u.trapAll sid lanes cause sub (pc + BitVec.ofNat 64 (4 * k)) pc))) ∧
  (∀ (c : IssueCtx) (hdr : Nat) (ws : List Nat),
    (clauseFails c hdr ws = none ↔ ∀ k, 1 ≤ k → k ≤ ws.length → wordFails c hdr ws k = none) ∧
    ∀ k sub cause, clauseFails c hdr ws = some (k, sub, cause) → 1 ≤ k ∧ k ≤ ws.length ∧ wordFails c hdr ws k = some (sub, cause) ∧
      ∀ j, 1 ≤ j → j < k → wordFails c hdr ws j = none) ∧
  (∀ (c : IssueCtx) (hdr : Nat) (ws : List Nat) (k : Nat), 1 ≤ k → k ≤ ws.length →
    let w := ws.getD (k - 1) 0
    let cls := bitsOf hdr 6 4
    let early := [3, 4, 5, 6, 7]
    let at' (x : Nat) : Prop := ∃ cause, wordFails c hdr ws k = some (x, cause)
    (28 ≤ w / 2 ^ 27 → w < 2 ^ 32 → wordFails c hdr ws k = some (3, 0x00)) ∧
    (decodeWord w = .error .unassigned → wordFails c hdr ws k = some (4, 0x00)) ∧
    (decodeWord w ≠ .error .reservedMajor → decodeWord w ≠ .error .unassigned → admits cls w = false → wordFails c hdr ws k = some (5, 0x01)) ∧
    (decodeWord w ≠ .error .reservedMajor → decodeWord w ≠ .error .unassigned → admits cls w = true → c.lead = false →
      isTransfer w = true → (k ≠ ws.length ∨ (cls ≠ 3 ∧ cls ≠ 6)) → wordFails c hdr ws k = some (6, 0x01)) ∧
    (∀ e, decodeWord w = .error e → e ≠ .reservedMajor → e ≠ .unassigned → (∀ x ∈ early, ¬at' x) → wordFails c hdr ws k = some (8, 0x01)) ∧
    (∀ i, decodeWord w = .ok i → (∀ x ∈ early ++ [8], ¬at' x) → .lr ∈ sources i →
      (k = 1 ∨ writesLr (ws.getD (k - 2) 0) = false) → wordFails c hdr ws k = some (9, 0x02)) ∧
    (∀ i, decodeWord w = .ok i → (∀ x ∈ early ++ [8, 9], ¬at' x) → isPrivileged w = true → c.sys = false →
      wordFails c hdr ws k = some (10, 0x04)))

/-- R10, R104 to R106: a step that takes an event from outside; a clause that fails a check traps. -/
def Obligations.StepElsewhere : Prop := Claim.StepTakesInput ∧ Claim.IllegalClausesTrap

/-- R14, R322: a thread whose key no open bin with room has opens one: the lowest free of the 16, with a frame of the role's base size in
the partition with the most free units, the lowest of several; where no bin or no block is free, it waits. -/
def Sys2Proof.Claim.FilingOpensBin : Prop :=
  ∀ (s : State) (sid since : Nat) (x : Filing), (s.team (s.str sid).team).saving = false →
    let core := (s.str sid).core
    let bins := (s.core core).bins
    let part := s.binPart core
    let size := ((s.gridOf sid).kd.role (s.str sid).role).frame
    (∀ y ∈ bins, y.2.team = (s.str sid).team → y.2.role = (s.str sid).role → y.2.pc = x.key → 32 ≤ y.2.threads.length) →
    part < 4 ∧ (∀ q < 4, s.freeUnits core q < s.freeUnits core part ∨ (s.freeUnits core q = s.freeUnits core part ∧ part ≤ q)) ∧
    ((∀ k < 16, nhas bins k = true) → s.fileOne sid x since = none) ∧
    (s.findBlock core part size = none → s.fileOne sid x since = none) ∧
    (∀ k base, k < 16 → (∀ j < k, nhas bins j = true) → nget bins k = none → s.openRequests core part = [] →
      (∀ y ∈ s.fileRequests core, since ≤ y) → s.findBlock core part size = some base →
      ∃ u b, s.fileOne sid x since = some u ∧ nget (u.core core).bins k = some b ∧ b.team = (s.str sid).team ∧
        b.role = (s.str sid).role ∧ b.pc = x.key ∧ b.threads = [x] ∧ b.age = 0 ∧ b.frame.size = size ∧ b.frame.part = part ∧
        b.frame.base = base ∧ u.strands = s.strands ∧ u.mem = s.mem)

/-- R14, R15, R18, R175, R176, R322: reform with its checks in order, spawn and filing, into a bin of the key or a new one (the wait for earlier
stores is the model's: notes/assumptions/16.md). -/
def Obligations.ReformSpawnFiling : Prop := Claim.ReformOrders ∧ Claim.ReformAndSpawnResults ∧ Claim.FilingJoinsBin ∧ Claim.FilingOpensBin

/-- R16, R34, R322: a bin whose oldest thread has waited long enough becomes due; a due bin's threads become a strand, with the lowest
free number of its role, the bin's frame and lanes in the order of filing, once its partition has one of its 32 strand slots free (R2;
log 26). R320, R321: the compactor moves a frame down. R45: a team with nothing left ends: its strands, bins, tokens and drain slots are
gone, its tickets pass on, and its end is reported to its grid; the team itself goes with its cluster (log 44). -/
def Obligations.BinsAndTeamsEnd : Prop :=
  (∀ (s : State) (core k : Nat) (b : Bin), s.args = [core, k] → nget (s.core core).bins k = some b →
    let age := (s.grid (s.team b.team).grid).kd.age
    ((if age = 0 then 2000 else age) ≤ b.age →
      ∃ u, exec .binAgeTimerExpiry s = .next u ∧ ((nget (u.core core).bins k).map (·.fired)) = some true ∧
        ((nget (u.core core).bins k).map fun x => (x.threads, x.frame, x.pc)) = some (b.threads, b.frame, b.pc) ∧
        u.strands = s.strands ∧ u.mem = s.mem) ∧
    (b.age < (if age = 0 then 2000 else age) → exec .binAgeTimerExpiry s = .next s)) ∧
  (∀ (s : State) (core k n : Nat) (b : Bin), s.args = [core, k] → nsorted (s.core core).bins = true →
    nget (s.core core).bins k = some b → b.readyAt.isSome = true →
    (∀ x ∈ (s.core core).bins, x.1 ≠ k → ¬(x.2.team = b.team ∧ x.2.role = b.role)) →
    (s.ctx (s.grid (s.team b.team).grid).ctx).dbg.halted = false → (s.team b.team).ptoHalted = false →
    s.slotsFull core b.frame.part = false →
    n < ((s.grid (s.team b.team).grid).kd.role b.role).strands →
    (∀ j, j < n → ∃ x ∈ s.teamStrands b.team, x.2.role = b.role ∧ x.2.finished = false ∧ x.2.strandid = j) →
    (∀ x ∈ s.teamStrands b.team, x.2.role = b.role → x.2.finished = false → x.2.strandid ≠ n) →
    ∃ (u : State) (st : Strand), exec .binLaunch s = .next u ∧ nget (u.core core).bins k = none ∧
      nget u.strands s.ids.sid = some st ∧ (∀ j, j ≠ s.ids.sid → nget u.strands j = nget s.strands j) ∧
      st.team = b.team ∧ st.core = core ∧ st.part = b.frame.part ∧ st.role = b.role ∧ st.strandid = n ∧ st.frames = [b.frame] ∧
      st.lanes = (b.threads.zipIdx.map fun x => (x.2, { x.1.thread with st := .ready, pc := b.pc })) ∧ u.mem = s.mem) ∧
  (∀ (s : State) (core part uid n sid base : Nat) (f : Frame), s.args = [core, part, uid] →
    n ∈ s.frameRequests core part → frameUnits n ≤ s.freeUnits core part → s.findBlock core part n = none →
    (∀ m, (s.frameRequests core part).head? = some m → s.findBlock core part m = none) → s.frameAcc core uid = false →
    nget s.strands sid = some (s.str sid) → (s.str sid).core = core → (s.teamOf sid).saving = false →
    (s.str sid).frames.find? (fun g => g.uid == uid && g.part == part) = some f →
    (∀ x ∈ s.strands, x.1 ≠ sid → ∀ g ∈ x.2.frames, g.uid ≠ uid) → nsorted s.strands = true →
    s.findBlock core part f.size = some base → base < f.base →
    exec .compactorMove s = .next (s.modStr sid fun st => { st with frames := st.frames.map fun g =>
      if g.uid = uid then { g with base := base } else g })) ∧
  (∀ (s : State) (tid : Nat), s.args = [tid] →
    (s.teamDone tid = false → exec .teamEnd s = .next s) ∧
    (s.teamDone tid = true →
      (∀ k x, s.lastOfShare tid = some (k, x) → x.doneOff = none32 ∨ s.loop.postq.length < 1024 ∨ s.loop.st = .down) →
      exec .teamEnd s = .next (s.endTeam tid)) ∧
    (s.teamDone tid = true → s.lastOfShare tid = none →
      let t := s.team tid
      let g := s.grid t.grid
      let c := s.ctx g.ctx
      ∃ u, exec .teamEnd s = .next u ∧
        (∀ x ∈ u.strands, x.2.team ≠ tid) ∧ (∀ x ∈ (u.core t.core).bins, x.2.team ≠ tid) ∧ (∀ x ∈ (u.core t.core).mx, x.2.team ≠ tid) ∧
        (∀ x ∈ (u.core t.core).cp, x.2.team ≠ tid) ∧ (∀ x ∈ (u.core t.core).drn, x.2.team ≠ tid) ∧
        (c.ck.taking = false → nhas s.grids t.grid = true → t.teamid ∈ (u.grid t.grid).ended ∧
          (∀ n k, nget g.tickets n = some k → nget (u.grid t.grid).tickets n =
            some (if k.value = t.teamid then { g with ended := insertNat t.teamid g.ended }.passed k else k)) ∧
          (t.cluster = [tid] → nhas u.teams tid = false))))

/-! Events of the engines. -/

namespace Sys2Proof.Claim
open Sys2Proof.Machine

/-- Where row r of a copy begins and which of its words have been moved: a row that has not begun takes its source now (R250). -/
def rowSoFar (s : State) (c : CpTok) (r slot : Nat) : Nat × List Nat := (nget c.parts r).getD (s.srcRow c (cpDesc c.desc) r slot, [])
/-- The words of a row still to be moved. -/
def wordsLeft (d : CpDesc) (done : List Nat) : List Nat := (List.range (d.rowBytes / 4)).filter fun i => !done.contains i
/-- All of them, or one, is moved at once (R295). -/
def movesNow (left ws : List Nat) : Prop := ws = left ∨ ∃ i ∈ left, ws = [i]
/-- The row's words are noted as moved; a row all of whose words are is forgotten. -/
def noted (s : State) (core k r src : Nat) (d : CpDesc) (done : List Nat) : State :=
  s.modCp core k fun c => { c with parts := if d.rowBytes / 4 ≤ done.length then ndel c.parts r else nset c.parts r (src, done) }
/-- A token stopped by a fault (R254). -/
def halted (c : CpTok) (e : EngFault) : CpTok :=
  { c with st := .stopped, reported := false, cause := e.1, faultAddr := e.2, later := [], parts := [] }
/-- n bytes of the team's scratchpad from an offset on, a multiple of 4, all in tier 1. -/
def inPad (s : State) (tid off n : Nat) : Prop :=
  off % 4 = 0 ∧ off + n ≤ (s.grid (s.team tid).grid).kd.spSize ∧ (s.team tid).spBase + (s.grid (s.team tid).grid).kd.spSize ≤ 0x80000000
def padByte (s : State) (tid off : Nat) : Byte := s.mem.read ((s.team tid).spBase + off)

end Sys2Proof.Claim

/-- R250, R252 to R255, R295: a word of a row of a copy, or all that are left, is moved, and ROWDONE advances when rows are whole; a
fault stops the token. Within a scratchpad the words of a plain copy, a fill and a gather are the fill word or the source row's.
`cp.q` fills a slot row by row and posts it, waits where no slot is free, and ends where the queue is closed. -/
def Sys2Proof.Claim.CopyEngineMoves : Prop :=
  (∀ (s : State) (core k r : Nat) (c : CpTok), s.args = [core, k, r] → nget (s.core core).cp k = some c →
    let d := cpDesc c.desc
    let x := rowSoFar s c r 0
    let left := wordsLeft d x.2
    (c.st ≠ .busy ∨ r < c.rowdone ∨ r ∈ c.later ∨ d.rows ≤ r → exec .copyRow s = .next s) ∧
    (c.st = .busy → c.form ≠ 3 → c.rowdone ≤ r → r ∉ c.later → r < d.rows → left ≠ [] → ∃ ws, movesNow left ws ∧
      (∀ u, s.copyRow k c d x.1 d.dsp (rowAddr d.dsp d.dst r d.dpitch) ws = .ok u →
        let v := noted u core k r x.1 d (x.2 ++ ws)
        exec .copyRow s = .next (if d.rowBytes / 4 ≤ (x.2 ++ ws).length then v.modCp core k fun c => c.rowDone r d.rows else v)) ∧
      (∀ e u, s.copyRow k c d x.1 d.dsp (rowAddr d.dsp d.dst r d.dpitch) ws = .error (e, u) →
        exec .copyRow s = .next (u.modCp core k fun c => halted c e))) ∧
    (let o := (d.dst + r * d.dpitch) % 2 ^ 32
     let index := d.index % 2 ^ 32 + 4 * r
     let row := if c.form = 2 then leSum ((List.range 4).map fun i => padByte s c.team (index + i)) else r
     let src := (d.src + row * d.spitch) % 2 ^ 32
     c.st = .busy → c.form < 3 → c.rowdone ≤ r → r ∉ c.later → r < d.rows → 0 < d.rowBytes → d.rowBytes % 4 = 0 →
     c.dgon = false → d.dsp = 1 → (c.form ≠ 1 → d.ssp = 1 ∧ inPad s c.team src d.rowBytes) →
     (c.form = 2 → inPad s c.team index 4) → inPad s c.team o d.rowBytes → nget c.parts r = none → c.orig = [] →
     (∀ i < d.rowBytes, s.overlaps c d ((s.team c.team).spBase + (o + i)) = false) → (s.team c.team).core = core →
     (s.grid (s.team c.team).grid).kd.spSize ≤ 0x600000 → s.mem.wf = true → (∀ x ∈ s.cores, x.2.mx = []) →
     (∀ x ∈ s.teams, x.2.queues = []) →
     ∃ u ws, exec .copyRow s = .next u ∧ movesNow (List.range (d.rowBytes / 4)) ws ∧
       (∀ i < d.rowBytes, padByte u c.team (o + i) = if i / 4 ∉ ws then padByte s c.team (o + i)
         else if c.form = 1 then (leBytes 4 d.fill).getD (i % 4) 0 else padByte s c.team (src + i)) ∧
       (∀ a, a < (s.team c.team).spBase + o ∨ (s.team c.team).spBase + o + d.rowBytes ≤ a → u.mem.read a = s.mem.read a) ∧
       nget (u.core core).cp k = some (if ws.length = d.rowBytes / 4 then { c with parts := ndel c.parts r }.rowDone r d.rows
         else { c with parts := nset c.parts r ((rowSoFar s c r 0).1, ws) }) ∧ u.strands = s.strands ∧ u.teams = s.teams)) ∧
  (∀ (c : CpTok) (r rows : Nat), c.later = [] → r = c.rowdone →
    (c.rowDone r rows).rowdone = r + 1 ∧ (c.rowDone r rows).st = if r + 1 = rows then .done else .busy) ∧
  (∀ (s : State) (core k : Nat) (c : CpTok) (q : LiveQ), s.args = [core, k] → nget (s.core core).cp k = some c → c.st = .busy →
    c.form = 3 →
    let d := cpDesc c.desc
    let desc := d.dst % 2 ^ 32
    s.liveQ c.team desc = some q →
    (c.slot = none → q.closed = true → exec .cpQSlotFill s = .next ((s.modCp core k fun c =>
      { c with st := .done, qclosed := true }).unrefEngine c.team desc (64 + k))) ∧
    (c.slot = none → q.closed = false → q.count ≤ ahead q.c0 q.c3 → exec .cpQSlotFill s = .next s) ∧
    (c.slot ≠ none ∨ (q.closed = false ∧ ahead q.c0 q.c3 < q.count) →
      let off := c.slot.getD (q.base + q.c0 % q.count * q.size)
      let s0 := if c.slot = none then s.modQ c.team desc fun q => { q with c0 := (q.c0 + 1) % 2 ^ 32 } else s
      (∃ r < d.rows, r ∉ c.later) → (∀ r, wordsLeft d (rowSoFar s0 c r c.rowdone).2 ≠ []) →
      ∃ r ws, r < d.rows ∧ r ∉ c.later ∧
        let x := rowSoFar s0 c r c.rowdone
        movesNow (wordsLeft d x.2) ws ∧
        (∀ e u, s0.copyRow k c d x.1 1 (off + r * d.dpitch) ws = .error (e, u) →
          exec .cpQSlotFill s = .next (u.modCp core k fun c => { halted c e with slot := some off })) ∧
        (∀ u, s0.copyRow k c d x.1 1 (off + r * d.dpitch) ws = .ok u →
          let v := noted u core k r x.1 d (x.2 ++ ws)
          let rows := if d.rowBytes / 4 ≤ (x.2 ++ ws).length then insertNat r c.later else c.later
          (rows.length < d.rows → exec .cpQSlotFill s = .next (v.modCp core k fun c => { c with slot := some off, later := rows })) ∧
          (d.rows ≤ rows.length →
            let posted := v.modQ c.team desc fun q => { q with c1 := (q.c1 + 1) % 2 ^ 32 }
            let w := posted.modCp core k fun c =>
              { c with rowdone := c.rowdone + 1, later := [], slot := none, st := if c.rowdone + 1 = d.nslot then .done else .busy }
            c.rowdone = ((nget (u.core core).cp k).getD default).rowdone →
            exec .cpQSlotFill s = .next (if c.rowdone + 1 = d.nslot then w.unrefEngine c.team desc (64 + k) else w)))))

namespace Sys2Proof.Claim
open Sys2Proof.Machine

/-- The operation in a core's array. -/
def inArray (s : State) (core k : Nat) (t : MxTok) : Prop := (s.core core).arr.op = some k ∧ nget (s.core core).mx k = some t

/-- The sum of an element after a wavefront: exact for S8, rounded as R72 says otherwise. -/
def sumAfter (f : Nat) (old : Int) (i : ColIn) : Int :=
  if fmtGroup (afmt f) = 2 then asumInt old i else (asumStep f old.toNat i.prods : Nat)

/-- An accumulator after a promotion (R73, R74), and whether it overflowed. -/
def promoted (f : Nat) (acc : Word) (sum : Int) : Word :=
  if fmtGroup (afmt f) = 2 then BitVec.ofInt 32 (max (-2147483648) (min 2147483647 (acc.toInt + sum)))
  else BitVec.ofNat 32 (promote (bitOf f 16) acc.toNat sum.toNat).1

/-- An array's sum at element (m, n). -/
def sumAt (s : State) (core m n : Nat) : Int := (nget (s.core core).arr.asum (128 * m + n)).getD 0

/-- What column n sees of a wavefront: the row's part of A, and B and its scales from the column's slice of 16 KiB (R35, R37, R227). -/
def columnSees (s : State) (core : Nat) (t : MxTok) (w : Wave) (n : Nat) : ColIn :=
  let slice := core * 0x800000 + 0x600000 + n * 0x4000
  let blocks := kstep t.f / 32
  ⟨t.f, w.a, w.scales, w.sides, s.mem.readN (slice + t.par.boff + 128 * w.s) 128,
    if fmtScaled (bfmt t.f) then s.mem.readN (slice + t.par.bscale + w.s * blocks) blocks else []⟩

/-- A k-step after which the sums are promoted: every P-th, and the last (R73). -/
def promotes (t : MxTok) (w : Wave) : Prop := (w.s + 1) % t.par.p = 0 ∨ w.s + 1 = t.par.ks

/-- The register of element n of row m in the accumulator (R229). -/
def accReg (x : RegRun) (m n : Nat) : RegLoc := ⟨x.frame, x.first + 4 * (m % 16) + n / 32, n % 32⟩

/-- A wavefront has been added to the sums of its row, and where its k-step promotes them they are in the accumulator (of an operation
that ends with it, one that releases no queue). -/
def swept (s u : State) (core k : Nat) (t : MxTok) (w : Wave) : Prop :=
  (¬promotes t w → u.strands = s.strands ∧
    ∀ n < t.par.n, sumAt u core w.m n = sumAfter t.f (sumAt s core w.m n) (columnSees s core t w n)) ∧
  (promotes t w → ∀ x, t.acc[w.m / 16]? = some x → nhas s.strands x.strand = true → (s.str x.strand).finished = false →
    ((s.str x.strand).frameOf x.frame).isSome = true → x.frame ≠ 0 → t.raced = false → t.undef = [] →
    (w.m + 1 ≠ t.par.m ∨ w.s + 1 ≠ t.par.ks ∨ (t.par.last = true ∧ t.par.dslot ≠ 0xFF) ∨
      (t.par.aq = false ∧ ∀ y ∈ (s.team t.team).queues, 32 + k ∉ y.2.engines)) →
    ∀ n < t.par.n, sumAt u core w.m n = 0 ∧
      (u.str x.strand).peek (accReg x w.m n) =
        promoted t.f (if t.par.first ∧ w.s < t.par.p then 0 else (s.str x.strand).peek (accReg x w.m n))
          (sumAfter t.f (sumAt s core w.m n) (columnSees s core t w n)))

end Sys2Proof.Claim

/-- R326, R330, R331, R334, R433, R435: the array takes the next operation, loads weights, admits rows in order, at most MXCAP in a
microsecond and at most 625 while the core is throttled, and completes the oldest: the sums and, where a promotion is due, the
accumulators of every column (R68 to R74). With the last row of a k-step the next weights move into the latches; with the last
wavefront the operation goes to the drain or is DONE. A halt takes effect once nothing is in flight. -/
def Sys2Proof.Claim.ArrayMoves : Prop :=
  (∀ (s : State) (core k : Nat) (t : MxTok), s.args = [core] → inArray s core k t →
    ((s.core core).arr.weights = none → ∃ u, exec .weightReloadComplete s = .next u ∧ (u.core core).arr.weights = some t.posS ∧
      (u.core core).arr.shadow = none ∧ (u.core core).mx = (s.core core).mx ∧ u.mem = s.mem ∧ u.strands = s.strands) ∧
    (∀ w, (s.core core).arr.weights = some w → (s.core core).arr.shadow = none → w + 1 < t.par.ks →
      ∃ u, exec .weightReloadComplete s = .next u ∧ (u.core core).arr.shadow = some (w + 1) ∧ (u.core core).arr.weights = some w ∧
        (u.core core).mx = (s.core core).mx ∧ u.mem = s.mem ∧ u.strands = s.strands)) ∧
  (∀ (s : State) (core k : Nat) (t : MxTok), s.args = [core] → (s.core core).arr.op = none → (s.core core).arr.halt = none →
    s.nextOp core = some k → nget (s.core core).mx k = some t →
    ∃ u, exec .weightReloadComplete s = .next u ∧ (u.core core).arr.op = some k ∧ (u.core core).arr.weights = some t.posS ∧
      (u.core core).arr.inflight = []) ∧
  (∀ (s : State) (core k : Nat) (t : MxTok), s.args = [core] → inArray s core k t → (s.core core).arr.halt = none →
    (s.core core).arr.held = false → s.teamHeld t.team = false → (s.core core).arr.inflight.length < 8 → t.posS < t.par.ks →
    (s.core core).arr.weights = some t.posS → ((s.core core).arr.begun = true ∨ s.dieShut core = false) → t.par.aq = false →
    t.slot = none →
    let r := (s.core core).regs
    let cooled : Bool := r.throttled && r.wasThrottled
    let limited := cooled = true ∨ (1 ≤ r.mxcap ∧ r.mxcap ≤ 2500)
    let most := if 1 ≤ r.mxcap ∧ r.mxcap ≤ 2500 then r.mxcap else 2500
    let cap := if cooled then min 625 most else most
    let lately := ((s.core core).arr.admits.filter fun c => decide (s.cycle < c + 2000)).length
    (limited → cap ≤ lately → exec .wavefrontAdmission s = .next s) ∧
    (¬limited ∨ lately < cap → ∃ (u : State) (w : Wave) (t' : MxTok), exec .wavefrontAdmission s = .next u ∧
      (u.core core).arr.inflight = (s.core core).arr.inflight ++ [w] ∧ w.s = t.posS ∧ w.m = t.posM ∧
      (t.par.areg = false → w.a = s.mem.readN ((s.team t.team).phys (t.par.aaddr + t.posM * t.par.apitch + 128 * t.posS)) 128) ∧
      nget (u.core core).mx k = some t' ∧ t'.st = .array ∧ (u.core core).arr.begun = true ∧
      (t.posM + 1 ≠ t.par.m → t'.posS = t.posS ∧ t'.posM = t.posM + 1 ∧
        (u.core core).arr.weights = (s.core core).arr.weights ∧ (u.core core).arr.shadow = (s.core core).arr.shadow) ∧
      (t.posM + 1 = t.par.m → t'.posS = t.posS + 1 ∧ t'.posM = 0 ∧ (u.core core).arr.shadow = none ∧
        (u.core core).arr.weights = if (s.core core).arr.shadow = some (t.posS + 1) then some (t.posS + 1) else none) ∧
      u.mem = s.mem ∧ u.strands = s.strands)) ∧
  (∀ (s : State) (core k : Nat) (t : MxTok) (w : Wave) (rest : List Wave), s.args = [core] → inArray s core k t →
    (s.core core).arr.inflight = w :: rest → w.m < t.par.m → t.par.n ≤ 128 → nsorted (s.core core).arr.asum = true →
    (s.team t.team).core = core → (s.core core).arr.halt = none →
    ∃ u t', exec .wavefrontComplete s = .next u ∧ nget (u.core core).mx k = some t' ∧ swept s u core k t w ∧
      (u.core core).regs.wfcnt = (s.core core).regs.wfcnt + 1 ∧
      (w.m + 1 = t.par.m → promotes t w → t'.kdone = w.s + 1) ∧ (¬(w.m + 1 = t.par.m ∧ promotes t w) → t'.kdone = t.kdone) ∧
      (w.m + 1 ≠ t.par.m ∨ w.s + 1 ≠ t.par.ks →
        (u.core core).arr.inflight = rest ∧ (u.core core).arr.op = some k ∧ t'.st = t.st ∧ u.mem = s.mem ∧ u.teams = s.teams) ∧
      (w.m + 1 = t.par.m → w.s + 1 = t.par.ks →
        (u.core core).arr.op = none ∧ (u.core core).arr.weights = none ∧ (u.core core).arr.shadow = none ∧
        (t.par.last = true → t.par.dslot ≠ 0xFF → t'.st = .drain ∧ (u.core core).dre.queue = (s.core core).dre.queue ++ [k]) ∧
        (t.par.last = false ∨ t.par.dslot = 0xFF → t'.st = .done ∧ (u.core core).dre.queue = (s.core core).dre.queue))) ∧
  (∀ (s : State) (core k : Nat) (t : MxTok) (h : Halt), s.args = [core] → inArray s core k t → (s.core core).arr.halt = some h →
    (s.core core).arr.held = false →
    ((s.core core).arr.inflight ≠ [] → exec .arrayQuiescentPoint s = .next s) ∧
    ((s.core core).arr.inflight = [] → ∃ u, exec .arrayQuiescentPoint s = .next u ∧
      (u.core core).regs.aqpmax = max (s.core core).regs.aqpmax (s.cycle - (s.core core).arr.haltAt) ∧
      (h = .debug → (u.core core).arr.held = true ∧ (u.core core).arr.op = some k ∧ u.strands = s.strands ∧ u.mem = s.mem) ∧
      (h = .preempt → (u.core core).arr.op = none ∧ u.strands = s.strands ∧ u.mem = s.mem ∧
        (nget (u.core core).mx k).map (·.asum) = some (s.core core).arr.asum) ∧
      (h = .abort → (u.core core).arr.op = none ∧ (nget (u.core core).mx k).map (·.st) = some .aborted)))

namespace Sys2Proof.Claim
open Sys2Proof.Machine

/-- A number cut toward zero to a multiple of 2^l. -/
def cut (l : ℤ) (v : ℚ) : ℚ := (if v < 0 then -1 else 1) * (⌊|v| / 2 ^ l⌋ : ℤ) * 2 ^ l
/-- The exponent bound M of a format (R69). -/
def boundM (c : Nat) : ℤ := if c = 2 then 3 else if c = 1 ∨ c = 8 then 16 else 9
/-- A finite product. -/
def finite (x : Ext) : Prop := ∃ s n d, x = .fin s n d ∧ 0 < d
def valueOf (p : Prod) : ℚ := (num p.val).getD 0
/-- The exact sum of the column word (R69, R70), over the products that are no escapes. -/
def isColumn (f : Nat) (ps : List Prod) (w : ℚ) : Prop :=
  let vs := (ps.filter fun p => !p.escape).map valueOf
  let cutAll (t : ℤ) : ℚ := (vs.map (cut (t + (Nat.log2 (kstep f) : ℤ) - 63))).sum
  (fmtGroup (afmt f) = 1 → w = vs.sum) ∧
  (fmtGroup (afmt f) = 0 → ∀ x : ℤ, (∀ p ∈ ps, p.xsum ≤ x) → (∃ p ∈ ps, p.xsum = x) → w = cutAll (boundM (afmt f) + boundM (bfmt f) + x)) ∧
  (fmtGroup (afmt f) = 3 → (∀ v ∈ vs, v = 0) → w = 0) ∧
  (fmtGroup (afmt f) = 3 → ∀ t : ℤ, (∀ v ∈ vs, |v| < 2 ^ t) → (∃ v ∈ vs, 2 ^ (t - 1) ≤ |v|) → w = cutAll t)

end Sys2Proof.Claim

/-- R50, R51, R68 to R75: the products of a wavefront, the column word, the running sum after it and the promotion, by value. -/
def Sys2Proof.Claim.WavefrontValues : Prop :=
  (∀ (i : ColIn) (k : Nat),
    let a := elemValue (afmt i.f) (i.f / 256 % 16) (elemCode (afmt i.f) i.a k)
    let b := elemValue (bfmt i.f) (i.f / 4096 % 16) (elemCode (bfmt i.f) i.b k)
    let sa := if fmtScaled (afmt i.f) then (i.ascales.getD (k / 32) 0).toNat else 127
    let sb := if fmtScaled (bfmt i.f) then (i.bscales.getD (k / 32) 0).toNat else 127
    let escape : Prop := i.f / 2 ^ 17 % 2 = 1 ∧ elemCode 2 i.a k = 8
    let p := i.prod k
    (p.escape = true ↔ escape) ∧
    (sb < 255 → sa < 255 → p.xsum = (sa : ℤ) - 127 + ((sb : ℤ) - 127)) ∧
    (sa = 255 ∨ sb = 255 ∨ b.isNan = true ∨ (¬escape ∧ a.isNan = true) → p.val.isNan = true) ∧
    (¬escape → sa < 255 → sb < 255 → ∀ x y, num a = some x → num b = some y →
      num p.val = some (x * y * (2 : ℚ) ^ ((sa : ℤ) - 127 + ((sb : ℤ) - 127)))) ∧
    (escape → sa < 255 → sb < 255 → ∀ o, outlier i.asides k = some o →
      (o.isNan = true → p.val.isNan = true) ∧
      (∀ z y, num o = some z → num b = some y → num p.val = some (z * y * (2 : ℚ) ^ ((sb : ℤ) - 127)))) ∧
    (escape → sa < 255 → sb < 255 → outlier i.asides k = none → ∀ y, num b = some y → num p.val = some 0)) ∧
  (∀ (f sum : Nat) (ps : List Prod), (∀ p ∈ ps, p.escape = false → finite p.val) → (∀ p ∈ ps, p.val.isNan = false) →
    ∃ (w : Ext) (q : ℚ), num w = some q ∧ isColumn f ps q ∧
      let add (c : Nat) (x : Ext) : Nat := Fmt.asum.roundNE ((Fmt.asum.value c).add x)
      asumStep f sum ps = ((ps.filter (·.escape)).map (·.val)).foldl add (add sum (Fmt.asum.value (Fmt.asum.roundNE w)))) ∧
  (∀ (f sum : Nat) (ps : List Prod), let r := Fmt.asum.value (asumStep f sum ps)
    ((Fmt.asum.value sum).isNan = true ∨ (∃ p ∈ ps, p.val.isNan = true) ∨
      ((∃ p ∈ ps, p.escape = false ∧ p.val = .inf true) ∧ ∃ p ∈ ps, p.val = .inf false) ∨
      ((∃ p ∈ ps, p.escape = false ∧ p.val = .inf false) ∧ ∃ p ∈ ps, p.val = .inf true) → r.isNan = true) ∧
    (∀ s, (∃ p ∈ ps, p.escape = false ∧ p.val = .inf s) → (∀ p ∈ ps, p.val.isNan = false ∧ p.val ≠ .inf (!s)) →
      (Fmt.asum.value sum).isNan = false → r = if Fmt.asum.value sum = .inf (!s) then .nan else .inf s)) ∧
  (∀ (old : Int) (i : ColIn), asumInt old i = old + ((List.range (kstep i.f)).map fun k =>
    (i.a.getD k 0).toInt * (i.b.getD k 0).toInt).sum) ∧
  (∀ (sat : Bool) (acc : Word) (sum : Nat),
    let r := promote sat acc.toNat sum
    let x := Fmt.asum.value sum
    (nanF acc ∨ x.isNan = true → r = (0x7FC00000, false)) ∧
    (∀ s, f32 acc = .inf s → x.isNan = false → r = (if x = .inf (!s) then 0x7FC00000 else acc.toNat, false)) ∧
    (∀ s a, num (f32 acc) = some a → x = .inf s → r = (signBit Fmt.f32 s + 0x7F800000, false)) ∧
    (∀ a b, num (f32 acc) = some a → num x = some b →
      let top : ℚ := (2 ^ 24 - 1) * 2 ^ 104 + 2 ^ 103
      (top ≤ |a + b| → r = (signBit Fmt.f32 (decide (a + b < 0)) + (if sat then 0x7F7FFFFF else 0x7F800000), true)) ∧
      (|a + b| < top → r.2 = false ∧ nearest (has Fmt.f32) (a + b) r.1)))

/-- R50, R51, R68 to R75, R326 to R336: the array moves on, and what a wavefront adds. -/
def Obligations.ArrayMovesAndValues : Prop := Claim.ArrayMoves ∧ Claim.WavefrontValues

/-- R236, R244 to R246, R339: the drain takes the next unit of the first token in DRAIN, with a push where its queue has room, and
commits its units in order: the bytes they store, no others, then the entry they push; after the last the token is DONE. A fault
stops the token, with its cause and address. -/
def Sys2Proof.Claim.DrainMoves : Prop :=
  (∀ (s : State) (core k : Nat) (ks : List Nat) (t : MxTok), s.args = [core] → (s.core core).dre.queue = k :: ks →
    nget (s.core core).mx k = some t → (s.core core).dre.units.filter (·.tok == k) = [] → s.teamHeld t.team = false → t.abort = false →
    (s.core core).dre.units.length < 16 → t.um < t.par.m →
    let prog := drainProgram (((nget (s.core core).drn t.par.dslot).map (·.image)).getD [])
    (∀ e, s.readDarg core k t = .error e → ∃ (u : State) (t' : MxTok), exec .drainUnitEntry s = .next u ∧
      nget (u.core core).mx k = some t' ∧ t'.st = .stopped ∧ t'.dcause = e.1 ∧ t'.faultAddr = e.2 ∧ t'.reported = false ∧
      k ∉ (u.core core).dre.queue ∧ u.mem = s.mem) ∧
    (∀ s1 s2 u0, s.readDarg core k t = .ok s1 → s1.refPushes k ((s1.mxTok core k).getD t) prog = .ok s2 →
      s2.dRun ((s1.mxTok core k).getD t) t.um t.ug prog {} = .ok u0 → t.ug + 1 ≠ t.par.ng → ((s1.mxTok core k).getD t).par = t.par →
      nhas (s2.core core).mx k = true →
      let enters (pushes : List (Nat × List Word)) (shut : Bool) : Prop := ∃ v, exec .drainUnitEntry s = .next v ∧
        (v.core core).dre.units = (s2.core core).dre.units ++ [⟨k, t.um, t.ug, u0.stores.map (·.2), [], pushes, [], false⟩] ∧
        ((nget (v.core core).mx k).map (·.pushClosed)) = some (((s2.mxTok core k).getD t).pushClosed || shut)
      (u0.pushes = [] → enters [] false) ∧
      (∀ x q, u0.pushes = [x] → (∀ y ∈ (s.core core).dre.units, y.more = []) → s2.liveQ ((s1.mxTok core k).getD t).team x.1 = some q →
        (q.closed = true → enters [] true) ∧
        (q.closed = false →
          (s2.hasRoom ((s1.mxTok core k).getD t).team x.1 (if q.kind = 1 then 32 else 1) = true → enters [x] false) ∧
          (s2.hasRoom ((s1.mxTok core k).getD t).team x.1 (if q.kind = 1 then 32 else 1) = false → exec .drainUnitEntry s = .next s2))))) ∧
  (∀ (s : State) (core : Nat) (x : DrainUnit) (t : MxTok), s.args = [core] → (s.core core).dre.units = [x] →
    nget (s.core core).mx x.tok = some t → t.abort = false → t.dgon = false → x.more = [] → t.par.aq = false →
    (∀ y ∈ (s.team t.team).queues, 32 + x.tok ∉ y.2.engines) →
    let cells := x.stores.flatMap (·.1) ++ x.rows.map (·.2)
    (∀ c ∈ cells, regionOf c.1 ≠ .control ∧ s.liveByte c.1 = false) →
    let next := t.par.nextUnit x.m x.g
    let commits (m : Memory) : Prop := ∃ u, exec .drainUnitCommit s = .next u ∧ u.mem = m ∧ (u.core core).dre.units = [] ∧
      ((nget (u.core core).mx x.tok).map fun y => (y.um, y.ug, y.st)) =
        some (next.1, next.2, if t.par.m ≤ next.1 then .done else t.st)
    (x.pushes = [] → commits (s.mem.writeCells cells)) ∧
    (∀ desc ws q, x.pushes = [(desc, ws)] → ws.length = 32 → nhas s.teams t.team = true → nget (s.team t.team).queues desc = some q →
      q.kind ≤ 1 → q.base + q.count * q.size ≤ 0x800000 →
      let entries : List (List Word) := if q.kind = 0 then [ws] else ws.map fun w => [w]
      commits (entries.zipIdx.foldl (fun m y => m.writeN ((s.team t.team).spBase + (q.base + (q.c0 + y.2) % q.count * q.size))
        (y.1.flatMap fun w => leBytes 4 w.toNat)) (s.mem.writeCells cells)) ∧
      ∃ u, exec .drainUnitCommit s = .next u ∧
        nget (u.team t.team).queues desc = some { q with c0 := (q.c0 + entries.length) % 2 ^ 32 })) ∧
  (∀ (q : MxPar) (m g : Nat), q.nextUnit m g = if g + 1 < q.ng then (m, g + 1) else (m + 1, 0))

/-- R244 to R246, R250 to R255, R339: the copy engine and the drain move on. -/
def Obligations.CopyAndDrainMove : Prop := Claim.CopyEngineMoves ∧ Claim.DrainMoves

/-! The package: supplies, heat, states. -/

namespace Sys2Proof.Claim
open Sys2Proof.Machine

/-- A core's registers replaced. -/
def withRegs (s : State) (core : Nat) (r : CoreRegs) : State := s.modCore core fun c => { c with regs := r }

/-- The package answers reads of its control registers (R431). -/
abbrev shown (s : State) : Prop := s.fw.st = .run ∨ s.fw.st = .boot

/-- Nothing of a run is left. -/
def cleared' (u : State) : Prop :=
  u.strands = [] ∧ u.teams = [] ∧ u.grids = [] ∧ u.saved = [] ∧ u.runs = [] ∧ u.cores = [] ∧ u.ctxs = [] ∧ u.cycle = 0 ∧
  u.sched = State.reset.sched ∧ u.loop = State.reset.loop ∧ u.fab = State.reset.fab ∧ u.dbg = State.reset.dbg

end Sys2Proof.Claim

/-- R314, R329, R330, R433 to R435: heat bounds, idle clocks, matrix registers, supplies and soft-error counts. -/
def Sys2Proof.Claim.HeatAndSupplies : Prop :=
  (∀ (s : State) (core : Nat) (rs : List Nat), s.args = core :: rs → core < 256 →
    let m := s.readings rs
    let r := (m.core core).regs
    exec .coreHot s = .next (if s.sched.hotlim ≤ r.temp then withRegs m core { r with hot := true } else m) ∧
    exec .coreCool s = .next (if r.temp + 5 < s.sched.hotlim then withRegs m core { r with hot := false } else m) ∧
    exec .coreThrottle s = .next (if 110 ≤ r.temp then withRegs m core { r with throttled := true } else m) ∧
    exec .coreUnthrottle s = .next (if r.temp < 100 then withRegs m core { r with throttled := false } else m)) ∧
  (∀ (s : State) (core v : Nat), s.args = [core, v] → core < 256 →
    let r := (s.core core).regs
    exec .mxcapWrite s = .next (if s.fw.st = .run then withRegs s core { r with mxcap := v % 65536 } else s) ∧
    exec .rlstallRead s = .next (if shown s then withRegs s core { r with rlstall := 0 } else s) ∧
    exec .aqpmaxRead s = .next (if shown s then withRegs s core { r with aqpmax := 0 } else s)) ∧
  (∀ (s : State) (core : Nat), s.args = [core] → core < 256 →
    ((s.core core).regs.gated = false → (∀ t ∈ s.teams, t.2.core ≠ core ∨ s.hasEnded t.1 = true) → (s.core core).regs.idleSince + 20000 ≤ s.cycle →
      exec .coreIdleTimeout s = .next (withRegs s core { (s.core core).regs with gated := true })) ∧
    (s.cycle < (s.core core).regs.idleSince + 20000 → exec .coreIdleTimeout s = .next s)) ∧
  (∀ (s : State) (d mv : Nat), s.args = [d, mv] → d < 2 → mv < 256 →
    (10 < mv ∨ s.fw.st ≠ .run → exec .dievWrite s = .next s) ∧
    (mv ≤ 10 → s.fw.st = .run → ∃ u, exec .dievWrite s = .next u ∧ (u.die d).mv = mv ∧ (u.die d).want = some mv ∧ (u.die d).supply = (s.die d).supply ∧
      u.die (1 - d) = s.die (1 - d) ∧ u.mem = s.mem ∧ u.strands = s.strands)) ∧
  (∀ (s : State) (d v : Nat), s.args = [d] → d < 2 →
    let free : Prop := (s.die d).settling = false ∧
      ∀ c ∈ s.cores, c.1 / 128 = d → c.2.arr.op = none ∨ c.2.arr.begun = false
    ((s.die d).want = some v → free → ∃ u, exec .dievSupplyChange s = .next u ∧ (u.die d).supply = v ∧
      (u.die d).settling = true ∧ (u.die d).want = none ∧ u.die (1 - d) = s.die (1 - d)) ∧
    ((s.die d).want = none ∨ ¬free → exec .dievSupplyChange s = .next s) ∧
    (∃ u, exec .dievSupplySettled s = .next u ∧ (u.die d).settling = false ∧ (u.die d).supply = (s.die d).supply ∧
      u.die (1 - d) = s.die (1 - d))) ∧
  (∀ s : State, shown s → (∃ u, exec .serrcntRead s = .next u ∧ u.fw = { s.fw with serrcnt := 0 } ∧ u.mem = s.mem ∧ u.strands = s.strands) ∧
    (∃ u, exec .serruncRead s = .next u ∧ u.fw = { s.fw with serrunc := 0 } ∧ u.mem = s.mem ∧ u.strands = s.strands))

/-- R427 to R432, R435: the package's states. An image that passes its checks is loaded, with its patches. Good supplies start bring-up; a step that fails leaves FAIL with its code; the last one
leaves RUN with admission on; reset, overheating and a power cycle leave what reset leaves, and what lies outside the package. -/
def Sys2Proof.Claim.PackageStates : Prop :=
  (∀ (s : State) (failAt : Nat) (img : List Nat), s.args = failAt :: img →
    (s.fw.st ≠ .reset → exec .suppliesGood s = .next s) ∧
    (s.fw.st = .reset → ∃ u, exec .suppliesGood s = .next u ∧ u.fw.st = .boot ∧ u.fw.step = 1 ∧
      u.fw.flash = (if img = [] then s.fw.flash else img.map fun x => (BitVec.ofNat 8 x : Byte)) ∧ u.mem = s.mem)) ∧
  (∀ s : State, (s.formationLate = true → ∃ u, exec .loopFormationTimeout s = .next u ∧ u.fw = { s.fw with st := .fail, code := 0x30 } ∧
      u.mem = s.mem) ∧
    (s.formationLate = false → exec .loopFormationTimeout s = .next s)) ∧
  (∀ s : State, s.fw.st = .boot →
    (s.fw.step = 2 → match imageCheck s.fw.flash with
      | some c => s.bootTick.fw.st = .fail ∧ s.bootTick.fw.code = c
      | none => s.bootTick.fw.st = .boot ∧ s.bootTick.fw.step = 3 ∧
        s.bootTick.fw.image = (s.fw.flash.drop 0x1440).take (leSum ((s.fw.flash.drop 0x10).take 8) - 4096) ∧
        ∀ i < 256, let e := (s.fw.flash.drop (0x440 + 16 * i)).take 16
          leSum (e.take 2) ≠ 0xFFFF → s.bootTick.controlWord (leSum (e.take 2)) = BitVec.ofNat 96 (leSum ((e.drop 4).take 12))) ∧
    (s.fw.step = 3 → s.fw.failAt = 3 → s.bootTick.fw.st = .fail ∧ s.bootTick.fw.code = 0x10) ∧
    (s.fw.step = 3 → s.fw.failAt ≠ 3 → s.bootTick.fw.step = 4 ∧ ∀ a, regionOf a = .tier1 ∨ regionOf a = .locket → s.bootTick.mem.read a = 0) ∧
    (s.fw.step = 4 → s.fw.failAt = 4 → s.bootTick.fw.st = .fail ∧ s.bootTick.fw.code = 0x20) ∧
    (s.fw.step = 7 → s.bootTick.fw.st = .run ∧ s.bootTick.sched.admitOn = true)) ∧
  (∀ s : State,
    (s.fw.st = .shut → exec .packageReset s = .next s) ∧
    (s.fw.st ≠ .shut → ∃ u, exec .packageReset s = .next u ∧ cleared' u ∧ u.fw = { flash := s.fw.flash } ∧ u.mem = s.mem ∧
      u.host.up = s.host.up) ∧
    (∃ u, exec .powerCycle s = .next u ∧ cleared' u ∧ u.fw = { flash := s.fw.flash } ∧
      ∀ a, u.mem.read a = if regionOf a = .host then s.mem.read a else 0)) ∧
  (∀ s : State, let m := s.readings s.args
    ((∀ c ∈ m.cores, c.2.regs.temp < 125) → exec .packageOvertempShut s = .next m) ∧
    ((∃ c ∈ m.cores, 125 ≤ c.2.regs.temp) → m.fw.st ≠ .shut → ∃ u, exec .packageOvertempShut s = .next u ∧ cleared' u ∧ u.fw.st = .shut ∧
      ∀ a, u.mem.read a = if regionOf a = .host then m.mem.read a else 0))

/-- R314, R428 to R436: supplies, heat, matrix registers, and the states of the package (the model's own choices: notes/assumptions/53.md). -/
def Obligations.PackageAndHeat : Prop := Claim.HeatAndSupplies ∧ Claim.PackageStates

/-! Queues. -/

namespace Sys2Proof.Claim
open Sys2Proof.Machine

/-- The sum of the weights 8 - PRIO of the ACTIVE slots, and a share of it in millionths (R312). -/
def activeWeights (s : State) : Nat := ((s.sched.slots.filter fun x => x.2.st == .active).map fun x => 8 - (s.uq x.2.queue).prio).sum
def shareOf (s : State) (prio : Nat) : Nat := (8 - prio) * 1000000 / max 1 (activeWeights s)

/-- Slot k is SAVING from now on: each team of its queue's grids that has not ended is asked to save itself, and its strands are
stopping (R310, R363). -/
def saves (s t : State) (k : Nat) : Prop :=
  ∃ x, nget s.sched.slots k = some x ∧ (nget t.sched.slots k).map (fun y => (y.st, y.queue)) = some (.saving, x.queue) ∧
    (∀ y ∈ s.teams, (s.grid y.2.grid).src.queue = some x.queue → s.hasEnded y.1 = false → (s.team y.1) = y.2 → (t.team y.1).saving = true) ∧
    (∀ j, j ≠ k → nget t.sched.slots j = nget s.sched.slots j)

/-- The place of a queue in the order of R311, as a list that is compared from the left; the ratio is a rational number. -/
def ranksBefore (a b : RankKey) : Prop :=
  let ratio (k : RankKey) : ℚ := (k.ratio.1 : ℚ) / k.ratio.2
  a.prio < b.prio ∨ (a.prio = b.prio ∧ (ratio a < ratio b ∨ (ratio a = ratio b ∧ (a.since < b.since ∨ (a.since = b.since ∧ a.num < b.num)))))

end Sys2Proof.Claim

/-- R310 to R313: the slots. A slot whose queue is drained becomes IDLE, one that is SAVING is FREE once its teams and copies are done; a
queue in error leaves its slot in ERROR; the PENDING queue that ranks first takes the lowest FREE slot, else the least recently active IDLE
one, or displaces the slot that ranks last, if its priority is lower. Among equals the model takes the lowest slot. -/
def Sys2Proof.Claim.SlotsMove : Prop :=
  (∀ (a b : RankKey), 0 < a.ratio.2 → 0 < b.ratio.2 → (a.lt b = true ↔ ranksBefore a b)) ∧
  (∀ (u : Uq), u.ratio = (if u.hist = [] then (0, 1) else ((u.hist.map (·.1)).sum * u.hist.length, max 1 (u.hist.map (·.2)).sum))) ∧
  (∀ (s : State) (k : Nat) (x : Slot) (u : Uq), nget s.sched.slots k = some x → nget s.sched.queues x.queue = some u →
    let drained : Prop := u.widx ≤ u.ridx ∧ u.started = []
    let t := s.settleSlot k
    (x.st = .active → drained → nget t.sched.slots k = some { x with st := .idle, lastActive := s.cycle }) ∧
    (x.st = .idle → ¬drained → nget t.sched.slots k = some { x with st := .active }) ∧
    ((x.st = .active ∧ ¬drained) ∨ (x.st = .idle ∧ drained) ∨ x.st = .error → t = s) ∧
    (x.st = .saving → nsorted s.sched.slots = true →
      ((∃ y ∈ s.teams, (s.grid y.2.grid).src.queue = some x.queue ∧ s.hasEnded y.1 = false) ∨ (∃ y ∈ u.started, y.2.ty = 3) → t = s) ∧
      ((∀ y ∈ s.teams, (s.grid y.2.grid).src.queue = some x.queue → s.hasEnded y.1 = true) → (∀ y ∈ u.started, y.2.ty ≠ 3) →
        nget t.sched.slots k = none ∧ (t.uq x.queue).since = s.cycle ∧
        (u.st = .faulted → (t.uq x.queue).st = .faulted) ∧ (u.st ≠ .faulted → drained → (t.uq x.queue).st = .empty) ∧
        (u.st ≠ .faulted → ¬drained → (t.uq x.queue).st = .pending)))) ∧
  (∀ (s : State) (q c r d k : Nat) (b : List Byte) (x : Slot), s.slotOf q = some k → nget s.sched.slots k = some x →
    nhas s.sched.queues q = true →
    ((s.queueError q c r d b).uq q).st = .faulted ∧
    ((nget (s.queueError q c r d b).sched.slots k).map (·.st)) = some (if x.st = .saving then .saving else .error)) ∧
  (∀ (s : State) (q : Nat) (u : Uq) (rest : List (Nat × Uq)), s.pendingQueues = (q, u) :: rest →
    u.st = .pending ∧ (∀ y ∈ s.sched.queues, y.2.st = .pending → (y.2.key y.1).lt (u.key q) = false) ∧
    (∀ n k, k < 64 → nhas s.sched.slots k = false → (∀ j < k, nhas s.sched.slots j = true) →
      s.mapPending (n + 1) = (s.mapQueue k q).mapPending n) ∧
    (∀ n k x, (∀ j < 64, nhas s.sched.slots j = true) → (k, x) ∈ s.sched.slots → x.st = .idle →
      (∀ y ∈ s.sched.slots, y.2.st = .idle → y.1 = k ∨ x.lastActive < y.2.lastActive) →
      s.mapPending (n + 1) = (((s.endSlice k).freeSlot k).mapQueue k q).mapPending n)) ∧
  (∀ (s : State) (k q : Nat) (u : Uq), nget s.sched.queues q = some u → let t := s.mapQueue k q
    nget t.sched.slots k = some ⟨.active, q, 0, 0, s.cycle, false⟩ ∧ (t.uq q).st = .mapped) ∧
  (∀ (s : State) (q k : Nat) (u : Uq) (x : Slot), (k, x) ∈ s.sched.slots → nsorted s.sched.slots = true → x.st = .active ∨ x.st = .error →
    (∀ y ∈ s.sched.slots, y.2.st = .active ∨ y.2.st = .error → y.1 = k ∨
      ((s.uq y.2.queue).key y.2.queue).lt ((s.uq x.queue).key x.queue) = true) →
    (u.prio < (s.uq x.queue).prio → saves s (s.displace [(q, u)]) k) ∧
    ((s.uq x.queue).prio ≤ u.prio → s.displace [(q, u)] = s))

/-- R304 to R313: kicks, registration, clearing and slices of user queues. UQDEREG of a FAULTED queue frees its slot at once, and the queue
leaves when the packets that can still complete have (log 74); until RUN the commands are discarded. What other commands do that the rules
do not speak of is the model's choice (logs 39, 40). -/
def Sys2Proof.Claim.QueueCommands : Prop :=
  (∀ (s : State) (q v : Nat), s.args = [q, v] → q < 16384 → v < 2 ^ 64 →
    (nget s.sched.queues q = none → exec .kick s = .next (s.modSched fun d => { d with kickdrop := d.kickdrop + 1 })) ∧
    (∀ u, nget s.sched.queues q = some u →
      (v ≤ u.widx → exec .kick s = .next s) ∧
      (u.widx < v → 2 ^ (u.rlog - 6) < v - u.ridx →
        exec .kick s = .next ((s.queueError q 0x08 u.ridx v []).settleSlots) ∧ ((s.queueError q 0x08 u.ridx v []).uq q).st = .faulted) ∧
      (u.widx < v → v - u.ridx ≤ 2 ^ (u.rlog - 6) → exec .kick s = .next ((s.modQueue q fun u => { u with
        widx := v
        st := if u.st = .empty then .pending else u.st
        since := if u.st = .empty then s.cycle else u.since }).settleSlots)))) ∧
  (∀ s : State,
    exec .kickPageOtherWrite s = .next (s.modSched fun d => { d with kickdrop := d.kickdrop + 1 }) ∧
    (shown s → exec .kickdropRead s = .next (s.modSched fun d => { d with kickdrop := 0 })) ∧
    (s.fw.st = .run → exec .uqstatRejClear s = .next (s.modSched fun d => { d with rej := false })) ∧
    (s.fw.st ≠ .run → ∀ i ∈ [Instr.uqstatRejClear, .uqregWrite, .uqderegWrite, .uqclrWrite, .mxcapWrite, .dievWrite, .ctxkillWrite,
      .ctxctlKilledClear], exec i s = .next s)) ∧
  (∀ (s : State) (q : Nat), s.args = [q] → q < 16384 → s.fw.st = .run →
    let b := s.physBytes (s.sched.uqtbase.toNat + 64 * q) 64
    (nhas s.sched.queues q = true ∨ queueDescOk b = false →
      exec .uqregWrite s = .next (s.modSched fun d => { d with rej := true, qnum := q })) ∧
    (nhas s.sched.queues q = false → queueDescOk b = true → ∃ t : State, exec .uqregWrite s = .next t.settleSlots ∧
      (∀ j, j ≠ q → nget t.sched.queues j = nget s.sched.queues j) ∧ t.sched.slots = s.sched.slots ∧ t.mem = s.mem ∧
      (t.uq q).ring = fld b 0 8 ∧ (t.uq q).rlog = fld b 8 1 ∧ (t.uq q).prio = fld b 9 1 ∧ (t.uq q).slice = fld b 10 2 ∧
      (t.uq q).ctx = fld b 12 4 ∧ (t.uq q).ridxAddr = fld b 16 8 ∧ (t.uq q).errAddr = fld b 24 8 ∧ (t.uq q).evq = fld b 32 4 ∧
      (t.uq q).widx = fld b 40 8 ∧ (t.uq q).ridx = fld b 48 8 ∧
      (t.uq q).st = (if fld b 40 8 ≤ fld b 48 8 then .empty else .pending)) ∧
    (nget s.sched.queues q = none → exec .uqderegWrite s = .next s) ∧
    (∀ u, nget s.sched.queues q = some u → u.st ≠ .faulted →
      exec .uqderegWrite s = .next ((s.modQueue q fun u => { u with dereg := true }).settleSlots)) ∧
    (∀ u, nget s.sched.queues q = some u → u.st = .faulted → u.saved = [] →
      exec .uqderegWrite s = .next (((s.modSched fun d => { d with slots := d.slots.filter fun x => x.2.queue != q }).modQueue q fun u =>
        { u with dereg := true, started := u.started.filter fun x => s.canComplete x.2, saved := [] }).settleSlots)) ∧
    (∀ u, nget s.sched.queues q = some u → u.st = .faulted → u.saved = [] → u.started = [] → nsorted s.sched.queues = true →
      ∃ t, exec .uqderegWrite s = .next t ∧ nget t.sched.queues q = none ∧ ∀ x ∈ t.sched.slots, x.2.queue ≠ q)) ∧
  (∀ (s : State) (q v : Nat), q < 16384 → v < 2 ^ 50 → s.fw.st = .run → s.args = [v % 2 ^ 32, (q * 2 ^ 50 + v) / 2 ^ 32] →
    (nget s.sched.queues q = none → exec .uqclrWrite s = .next (s.modSched fun d => { d with rej := true, qnum := q })) ∧
    (∀ u, nget s.sched.queues q = some u →
      (u.st ≠ .faulted ∨ v < u.ridx ∨ u.widx < v → exec .uqclrWrite s = .next (s.modSched fun d => { d with rej := true, qnum := q })) ∧
      (u.st = .faulted → u.ridx ≤ v → v ≤ u.widx → s.slotOf q = none → ∃ t : State, exec .uqclrWrite s = .next t.settleSlots ∧
        (t.uq q).ridx = v ∧ (t.uq q).killed = false ∧
        (t.uq q).st = (if u.widx ≤ v ∧ u.started = [] then .empty else .pending) ∧
        (∀ j, j ≠ q → nget t.sched.queues j = nget s.sched.queues j) ∧ t.mem = s.mem) ∧
      (∀ k x, u.st = .faulted → u.ridx ≤ v → v ≤ u.widx → s.slotOf q = some k → nget s.sched.slots k = some x → x.st = .error →
        ∃ t : State, exec .uqclrWrite s = .next t.settleSlots ∧ (t.uq q).ridx = v ∧ (t.uq q).st = .mapped ∧
          (nget t.sched.slots k).map (·.st) = some .active))) ∧
  (∀ (s : State) (k : Nat) (x : Slot) (u : Uq), s.args = [k] → nget s.sched.slots k = some x → nget s.sched.queues x.queue = some u →
    (x.st ≠ .active ∨ x.used < u.sliceUs * 2000 → exec .sliceExpiry s = .next s) ∧
    (x.st = .active → u.sliceUs * 2000 ≤ x.used → (s.sched.queues.all fun y => y.2.st != .pending) = true →
      ∃ t, exec .sliceExpiry s = .next t ∧
        ((nget t.sched.slots k).map fun y => (y.st, y.queue, y.used, y.sliceEnergy)) = some (.active, x.queue, 0, 0) ∧
        (t.uq x.queue).hist = ((x.sliceEnergy, shareOf s u.prio) :: u.hist).take 16 ∧ t.mem = s.mem ∧ t.strands = s.strands) ∧
    (x.st = .active → u.sliceUs * 2000 ≤ x.used → (∃ y ∈ s.sched.queues, y.2.st = .pending ∧ y.2.prio ≤ u.prio) →
      (∀ j < 64, nhas s.sched.slots j = true) → (∀ y ∈ s.sched.slots, y.2.st ≠ .idle) →
      ∃ t : State, exec .sliceExpiry s = .next t.settleSlots ∧ saves s t k)) ∧
  (∀ (s : State) (q : Nat) (u : Uq), s.sched.queues = [(q, u)] → s.sched.slots = [] → s.sched.reserved = [] → u.st = .pending →
    u.dereg = false → u.drained = false →
    ((s.settleSlots.uq q).st = .mapped ∧ (nget s.settleSlots.sched.slots 0).map (fun x => (x.st, x.queue, x.used)) = some (.active, q, 0)))

/-- R303 to R313: queues, their slots, and the events that move them (the model's own choices: notes/assumptions/39.md, 40.md). -/
def Obligations.QueuesAndSlots : Prop := Claim.SlotsMove ∧ Claim.QueueCommands

namespace Sys2Proof.Claim
open Sys2Proof.Machine

/-- The packet events with their types. -/
def packetForms : List (Instr × Nat) :=
  [(.launchPacket, 1), (.clusterLaunchPacket, 2), (.copyPacket, 3), (.waitLsnPacket, 4), (.signalPacket, 5), (.barrierPacket, 6),
   (.graphPacket, 7)]

/-- The sequencer reads the packet at the head of a mapped queue. -/
def headIs (s : State) (q : Nat) (b : List Byte) (s1 : State) : Prop :=
  nhas s.sched.queues q = true ∧ (s.uq q).st = .mapped ∧ (s.uq q).dereg = false ∧ (s.ctx (s.uq q).ctx).killed = false ∧
  (s.ctx (s.uq q).ctx).ck.replay = none ∧ (∃ k ∈ s.sched.slots, k.2.queue = q ∧ k.2.st = .active) ∧ (s.uq q).ridx < (s.uq q).widx ∧
  s.seqRead (s.uq q).ctx ((s.uq q).ring + 64 * ((s.uq q).ridx % 2 ^ ((s.uq q).rlog - 6))) 64 = .ok (b, s1)

/-- R309: when the head packet may start: no more than 15 are incomplete, and none where it is fenced, a BARRIER, a SIGNAL or next to a
WAIT_LSN. Such a start is an acquire at `.sys`. -/
def isAcquire (u : Uq) (b : List Byte) : Prop := (leSum (b.take 4)).testBit 8 = true ∨ pkType b = 5 ∨ pkType b = 6 ∨ u.afterWait = true
def startable (u : Uq) (b : List Byte) : Prop := u.started.length < 16 ∧ (isAcquire u b → u.started = [])

/-- A started packet and its node. -/
def nodeIs (s : State) (q pkt n : Nat) (x : Started) (nd : GNode) : Prop :=
  nget (s.uq q).started pkt = some x ∧ nget x.nodes n = some nd

end Sys2Proof.Claim

/-- R133, R135, R307 to R309: a packet at a queue's head is checked; one in error faults the queue, one that may start starts with its
effect, and RIDX advances past it. R309: what SIGNAL and BARRIER do, graph nodes with the lifetimes they begin and end, completions and
completion stores. The bounds of a lifetime are the model's choice (log 23), as are when COPY copies and SIGNAL stores (log 42), how long an
acquire is in force (log 59), and that a WAIT_LSN node reads its word at each test (log 79). -/
def Obligations.PacketsStartAndComplete : Prop :=
  (∀ (s s1 : State) (q : Nat) (b : List Byte), s.args = [q] → headIs s q b s1 → ∀ x ∈ packetForms,
    (∀ c d, s1.checkPacket (s.uq q).ctx b = .error (c, d) →
      exec x.1 s = .next ((s1.queueError q c (s.uq q).ridx d b).settleSlots)) ∧
    (∀ c s2, s1.checkPacket (s.uq q).ctx b = .ok (c, s2) →
      (pkType b ≠ x.2 ∨ ¬startable (s.uq q) b → exec x.1 s = .next s) ∧
      (pkType b = x.2 → startable (s.uq q) b → s.loop.postq.length < 1024 →
        exec x.1 s = .next ((s2.startHead q (s.uq q).ridx b c none).settleSlots)))) ∧
  (∀ (s : State) (q pkt : Nat) (b : List Byte), nhas s.sched.queues q = true → (s.uq q).ridx = pkt →
    (∀ c, (pkType b = 3 → ∃ x, nget ((s.startHead q pkt b c none).uq q).started pkt = some x ∧
        x.work = .copy (fld b 0x08 8) (fld b 0x10 8) (fld b 0x18 8)) ∧
      (pkType b = 4 → ∃ x, nget ((s.startHead q pkt b c none).uq q).started pkt = some x ∧ x.work = .waitLsn (fld b 0x08 8))) ∧
    (∀ kd, pkType b = 1 ∨ pkType b = 2 → let t := s.startHead q pkt b (.launch kd) none
      (∃ x, nget (t.uq q).started pkt = some x ∧ x.work = .grid s.ids.gid) ∧
      ∃ g, nget t.grids s.ids.gid = some g ∧ g.kd = kd ∧ g.ctx = (s.uq q).ctx ∧ g.teams = fld b 0x18 4 ∧ g.next = 0 ∧
        g.last = fld b 0x18 4 ∧ g.ended = [] ∧ (g.acquired = true ↔ (s.uq q).acquired = true ∨ isAcquire (s.uq q) b)) ∧
    (∀ nodes, pkType b = 7 → ∃ x, nget ((s.startHead q pkt b (.graph nodes) none).uq q).started pkt = some x ∧ x.work = .graph ∧
      x.nodes = nodes) ∧
    (∀ c, pkType b ∈ [3, 4, 7] → (∀ kd, c ≠ .launch kd) → (pkType b = 7 → ∃ nodes, c = .graph nodes) → let t := s.startHead q pkt b c none
      (t.uq q).ridx = pkt + 1 ∧ ((t.uq q).afterWait = true ↔ pkType b = 4) ∧
      (∃ x, nget (t.uq q).started pkt = some x ∧ x.ty = pkType b ∧
        x.cpl = if (leSum (b.take 4)).testBit 9 then some (fld b 0x30 8, fld b 0x38 8) else none) ∧
      ((s.ctx (s.uq q).ctx).ck.stored = [] →
        (∀ v, s.writeVa (s.uq q).ctx (s.uq q).ridxAddr (leBytes 8 (pkt + 1)) = .ok v → t.mem = v.mem) ∧
        (∀ e, s.writeVa (s.uq q).ctx (s.uq q).ridxAddr (leBytes 8 (pkt + 1)) = .error e → t.mem = s.mem))) ∧
    (∀ c, pkType b = 6 → let t := s.startHead q pkt b c none
      (t.uq q).ridx = pkt + 1 ∧ t.grids = s.grids ∧ ((leSum (b.take 4)).testBit 9 = false → nsorted (s.uq q).started = true →
        nget (t.uq q).started pkt = none)) ∧
    (∀ c, pkType b = 5 → ∃ m : State, (m.uq q).ridx = pkt + 1 ∧ (m.uq q).ctx = (s.uq q).ctx ∧
      (∃ x, nget (m.uq q).started pkt = some x ∧ x.ty = 5) ∧
      (∀ w t, m.signal (s.uq q).ctx (fld b 0x08 8) (fld b 0x10 8) (fld b 0x18 4) (.packet q pkt 0) = .ok (w, t) →
        s.startHead q pkt b c none = t.modQueue q fun u => { u with started := nmod u.started pkt fun x => { x with work := w } }) ∧
      (∀ e d, m.signal (s.uq q).ctx (fld b 0x08 8) (fld b 0x10 8) (fld b 0x18 4) (.packet q pkt 0) = .error (e, d) →
        s.startHead q pkt b c none = m.startedError q pkt e d))) ∧
  (∀ (s : State) (ctx addr val op : Nat) (who : PostBy), op ≤ 2 → (s.ctx ctx).ck.replay = none →
    let n := if op = 2 then 4 else 8
    (op = 2 → s.inLocket ctx addr = true → s.signal ctx addr val op who = .error (0x07, 0x08)) ∧
    (∀ a, ¬(op = 2 ∧ s.inLocket ctx addr = true) → s.signalAt ctx addr n = .error a → s.signal ctx addr val op who = .error (0x06, a)) ∧
    (∀ x, ¬(op = 2 ∧ s.inLocket ctx addr = true) → s.signalAt ctx addr n = .ok x →
      (regionOf x.pa = .locket → s.signal ctx addr val op who = .ok (.post 0, (s.useXlat ctx noCore addr x .read).post
        (if op = 0 then 1 else 2) (x.pa - 0x80000000) (if op = 0 then 8 else 16) (leBytes 8 val ++ if op = 0 then [] else leBytes 8 0) who ctx)) ∧
      (regionOf x.pa ≠ .locket → op ≠ 1 → s.signal ctx addr val op who =
        .ok (.ended, (s.useXlat ctx noCore addr x .write).outerCells (cellsAt x.pa (leBytes n val)))) ∧
      (regionOf x.pa ≠ .locket → op = 1 → let u := s.useXlat ctx noCore addr x .write
        s.signal ctx addr val op who = if regionOf x.pa = .host ∧ (s.host.atomok = false ∨ s.host.atomEn = false) then .error (0x06, addr)
          else .ok (.ended, u.outerCells (cellsAt x.pa (leBytes 8 ((leNat (u.physBytes x.pa 8) + val) % 2 ^ 64)))))) ∧
    (∀ u : State, u.loop.st ≠ .down → ∀ ty arg len payload, (u.post ty arg len payload who ctx).loop.postq = u.loop.postq ++
      [⟨⟨ty, arg, 0, u.pkgid, len, (payload ++ leBytes 48 0).take 48⟩, who, ctx⟩])) ∧
  (∀ (s : State) (q pkt n : Nat) (x : Started) (nd : GNode), s.args = [q, pkt, n] → nodeIs s q pkt n x nd →
    (nd.work ≠ none ∨ (∃ p ∈ nd.preds, ((nget x.nodes p).map (·.done)).getD false = false) → exec .graphNodeStart s = .next s) ∧
    (nd.work = none → (∀ p ∈ nd.preds, ∃ y, nget x.nodes p = some y ∧ y.done = true) → s.planReady (s.uq q).ctx = true →
      s.loop.postq.length < 1024 → (∃ k ∈ s.sched.slots, k.2.queue = q ∧ k.2.st = .active) →
      (∀ w t, s.nodeWork q pkt n x nd = .ok (w, t) →
        let v := (t.beginLives (s.uq q).ctx n).modNode q pkt n fun y => { y with work := some w, done := w == .barrier }
        exec .graphNodeStart s = .next (if w = .barrier then v.endLives (s.uq q).ctx n else v)) ∧
      (∀ c d, s.nodeWork q pkt n x nd = .error (c, d) → exec .graphNodeStart s = .next ((s.startedError q pkt c d).settleSlots)))) ∧
  (∀ (s : State) (q pkt : Nat) (x : Started), s.args = [q, pkt, 0] → nget (s.uq q).started pkt = some x →
    (∀ g, x.work = .grid g →
      ((s.grid g).finished = false → exec .packetCompletion s = .next s) ∧
      ((s.grid g).finished = true →
        exec .packetCompletion s = .next (({ s with grids := ndel s.grids g }.completePacket q pkt).settleSlots))) ∧
    (∀ a b n t, x.work = .copy a b n → s.copyRange (s.uq q).ctx a b n = .ok t →
      exec .packetCompletion s = .next ((t.completePacket q pkt).settleSlots)) ∧
    (x.work = .graph → (∀ y ∈ x.nodes, y.2.done = true) → exec .packetCompletion s = .next ((s.completePacket q pkt).settleSlots)) ∧
    (x.work = .ended → exec .packetCompletion s = .next ((s.completePacket q pkt).settleSlots)) ∧
    (∀ l, x.work = .waitLsn l → (s.ctx (s.uq q).ctx).ck.replay = none →
      exec .packetCompletion s = .next (if l ≤ s.loop.applied then (s.completePacket q pkt).settleSlots else s)) ∧
    (∀ k, x.work = .post k → exec .packetCompletion s = .next s) ∧
    (∀ a b n f t, x.work = .copy a b n → s.copyRange (s.uq q).ctx a b n = .error (f, t) →
      exec .packetCompletion s = .next ((t.startedError q pkt 0x06 f).settleSlots)) ∧
    ((∀ g, x.work ≠ .grid g) →
      (x.cpl = none → s.completePacket q pkt = s.modQueue q fun u => { u with started := ndel u.started pkt }) ∧
      (∀ a v t, x.cpl = some (a, v) → s.seqWrite (s.uq q).ctx a (leBytes 8 v) = .ok t →
        s.completePacket q pkt = t.modQueue q fun u => { u with started := ndel u.started pkt }) ∧
      (∀ a v f, x.cpl = some (a, v) → s.seqWrite (s.uq q).ctx a (leBytes 8 v) = .error f →
        s.completePacket q pkt = s.startedError q pkt 0x06 f))) ∧
  (∀ (s : State) (q pkt n : Nat) (x : Started) (nd : GNode) (va : Nat) (b : List Byte) (t : State), s.args = [q, pkt, n + 1] →
    nodeIs s q pkt n x nd → nd.work = some (.waitWord va) → nd.done = false → (s.ctx (s.uq q).ctx).ck.replay = none →
    s.seqRead (s.uq q).ctx va 8 = .ok (b, t) → (t.ctx (s.uq q).ctx).ck.replay = none → t.loop.applied = s.loop.applied →
    exec .packetCompletion s = .next (if leSum (b.take 8) ≤ s.loop.applied then
      (t.modNode q pkt n fun y => { y with done := true }).endLives (s.uq q).ctx n else s)) ∧
  (∀ (s : State) (q pkt n : Nat) (x : Started) (nd : GNode) (g : Nat), s.args = [q, pkt, n + 1] → nodeIs s q pkt n x nd →
    nd.work = some (.grid g) → nd.done = false → (s.grid g).finished = true →
    exec .packetCompletion s = .next (({ s with grids := ndel s.grids g }.modNode q pkt n fun y => { y with done := true }).endLives
      (s.uq q).ctx n))

/-! Teams. -/

namespace Sys2Proof.Claim
open Sys2Proof.Machine

/-- The clocks of every place's core run (R434). -/
def clocked (m : State) (ps : List Place) : Prop := ∀ p ∈ ps, (m.core p.core).regs.gated = false ∧ (m.core p.core).regs.wakeAt ≤ m.cycle
/-- Else those of a core that is IDLE are restarted, which takes 1 µs, and no team is admitted meanwhile. -/
def restarts (i : Instr) (s m : State) (ps : List Place) : Prop :=
  ∃ u, exec i s = .next u ∧ u.teams = m.teams ∧ u.strands = m.strands ∧ u.saved = m.saved ∧ u.mem = m.mem ∧
    ∀ p ∈ ps, (u.core p.core).regs.gated = false ∧ (u.core p.core).regs.wakeAt =
      if (m.core p.core).regs.gated then m.cycle + 2000 else (m.core p.core).regs.wakeAt

/-- The teams resident on a core that have not ended. -/
def liveOn (s : State) (core : Nat) : List (Nat × Team) := s.teams.filter fun t => t.2.core == core && !s.hasEnded t.1
def bandOf (s : State) (core : Nat) : Nat := (s.core core).regs.band
/-- The core of team c of a cluster on the rectangle at (x, y) (R319). -/
def coreAt (kd : KDesc) (x y c : Nat) : Nat := 16 * (y + c / kd.cw) + x + c % kd.cw
/-- The teams of a cluster fit on the rectangle at (x, y). -/
def fitsOn (s : State) (gid : Nat) (kd : KDesc) (want : Nat → Want) (ok : Nat → Nat → Bool) (x y : Nat) (ps : List Place) : Prop :=
  x + kd.cw ≤ 16 ∧ y + kd.ch ≤ 16 ∧ ps.length = kd.cw * kd.ch ∧
  ∀ c < kd.cw * kd.ch, ok c (coreAt kd x y c) = true ∧ ps[c]? = s.fits gid kd (want c) (coreAt kd x y c) ∧
    (s.fits gid kd (want c) (coreAt kd x y c)).isSome = true
/-- The keys of R319: the highest band of its cores is b, it spans the bridge or not, y0, x0. -/
def rectKey (s : State) (kd : KDesc) (x y : Nat) (key : List Nat) : Prop :=
  ∃ b, key = [b, if y < 8 ∧ 8 < y + kd.ch then 1 else 0, y, x] ∧ (∀ c < kd.cw * kd.ch, bandOf s (coreAt kd x y c) ≤ b) ∧
    ∃ c < kd.cw * kd.ch, bandOf s (coreAt kd x y c) = b
/-- A frame of n registers and its units in a partition (R320). -/
def apart (a b : Nat × Nat) : Prop := a.1 + a.2 ≤ b.1 ∨ b.1 + b.2 ≤ a.1

end Sys2Proof.Claim

/-- R317 to R319: the first candidate, in the order of R311's keys, that can be placed now is admitted; a team goes to the core of lowest
band, fewest teams and lowest number on which it fits, a cluster to the rectangle that comes first; a strand to the partition with the most
free slots. What a place that fits has free. A core bars admission that is hot and was hot as the clock began (R324). What else admission
asks for is the model's choice (log 43). -/
def Sys2Proof.Claim.TeamsArePlaced : Prop :=
  (∀ s : State, (s.choice = .none ↔ s.admitting = false ∨ ∀ x ∈ s.candidates, s.slotMay x.1 = true →
      (∀ g, x.2 = .fresh g → s.tryFresh g = none) ∧ (∀ t, x.2 = .saved t → s.trySaved t = none)) ∧
    (∀ c, s.choice = c → c ≠ .none → s.admitting = true ∧ ∃ pre x post, s.candidates.filter (fun y => s.slotMay y.1) = pre ++ x :: post ∧
      (∀ y ∈ pre, (∀ g, y.2 = .fresh g → s.tryFresh g = none) ∧ (∀ t, y.2 = .saved t → s.trySaved t = none)) ∧
      ((∃ g p b o, x.2 = .fresh g ∧ s.tryFresh g = some (p, b, o) ∧ c = .fresh g p b o) ∨
        (∃ t p, x.2 = .saved t ∧ s.trySaved t = some p ∧ c = .saved t p))) ∧
    s.candidates.Pairwise fun x y => y.1.lt x.1 = false) ∧
  (∀ (s : State) (gid : Nat) (kd : KDesc) (want : Nat → Want) (ok : Nat → Nat → Bool), kd.cw = 1 → kd.ch = 1 →
    (s.place gid kd want ok = none → ∀ k < 256, ok 0 k = true → s.fits gid kd (want 0) k = none) ∧
    (∀ ps, s.place gid kd want ok = some ps → ∃ k p, k < 256 ∧ ps = [p] ∧ ok 0 k = true ∧ s.fits gid kd (want 0) k = some p ∧
      ∀ j < 256, ok 0 j = true → (s.fits gid kd (want 0) j).isSome = true →
        bandOf s k < bandOf s j ∨ (bandOf s k = bandOf s j ∧ ((liveOn s k).length < (liveOn s j).length ∨
          ((liveOn s k).length = (liveOn s j).length ∧ k ≤ j))))) ∧
  (∀ (s : State) (gid : Nat) (kd : KDesc) (want : Nat → Want) (ok : Nat → Nat → Bool), 0 < kd.cw → 0 < kd.ch → 1 < kd.cw * kd.ch →
    (s.place gid kd want ok = none → ∀ x y ps, ¬fitsOn s gid kd want ok x y ps) ∧
    (∀ ps, s.place gid kd want ok = some ps → ∃ x y key, fitsOn s gid kd want ok x y ps ∧ rectKey s kd x y key ∧
      ∀ x' y' ps' key', fitsOn s gid kd want ok x' y' ps' → rectKey s kd x' y' key' → ¬List.Lex (· < ·) key' key)) ∧
  (∀ (s : State) (gid : Nat) (kd : KDesc) (want : Want) (core : Nat) (p : Place), s.fits gid kd want core = some p →
    p.core = core ∧ ¬((s.core core).regs.hot = true ∧ (s.core core).regs.wasHot = true) ∧
    ((s.core core).regs.resv = true → ∃ r ∈ s.sched.reserved, r.1 = gid ∧ core ∈ r.2) ∧
    p.slot < 8 ∧ (∀ t ∈ liveOn s core, t.2.slot ≠ p.slot) ∧ (∀ j < p.slot, ∃ t ∈ liveOn s core, t.2.slot = j) ∧
    (0 < kd.spSize / 65536 → p.unit + kd.spSize / 65536 ≤ 96 ∧ ∀ t ∈ s.teams, t.2.core = core → 0 < (s.grid t.2.grid).kd.spSize / 65536 →
      apart (p.unit, kd.spSize / 65536) ((t.2.spBase - core * 0x800000) / 65536, (s.grid t.2.grid).kd.spSize / 65536)) ∧
    (kd.csLo ≠ kd.csHi → ∀ t ∈ liveOn s core, let o := (s.grid t.2.grid).kd
      o.csLo = o.csHi ∨ kd.csHi ≤ o.csLo ∨ o.csHi ≤ kd.csLo) ∧
    ((liveOn s core).map fun t => (s.grid t.2.grid).kd.nbar).sum + kd.nbar ≤ 128 ∧
    (kd.lead.isSome = true → p.lead.1 < 8 ∧ ∀ x ∈ s.strands, x.2.core = core → x.2.part = 4 + p.lead.1 → x.2.finished = true ∧ x.2.frames = [])) ∧
  (∀ (us : List PartUse) (ns : List Nat) (i : Nat) (bs : List Nat), placeOne us ns = some (i, bs) →
    let room (u : PartUse) : Prop := u.slots < 32 ∧ u.shut = false ∧ (lowBlocks 128 u.taken ns).isSome = true
    ∃ u, us[i]? = some u ∧ room u ∧ lowBlocks 128 u.taken ns = some bs ∧
      ∀ j v, us[j]? = some v → room v → u.slots < v.slots ∨ (u.slots = v.slots ∧ i ≤ j))

/-- R41, R317, R319, R353, R361, R363, R367, R368, R431, R434: admission, reservation, saving and resuming of teams, their context's kill, and
writes of control registers. What an admission leaves undefined is in log 43, the order of a save in log 45. -/
def Sys2Proof.Claim.TeamsAdmittedAndSaved : Prop :=
  (∀ s : State, let m := s.readings s.args
    (∀ g p b o, m.choice = .fresh g p b o → (clocked m p → exec .teamAdmission s = .next (m.admitNext g p b o)) ∧
      (¬clocked m p → restarts .teamAdmission s m p)) ∧
    ((∀ g p b o, m.choice ≠ .fresh g p b o) → exec .teamAdmission s = .next m) ∧
    (∀ t p, m.choice = .saved t p → (clocked m p → exec .teamResumption s = .next (m.resumeAll t p)) ∧
      (¬clocked m p → restarts .teamResumption s m p)) ∧
    ((∀ t p, m.choice ≠ .saved t p) → exec .teamResumption s = .next m)) ∧
  (∀ (s : State) (gid blk off : Nat) (p : Place), nhas s.grids gid = true → (s.ctx (s.grid gid).ctx).dbg.reexec = false →
    let u := s.admitNext gid [p] [blk] [off]
    (u.grid gid).next = (s.grid gid).next + 1 ∧ u.ids.tid = s.ids.tid + 1 ∧
    ∃ x, nget u.teams s.ids.tid = some x ∧ x.grid = gid ∧ x.teamid = (s.grid gid).next ∧ x.core = p.core ∧ x.slot = p.slot ∧
      x.spBase = p.core * 0x800000 + 65536 * p.unit ∧ x.cluster = [s.ids.tid]) ∧
  (∀ (s : State) (tid core part base serial role k : Nat) (r : Role), (s.grid (s.team tid).grid).kd.qbinds = [] → role ≤ 4 →
    let g := s.grid (s.team tid).grid
    let pc : Word64 := BitVec.ofNat 64 ((s.ctx g.ctx).prog.codeVa + r.entry + 4)
    let n := if role = 4 then 1 else min 32 (r.threads - 32 * k)
    ∃ st, nget (s.admitStrand tid core part base serial role k r).strands s.ids.sid = some st ∧ nkeys st.lanes = List.range n ∧
      st.team = tid ∧ st.role = role ∧ st.strandid = k ∧ (st.frames.map fun f => (f.size, f.fill, f.cells)) = [(r.frame, none, [])] ∧
      (∀ l < n, (st.th l).st = .ready ∧ (st.th l).pc = pc ∧ (st.th l).wb = 0 ∧ (st.th l).loops = [] ∧
        (st.th l).o = [g.param.setWidth 32, (g.param >>> 32).setWidth 32, BitVec.ofNat 32 g.teams, BitVec.ofNat 32 (32 * k + l), 0, 0, 0, 0]) ∧
      st.csr.tlevel = 0 ∧ st.csr.s1 = [] ∧ st.csr.s2 = [] ∧ st.csr.wdog = 0) ∧
  (∀ (s : State) (gid : Nat), s.args = [gid] → s.sched.clresv = 0 → exec .clusterReservationDelay s = .next s) ∧
  (∀ (s : State) (gid x0 y0 : Nat), s.args = [gid] → s.sched.clresv ≠ 0 →
    let kd := (s.grid gid).kd
    x0 + kd.cw ≤ 16 → y0 + kd.ch ≤ 16 → (∀ r ∈ s.sched.reserved, r.1 ≠ gid) →
    (∃ c ∈ s.sched.waiting, s.candGrid c.1 = gid ∧ (∃ x ∈ s.candidates, x.2 = c.1) ∧ c.2 + s.sched.clresv * 200000 ≤ s.cycle) →
    (∀ k ∈ rectCores kd.cw kd.ch x0 y0, (s.core k).regs.hot = false) →
    ∃ (u : State) (x1 y1 : Nat), exec .clusterReservationDelay s = .next u ∧ x1 + kd.cw ≤ 16 ∧ y1 + kd.ch ≤ 16 ∧
      u.sched.reserved = s.sched.reserved ++ [(gid, rectCores kd.cw kd.ch x1 y1)] ∧
      (∀ k ∈ rectCores kd.cw kd.ch x1 y1, (u.core k).regs.resv = true ∧ (s.core k).regs.hot = false) ∧
      u.mem = s.mem ∧ u.strands = s.strands ∧ u.teams = s.teams) ∧
  (∀ (s : State) (tid : Nat), s.args = [tid] → nhas s.teams tid = true → (s.ctx (s.grid (s.team tid).grid).ctx).dbg.halted = false →
    ((∃ k ∈ s.clusterLive tid, s.teamStopped k = false) → exec .saveComplete s = .next s) ∧
    (s.clusterLive tid ≠ [] → (∀ k ∈ s.clusterLive tid, s.teamStopped k = true ∧ (s.team k).ptoHalted = false) →
      let h := s.haltArrays ((s.clusterLive tid).contains ·) .preempt
      ((∃ k ∈ s.clusterLive tid, h.quiet k = false) → exec .saveComplete s = .next h) ∧
      ((∀ k ∈ s.clusterLive tid, h.quiet k = true) → exec .saveComplete s = .next
        ((((h.team tid).cluster.filter fun k => nhas h.teams k).foldl State.saveTeam h).settleSlots.settleCkpt
          (s.grid (s.team tid).grid).ctx)))) ∧
  (∀ (s : State) (tid : Nat), s.args = [tid] → nhas s.teams tid = true →
    let c := s.ctx (s.grid (s.team tid).grid).ctx
    let late := (s.team tid).stopReq + (if c.pto = 0 then 1000 else c.pto) * 2000
    let stopped := (s.clusterLive tid).all s.teamStopped
    (s.team tid).saving = true → (s.team tid).ptoHalted = false → c.dbg.halted = false → c.ck.taking = false →
    (stopped = false → s.cycle < late → exec .preemptionTimeout s = .next s) ∧
    (late ≤ s.cycle → stopped = false ∨ (s.team tid).stopAt ≠ none → (∀ k, (s.team tid).stopAt = some k → k < late) →
      ∃ u, exec .preemptionTimeout s = .next u ∧
      (u.team tid).ptoHalted = true ∧ (u.team tid).saving = false ∧ (u.ctx (s.grid (s.team tid).grid).ctx).halted = true ∧
      u.strands = s.strands)) ∧
  (∀ (s : State) (n : Nat), s.args = [n] → n < 256 → s.fw.st = .run →
    ((s.ctx n).killed = true → exec .ctxkillWrite s = .next s) ∧
    ((s.ctx n).killed = false → nsorted s.teams = true → ∃ u, exec .ctxkillWrite s = .next u ∧ (u.ctx n).killed = true ∧
      (∀ x ∈ u.teams, (s.grid x.2.grid).ctx ≠ n) ∧ (∀ x ∈ u.saved, (s.grid x.2.info.grid).ctx ≠ n) ∧ (∀ g ∈ u.grids, g.2.ctx ≠ n) ∧
      (∀ x ∈ u.sched.queues, x.2.ctx = n → x.2.st = .faulted ∧ x.2.started = [] ∧ x.2.saved = []) ∧
      (u.ctx n).pool = [] ∧ (u.ctx n).dbg.halted = false ∧ (u.ctx n).ck.taking = false ∧
      ∀ x ∈ u.strands, ∀ t, nget s.teams x.2.team = some t → (s.grid t.grid).ctx ≠ n) ∧
    exec .ctxctlKilledClear s = .next ((s.modCtx n fun c => { c with killed := false }).settleSlots)) ∧
  (∀ (s : State) (o : Nat) (b : List Nat), s.args = o :: b → s.fw.st ≠ .run → exec .controlRegisterWrite s = .next s) ∧
  (∀ (s : State) (o b0 b1 b2 b3 : Nat), s.args = [o, b0, b1, b2, b3] → s.fw.st = .run → o % 4 = 0 → o ≠ 0x400028 → o ≠ 0x40002C →
    b0 < 256 → b1 < 256 → b2 < 256 → b3 < 256 →
    exec .controlRegisterWrite s = .next (s.ctlWrite o 15 (b0 + 256 * b1 + 65536 * b2 + 16777216 * b3))) ∧
  (∀ (s : State) (v : Nat), s.fw.st = .run → v < 2 ^ 32 →
    (s.ctlWrite 0x400010 15 v).sched.pbudget = (if 100 ≤ v ∧ v ≤ 1500 then v else bitsOf s.sched.pbudget 31 0) ∧
    (s.ctlWrite 0x400014 15 v).sched.hotlim = (if 60 ≤ v % 256 ∧ v % 256 ≤ 105 then v % 256 else bitsOf s.sched.hotlim 7 0) ∧
    (s.ctlWrite 0x500010 15 v).fab.fabto = (if 100 ≤ v ∧ v ≤ 1000000 then v else bitsOf s.fab.fabto 31 0))

/-- R303, R317 to R320, R361 to R369: where teams are placed, and how they are admitted, saved and resumed (the model's own choices:
notes/assumptions/43.md, 45.md). -/
def Obligations.TeamsPlacedAndSaved : Prop := Claim.TeamsArePlaced ∧ Claim.TeamsAdmittedAndSaved

/-! The Chaend loop. -/

namespace Sys2Proof.Claim
open Sys2Proof.Machine

/-- No queue, slot or reservation is there to be moved on, and no context logs. -/
def calm (s : State) : Prop :=
  s.sched.queues = [] ∧ s.sched.slots = [] ∧ s.sched.reserved = [] ∧ ∀ c ∈ s.ctxs, c.2.ck.stored = []

/-- The events that apply a record, with the records they apply. -/
def applyForms (npkg : Nat) : List (Instr × (LRec → Bool)) :=
  [(.recordWriteApply, fun r => r.ty == 1), (.recordAtomicApply, fun r => r.ty == 2), (.recordMsgApply, fun r => r.ty == 3),
   (.recordLaunchApply, fun r => r.ty == 4 && !r.killOrder npkg), (.recordKillOrderApply, fun r => r.killOrder npkg),
   (.recordXlateApply, fun r => r.ty == 5), (.recordDigestApply, fun r => r.ty == 6)]

/-- The rest of a state is as it was while the loop changes. -/
def loopOnly (s u : State) : Prop :=
  u.mem = s.mem ∧ u.strands = s.strands ∧ u.teams = s.teams ∧ u.grids = s.grids ∧ u.ctxs = s.ctxs ∧ u.cores = s.cores ∧
  u.sched = s.sched ∧ u.fab = s.fab ∧ u.dbg = s.dbg ∧ u.fw = s.fw ∧ u.runs = s.runs

end Sys2Proof.Claim

namespace Sys2Proof.Claim
open Sys2Proof.Machine

/-- A slot of 64 bytes comes to the input tap of a package that takes part in a loop that is not DOWN; `ty` is its TYPE byte. -/
def slotComes (s : State) (n : Nat) (b : List Byte) (ty : Nat) : Prop :=
  s.args = n :: b.map (·.toNat) ∧ b.length = 64 ∧ fld b 0 1 = ty ∧ s.loop.join = true ∧ s.loop.st ≠ .down

/-- Circulations count on where a slot's number is not above the last (R374); the place of a slot counted over circulations. -/
def circsAt (s : State) (n : Nat) : Nat := if n ≤ s.loop.slotSeen then s.loop.circs + 1 else s.loop.circs
def placeOf (s : State) (n : Nat) : Nat := circsAt s n * s.loop.circ + n
def seen (s : State) (n : Nat) : State := s.modLoop fun l => { l with circs := circsAt s n, slotSeen := n }

/-- A slot as it leaves the package: unchanged, but that the master refreshes slot 0 by itself. -/
def passes (s u : State) (n : Nat) (b : List Byte) : Prop :=
  u.sent = (if s.loop.master = true ∧ n = 0 then s.sent else .slot n b :: s.sent)

/-- A GRANT's generation runs ahead of the one that a package knows, which is not the master (R383). -/
def aheadOf (s : State) (gen : Nat) : Prop :=
  s.loop.master = false ∧ gen ≠ 0 ∧ 0 < (gen + 65536 - s.loop.gen) % 65536 ∧ (gen + 65536 - s.loop.gen) % 65536 < 32768

/-- A GRANT is one to be taken or passed: of the generation known, a circulation after the last, or of a later one (R379, R383, R384). -/
def goodGrant (s : State) (n gen : Nat) : Prop :=
  (gen = s.loop.gen ∧ ∀ t, s.loop.lastGrant = some t → t + s.loop.circ ≤ placeOf s n) ∨ (gen ≠ s.loop.gen ∧ aheadOf s gen)

end Sys2Proof.Claim

/-- R374 to R380, R384, R389: a record received in order gets its LSN, its own post leaves the ring; one that is invalid or out of order
is a loop fault; a holder of the grant writes its posts into empty slots, then a GRANT of the generation it held. -/
def Sys2Proof.Claim.LoopRecords : Prop :=
  (∀ (s : State) (n ty : Nat) (b : List Byte), slotComes s n b ty → ty ≠ 0x10 → ty ≠ 0x11 → n ≠ 1 → b ≠ List.replicate 64 0xFF →
    b ≠ List.replicate 64 0 →
    let r := recOfBytes b
    (s.loop.st = .run ∨ s.loop.st = .forming → validSlot b = false →
      exec .numberedRecordReceive s = .next ((seen s n).loopFault 3)) ∧
    (s.loop.st = .forming → validSlot b = true → ∃ u, exec .numberedRecordReceive s = .next u ∧ loopOnly s u ∧
      u.loop = { (seen s n).loop with fault := 6, numbered := true } ∧ passes s u n b) ∧
    (s.loop.st = .run → validSlot b = true → r.seq ≠ ((nget s.loop.seqs r.src).getD 255 + 1) % 256 →
      exec .numberedRecordReceive s = .next ((seen s n).loopFault 4)) ∧
    (s.loop.st = .run → validSlot b = true → r.seq = ((nget s.loop.seqs r.src).getD 255 + 1) % 256 →
      ∃ u, exec .numberedRecordReceive s = .next u ∧ loopOnly s u ∧ u.loop.lsn = s.loop.lsn + 1 ∧
        u.loop.rx = s.loop.rx ++ [⟨r, s.loop.lsn + 1, if r.src = s.pkgid then s.loop.flight.head? else none⟩] ∧
        u.loop.flight = (if r.src = s.pkgid then s.loop.flight.drop 1 else s.loop.flight) ∧
        nget u.loop.seqs r.src = some r.seq ∧ u.loop.applied = s.loop.applied ∧
        (r.src ≠ s.pkgid → s.loop.master = false → passes s u n b) ∧
        (r.src = s.pkgid → u.sent = .slot n (List.replicate 64 0) :: s.sent))) ∧
  (∀ (s : State) (n : Nat) (p : Post) (rest : List Post), slotComes s n (List.replicate 64 0xFF) 0xFF → 1 < n → s.loop.hold = true →
    let r := { p.r with seq := (s.loop.seq + 1) % 256 }
    (∀ k, s.loop.left = k + 1 → s.loop.postq = p :: rest → ∃ u, exec .numberedRecordReceive s = .next u ∧ loopOnly s u ∧
      u.sent = .slot n r.bytes :: s.sent ∧ u.loop.postq = rest ∧ u.loop.left = k ∧ u.loop.seq = r.seq ∧
      u.loop.flight = s.loop.flight ++ [{ p with r := r }]) ∧
    (s.loop.left = 0 → ∃ u, exec .numberedRecordReceive s = .next u ∧ loopOnly s u ∧
      u.sent = .slot n (grantRec s.pkgid s.loop.heldGen).bytes :: s.sent ∧ u.loop.hold = false)) ∧
  (∀ (s : State) (n g : Nat), slotComes s n (List.replicate 64 0xFF) 0xFF → 1 < n → s.loop.hold = false →
    (s.loop.grantDue = some g → ∃ u, exec .numberedRecordReceive s = .next u ∧ loopOnly s u ∧
      u.sent = .slot n (grantRec s.pkgid g).bytes :: s.sent ∧ u.loop = { (seen s n).loop with grantDue := none }) ∧
    (s.loop.grantDue = none → ∃ u, exec .numberedRecordReceive s = .next u ∧ loopOnly s u ∧
      u.sent = .slot n (List.replicate 64 0xFF) :: s.sent ∧ u.loop = (seen s n).loop)) ∧
  (∀ s : State, s.loop.join = false ∨ s.loop.st = .down → exec .numberedRecordReceive s = .next s ∧ exec .loopGrantArrival s = .next s ∧
    exec .loopIdleArrival s = .next s)

/-- R374, R378 to R385, R389: grants and IDLE records received, regeneration, and loop faults. -/
def Sys2Proof.Claim.LoopReceives : Prop :=
  (∀ (s : State) (cause : Nat), s.loop.st = .run ∨ s.loop.st = .forming → s.loop.rx = [] →
    (s.loopFault cause).loop.st = .down ∧ (s.loopFault cause).loop.fault = cause ∧ (s.loopFault cause).loop.postq = [] ∧
    (s.loopFault cause).loop.flight = [] ∧ (s.loopFault cause).loop.hold = false ∧ (s.loopFault cause).kills = []) ∧
  (∀ s : State, exec .lossOfSignal s = .next (s.loopFault 1) ∧
    (s.idleMissing = true → exec .missingIdleTimeout s = .next (s.loopFault 2)) ∧
    (s.idleMissing = false → exec .missingIdleTimeout s = .next s)) ∧
  (∀ (s : State) (n : Nat) (b : List Byte), slotComes s n b 0x10 → n ≠ 1 →
    let gen := fld (recOfBytes b).payload 0 2
    (s.loop.st = .run ∨ s.loop.st = .forming → validSlot b = false → ∃ u, exec .loopGrantArrival s = .next u ∧ loopOnly s u ∧
      u.loop.counts.crcerr = s.loop.counts.crcerr + 1 ∧ u.loop.grantSeen = true ∧ u.loop.st = s.loop.st ∧ u.loop.hold = s.loop.hold) ∧
    (s.loop.st = .forming → validSlot b = true → gen = 1 → s.loop.numbered = false → ∃ u, exec .loopGrantArrival s = .next u ∧
      u.loop.st = .run ∧ u.loop.lsn = 0 ∧ u.loop.applied = 0 ∧ u.loop.gen = 1 ∧
      ∀ a, u.mem.read a = if regionOf a = .locket then 0 else s.mem.read a) ∧
    (s.loop.st = .run → validSlot b = true → goodGrant s n gen → s.loop.hold = false → s.loop.postq ≠ [] →
      ∃ u, exec .loopGrantArrival s = .next u ∧ loopOnly s u ∧ u.loop.hold = true ∧ u.loop.left = min 16 s.loop.postq.length ∧
        u.loop.gen = gen ∧ u.loop.heldGen = gen ∧ u.loop.counts.grants = s.loop.counts.grants + 1 ∧ u.loop.postq = s.loop.postq ∧
        u.sent = .slot n (List.replicate 64 0) :: s.sent) ∧
    (s.loop.st = .run → validSlot b = true → goodGrant s n gen → s.loop.hold = true ∨ s.loop.postq = [] →
      ∃ u, exec .loopGrantArrival s = .next u ∧ loopOnly s u ∧ passes s u n b ∧
        u.loop = { (seen s n).loop with grantSeen := true, gen := gen, lastGrant := some (placeOf s n) }) ∧
    (s.loop.st = .run → validSlot b = true → gen ≠ s.loop.gen → ¬ aheadOf s gen → ∃ u, exec .loopGrantArrival s = .next u ∧
      loopOnly s u ∧ u.loop = { (seen s n).loop with grantSeen := true } ∧ u.sent = .slot n (List.replicate 64 0) :: s.sent) ∧
    (∀ t, s.loop.st = .run → validSlot b = true → gen = s.loop.gen → s.loop.lastGrant = some t → placeOf s n < t + s.loop.circ →
      s.loop.rx = [] → ∃ u, exec .loopGrantArrival s = .next u ∧ u.loop.st = .down ∧ u.loop.fault = 5)) ∧
  (∀ s : State,
    (s.loop.master = true → s.loop.st = .run → 4 ≤ s.loop.noGrant → ∃ u, exec .grantRegeneration s = .next u ∧ loopOnly s u ∧
      u.loop.gen = nextGen s.loop.gen ∧ u.loop.counts.regen = s.loop.counts.regen + 1 ∧ u.loop.grantDue = some (nextGen s.loop.gen) ∧
      u.loop.noGrant = 0 ∧ u.loop.lastGrant = none) ∧
    (s.loop.master = false ∨ s.loop.st ≠ .run ∨ s.loop.noGrant < 4 → exec .grantRegeneration s = .next s) ∧
    -- the master begins a circulation: it counts those without a GRANT
    (s.loop.join = true → s.loop.master = true → s.loop.st ≠ .down → circOk s.loop.circ = true →
      (∀ t, s.loop.idleOut = some t → t + s.loop.circ ≤ s.cycle) → loopOnly s s.masterIdle ∧
      s.masterIdle.sent = .slot 0 (idleRec s.pkgid s.loop.frames s.loop.circ).bytes :: s.sent ∧
      s.masterIdle.loop.noGrant = (if s.loop.st = .run then (if s.loop.grantSeen = true then 0 else s.loop.noGrant + 1) else s.loop.noGrant) ∧
      s.masterIdle.loop.grantSeen = false ∧ s.masterIdle.loop.idleOut = some s.cycle ∧ s.masterIdle.loop.frames = s.loop.frames + 1)) ∧
  (∀ (s : State) (b : List Byte), slotComes s 0 b 0x11 →
    let c := fld (recOfBytes b).payload 8 2
    (validSlot b = true → ∃ u, exec .loopIdleArrival s = .next u ∧ loopOnly s u ∧ passes s u 0 b ∧
      u.loop.circ = (if 64 ≤ c ∧ c ≤ 500 then c else s.loop.circ) ∧ u.loop.circs = s.loop.circs + 1 ∧ u.loop.idleAt = s.cycle ∧
      u.loop.st = (if s.loop.st = .off then .forming else s.loop.st)) ∧
    (validSlot b = false → ∃ u, exec .loopIdleArrival s = .next u ∧ loopOnly s u ∧ u.loop.circs = s.loop.circs + 1 ∧
      u.loop.counts.crcerr = s.loop.counts.crcerr + 1 ∧ u.loop.idleAt = s.loop.idleAt ∧ u.loop.st = s.loop.st))

/-- R274, R316, R381, R386, R387, R422: the oldest record received is applied at its LSN, by the event of its type: a WRITE and an ATOMIC
change the locket's bytes they name and no others; a MSG goes into its inbox, or is counted as dropped, and one for another package changes
nothing; a kill order leaves its context killed; a LAUNCH forms this package's share or is reported on the issuing package; an XLATE drops
translations; a DIGEST is recorded, and a difference reported. -/
def Obligations.LoopApplies : Prop :=
  (∀ (s : State) (x : RxRec) (rest : List RxRec), s.loop.rx = x :: rest → ∀ e ∈ applyForms s.npkg,
    (e.2 x.r = true → (x.r.ty ≠ 4 ∨ s.loop.postq.length < 1024 ∨ s.loop.st ≠ .run) → exec e.1 s = .next s.applyNext) ∧
    (e.2 x.r = false → exec e.1 s = .next s)) ∧
  (∀ (s : State) (e : Instr × (LRec → Bool)), s.loop.rx = [] → e ∈ applyForms s.npkg → exec e.1 s = .next s) ∧
  (∀ (s : State) (x : RxRec) (rest : List RxRec), calm s → s.mem.wf = true → s.loop.rx = x :: rest → x.own = none →
    s.applyNext.loop.applied = x.lsn ∧ s.applyNext.loop.rx = rest ∧
    (let o := x.r.arg % 2 ^ 24
     let old := leNat ((List.range 8).map fun i => s.mem.read (locketBase + o + i))
     (x.r.ty = 1 → x.r.len ≤ 48 → x.r.payload.length = 48 → o + x.r.len ≤ 2 ^ 24 →
       (∀ i < x.r.len, s.applyNext.mem.read (locketBase + o + i) = x.r.payload.getD i 0) ∧
       ∀ a, a < locketBase + o ∨ locketBase + o + x.r.len ≤ a → s.applyNext.mem.read a = s.mem.read a) ∧
     (x.r.ty = 2 → o + 8 ≤ 2 ^ 24 →
       leNat ((List.range 8).map fun i => s.applyNext.mem.read (locketBase + o + i)) = atomicNew x.r old % 2 ^ 64 ∧
       ∀ a, a < locketBase + o ∨ locketBase + o + 8 ≤ a → s.applyNext.mem.read a = s.mem.read a) ∧
     (x.r.ty = 3 → x.r.arg % 32 ≠ s.pkgid → s.applyNext.mem = s.mem ∧ s.applyNext.loop.inboxes = s.loop.inboxes) ∧
     (x.r.ty = 3 → x.r.arg % 32 = s.pkgid → (nget s.loop.inboxes (bitsOf x.r.arg 11 8)).getD {} = {} →
       s.applyNext.mem = s.mem ∧
       (nget s.applyNext.loop.inboxes (bitsOf x.r.arg 11 8)).map (fun b => (b.drop, b.dlsn)) = some (1, x.lsn)) ∧
     (x.r.killOrder s.npkg = true → (s.applyNext.ctx (launchCtx x.r)).killed = true))) ∧
  -- every other type: its effect, then the LSN, the logs and the post's end
  (∀ (s : State) (x : RxRec) (rest : List RxRec), s.loop.rx = x :: rest →
    let v := (s.modLoop fun l => { l with rx := rest }).applyEffect x
    s.applyNext = ((((v.2.modLoop fun l => { l with applied := x.lsn }).logAll 1 (fun _ => (x.own.map (·.ctx)).getD none32) x.r.bytes).postApplied
      x v.1).settleSlots)) ∧
  -- MSG into an inbox that is enabled and has room: the entry, then the tail (R387)
  (∀ (s : State) (x : RxRec) (b : Inbox), x.r.ty = 3 → x.r.arg % 32 = s.pkgid → nget s.loop.inboxes (bitsOf x.r.arg 11 8) = some b →
    b.en = true → b.lcnt ≠ 0 → b.undef = false → x.r.payload.length = 48 → (∀ t ∈ s.teams, t.2.queues = []) →
    (∀ i < 64 + 64 * 2 ^ b.lcnt, regionOf (b.base + i) ≠ .control) →
    let tail := s.mem.readLe b.base 8
    let used := (tail + 2 ^ 64 - s.mem.readLe (b.base + 8) 8) % 2 ^ 64
    (used < 2 ^ b.lcnt →
      ((s.applyEffect x).2.mem = (s.mem.writeN (b.base + 64 + 64 * (tail % 2 ^ b.lcnt))
        (x.r.payload ++ leBytes 8 x.lsn ++ leBytes 1 x.r.src ++ leBytes 7 0)).writeN b.base (leBytes 8 ((tail + 1) % 2 ^ 64)) ∧
      (s.applyEffect x).2.loop = s.loop)) ∧
    (2 ^ b.lcnt ≤ used → (s.applyEffect x).2 = s.modLoop fun l => { l with
      inboxes := nset l.inboxes (bitsOf x.r.arg 11 8) { b with drop := b.drop + 1, dlsn := x.lsn } })) ∧
  -- LAUNCH (R316): not for this package, its errors, and the share that it forms
  (∀ (s : State) (x : RxRec), x.r.ty = 4 → x.r.killOrder s.npkg = false →
    let b := x.r.payload
    let mask := fld b 0x14 4
    let teams := fld b 0x10 4
    let mine := bitOf mask s.pkgid
    let reserved := (b.drop 0x1D).take 3 ++ (b.drop 0x24).take 12
    let told (code : Nat) : State := if x.own.isSome = true then s.event 0 4 none32 (launchCtx x.r) code x.lsn else s
    (mine = false → x.own = none → s.applyEffect x = (0, s)) ∧
    (mine = true ∨ x.own ≠ none → b.length = 48 → reserved ≠ leBytes 15 0 → s.applyEffect x = (0, told 0x02)) ∧
    (∀ e, mine = true ∨ x.own ≠ none → reserved = leBytes 15 0 → s.checkLaunch (launchCtx x.r) 2 (fld b 0 8) teams 0 0 = .error e →
      s.applyEffect x = (0, told e.1)) ∧
    (∀ kd v, reserved = leBytes 15 0 → s.checkLaunch (launchCtx x.r) 2 (fld b 0 8) teams 0 0 = .ok (kd, v) →
      (mine = false → s.applyEffect x = (0, s)) ∧
      (mine = true → 64 ≤ (s.sched.shares.filter fun y => s.shareWaits y.2).length → s.applyEffect x = (0, told 0x0A)) ∧
      (mine = true → (s.sched.shares.filter fun y => s.shareWaits y.2).length < 64 →
        -- of n packages named, this one is number k: its clusters are those from k/n to (k+1)/n of the grid
        let n := ((List.range 32).filter (bitOf mask)).length
        let k := ((List.range v.pkgid).filter (bitOf mask)).length
        let per := kd.cw * kd.ch
        let lo := k * (teams / per) / n
        let hi := (k + 1) * (teams / per) / n
        let id := v.sched.sharesNext
        (lo ≠ hi → ∃ u g, s.applyEffect x = (0, u) ∧ nget u.grids v.ids.gid = some g ∧
          g.ctx = launchCtx x.r ∧ g.kd = kd ∧ g.param = BitVec.ofNat 64 (fld b 8 8) ∧ g.teams = teams ∧
          g.share = (lo * per, hi * per) ∧ g.next = lo * per ∧ g.last = hi * per ∧ g.src = .loop id ∧
          nget u.sched.shares id = some ⟨v.ids.gid, fld b 0x1C 1, launchCtx x.r, fld b 0x20 4, v.cycle, []⟩ ∧
          u.loop = v.loop ∧ u.mem = v.mem ∧ u.strands = v.strands) ∧
        (lo = hi → fld b 0x20 4 = none32 → ∃ u, s.applyEffect x = (0, u) ∧ u.loop = v.loop ∧ u.mem = v.mem ∧ u.strands = v.strands)))) ∧
  -- XLATE (R274): cached translations that it meets are gone, and no others
  (∀ (s : State) (x : RxRec), x.r.ty = 5 →
    let gone (e : TlbEnt) : Bool := e.hit (fld x.r.payload 8 4) (fld x.r.payload 12 1 % 4) (fld x.r.payload 0 8)
    let u := (s.applyEffect x).2
    (∀ e, e ∈ u.xcache ↔ e ∈ s.xcache ∧ gone e = false) ∧
    (∀ c e, e ∈ (u.core c).tlb ↔ e ∈ (s.core c).tlb ∧ gone e = false) ∧ u.mem = s.mem ∧ u.loop = s.loop ∧ u.strands = s.strands) ∧
  -- DIGEST (R422): recorded where DGX is set, and reported where another source has given another value
  (∀ (s : State) (x : RxRec), x.r.ty = 6 →
    let b := x.r.payload
    let ctx := fld b 8 4
    let mine := (x.r.src, ctx, fld b 12 4, fld b 16 4, fld b 0 8)
    let kept := s.modLoop fun l => { l with digests := (mine :: l.digests).take 1024 }
    let other (d : Nat × Nat × Nat × Nat × Nat) : Prop :=
      d.1 ≠ x.r.src ∧ d.2.1 = ctx ∧ d.2.2.1 = fld b 12 4 ∧ d.2.2.2.1 = fld b 16 4 ∧ d.2.2.2.2 ≠ fld b 0 8
    ((s.ctx ctx).dbg.dgx = false → s.applyEffect x = (0, s)) ∧
    ((s.ctx ctx).dbg.dgx = true → (∀ d ∈ s.loop.digests, ¬ other d) → s.applyEffect x = (0, kept)) ∧
    (∀ d ∈ s.loop.digests, (s.ctx ctx).dbg.dgx = true → other d → s.applyEffect x = (0, kept.event 0 6 none32 ctx 0xA0 x.lsn)))

/-- R373, R374, R388, R391 to R394: LOOPCTL's bits, heaters, taps and the counts that reading clears. -/
def Sys2Proof.Claim.LoopControls : Prop :=
  (∀ s : State, s.fw.st ≠ .run → exec .loopctlJoinWrite s = .next s ∧ exec .loopctlMasterWrite s = .next s ∧
    exec .loopctlStartWrite s = .next s ∧ exec .mzmHeaterWrite s = .next s ∧ exec .qalarmClear s = .next s) ∧
  (∀ s : State, ¬ shown s → exec .grantsRead s = .next s ∧ exec .regenRead s = .next s ∧ exec .crcerrRead s = .next s ∧
    exec .tapMinmaxRead s = .next s ∧ exec .ibdropRead s = .next s) ∧
  (∀ (s : State) (b : Nat), s.args = [b] → s.fw.st = .run →
    ((b = 1) = (s.loop.join = true) → exec .loopctlJoinWrite s = .next s) ∧
    (b = 1 → s.loop.join = false → ∃ u, exec .loopctlJoinWrite s = .next u ∧ loopOnly s u ∧ u.loop.join = true ∧
      u.loop.idleAt = s.cycle ∧ u.sent = .gate true :: s.sent ∧ u.loop.st = s.loop.st) ∧
    (b = 0 → s.loop.join = true → ∃ u, exec .loopctlJoinWrite s = .next u ∧ loopOnly s u ∧ u.loop.join = false ∧ u.loop.st = .off ∧
      u.sent = .gate false :: s.sent) ∧
    (∃ u, exec .loopctlMasterWrite s = .next u ∧ loopOnly s u ∧ u.loop.master = decide (b = 1) ∧ u.sent = s.sent)) ∧
  (∀ s : State, s.fw.st = .run → exec .loopctlStartWrite s = .next (if s.loop.master = true ∧ s.loop.st = .forming then
      s.modLoop fun l => { l with grantDue := some 1 } else s)) ∧
  (∀ s : State, shown s →
    (∃ u, exec .grantsRead s = .next u ∧ loopOnly s u ∧ u.loop.counts = { s.loop.counts with grants := 0 } ∧ u.loop.postq = s.loop.postq) ∧
    (∃ u, exec .regenRead s = .next u ∧ loopOnly s u ∧ u.loop.counts = { s.loop.counts with regen := 0 } ∧ u.loop.postq = s.loop.postq) ∧
    (∃ u, exec .crcerrRead s = .next u ∧ loopOnly s u ∧ u.loop.counts = { s.loop.counts with crcerr := 0 } ∧ u.loop.postq = s.loop.postq)) ∧
  (∀ (s : State) (i code : Nat), s.args = [i, code] → code < 4096 → s.fw.st = .run → ∃ u, exec .mzmHeaterWrite s = .next u ∧ loopOnly s u ∧
    (u.mzm i).heater = code ∧ (u.mzm i).qalarm = (s.mzm i).qalarm ∧
    (u.mzm i).disturbed = (if calmStep (s.mzm i).heater code then (s.mzm i).disturbed else s.cycle + 40000) ∧
    ∀ j, j ≠ i → u.mzm j = s.mzm j) ∧
  (∀ (s : State) (i : Nat), s.args = [i] →
    (s.fw.st = .run → ∃ u, exec .qalarmClear s = .next u ∧ loopOnly s u ∧ u.mzm i = { s.mzm i with qalarm := false } ∧ ∀ j, j ≠ i → u.mzm j = s.mzm j) ∧
    (shown s → ∃ u, exec .tapMinmaxRead s = .next u ∧ loopOnly s u ∧ u.tap i = { s.tap i with max := -32768, min := 32767 } ∧
      ∀ j, j ≠ i → u.tap j = s.tap j) ∧
    (shown s → ∃ u, exec .ibdropRead s = .next u ∧ loopOnly s u ∧
      nget u.loop.inboxes i = (nget s.loop.inboxes i).map (fun b => { b with drop := 0 }) ∧
      ∀ j, j ≠ i → nget u.loop.inboxes j = nget s.loop.inboxes j)) ∧
  (∀ s : State, ∃ u, exec .tapPowerSample s = .next u ∧ loopOnly s u ∧
    (∀ k < 38, (u.tap k).power = int16 (s.args.getD (2 * k) 0x8000) ∧ (u.tap k).guard = int16 (s.args.getD (2 * k + 1) 0x8000) ∧
      (u.tap k).max = max (s.tap k).max (int16 (s.args.getD (2 * k) 0x8000)) ∧
      (u.tap k).min = min (s.tap k).min (int16 (s.args.getD (2 * k) 0x8000))) ∧
    (∀ i < 16, (u.mzm i).qalarm = ((s.mzm i).qalarm || (s.loop.st == .run && decide (100 < (u.biasError i).natAbs)))) ∧
    (∀ i < 16, (u.mzm i).heater = (s.mzm i).heater))

/-- R373 to R394: records, grants and IDLE records received, loop faults, LOOPCTL, optics (the model's own choices: notes/assumptions/30.md,
51.md). -/
def Obligations.LoopReceivesAndControls : Prop := Claim.LoopRecords ∧ Claim.LoopReceives ∧ Claim.LoopControls

/-! The fabric. -/

namespace Sys2Proof.Claim
open Sys2Proof.Machine

/-- The events of frames received, with their operations. -/
def frameForms : List (Instr × Nat) :=
  [(.framePutReceive, 1), (.frameGetreqReceive, 2), (.frameGetrespReceive, 3), (.frameAaddReceive, 4), (.frameAcasReceive, 5),
   (.frameAtomrespReceive, 6), (.frameAckReceive, 7), (.frameNaksReceive, 8), (.frameNakfReceive, 9), (.frameSleepReceive, 10),
   (.frameWakeReceive, 11)]

/-- A frame of an operation comes to a port that carries it: what its checksums say, its hop limit, its mark. -/
def comes (s : State) (op port ok hop : Nat) (ce : Bool) (b : List Byte) : Prop :=
  s.args = [port, ok, hop, natOf ce] ++ b.map (·.toNat) ∧ s.fab.en = true ∧
  ((s.port port).st = .up ∨ (s.port port).st = .drain ∨ ((s.port port).st = .sleep ∧ op = 11)) ∧ (frmOfBytes b).op = op

/-- The rest of a state is as it was while the fabric changes. -/
def fabOnly (s u : State) : Prop :=
  u.mem = s.mem ∧ u.strands = s.strands ∧ u.teams = s.teams ∧ u.grids = s.grids ∧ u.ctxs = s.ctxs ∧ u.cores = s.cores ∧
  u.sched = s.sched ∧ u.loop = s.loop ∧ u.dbg = s.dbg ∧ u.fw = s.fw ∧ u.runs = s.runs

/-- A numbered frame has arrived on a connection: it counts for the next ACK. -/
def arrived (s : State) (k : Nat) : State :=
  s.modConn k fun c => { c with since := c.since + 1, ackAt := if c.since = 0 then s.cycle else c.ackAt }

/-- An ACK is due at 8 of them. -/
def acked (s : State) (k : Nat) : State := if 8 ≤ (s.conn k).since then s.sendPlain k 7 else s

/-- The response that is kept is one that a frame of the connection says too. -/
def sameReply (x : Machine.Frm) (f y : Machine.Frm) : Bool :=
  y.op == x.op && y.tag == f.tag && y.addr == (if x.op = 9 then 0 else f.addr)

/-- A port from which a frame of the link itself, or of class 0 to its peer, can go at once. -/
def clear (s : State) (n : Nat) : Prop :=
  s.fab.en = true ∧ (s.port n).paused = 0 ∧ (s.port n).peerSleep = false

/-- A frame without data on the class-0 connection to the peer at a port, as it leaves. -/
def linkSent (s : State) (n op : Nat) : Sent :=
  let p := Config.portPeer n
  .frame n ⟨op, 0, (s.conn (4 * p)).ece, 0, s.pkgid, p, 0, s.apsnOf (4 * p), 0, 0, 0, []⟩ 64 false 0 (s.ipv6 s.pkgid) (s.ipv6 p)

end Sys2Proof.Claim

/-- R395 to R402, R404: a frame whose header or checksums fail is dropped and counted; one for another package is forwarded; the
expected numbered frame is performed or held; the first out of order asks once for resending, with the APSN; a duplicate is answered from the
response kept; requests that cannot be performed are refused (the model's own points: notes/assumptions/19.md, 52.md). -/
def Obligations.FabricReceives : Prop :=
  (∀ (s : State) (port ok hop : Nat) (ce : Bool) (b : List Byte), ∀ e ∈ frameForms, comes s e.2 port ok hop ce b →
    let f := frmOfBytes b
    (ok ≠ 1 ∨ hop = 0 ∨ validFrame b = false →
      ∃ u, exec e.1 s = .next u ∧ fabOnly s u ∧ (u.port port).drops = (s.port port).drops + 1 ∧ u.fab.conns = s.fab.conns ∧ u.sent = s.sent) ∧
    (ok = 1 → hop ≠ 0 → validFrame b = true → f.dst ≠ s.pkgid → exec e.1 s = .next (s.forward port f hop ce)) ∧
    (ok = 1 → hop ≠ 0 → validFrame b = true → f.dst = s.pkgid →
      exec e.1 s = .next ((if ce = true ∧ f.numbered = true then s.modConn f.connFrom fun c => { c with ece := true } else s).receiveLocal port f))) ∧
  (∀ (s : State) (port ok hop : Nat) (ce : Bool) (b : List Byte), s.args = [port, ok, hop, natOf ce] ++ b.map (·.toNat) →
    s.fab.en = true → (s.port port).st = .up ∨ (s.port port).st = .drain → (frmOfBytes b).op = 0 ∨ 11 < (frmOfBytes b).op → ∀ e ∈ frameForms,
      ∃ u, exec e.1 s = .next u ∧ fabOnly s u ∧ (u.port port).drops = (s.port port).drops + 1 ∧ u.sent = s.sent) ∧
  (∀ (s : State) (port : Nat) (f : Machine.Frm), (s.conn f.connFrom).st ≠ 2 →
    let k := f.connFrom
    let old := sub24 (s.conn k).rxPsn f.psn ≤ 1024 ∧ ∀ h ∈ s.fab.halted, h.2.connFrom ≠ k ∨ h.2.psn ≠ f.psn
    let naks := ((arrived s k).modConn k fun c => { c with naked := true }).sendPlain k 8
    (f.psn = (s.conn k).rxPsn → s.receiveNumbered port f =
      acked (((arrived (s.modConn k fun c => { c with rxPsn := (c.rxPsn + 1) % 2 ^ 24, naked := false, st := 1 }) k).performOrHold port f).takeApsn
        k f.apsn) k) ∧
    (f.psn ≠ (s.conn k).rxPsn → 1024 < sub24 (s.conn k).rxPsn f.psn →
      s.receiveNumbered port f = acked ((if (s.conn k).naked = true then arrived s k else naks).takeApsn k f.apsn) k) ∧
    (f.psn ≠ (s.conn k).rxPsn → old →
      s.receiveNumbered port f = acked (((if (s.conn k).naked = true then arrived s k else naks).duplicate f).takeApsn k f.apsn) k)) ∧
  -- NAKS and ACK carry the PSN expected next, and with them what was owed is told
  (∀ (s : State) (p op : Nat), op = 7 ∨ op = 8 → s.fab.en = true →
    let k := 4 * p
    let f : Machine.Frm := ⟨op, 0, (s.conn k).ece, 0, s.pkgid, p, 0, s.apsnOf k, 0, 0, 0, []⟩
    ∀ n, s.outPort f = some n → (s.port n).st = .up → (s.port n).paused = 0 → (s.port n).peerSleep = false →
      ∃ u, s.sendPlain k op = u ∧ fabOnly s u ∧
        u.sent = .frame n f 64 false (if Config.portPeer n = p then 0 else 4) (s.ipv6 s.pkgid) (s.ipv6 p) :: s.sent ∧
        (u.conn k).since = 0 ∧ (u.conn k).owe = none ∧ (u.conn k).ece = false) ∧
  -- duplicates: a put does nothing more; an atomic's response is sent again as it was kept, unless it still waits to be sent
  (∀ (s : State) (f : Machine.Frm),
    let k := f.connFrom
    let c := s.conn k
    (f.op = 1 ∨ f.op = 3 ∨ f.op = 6 ∨ f.op = 9 → s.duplicate f = s) ∧
    (f.op = 4 ∨ f.op = 5 → (∀ x ∈ c.kept, x.1 ≠ f.psn ∨ x.2.tag ≠ f.tag) → s.duplicate f = s) ∧
    (∀ x, f.op = 4 ∨ f.op = 5 → (c.kept.find? fun x => x.1 == f.psn && x.2.tag == f.tag) = some x →
      ((∃ u ∈ c.unacked, sameReply x.2 f u.frm = true) → s.duplicate f = s.sendWindow k fun u => sameReply x.2 f u.frm) ∧
      ((∀ u ∈ c.unacked, sameReply x.2 f u.frm = false) → (∃ y ∈ c.queued, sameReply x.2 f y = true) → s.duplicate f = s) ∧
      ((∀ u ∈ c.unacked, sameReply x.2 f u.frm = false) → (∀ y ∈ c.queued, sameReply x.2 f y = false) →
        s.duplicate f = (s.sendStamped k x.2).2))) ∧
  (∀ (s : State) (f : Machine.Frm),
    ((s.ctx f.ctx).valid = false → (s.request f).1.map (fun a => (a.op, a.cause)) = some (9, 0x32) ∧ (s.request f).2 = s) ∧
    ((s.ctx f.ctx).valid = true → f.op = 1 ∨ f.op = 2 → f.addr % 4 ≠ 0 →
      (s.request f).1.map (fun a => (a.op, a.cause)) = some (9, 0x31) ∧ (s.request f).2 = s) ∧
    ((s.ctx f.ctx).valid = true → f.op = 4 ∨ f.op = 5 → f.addr % 8 ≠ 0 →
      (s.request f).1.map (fun a => (a.op, a.cause)) = some (9, 0x31) ∧ (s.request f).2 = s)) ∧
  (∀ (s : State) (port : Nat) (f : Machine.Frm), (s.ctx f.ctx).dbg.halted = true ∨ (s.ctx f.ctx).ck.replay ≠ none →
    ∃ u, s.performOrHold port f = u ∧ u.fab.halted = s.fab.halted ++ [(port, f)] ∧ u.mem = s.mem ∧ u.fab.conns = s.fab.conns) ∧
  -- SLEEP, WAKE, and the ACK of a SLEEP at a port that drains
  (∀ (s : State) (port : Nat) (f : Machine.Frm),
    (f.op = 10 → ∃ u, s.receiveLocal port f = u ∧ (u.port port).peerSleep = true ∧ (u.port port).st = (s.port port).st ∧ fabOnly s u) ∧
    (f.op = 11 → ∃ u, s.receiveLocal port f = u ∧ (u.port port).peerSleep = false ∧ fabOnly s u ∧
      (u.port port).st = (match (s.port port).st with
        | .sleep => .waking
        | .drain => .up
        | x => x) ∧
      (u.port port).lpabort = (s.port port).lpabort + (if (s.port port).st = .drain then 1 else 0)) ∧
    (f.op = 7 → f.src = Config.portPeer port → f.cls = 0 → (s.port port).st = .drain → (s.conn f.connFrom).unacked = [] →
      (s.port port).acked = false → ∃ u, s.receiveLocal port f = u ∧ (u.port port).acked = true ∧ (u.port port).st = .drain ∧ fabOnly s u))

namespace Sys2Proof.Claim
open Sys2Proof.Machine

/-- A frame that is valid comes to this package on a connection that is not being reset, without marks, and no halt holds it. -/
def arrives (s : State) (op port : Nat) (b : List Byte) (hop : Nat) : Prop :=
  let f := frmOfBytes b
  comes s op port 1 hop false b ∧ hop ≠ 0 ∧ validFrame b = true ∧ f.dst = s.pkgid ∧ f.ece = false ∧ (s.conn f.connFrom).st ≠ 2

/-- A numbered one is the expected one, and no halt holds it. -/
def expected (s : State) (f : Machine.Frm) : Prop := f.psn = (s.conn f.connFrom).rxPsn ∧ s.holdsFrame f = false

/-- The state in which it is performed: the connection expects the next one, it counts for an ACK, and it is logged (R398, R418). -/
def performing (s : State) (f : Machine.Frm) : State :=
  (arrived (s.modConn f.connFrom fun c => { c with rxPsn := (c.rxPsn + 1) % 2 ^ 24, naked := false, st := 1 }) f.connFrom).log f.ctx 3 f.ctx f.bytes

/-- What every numbered frame does then: its APSN is taken, and an ACK may be due. -/
def counted (u : State) (f : Machine.Frm) : State := acked (u.takeApsn f.connFrom f.apsn) f.connFrom

/-- The answer of a request as a frame of its connection. -/
def answerOf (s : State) (f : Machine.Frm) (a : Answer) : Machine.Frm :=
  ⟨a.op, f.cls, false, f.ctx, s.pkgid, f.src, 0, 0, if a.op = 9 then 0 else f.addr, f.tag, a.cause, a.data⟩

/-- Where its answer is kept for a duplicate (R398). -/
def keeps (s : State) (f : Machine.Frm) (a : Answer) : State :=
  s.modConn f.connFrom fun c => { c with kept := ((f.psn, answerOf s f a) :: c.kept).take 1024 }

end Sys2Proof.Claim

/-- R264, R265, R397 to R402: what each frame does where it is the expected one and can be performed. A put writes its bytes; a get
answers with the bytes read; an atomic is performed and its answer kept; responses and refusals reach their operation; ACK and NAKS
acknowledge; SLEEP and WAKE are noted at the port. -/
def Obligations.FramesPerformed : Prop :=
  ∀ (s : State) (port hop : Nat) (b : List Byte),
    let f := frmOfBytes b
    let m := performing s f
    (∀ ps, arrives s 1 port b hop → expected s f → (m.ctx f.ctx).valid = true → f.addr % 4 = 0 →
      m.fabParts f.ctx f.addr f.data.length .write false = .ok ps →
      let v := m.useParts f.ctx noCore .write ps
      exec .framePutReceive s = .next (counted (v.putCells (v.liveCells 0x7B00000 (partCells ps f.data))) f)) ∧
    (∀ ps, arrives s 2 port b hop → expected s f → (m.ctx f.ctx).valid = true → f.addr % 4 = 0 →
      m.fabParts f.ctx f.addr (leNat f.data) .read false = .ok ps → (∀ p ∈ ps, regionOf p.pa ≠ .control) → (∀ x ∈ m.teams, x.2.queues = []) →
      let v := m.useParts f.ctx noCore .read ps
      let a : Answer := ⟨3, ps.flatMap fun p => (List.range p.len).map fun i => m.mem.read (p.pa + i), 0⟩
      exec .frameGetreqReceive s = .next (counted (v.sendNumbered f.connFrom [answerOf v f a]) f)) ∧
    (∀ p ps, (m.ctx f.ctx).valid = true → f.addr % 8 = 0 → m.fabParts f.ctx f.addr 8 .write true = .ok (p :: ps) →
      let v := m.useParts f.ctx noCore .write (p :: ps)
      let w (i : Nat) : Word64 := BitVec.ofNat 64 (leNat ((f.data.drop (8 * i)).take 8))
      let add := v.performRmw noCore ⟨10, p.pa, w 0, 0, 0, 0⟩ 0x12200000
      let cas := v.performRmw noCore ⟨11, p.pa, w 1, w 0, 0, 0⟩ 0x12200000
      (arrives s 4 port b hop → expected s f → exec .frameAaddReceive s = .next
        (counted ((keeps add.2 f ⟨6, leBytes 8 add.1, 0⟩).sendNumbered f.connFrom [answerOf add.2 f ⟨6, leBytes 8 add.1, 0⟩]) f)) ∧
      (arrives s 5 port b hop → expected s f → exec .frameAcasReceive s = .next
        (counted ((keeps cas.2 f ⟨6, leBytes 8 cas.1, 0⟩).sendNumbered f.connFrom [answerOf cas.2 f ⟨6, leBytes 8 cas.1, 0⟩]) f))) ∧
    (∀ o, nget m.fab.ops f.tag = some o →
      let one := m.modFab fun x => { x with ops := nmod x.ops f.tag fun o => { o with frames := o.frames - 1 } }
      (arrives s 3 port b hop → expected s f → o.frames ≠ 0 → o.posted = false →
        let v := one.engineCells (one.str o.strand).core (spreadRuns o.locals f.addr f.data)
        exec .frameGetrespReceive s = .next (counted (if o.frames = 1 then v.fabDone o.strand o.num else v) f)) ∧
      (arrives s 6 port b hop → expected s f → o.frames ≠ 0 → o.posted = false →
        exec .frameAtomrespReceive s = .next (counted ((one.fabAnswer o.strand o.num (leNat f.data)).fabDone o.strand o.num) f)) ∧
      (arrives s 9 port b hop → expected s f → exec .frameNakfReceive s = .next (counted (m.fabFail f.tag o f.cause) f))) ∧
    (arrives s 7 port b hop → (s.port port).st = .up → s.asksReset f.connFrom f.apsn = false →
      exec .frameAckReceive s = .next (s.takeApsn f.connFrom f.apsn)) ∧
    (arrives s 7 port b hop → (s.port port).st = .up → s.asksReset f.connFrom f.apsn = true →
      exec .frameAckReceive s = .next (s.handshake f.connFrom)) ∧
    (arrives s 8 port b hop → exec .frameNaksReceive s = .next ((s.takeApsn f.connFrom f.apsn).resend f.connFrom)) ∧
    (arrives s 10 port b hop → (s.port port).st = .up → bitOf (s.port port).paused 0 = false →
      ∃ u, exec .frameSleepReceive s = .next u ∧ u.sent = linkSent s port 7 :: s.sent ∧ (u.port port).peerSleep = true ∧
        (u.port port).st = .up ∧ fabOnly s u) ∧
    (arrives s 11 port b hop → exec .frameWakeReceive s = .next ((s.wakeHint port).modPort port fun x => { x with peerSleep := false }))

/-- R398 to R400, R402 to R404: timers of connections, rates, PFC, resets, and the states of ports (the model's own points:
notes/assumptions/19.md, 52.md). -/
def Obligations.FabricTimersAndPorts : Prop :=
  (∀ (s : State) (k : Nat), s.args = [k] →
    exec .ackDelayExpiry s = .next (if (s.conn k).since ≠ 0 ∧ (s.conn k).owe = none ∧ (s.conn k).ackAt + 8000 ≤ s.cycle then
      s.sendPlain k 7 else s) ∧
    (s.resendDue k = false → exec .retransmitTimeout s = .next s) ∧
    (s.resendDue k = true → (s.conn k).st ≠ 2 → exec .retransmitTimeout s = .next (s.resend k)) ∧
    (s.resendDue k = true → (s.conn k).st = 2 →
      exec .retransmitTimeout s = .next ((s.modConn k fun c => { c with progress := s.cycle, asked := c.asked + 1 }).sendPlain k 7)) ∧
    ((∃ u ∈ (s.conn k).unacked, u.tries ≠ 0 ∧ u.first + s.fab.fabto * 2000 ≤ s.cycle) → exec .fabOperationTimeout s = .next (s.resetConn k)) ∧
    ((∀ u ∈ (s.conn k).unacked, u.tries = 0 ∨ s.cycle < u.first + s.fab.fabto * 2000) → (nget s.fab.fwd (k / 4)).getD 0 ≠ 0 →
      exec .fabOperationTimeout s = .next s) ∧
    ((nget s.fab.fwd (k / 4)).getD 0 = 0 → (s.conn k).unacked ≠ [] ∨ (s.conn k).queued ≠ [] ∨
      (∃ x ∈ s.fab.ops, x.2.conn = k ∧ x.2.frames ≠ 0 ∧ x.2.held = []) → exec .fabOperationTimeout s = .next (s.resetConn k)) ∧
    ((s.conn k).rate < 800 → (s.conn k).calmAt + 100000 ≤ s.cycle → ∃ u, exec .rateRecoveryTimer s = .next u ∧ fabOnly s u ∧
      (u.conn k).rate = (s.conn k).rate + 1 ∧ (u.conn k).calmAt = s.cycle ∧ ∀ j, j ≠ k → u.conn j = s.conn j) ∧
    (800 ≤ (s.conn k).rate ∨ s.cycle < (s.conn k).calmAt + 100000 → exec .rateRecoveryTimer s = .next s)) ∧
  (∀ (s : State) (k : Nat) (u : Unacked), u ∈ (s.conn k).unacked → 16 ≤ u.tries → s.resend k = s.resetConn k) ∧
  -- a reset discards what a connection holds and asks the other end, which answers; what the asker held back then goes out
  (∀ (s : State) (k : Nat),
    s.resetConn k = ((s.dropConn k 2).modConn k fun c => { c with asked := c.asked + 1 }).sendPlain k 7 ∧
    (∀ st, (∀ x ∈ s.fab.ops, x.2.conn ≠ k ∨ x.2.frames = 0 ∨ x.2.held ≠ []) → ∃ u, s.dropConn k st = u ∧ fabOnly s u ∧ u.sent = s.sent ∧
      u.conn k = { s.conn k with st := st, txPsn := 0, rxPsn := 0, unacked := [], queued := [], kept := [], naked := false, since := 0, progress := s.cycle, owe := none } ∧
      (∀ f ∈ u.fab.halted, f.2.connFrom ≠ k) ∧ ∀ j, j ≠ k → u.conn j = s.conn j) ∧
    ((s.conn k).st = 2 → s.handshake k = (s.modConn k fun c => { c with st := 0, asked := c.asked - 1 }).fillWindow k) ∧
    ((s.conn k).st ≠ 2 → (s.conn k).rxPsn ≠ 0 → s.handshake k = (s.dropConn k 0).sendPlain k 7) ∧
    ((s.conn k).st ≠ 2 → (s.conn k).rxPsn = 0 → (s.conn k).txPsn = 0 → (s.conn k).naked = false → (s.conn k).unacked = [] →
      s.handshake k = if (s.conn k).asked = 0 then s.sendPlain k 7 else s.modConn k fun c => { c with asked := c.asked - 1 })) ∧
  (∀ (s : State) (n vec on : Nat), s.args = [n, vec, on] →
    (s.fab.en = false ∨ ((s.port n).st ≠ .up ∧ (s.port n).st ≠ .drain) → exec .pfcPauseReceive s = .next s) ∧
    (s.fab.en = true → (s.port n).st = .up ∨ (s.port n).st = .drain → (s.port n).queue = [] → s.fab.conns = [] →
      (s.port n).oweAck = false → (s.port n).oweSleep = false → ∃ u, exec .pfcPauseReceive s = .next u ∧ fabOnly s u ∧
        ∀ i < 8, bitOf (u.port n).paused i = if bitOf vec i then bitOf on i else bitOf (s.port n).paused i)) ∧
  (∀ s : State, s.fw.st ≠ .run → exec .portctlEnWrite s = .next s ∧ exec .portctlLpreqWrite s = .next s ∧ exec .portctlWakeWrite s = .next s) ∧
  (∀ (s : State) (n b : Nat), s.args = [n, b] → s.fw.st = .run →
    (b = 1 → (s.port n).st = .down → ∃ u, exec .portctlEnWrite s = .next u ∧ fabOnly s u ∧ (u.port n).st = .train ∧ (u.port n).en = true) ∧
    (b = 1 → (s.port n).st ≠ .down → ∃ u, exec .portctlEnWrite s = .next u ∧ fabOnly s u ∧ (u.port n).st = (s.port n).st ∧ (u.port n).en = true) ∧
    (b = 0 → (s.port n).st ≠ .down → ∃ u, exec .portctlEnWrite s = .next u ∧ (u.port n).st = .down ∧ (u.port n).en = false ∧
      (u.port n).queue = [] ∧ (u.port n).lpreq = (s.port n).lpreq ∧ u.strands = s.strands) ∧
    (b = 1 → (s.port n).st = .up → (s.port n).hintAt = some s.cycle → ∃ u, exec .portctlLpreqWrite s = .next u ∧ fabOnly s u ∧
      (u.port n).st = .up ∧ (u.port n).lpreq = false ∧ (u.port n).lpabort = (s.port n).lpabort + 1 ∧ u.sent = s.sent) ∧
    (b = 1 → (s.port n).st = .up → (s.port n).hintAt ≠ some s.cycle → ∃ u, exec .portctlLpreqWrite s = .next u ∧ fabOnly s u ∧
      (u.port n).st = .drain ∧ (u.port n).lpreq = true) ∧
    (b = 1 → (s.port n).st = .up → (s.port n).hintAt ≠ some s.cycle → clear s n → (s.port n).queue = [] →
      ∃ u, exec .portctlLpreqWrite s = .next u ∧ u.sent = linkSent s n 10 :: s.sent) ∧
    (b = 0 ∨ (s.port n).st ≠ .up → ∃ u, exec .portctlLpreqWrite s = .next u ∧ fabOnly s u ∧ (u.port n).st = (s.port n).st ∧
      (u.port n).lpreq = decide (b = 1))) ∧
  (∀ (s : State) (n : Nat), ∃ u, s.wakeWrite n true = u ∧ fabOnly s u ∧ ((s.port n).st = .up → (u.port n).st = .up ∧
    (u.port n).lpreq = false ∧ (u.port n).lpabort = (s.port n).lpabort + 1)) ∧
  (∀ (s : State) (n : Nat), s.args = [n] → (s.port n).queue = [] → s.fab.conns = [] →
    (s.fw.st = .run → ∃ u, exec .portctlWakeWrite s = .next u ∧ fabOnly s u ∧
      (u.port n).st = (match (s.port n).st with
        | .sleep => .waking
        | .drain => .up
        | x => x) ∧
      (u.port n).lpabort = (s.port n).lpabort + (if (s.port n).st = .drain then 1 else 0) ∧
      (u.port n).lpreq = (if (s.port n).st = .sleep ∨ (s.port n).st = .drain then false else (s.port n).lpreq)) ∧
    (∃ u, exec .portLinkUp s = .next u ∧ fabOnly s u ∧ (u.port n).st = if (s.port n).st = .train then .up else (s.port n).st) ∧
    (∃ u, exec .portLanesReady s = .next u ∧ fabOnly s u ∧ (u.port n).st = if (s.port n).st = .waking then .up else (s.port n).st) ∧
    ((s.port n).st = .down → exec .portLinkLost s = .next s) ∧
    ((s.port n).st ≠ .down → exec .portLinkLost s = .next ((s.modPort n fun p => { p with st := .down, paused := 0, sentPause := 0, peerSleep := false, acked := false, oweSleep := false, oweAck := false, queue := [] }).event
      0 7 none32 none32 (16 * n) 0)) ∧
    (∃ u, exec .portDrainComplete s = .next u ∧ fabOnly s u ∧
      (u.port n).st = if (s.port n).st = .drain ∧ ((s.port n).peerSleep = true ∨ (s.port n).acked = true) then .sleep
        else (s.port n).st) ∧
    (shown s → ∃ u, exec .lpabortRead s = .next u ∧ fabOnly s u ∧ u.port n = { s.port n with lpabort := 0 }) ∧
    (shown s → ∃ u, exec .dropsRead s = .next u ∧ fabOnly s u ∧ u.port n = { s.port n with drops := 0 })) ∧
  (∀ (s : State) (n : Nat), s.args = [n] → (s.port n).queue ≠ [] → exec .portDrainComplete s = .next s)

/-! The host and the debug unit. -/

/-- R299, R405, R406, R408, R431: the host's windows, its configuration space, its AtomicOps and the package's, its own memory, and the link
(the model's own points: notes/assumptions/11.md, 13.md, 75.md). -/
def Sys2Proof.Claim.HostLinkMoves : Prop :=
  (∀ (s : State) (bar off n : Nat), s.args = [bar, off, n] →
    (s.host.up = false → exec .hostWindowRead s = .next s) ∧
    (s.host.up = true → s.fw.st = .run → bar = 4 → off + n ≤ 384 * 2 ^ 30 → off + n ≤ 2 ^ (20 + s.host.bar4) →
      exec .hostWindowRead s = .next (s.send (.hostReply (s.mem.readN (tier2Base + off) n)))) ∧
    (s.host.up = true → s.fw.st = .run → bar = 4 → 384 * 2 ^ 30 < off + n → off + n ≤ 2 ^ (20 + s.host.bar4) →
      exec .hostWindowRead s = .next (s.send .hostUr)) ∧
    (s.fw.st = .run → bar = 4 → 2 ^ (20 + s.host.bar4) < off + n → exec .hostWindowRead s = .next s) ∧
    (s.host.up = true → s.fw.st ≠ .run → bar = 4 ∨ bar = 2 → exec .hostWindowRead s = .next (s.send .hostUr)) ∧
    (s.host.up = true → bar = 6 → exec .hostWindowRead s = .next (s.send (.hostReply ((List.range n).map fun i => s.configByte (off + i))))) ∧
    (s.host.up = true → bar = 0 → s.fw.st = .run → off + n ≤ 2 ^ 24 → ∃ u, exec .hostWindowRead s = .next u ∧
      u.sent = .hostReply (s.physBytes (controlBase + off) n) :: s.sent ∧ u.mem = s.mem)) ∧
  (∀ (s : State) (off : Nat) (bs : List Byte), s.args = off :: bs.map (·.toNat) → (∀ t ∈ s.teams, t.2.queues = []) →
    (off < hostBase → s.host.up = false ∨ s.fw.st ≠ .run ∨ 384 * 2 ^ 30 < off + bs.length ∨ 2 ^ (20 + s.host.bar4) < off + bs.length →
      exec .hostWindowWrite s = .next s) ∧
    (s.host.up = true → s.fw.st = .run → off + bs.length ≤ 384 * 2 ^ 30 → off + bs.length ≤ 2 ^ (20 + s.host.bar4) →
      ∃ u, exec .hostWindowWrite s = .next u ∧ u.mem = s.mem.writeN (tier2Base + off) bs ∧ u.teams = s.teams ∧ u.ctlq = s.ctlq) ∧
    -- the host's own memory (R299)
    (hostBase ≤ off → off + bs.length ≤ 2 * hostBase → off < 2 * hostBase → ∃ u, exec .hostWindowWrite s = .next u ∧
      u.mem = s.mem.writeN off bs ∧ u.teams = s.teams ∧ u.ctlq = s.ctlq)) ∧
  (∀ (s : State) (off n op a c : Nat), s.args = [off, n, op, a, c] → s.host.up = true → off + n ≤ 2 ^ (20 + s.host.bar4) →
    let m := s.mem.readLe (tier2Base + off) n
    (s.fw.st ≠ .run ∨ (n ≠ 4 ∧ n ≠ 8) ∨ 384 * 2 ^ 30 < off + n → exec .hostAtomicopRequest s = .next (s.send .hostUr)) ∧
    (s.fw.st = .run → n = 4 ∨ n = 8 → off + n ≤ 384 * 2 ^ 30 → (∀ t ∈ s.teams, t.2.queues = []) →
      ∃ u, exec .hostAtomicopRequest s = .next u ∧ u.sent = .hostReply (leBytes n m) :: s.sent ∧
        u.mem = s.mem.writeLe (tier2Base + off) n (if op = 0 then (m + a) % 256 ^ n else if op = 1 then a % 256 ^ n else if m = c % 256 ^ n then a % 256 ^ n else m))) ∧
  (∀ s : State, (s.host.reqs = [] → (∀ x ∈ s.strands, ∀ l ∈ x.2.fl.loads, l.on ≠ .host) → ∃ u, exec .hostLinkDown s = .next u ∧
    u.host = { s.host with up := false, width := 0, speed := 0 } ∧ u.mem = s.mem)) ∧
  (∀ (s : State) (w v : Nat), s.args = [w, v] →
    (s.fw.st = .shut → exec .hostLinkUp s = .next s) ∧
    (s.fw.st ≠ .shut → ∃ u, exec .hostLinkUp s = .next u ∧
      u.host = { s.host with up := true, width := w % 128, speed := v % 16 } ∧ u.mem = s.mem ∧ u.strands = s.strands)) ∧
  (∀ (s : State) (v : Nat), s.args = [0, v] → ∃ u, exec .pcieConfigWrite s = .next u ∧
    u.host = { s.host with cto := v % 16, atomEn := bitOf v 6 } ∧ u.mem = s.mem ∧ u.strands = s.strands) ∧
  -- identifiers and capabilities of configuration space are read-only (R405)
  (∀ (s : State) (a x y : Nat) (b : Byte), s.args = [1, a, x] → nget configId y = some b →
    (nhas configId a = true → exec .pcieConfigWrite s = .next s) ∧
    ∃ u, exec .pcieConfigWrite s = .next u ∧ u.configByte y = b ∧ u.mem = s.mem ∧ u.strands = s.strands) ∧
  (∀ (s : State) (e : Nat), s.args = [e] → (¬ shown s → exec .eqdropRead s = .next s) ∧
    (shown s → ∃ u, exec .eqdropRead s = .next u ∧ u.mem = s.mem ∧ u.strands = s.strands ∧
      nget u.host.evqs e = (nget s.host.evqs e).map (fun q => { q with drop := 0 }) ∧
      ∀ j, j ≠ e → nget u.host.evqs j = nget s.host.evqs j)) ∧
  (∀ (s : State) (i status : Nat) (q : HostReq), s.args = [i, status] → s.host.up = true → s.host.reqs[i]? = some q →
    let t := s.modHost fun h => { h with reqs := h.reqs.eraseIdx i }
    (status = 0 → exec .atomicopCompletion s = .next ((t.performRmw noCore q.rmw 0xC800000).2.hostAnswer q.strand q.lane
      (some (BitVec.ofNat 64 (t.performRmw noCore q.rmw 0xC800000).1)) none)) ∧
    (status = 1 → exec .atomicopCompletion s = .next (t.hostAnswer q.strand q.lane none (some (0xB2, 2, q.rmw.va))))) ∧
  (∀ (s : State) (i : Nat) (q : HostReq), s.args = [0, i] → s.host.reqs[i]? = some q →
    (s.cycle < q.since + ctoUs s.host.cto * 2000 → exec .hostCompletionTimeout s = .next s) ∧
    (q.since + ctoUs s.host.cto * 2000 ≤ s.cycle → ∃ u, exec .hostCompletionTimeout s = .next u ∧ u.host.reqs = s.host.reqs.eraseIdx i)) ∧
  (∀ (s : State) (sid i : Nat) (x : PendLoad), s.args = [1, sid, i] → nhas s.strands sid = true → (s.str sid).fl.loads[i]? = some x →
    (x.on ≠ .host ∨ s.cycle < x.since + ctoUs s.host.cto * 2000 → exec .hostCompletionTimeout s = .next s) ∧
    (x.on = .host → x.since + ctoUs s.host.cto * 2000 ≤ s.cycle → (∀ w ∈ x.writes, w.1.lane ∈ x.hosts) →
      ∃ u, exec .hostCompletionTimeout s = .next u ∧
        (u.str sid).fl.loads = (s.str sid).fl.loads.eraseIdx i ∧ (u.str sid).fl.hostBad.map (·.1) = (s.str sid).fl.hostBad.map (·.1) ++ x.hosts ∧
        u.mem = s.mem ∧ (u.str sid).frames = (s.str sid).frames))

/-- R410 to R412, R415 to R420, R423, R426: debug commands, checkpoints that are due, the dump phase, the sampler (the model's own points:
notes/assumptions/12.md, 53.md). -/
def Sys2Proof.Claim.DebugCommands : Prop :=
  (∀ s : State, s.fw.st ≠ .run → exec .dbgcmdHalt s = .next s ∧ exec .dbgcmdResume s = .next s ∧ exec .dbgcmdDump s = .next s ∧
    exec .dbgcmdCheckpoint s = .next s ∧ exec .dbgcmdReplay s = .next s) ∧
  (∀ (s : State) (n : Nat), s.args = [n] → s.fw.st = .run →
    ((s.ctx n).dbg.halted = true → exec .dbgcmdHalt s = .next s) ∧
    ((s.ctx n).dbg.halted = false → ∃ u, exec .dbgcmdHalt s = .next u ∧ (u.ctx n).dbg.halted = true ∧ (u.ctx n).dbg.why = 1 ∧
      u.strands = s.strands ∧ u.teams = s.teams ∧ u.mem = s.mem ∧ ∀ j, j ≠ n → u.ctx j = s.ctx j) ∧
    ((s.ctx n).dbg.halted = false ∨ (s.ctx n).dbg.dump ≠ none ∨ ((s.ctx n).dbg.why ≠ 1 ∧ (s.ctx n).dbg.why ≠ 2) →
      exec .dbgcmdResume s = .next s) ∧
    ((s.ctx n).dbg.halted = true → (s.ctx n).dbg.dump = none → (s.ctx n).dbg.why = 1 ∨ (s.ctx n).dbg.why = 2 → s.fab.halted = [] →
      ∃ u, exec .dbgcmdResume s = .next u ∧
        (u.ctx n).dbg.halted = false ∧ (u.ctx n).dbg.why = 0 ∧ u.strands = s.strands ∧ u.mem = s.mem) ∧
    ((s.ctx n).dbg.halted = false ∨ (s.ctx n).dbg.dumpsize = 0 ∨ (s.ctx n).dbg.dump ≠ none → exec .dbgcmdDump s = .next s) ∧
    ((s.ctx n).dbg.halted = true → (s.ctx n).dbg.dumpsize ≠ 0 → (s.ctx n).dbg.dump = none → ∃ u, exec .dbgcmdDump s = .next u ∧
      (u.ctx n).dbg = { (s.ctx n).dbg with dump := some { kill := none } } ∧ u.mem = s.mem ∧ u.strands = s.strands ∧ u.teams = s.teams) ∧
    ((s.ctx n).dbg.full = true ∨ (s.ctx n).ck.taking = true ∨ (s.ctx n).killed = true → exec .dbgcmdCheckpoint s = .next s) ∧
    ((s.ctx n).dbg.full = false → (s.ctx n).ck.taking = false → (s.ctx n).killed = false → (s.ctx n).ck.replay = none →
      (∀ t ∈ s.teams, (s.grid t.2.grid).ctx ≠ n) → exec .dbgcmdCheckpoint s = .next ((s.modCtx n fun c =>
        let k := c.ck
        { c with ck := { k with taking := true } }).settleCkpt n))) ∧
  (∀ (s : State) (n : Nat), s.args = [n] →
    ((s.ctx n).dbg.period = 0 ∨ s.cycle < (s.ctx n).ck.last + (s.ctx n).dbg.period * 2000000 → exec .checkpointPeriodExpiry s = .next s) ∧
    ((s.ctx n).dbg.period ≠ 0 → (s.ctx n).ck.last + (s.ctx n).dbg.period * 2000000 ≤ s.cycle →
      exec .checkpointPeriodExpiry s = .next (s.checkpoint n))) ∧
  -- no checkpoint is taken once the area or the log has been full (R418)
  (∀ (s : State) (n : Nat) (xs : List Saved), (s.ctx n).dbg.full = true → s.storeCkpt n xs = (none, s)) ∧
  -- the dump phase (R423): a kill halts its context first; the dump is made once what has begun is complete, and the kill then proceeds
  (∀ (s : State) (k : Kill), (s.ctx k.ctx).killed = false → k.reason ≤ 4 →
    ((s.ctx k.ctx).dbg.dump = none → (s.ctx k.ctx).dbg.dumpsize ≠ 0 → (s.ctx k.ctx).dbg.halted = false → ∃ u, s.kill k = u ∧
      (u.ctx k.ctx).dbg = { (s.ctx k.ctx).dbg with halted := true, why := 3, bp := 0, dump := some { kill := some k } } ∧
      (u.ctx k.ctx).killed = false ∧ u.mem = s.mem ∧ u.strands = s.strands ∧ u.teams = s.teams ∧ u.loop = s.loop) ∧
    (∀ d k', (s.ctx k.ctx).dbg.dump = some d → d.kill = some k' → s.kill k = s)) ∧
  (∀ (s : State) (n : Nat) (d : DumpSt), (s.ctx n).dbg.dump = some d →
    (d.captured = false → s.dumpReady n = false → s.dumpGoes n = s) ∧
    (d.captured = true → s.dumpSlot = false → s.dumpGoes n = s) ∧
    (d.captured = false → s.dumpReady n = true → s.cycle % (Config.latency + 1) = 0 →
      ((s.dumpGoes n).ctx n).dbg.dump = some { d with captured := true } ∧ (s.dumpGoes n).teams = s.teams ∧
      (s.dumpGoes n).strands.map (·.1) = s.strands.map (·.1)) ∧
    (d.captured = true → s.dumpSlot = true → s.cycle % (Config.latency + 1) = 0 →
      ((s.dumpGoes n).ctx n).dbg.dump = none ∧
      (∀ k, d.kill = some k → k.ctx = n → ((s.dumpGoes n).ctx n).killed = true) ∧
      (d.kill = none → s.dumpGoes n = (s.writeDump n none).2.2.dumpOver n))) ∧
  (∀ (s : State) (n i : Nat), s.args = [n, i] → s.fw.st = .run →
    (nget (s.ctx n).ck.stored i = none → exec .dbgcmdReplay s = .next s) ∧
    (∀ k, nget (s.ctx n).ck.stored i = some k → (∀ t ∈ s.teams, (s.grid t.2.grid).ctx ≠ n) → ∃ u, exec .dbgcmdReplay s = .next u ∧
      (u.ctx n).ck.replay.isSome = true ∧ u.teams = s.teams ∧
      (∀ x ∈ k.teams, nhas u.saved x.team = true))) ∧
  (∀ (s : State) (k : Nat), s.args = [k] →
    (s.dbg.sampEn = false ∨ nget s.dbg.due k ≠ some 0 → exec .sampleIntervalExpiry s = .next s) ∧
    (∀ sid, s.dbg.sampEn = true → nget s.dbg.due k = some 0 → nget s.dbg.tags k = none → s.inPart k = [sid] →
      ∃ (u : State) (t : Tag), exec .sampleIntervalExpiry s = .next u ∧ nget u.dbg.tags k = some t ∧ t.strand = sid ∧
        u.strands = s.strands ∧ u.mem = s.mem) ∧
    (nget s.dbg.tags k = none → exec .sampleRecordAppend s = .next s) ∧
    (∀ t x, nget s.dbg.tags k = some t → t.status = some x → t.word.isSome = true → s.dbg.en = false → nsorted s.dbg.tags = true →
      ∃ u, exec .sampleRecordAppend s = .next u ∧ nget u.dbg.tags k = none ∧ u.dbg.drop = s.dbg.drop + 1 ∧ u.mem = s.mem)) ∧
  (∀ s : State, shown s → exec .drdropRead s = .next (s.modDbg fun d => { d with drop := 0 })) ∧
  (∀ s : State, ¬ shown s → exec .drdropRead s = .next s)

/-- R299, R405 to R426: the host link and the debug unit (the model's own choices: notes/assumptions/12.md, 46.md, 53.md). -/
def Obligations.HostAndDebug : Prop := Claim.HostLinkMoves ∧ Claim.DebugCommands
end

