-- ==== Sys2Proof/Laws/State.lean ====
section
/-! SUPPORT. One lemma for each field of the state under each named update of Machine/Ops.lean: what the update writes, and
that it writes nothing else. -/

namespace Sys2Proof.Machine

@[simp] theorem State.modStr_mem (s : State) (i : Nat) (f : Strand → Strand) : (s.modStr i f).mem = s.mem := rfl
@[simp] theorem State.modStr_cycle (s : State) (i : Nat) (f : Strand → Strand) : (s.modStr i f).cycle = s.cycle := rfl
@[simp] theorem State.modStr_tick (s : State) (i : Nat) (f : Strand → Strand) : (s.modStr i f).tick = s.tick := rfl
@[simp] theorem State.modStr_inputs (s : State) (i : Nat) (f : Strand → Strand) : (s.modStr i f).inputs = s.inputs := rfl
@[simp] theorem State.modStr_args (s : State) (i : Nat) (f : Strand → Strand) : (s.modStr i f).args = s.args := rfl
@[simp] theorem State.modStr_round (s : State) (i : Nat) (f : Strand → Strand) : (s.modStr i f).round = s.round := rfl
@[simp] theorem State.modStr_runs (s : State) (i : Nat) (f : Strand → Strand) : (s.modStr i f).runs = s.runs := rfl
@[simp] theorem State.modStr_strands (s : State) (i : Nat) (f : Strand → Strand) : (s.modStr i f).strands = nmod s.strands i f := rfl
@[simp] theorem State.modStr_orphans (s : State) (i : Nat) (f : Strand → Strand) : (s.modStr i f).orphans = s.orphans := rfl
@[simp] theorem State.modStr_teams (s : State) (i : Nat) (f : Strand → Strand) : (s.modStr i f).teams = s.teams := rfl
@[simp] theorem State.modStr_grids (s : State) (i : Nat) (f : Strand → Strand) : (s.modStr i f).grids = s.grids := rfl
@[simp] theorem State.modStr_ctxs (s : State) (i : Nat) (f : Strand → Strand) : (s.modStr i f).ctxs = s.ctxs := rfl
@[simp] theorem State.modStr_cores (s : State) (i : Nat) (f : Strand → Strand) : (s.modStr i f).cores = s.cores := rfl
@[simp] theorem State.modStr_xcache (s : State) (i : Nat) (f : Strand → Strand) : (s.modStr i f).xcache = s.xcache := rfl
@[simp] theorem State.modStr_ids (s : State) (i : Nat) (f : Strand → Strand) : (s.modStr i f).ids = s.ids := rfl
@[simp] theorem State.modStr_pkgid (s : State) (i : Nat) (f : Strand → Strand) : (s.modStr i f).pkgid = s.pkgid := rfl
@[simp] theorem State.modStr_npkg (s : State) (i : Nat) (f : Strand → Strand) : (s.modStr i f).npkg = s.npkg := rfl
@[simp] theorem State.modStr_sched (s : State) (i : Nat) (f : Strand → Strand) : (s.modStr i f).sched = s.sched := rfl
@[simp] theorem State.modStr_saved (s : State) (i : Nat) (f : Strand → Strand) : (s.modStr i f).saved = s.saved := rfl
@[simp] theorem State.modStr_loop (s : State) (i : Nat) (f : Strand → Strand) : (s.modStr i f).loop = s.loop := rfl
@[simp] theorem State.modStr_fab (s : State) (i : Nat) (f : Strand → Strand) : (s.modStr i f).fab = s.fab := rfl
@[simp] theorem State.modStr_host (s : State) (i : Nat) (f : Strand → Strand) : (s.modStr i f).host = s.host := rfl
@[simp] theorem State.modStr_dbg (s : State) (i : Nat) (f : Strand → Strand) : (s.modStr i f).dbg = s.dbg := rfl
@[simp] theorem State.modStr_kills (s : State) (i : Nat) (f : Strand → Strand) : (s.modStr i f).kills = s.kills := rfl
@[simp] theorem State.modStr_fw (s : State) (i : Nat) (f : Strand → Strand) : (s.modStr i f).fw = s.fw := rfl
@[simp] theorem State.modStr_ctlq (s : State) (i : Nat) (f : Strand → Strand) : (s.modStr i f).ctlq = s.ctlq := rfl
@[simp] theorem State.modStr_sent (s : State) (i : Nat) (f : Strand → Strand) : (s.modStr i f).sent = s.sent := rfl

@[simp] theorem State.modTeam_mem (s : State) (i : Nat) (f : Team → Team) : (s.modTeam i f).mem = s.mem := rfl
@[simp] theorem State.modTeam_cycle (s : State) (i : Nat) (f : Team → Team) : (s.modTeam i f).cycle = s.cycle := rfl
@[simp] theorem State.modTeam_tick (s : State) (i : Nat) (f : Team → Team) : (s.modTeam i f).tick = s.tick := rfl
@[simp] theorem State.modTeam_inputs (s : State) (i : Nat) (f : Team → Team) : (s.modTeam i f).inputs = s.inputs := rfl
@[simp] theorem State.modTeam_args (s : State) (i : Nat) (f : Team → Team) : (s.modTeam i f).args = s.args := rfl
@[simp] theorem State.modTeam_round (s : State) (i : Nat) (f : Team → Team) : (s.modTeam i f).round = s.round := rfl
@[simp] theorem State.modTeam_runs (s : State) (i : Nat) (f : Team → Team) : (s.modTeam i f).runs = s.runs := rfl
@[simp] theorem State.modTeam_strands (s : State) (i : Nat) (f : Team → Team) : (s.modTeam i f).strands = s.strands := rfl
@[simp] theorem State.modTeam_orphans (s : State) (i : Nat) (f : Team → Team) : (s.modTeam i f).orphans = s.orphans := rfl
@[simp] theorem State.modTeam_teams (s : State) (i : Nat) (f : Team → Team) : (s.modTeam i f).teams = nmod s.teams i f := rfl
@[simp] theorem State.modTeam_grids (s : State) (i : Nat) (f : Team → Team) : (s.modTeam i f).grids = s.grids := rfl
@[simp] theorem State.modTeam_ctxs (s : State) (i : Nat) (f : Team → Team) : (s.modTeam i f).ctxs = s.ctxs := rfl
@[simp] theorem State.modTeam_cores (s : State) (i : Nat) (f : Team → Team) : (s.modTeam i f).cores = s.cores := rfl
@[simp] theorem State.modTeam_xcache (s : State) (i : Nat) (f : Team → Team) : (s.modTeam i f).xcache = s.xcache := rfl
@[simp] theorem State.modTeam_ids (s : State) (i : Nat) (f : Team → Team) : (s.modTeam i f).ids = s.ids := rfl
@[simp] theorem State.modTeam_pkgid (s : State) (i : Nat) (f : Team → Team) : (s.modTeam i f).pkgid = s.pkgid := rfl
@[simp] theorem State.modTeam_npkg (s : State) (i : Nat) (f : Team → Team) : (s.modTeam i f).npkg = s.npkg := rfl
@[simp] theorem State.modTeam_sched (s : State) (i : Nat) (f : Team → Team) : (s.modTeam i f).sched = s.sched := rfl
@[simp] theorem State.modTeam_saved (s : State) (i : Nat) (f : Team → Team) : (s.modTeam i f).saved = s.saved := rfl
@[simp] theorem State.modTeam_loop (s : State) (i : Nat) (f : Team → Team) : (s.modTeam i f).loop = s.loop := rfl
@[simp] theorem State.modTeam_fab (s : State) (i : Nat) (f : Team → Team) : (s.modTeam i f).fab = s.fab := rfl
@[simp] theorem State.modTeam_host (s : State) (i : Nat) (f : Team → Team) : (s.modTeam i f).host = s.host := rfl
@[simp] theorem State.modTeam_dbg (s : State) (i : Nat) (f : Team → Team) : (s.modTeam i f).dbg = s.dbg := rfl
@[simp] theorem State.modTeam_kills (s : State) (i : Nat) (f : Team → Team) : (s.modTeam i f).kills = s.kills := rfl
@[simp] theorem State.modTeam_fw (s : State) (i : Nat) (f : Team → Team) : (s.modTeam i f).fw = s.fw := rfl
@[simp] theorem State.modTeam_ctlq (s : State) (i : Nat) (f : Team → Team) : (s.modTeam i f).ctlq = s.ctlq := rfl
@[simp] theorem State.modTeam_sent (s : State) (i : Nat) (f : Team → Team) : (s.modTeam i f).sent = s.sent := rfl

@[simp] theorem State.modGrid_mem (s : State) (i : Nat) (f : Grid → Grid) : (s.modGrid i f).mem = s.mem := rfl
@[simp] theorem State.modGrid_cycle (s : State) (i : Nat) (f : Grid → Grid) : (s.modGrid i f).cycle = s.cycle := rfl
@[simp] theorem State.modGrid_tick (s : State) (i : Nat) (f : Grid → Grid) : (s.modGrid i f).tick = s.tick := rfl
@[simp] theorem State.modGrid_inputs (s : State) (i : Nat) (f : Grid → Grid) : (s.modGrid i f).inputs = s.inputs := rfl
@[simp] theorem State.modGrid_args (s : State) (i : Nat) (f : Grid → Grid) : (s.modGrid i f).args = s.args := rfl
@[simp] theorem State.modGrid_round (s : State) (i : Nat) (f : Grid → Grid) : (s.modGrid i f).round = s.round := rfl
@[simp] theorem State.modGrid_runs (s : State) (i : Nat) (f : Grid → Grid) : (s.modGrid i f).runs = s.runs := rfl
@[simp] theorem State.modGrid_strands (s : State) (i : Nat) (f : Grid → Grid) : (s.modGrid i f).strands = s.strands := rfl
@[simp] theorem State.modGrid_orphans (s : State) (i : Nat) (f : Grid → Grid) : (s.modGrid i f).orphans = s.orphans := rfl
@[simp] theorem State.modGrid_teams (s : State) (i : Nat) (f : Grid → Grid) : (s.modGrid i f).teams = s.teams := rfl
@[simp] theorem State.modGrid_grids (s : State) (i : Nat) (f : Grid → Grid) : (s.modGrid i f).grids = nmod s.grids i f := rfl
@[simp] theorem State.modGrid_ctxs (s : State) (i : Nat) (f : Grid → Grid) : (s.modGrid i f).ctxs = s.ctxs := rfl
@[simp] theorem State.modGrid_cores (s : State) (i : Nat) (f : Grid → Grid) : (s.modGrid i f).cores = s.cores := rfl
@[simp] theorem State.modGrid_xcache (s : State) (i : Nat) (f : Grid → Grid) : (s.modGrid i f).xcache = s.xcache := rfl
@[simp] theorem State.modGrid_ids (s : State) (i : Nat) (f : Grid → Grid) : (s.modGrid i f).ids = s.ids := rfl
@[simp] theorem State.modGrid_pkgid (s : State) (i : Nat) (f : Grid → Grid) : (s.modGrid i f).pkgid = s.pkgid := rfl
@[simp] theorem State.modGrid_npkg (s : State) (i : Nat) (f : Grid → Grid) : (s.modGrid i f).npkg = s.npkg := rfl
@[simp] theorem State.modGrid_sched (s : State) (i : Nat) (f : Grid → Grid) : (s.modGrid i f).sched = s.sched := rfl
@[simp] theorem State.modGrid_saved (s : State) (i : Nat) (f : Grid → Grid) : (s.modGrid i f).saved = s.saved := rfl
@[simp] theorem State.modGrid_loop (s : State) (i : Nat) (f : Grid → Grid) : (s.modGrid i f).loop = s.loop := rfl
@[simp] theorem State.modGrid_fab (s : State) (i : Nat) (f : Grid → Grid) : (s.modGrid i f).fab = s.fab := rfl
@[simp] theorem State.modGrid_host (s : State) (i : Nat) (f : Grid → Grid) : (s.modGrid i f).host = s.host := rfl
@[simp] theorem State.modGrid_dbg (s : State) (i : Nat) (f : Grid → Grid) : (s.modGrid i f).dbg = s.dbg := rfl
@[simp] theorem State.modGrid_kills (s : State) (i : Nat) (f : Grid → Grid) : (s.modGrid i f).kills = s.kills := rfl
@[simp] theorem State.modGrid_fw (s : State) (i : Nat) (f : Grid → Grid) : (s.modGrid i f).fw = s.fw := rfl
@[simp] theorem State.modGrid_ctlq (s : State) (i : Nat) (f : Grid → Grid) : (s.modGrid i f).ctlq = s.ctlq := rfl
@[simp] theorem State.modGrid_sent (s : State) (i : Nat) (f : Grid → Grid) : (s.modGrid i f).sent = s.sent := rfl

@[simp] theorem State.modCore_mem (s : State) (i : Nat) (f : Core → Core) : (s.modCore i f).mem = s.mem := rfl
@[simp] theorem State.modCore_cycle (s : State) (i : Nat) (f : Core → Core) : (s.modCore i f).cycle = s.cycle := rfl
@[simp] theorem State.modCore_tick (s : State) (i : Nat) (f : Core → Core) : (s.modCore i f).tick = s.tick := rfl
@[simp] theorem State.modCore_inputs (s : State) (i : Nat) (f : Core → Core) : (s.modCore i f).inputs = s.inputs := rfl
@[simp] theorem State.modCore_args (s : State) (i : Nat) (f : Core → Core) : (s.modCore i f).args = s.args := rfl
@[simp] theorem State.modCore_round (s : State) (i : Nat) (f : Core → Core) : (s.modCore i f).round = s.round := rfl
@[simp] theorem State.modCore_runs (s : State) (i : Nat) (f : Core → Core) : (s.modCore i f).runs = s.runs := rfl
@[simp] theorem State.modCore_strands (s : State) (i : Nat) (f : Core → Core) : (s.modCore i f).strands = s.strands := rfl
@[simp] theorem State.modCore_orphans (s : State) (i : Nat) (f : Core → Core) : (s.modCore i f).orphans = s.orphans := rfl
@[simp] theorem State.modCore_teams (s : State) (i : Nat) (f : Core → Core) : (s.modCore i f).teams = s.teams := rfl
@[simp] theorem State.modCore_grids (s : State) (i : Nat) (f : Core → Core) : (s.modCore i f).grids = s.grids := rfl
@[simp] theorem State.modCore_ctxs (s : State) (i : Nat) (f : Core → Core) : (s.modCore i f).ctxs = s.ctxs := rfl
@[simp] theorem State.modCore_cores (s : State) (i : Nat) (f : Core → Core) : (s.modCore i f).cores = nset s.cores i (f (s.core i)) := rfl
@[simp] theorem State.modCore_xcache (s : State) (i : Nat) (f : Core → Core) : (s.modCore i f).xcache = s.xcache := rfl
@[simp] theorem State.modCore_ids (s : State) (i : Nat) (f : Core → Core) : (s.modCore i f).ids = s.ids := rfl
@[simp] theorem State.modCore_pkgid (s : State) (i : Nat) (f : Core → Core) : (s.modCore i f).pkgid = s.pkgid := rfl
@[simp] theorem State.modCore_npkg (s : State) (i : Nat) (f : Core → Core) : (s.modCore i f).npkg = s.npkg := rfl
@[simp] theorem State.modCore_sched (s : State) (i : Nat) (f : Core → Core) : (s.modCore i f).sched = s.sched := rfl
@[simp] theorem State.modCore_saved (s : State) (i : Nat) (f : Core → Core) : (s.modCore i f).saved = s.saved := rfl
@[simp] theorem State.modCore_loop (s : State) (i : Nat) (f : Core → Core) : (s.modCore i f).loop = s.loop := rfl
@[simp] theorem State.modCore_fab (s : State) (i : Nat) (f : Core → Core) : (s.modCore i f).fab = s.fab := rfl
@[simp] theorem State.modCore_host (s : State) (i : Nat) (f : Core → Core) : (s.modCore i f).host = s.host := rfl
@[simp] theorem State.modCore_dbg (s : State) (i : Nat) (f : Core → Core) : (s.modCore i f).dbg = s.dbg := rfl
@[simp] theorem State.modCore_kills (s : State) (i : Nat) (f : Core → Core) : (s.modCore i f).kills = s.kills := rfl
@[simp] theorem State.modCore_fw (s : State) (i : Nat) (f : Core → Core) : (s.modCore i f).fw = s.fw := rfl
@[simp] theorem State.modCore_ctlq (s : State) (i : Nat) (f : Core → Core) : (s.modCore i f).ctlq = s.ctlq := rfl
@[simp] theorem State.modCore_sent (s : State) (i : Nat) (f : Core → Core) : (s.modCore i f).sent = s.sent := rfl

@[simp] theorem State.modCtx_mem (s : State) (i : Nat) (f : Ctx → Ctx) : (s.modCtx i f).mem = s.mem := rfl
@[simp] theorem State.modCtx_cycle (s : State) (i : Nat) (f : Ctx → Ctx) : (s.modCtx i f).cycle = s.cycle := rfl
@[simp] theorem State.modCtx_tick (s : State) (i : Nat) (f : Ctx → Ctx) : (s.modCtx i f).tick = s.tick := rfl
@[simp] theorem State.modCtx_inputs (s : State) (i : Nat) (f : Ctx → Ctx) : (s.modCtx i f).inputs = s.inputs := rfl
@[simp] theorem State.modCtx_args (s : State) (i : Nat) (f : Ctx → Ctx) : (s.modCtx i f).args = s.args := rfl
@[simp] theorem State.modCtx_round (s : State) (i : Nat) (f : Ctx → Ctx) : (s.modCtx i f).round = s.round := rfl
@[simp] theorem State.modCtx_runs (s : State) (i : Nat) (f : Ctx → Ctx) : (s.modCtx i f).runs = s.runs := rfl
@[simp] theorem State.modCtx_strands (s : State) (i : Nat) (f : Ctx → Ctx) : (s.modCtx i f).strands = s.strands := rfl
@[simp] theorem State.modCtx_orphans (s : State) (i : Nat) (f : Ctx → Ctx) : (s.modCtx i f).orphans = s.orphans := rfl
@[simp] theorem State.modCtx_teams (s : State) (i : Nat) (f : Ctx → Ctx) : (s.modCtx i f).teams = s.teams := rfl
@[simp] theorem State.modCtx_grids (s : State) (i : Nat) (f : Ctx → Ctx) : (s.modCtx i f).grids = s.grids := rfl
@[simp] theorem State.modCtx_ctxs (s : State) (i : Nat) (f : Ctx → Ctx) : (s.modCtx i f).ctxs = nset s.ctxs i (f (s.ctx i)) := rfl
@[simp] theorem State.modCtx_cores (s : State) (i : Nat) (f : Ctx → Ctx) : (s.modCtx i f).cores = s.cores := rfl
@[simp] theorem State.modCtx_xcache (s : State) (i : Nat) (f : Ctx → Ctx) : (s.modCtx i f).xcache = s.xcache := rfl
@[simp] theorem State.modCtx_ids (s : State) (i : Nat) (f : Ctx → Ctx) : (s.modCtx i f).ids = s.ids := rfl
@[simp] theorem State.modCtx_pkgid (s : State) (i : Nat) (f : Ctx → Ctx) : (s.modCtx i f).pkgid = s.pkgid := rfl
@[simp] theorem State.modCtx_npkg (s : State) (i : Nat) (f : Ctx → Ctx) : (s.modCtx i f).npkg = s.npkg := rfl
@[simp] theorem State.modCtx_sched (s : State) (i : Nat) (f : Ctx → Ctx) : (s.modCtx i f).sched = s.sched := rfl
@[simp] theorem State.modCtx_saved (s : State) (i : Nat) (f : Ctx → Ctx) : (s.modCtx i f).saved = s.saved := rfl
@[simp] theorem State.modCtx_loop (s : State) (i : Nat) (f : Ctx → Ctx) : (s.modCtx i f).loop = s.loop := rfl
@[simp] theorem State.modCtx_fab (s : State) (i : Nat) (f : Ctx → Ctx) : (s.modCtx i f).fab = s.fab := rfl
@[simp] theorem State.modCtx_host (s : State) (i : Nat) (f : Ctx → Ctx) : (s.modCtx i f).host = s.host := rfl
@[simp] theorem State.modCtx_dbg (s : State) (i : Nat) (f : Ctx → Ctx) : (s.modCtx i f).dbg = s.dbg := rfl
@[simp] theorem State.modCtx_kills (s : State) (i : Nat) (f : Ctx → Ctx) : (s.modCtx i f).kills = s.kills := rfl
@[simp] theorem State.modCtx_fw (s : State) (i : Nat) (f : Ctx → Ctx) : (s.modCtx i f).fw = s.fw := rfl
@[simp] theorem State.modCtx_ctlq (s : State) (i : Nat) (f : Ctx → Ctx) : (s.modCtx i f).ctlq = s.ctlq := rfl
@[simp] theorem State.modCtx_sent (s : State) (i : Nat) (f : Ctx → Ctx) : (s.modCtx i f).sent = s.sent := rfl

@[simp] theorem State.setMem_mem (s : State) (m : Memory) : (s.setMem m).mem = m := rfl
@[simp] theorem State.setMem_cycle (s : State) (m : Memory) : (s.setMem m).cycle = s.cycle := rfl
@[simp] theorem State.setMem_tick (s : State) (m : Memory) : (s.setMem m).tick = s.tick := rfl
@[simp] theorem State.setMem_inputs (s : State) (m : Memory) : (s.setMem m).inputs = s.inputs := rfl
@[simp] theorem State.setMem_args (s : State) (m : Memory) : (s.setMem m).args = s.args := rfl
@[simp] theorem State.setMem_round (s : State) (m : Memory) : (s.setMem m).round = s.round := rfl
@[simp] theorem State.setMem_runs (s : State) (m : Memory) : (s.setMem m).runs = s.runs := rfl
@[simp] theorem State.setMem_strands (s : State) (m : Memory) : (s.setMem m).strands = s.strands := rfl
@[simp] theorem State.setMem_orphans (s : State) (m : Memory) : (s.setMem m).orphans = s.orphans := rfl
@[simp] theorem State.setMem_teams (s : State) (m : Memory) : (s.setMem m).teams = s.teams := rfl
@[simp] theorem State.setMem_grids (s : State) (m : Memory) : (s.setMem m).grids = s.grids := rfl
@[simp] theorem State.setMem_ctxs (s : State) (m : Memory) : (s.setMem m).ctxs = s.ctxs := rfl
@[simp] theorem State.setMem_cores (s : State) (m : Memory) : (s.setMem m).cores = s.cores := rfl
@[simp] theorem State.setMem_xcache (s : State) (m : Memory) : (s.setMem m).xcache = s.xcache := rfl
@[simp] theorem State.setMem_ids (s : State) (m : Memory) : (s.setMem m).ids = s.ids := rfl
@[simp] theorem State.setMem_pkgid (s : State) (m : Memory) : (s.setMem m).pkgid = s.pkgid := rfl
@[simp] theorem State.setMem_npkg (s : State) (m : Memory) : (s.setMem m).npkg = s.npkg := rfl
@[simp] theorem State.setMem_sched (s : State) (m : Memory) : (s.setMem m).sched = s.sched := rfl
@[simp] theorem State.setMem_saved (s : State) (m : Memory) : (s.setMem m).saved = s.saved := rfl
@[simp] theorem State.setMem_loop (s : State) (m : Memory) : (s.setMem m).loop = s.loop := rfl
@[simp] theorem State.setMem_fab (s : State) (m : Memory) : (s.setMem m).fab = s.fab := rfl
@[simp] theorem State.setMem_host (s : State) (m : Memory) : (s.setMem m).host = s.host := rfl
@[simp] theorem State.setMem_dbg (s : State) (m : Memory) : (s.setMem m).dbg = s.dbg := rfl
@[simp] theorem State.setMem_kills (s : State) (m : Memory) : (s.setMem m).kills = s.kills := rfl
@[simp] theorem State.setMem_fw (s : State) (m : Memory) : (s.setMem m).fw = s.fw := rfl
@[simp] theorem State.setMem_ctlq (s : State) (m : Memory) : (s.setMem m).ctlq = s.ctlq := rfl
@[simp] theorem State.setMem_sent (s : State) (m : Memory) : (s.setMem m).sent = s.sent := rfl

@[simp] theorem State.modIds_mem (s : State) (f : Ids → Ids) : (s.modIds f).mem = s.mem := rfl
@[simp] theorem State.modIds_cycle (s : State) (f : Ids → Ids) : (s.modIds f).cycle = s.cycle := rfl
@[simp] theorem State.modIds_tick (s : State) (f : Ids → Ids) : (s.modIds f).tick = s.tick := rfl
@[simp] theorem State.modIds_inputs (s : State) (f : Ids → Ids) : (s.modIds f).inputs = s.inputs := rfl
@[simp] theorem State.modIds_args (s : State) (f : Ids → Ids) : (s.modIds f).args = s.args := rfl
@[simp] theorem State.modIds_round (s : State) (f : Ids → Ids) : (s.modIds f).round = s.round := rfl
@[simp] theorem State.modIds_runs (s : State) (f : Ids → Ids) : (s.modIds f).runs = s.runs := rfl
@[simp] theorem State.modIds_strands (s : State) (f : Ids → Ids) : (s.modIds f).strands = s.strands := rfl
@[simp] theorem State.modIds_orphans (s : State) (f : Ids → Ids) : (s.modIds f).orphans = s.orphans := rfl
@[simp] theorem State.modIds_teams (s : State) (f : Ids → Ids) : (s.modIds f).teams = s.teams := rfl
@[simp] theorem State.modIds_grids (s : State) (f : Ids → Ids) : (s.modIds f).grids = s.grids := rfl
@[simp] theorem State.modIds_ctxs (s : State) (f : Ids → Ids) : (s.modIds f).ctxs = s.ctxs := rfl
@[simp] theorem State.modIds_cores (s : State) (f : Ids → Ids) : (s.modIds f).cores = s.cores := rfl
@[simp] theorem State.modIds_xcache (s : State) (f : Ids → Ids) : (s.modIds f).xcache = s.xcache := rfl
@[simp] theorem State.modIds_ids (s : State) (f : Ids → Ids) : (s.modIds f).ids = f s.ids := rfl
@[simp] theorem State.modIds_pkgid (s : State) (f : Ids → Ids) : (s.modIds f).pkgid = s.pkgid := rfl
@[simp] theorem State.modIds_npkg (s : State) (f : Ids → Ids) : (s.modIds f).npkg = s.npkg := rfl
@[simp] theorem State.modIds_sched (s : State) (f : Ids → Ids) : (s.modIds f).sched = s.sched := rfl
@[simp] theorem State.modIds_saved (s : State) (f : Ids → Ids) : (s.modIds f).saved = s.saved := rfl
@[simp] theorem State.modIds_loop (s : State) (f : Ids → Ids) : (s.modIds f).loop = s.loop := rfl
@[simp] theorem State.modIds_fab (s : State) (f : Ids → Ids) : (s.modIds f).fab = s.fab := rfl
@[simp] theorem State.modIds_host (s : State) (f : Ids → Ids) : (s.modIds f).host = s.host := rfl
@[simp] theorem State.modIds_dbg (s : State) (f : Ids → Ids) : (s.modIds f).dbg = s.dbg := rfl
@[simp] theorem State.modIds_kills (s : State) (f : Ids → Ids) : (s.modIds f).kills = s.kills := rfl
@[simp] theorem State.modIds_fw (s : State) (f : Ids → Ids) : (s.modIds f).fw = s.fw := rfl
@[simp] theorem State.modIds_ctlq (s : State) (f : Ids → Ids) : (s.modIds f).ctlq = s.ctlq := rfl
@[simp] theorem State.modIds_sent (s : State) (f : Ids → Ids) : (s.modIds f).sent = s.sent := rfl

@[simp] theorem State.modSched_mem (s : State) (f : Sched → Sched) : (s.modSched f).mem = s.mem := rfl
@[simp] theorem State.modSched_cycle (s : State) (f : Sched → Sched) : (s.modSched f).cycle = s.cycle := rfl
@[simp] theorem State.modSched_tick (s : State) (f : Sched → Sched) : (s.modSched f).tick = s.tick := rfl
@[simp] theorem State.modSched_inputs (s : State) (f : Sched → Sched) : (s.modSched f).inputs = s.inputs := rfl
@[simp] theorem State.modSched_args (s : State) (f : Sched → Sched) : (s.modSched f).args = s.args := rfl
@[simp] theorem State.modSched_round (s : State) (f : Sched → Sched) : (s.modSched f).round = s.round := rfl
@[simp] theorem State.modSched_runs (s : State) (f : Sched → Sched) : (s.modSched f).runs = s.runs := rfl
@[simp] theorem State.modSched_strands (s : State) (f : Sched → Sched) : (s.modSched f).strands = s.strands := rfl
@[simp] theorem State.modSched_orphans (s : State) (f : Sched → Sched) : (s.modSched f).orphans = s.orphans := rfl
@[simp] theorem State.modSched_teams (s : State) (f : Sched → Sched) : (s.modSched f).teams = s.teams := rfl
@[simp] theorem State.modSched_grids (s : State) (f : Sched → Sched) : (s.modSched f).grids = s.grids := rfl
@[simp] theorem State.modSched_ctxs (s : State) (f : Sched → Sched) : (s.modSched f).ctxs = s.ctxs := rfl
@[simp] theorem State.modSched_cores (s : State) (f : Sched → Sched) : (s.modSched f).cores = s.cores := rfl
@[simp] theorem State.modSched_xcache (s : State) (f : Sched → Sched) : (s.modSched f).xcache = s.xcache := rfl
@[simp] theorem State.modSched_ids (s : State) (f : Sched → Sched) : (s.modSched f).ids = s.ids := rfl
@[simp] theorem State.modSched_pkgid (s : State) (f : Sched → Sched) : (s.modSched f).pkgid = s.pkgid := rfl
@[simp] theorem State.modSched_npkg (s : State) (f : Sched → Sched) : (s.modSched f).npkg = s.npkg := rfl
@[simp] theorem State.modSched_sched (s : State) (f : Sched → Sched) : (s.modSched f).sched = f s.sched := rfl
@[simp] theorem State.modSched_saved (s : State) (f : Sched → Sched) : (s.modSched f).saved = s.saved := rfl
@[simp] theorem State.modSched_loop (s : State) (f : Sched → Sched) : (s.modSched f).loop = s.loop := rfl
@[simp] theorem State.modSched_fab (s : State) (f : Sched → Sched) : (s.modSched f).fab = s.fab := rfl
@[simp] theorem State.modSched_host (s : State) (f : Sched → Sched) : (s.modSched f).host = s.host := rfl
@[simp] theorem State.modSched_dbg (s : State) (f : Sched → Sched) : (s.modSched f).dbg = s.dbg := rfl
@[simp] theorem State.modSched_kills (s : State) (f : Sched → Sched) : (s.modSched f).kills = s.kills := rfl
@[simp] theorem State.modSched_fw (s : State) (f : Sched → Sched) : (s.modSched f).fw = s.fw := rfl
@[simp] theorem State.modSched_ctlq (s : State) (f : Sched → Sched) : (s.modSched f).ctlq = s.ctlq := rfl
@[simp] theorem State.modSched_sent (s : State) (f : Sched → Sched) : (s.modSched f).sent = s.sent := rfl

@[simp] theorem State.modLoop_mem (s : State) (f : Loop → Loop) : (s.modLoop f).mem = s.mem := rfl
@[simp] theorem State.modLoop_cycle (s : State) (f : Loop → Loop) : (s.modLoop f).cycle = s.cycle := rfl
@[simp] theorem State.modLoop_tick (s : State) (f : Loop → Loop) : (s.modLoop f).tick = s.tick := rfl
@[simp] theorem State.modLoop_inputs (s : State) (f : Loop → Loop) : (s.modLoop f).inputs = s.inputs := rfl
@[simp] theorem State.modLoop_args (s : State) (f : Loop → Loop) : (s.modLoop f).args = s.args := rfl
@[simp] theorem State.modLoop_round (s : State) (f : Loop → Loop) : (s.modLoop f).round = s.round := rfl
@[simp] theorem State.modLoop_runs (s : State) (f : Loop → Loop) : (s.modLoop f).runs = s.runs := rfl
@[simp] theorem State.modLoop_strands (s : State) (f : Loop → Loop) : (s.modLoop f).strands = s.strands := rfl
@[simp] theorem State.modLoop_orphans (s : State) (f : Loop → Loop) : (s.modLoop f).orphans = s.orphans := rfl
@[simp] theorem State.modLoop_teams (s : State) (f : Loop → Loop) : (s.modLoop f).teams = s.teams := rfl
@[simp] theorem State.modLoop_grids (s : State) (f : Loop → Loop) : (s.modLoop f).grids = s.grids := rfl
@[simp] theorem State.modLoop_ctxs (s : State) (f : Loop → Loop) : (s.modLoop f).ctxs = s.ctxs := rfl
@[simp] theorem State.modLoop_cores (s : State) (f : Loop → Loop) : (s.modLoop f).cores = s.cores := rfl
@[simp] theorem State.modLoop_xcache (s : State) (f : Loop → Loop) : (s.modLoop f).xcache = s.xcache := rfl
@[simp] theorem State.modLoop_ids (s : State) (f : Loop → Loop) : (s.modLoop f).ids = s.ids := rfl
@[simp] theorem State.modLoop_pkgid (s : State) (f : Loop → Loop) : (s.modLoop f).pkgid = s.pkgid := rfl
@[simp] theorem State.modLoop_npkg (s : State) (f : Loop → Loop) : (s.modLoop f).npkg = s.npkg := rfl
@[simp] theorem State.modLoop_sched (s : State) (f : Loop → Loop) : (s.modLoop f).sched = s.sched := rfl
@[simp] theorem State.modLoop_saved (s : State) (f : Loop → Loop) : (s.modLoop f).saved = s.saved := rfl
@[simp] theorem State.modLoop_loop (s : State) (f : Loop → Loop) : (s.modLoop f).loop = f s.loop := rfl
@[simp] theorem State.modLoop_fab (s : State) (f : Loop → Loop) : (s.modLoop f).fab = s.fab := rfl
@[simp] theorem State.modLoop_host (s : State) (f : Loop → Loop) : (s.modLoop f).host = s.host := rfl
@[simp] theorem State.modLoop_dbg (s : State) (f : Loop → Loop) : (s.modLoop f).dbg = s.dbg := rfl
@[simp] theorem State.modLoop_kills (s : State) (f : Loop → Loop) : (s.modLoop f).kills = s.kills := rfl
@[simp] theorem State.modLoop_fw (s : State) (f : Loop → Loop) : (s.modLoop f).fw = s.fw := rfl
@[simp] theorem State.modLoop_ctlq (s : State) (f : Loop → Loop) : (s.modLoop f).ctlq = s.ctlq := rfl
@[simp] theorem State.modLoop_sent (s : State) (f : Loop → Loop) : (s.modLoop f).sent = s.sent := rfl

@[simp] theorem State.modFab_mem (s : State) (f : Fab → Fab) : (s.modFab f).mem = s.mem := rfl
@[simp] theorem State.modFab_cycle (s : State) (f : Fab → Fab) : (s.modFab f).cycle = s.cycle := rfl
@[simp] theorem State.modFab_tick (s : State) (f : Fab → Fab) : (s.modFab f).tick = s.tick := rfl
@[simp] theorem State.modFab_inputs (s : State) (f : Fab → Fab) : (s.modFab f).inputs = s.inputs := rfl
@[simp] theorem State.modFab_args (s : State) (f : Fab → Fab) : (s.modFab f).args = s.args := rfl
@[simp] theorem State.modFab_round (s : State) (f : Fab → Fab) : (s.modFab f).round = s.round := rfl
@[simp] theorem State.modFab_runs (s : State) (f : Fab → Fab) : (s.modFab f).runs = s.runs := rfl
@[simp] theorem State.modFab_strands (s : State) (f : Fab → Fab) : (s.modFab f).strands = s.strands := rfl
@[simp] theorem State.modFab_orphans (s : State) (f : Fab → Fab) : (s.modFab f).orphans = s.orphans := rfl
@[simp] theorem State.modFab_teams (s : State) (f : Fab → Fab) : (s.modFab f).teams = s.teams := rfl
@[simp] theorem State.modFab_grids (s : State) (f : Fab → Fab) : (s.modFab f).grids = s.grids := rfl
@[simp] theorem State.modFab_ctxs (s : State) (f : Fab → Fab) : (s.modFab f).ctxs = s.ctxs := rfl
@[simp] theorem State.modFab_cores (s : State) (f : Fab → Fab) : (s.modFab f).cores = s.cores := rfl
@[simp] theorem State.modFab_xcache (s : State) (f : Fab → Fab) : (s.modFab f).xcache = s.xcache := rfl
@[simp] theorem State.modFab_ids (s : State) (f : Fab → Fab) : (s.modFab f).ids = s.ids := rfl
@[simp] theorem State.modFab_pkgid (s : State) (f : Fab → Fab) : (s.modFab f).pkgid = s.pkgid := rfl
@[simp] theorem State.modFab_npkg (s : State) (f : Fab → Fab) : (s.modFab f).npkg = s.npkg := rfl
@[simp] theorem State.modFab_sched (s : State) (f : Fab → Fab) : (s.modFab f).sched = s.sched := rfl
@[simp] theorem State.modFab_saved (s : State) (f : Fab → Fab) : (s.modFab f).saved = s.saved := rfl
@[simp] theorem State.modFab_loop (s : State) (f : Fab → Fab) : (s.modFab f).loop = s.loop := rfl
@[simp] theorem State.modFab_fab (s : State) (f : Fab → Fab) : (s.modFab f).fab = f s.fab := rfl
@[simp] theorem State.modFab_host (s : State) (f : Fab → Fab) : (s.modFab f).host = s.host := rfl
@[simp] theorem State.modFab_dbg (s : State) (f : Fab → Fab) : (s.modFab f).dbg = s.dbg := rfl
@[simp] theorem State.modFab_kills (s : State) (f : Fab → Fab) : (s.modFab f).kills = s.kills := rfl
@[simp] theorem State.modFab_fw (s : State) (f : Fab → Fab) : (s.modFab f).fw = s.fw := rfl
@[simp] theorem State.modFab_ctlq (s : State) (f : Fab → Fab) : (s.modFab f).ctlq = s.ctlq := rfl
@[simp] theorem State.modFab_sent (s : State) (f : Fab → Fab) : (s.modFab f).sent = s.sent := rfl

@[simp] theorem State.modHost_mem (s : State) (f : HostLink → HostLink) : (s.modHost f).mem = s.mem := rfl
@[simp] theorem State.modHost_cycle (s : State) (f : HostLink → HostLink) : (s.modHost f).cycle = s.cycle := rfl
@[simp] theorem State.modHost_tick (s : State) (f : HostLink → HostLink) : (s.modHost f).tick = s.tick := rfl
@[simp] theorem State.modHost_inputs (s : State) (f : HostLink → HostLink) : (s.modHost f).inputs = s.inputs := rfl
@[simp] theorem State.modHost_args (s : State) (f : HostLink → HostLink) : (s.modHost f).args = s.args := rfl
@[simp] theorem State.modHost_round (s : State) (f : HostLink → HostLink) : (s.modHost f).round = s.round := rfl
@[simp] theorem State.modHost_runs (s : State) (f : HostLink → HostLink) : (s.modHost f).runs = s.runs := rfl
@[simp] theorem State.modHost_strands (s : State) (f : HostLink → HostLink) : (s.modHost f).strands = s.strands := rfl
@[simp] theorem State.modHost_orphans (s : State) (f : HostLink → HostLink) : (s.modHost f).orphans = s.orphans := rfl
@[simp] theorem State.modHost_teams (s : State) (f : HostLink → HostLink) : (s.modHost f).teams = s.teams := rfl
@[simp] theorem State.modHost_grids (s : State) (f : HostLink → HostLink) : (s.modHost f).grids = s.grids := rfl
@[simp] theorem State.modHost_ctxs (s : State) (f : HostLink → HostLink) : (s.modHost f).ctxs = s.ctxs := rfl
@[simp] theorem State.modHost_cores (s : State) (f : HostLink → HostLink) : (s.modHost f).cores = s.cores := rfl
@[simp] theorem State.modHost_xcache (s : State) (f : HostLink → HostLink) : (s.modHost f).xcache = s.xcache := rfl
@[simp] theorem State.modHost_ids (s : State) (f : HostLink → HostLink) : (s.modHost f).ids = s.ids := rfl
@[simp] theorem State.modHost_pkgid (s : State) (f : HostLink → HostLink) : (s.modHost f).pkgid = s.pkgid := rfl
@[simp] theorem State.modHost_npkg (s : State) (f : HostLink → HostLink) : (s.modHost f).npkg = s.npkg := rfl
@[simp] theorem State.modHost_sched (s : State) (f : HostLink → HostLink) : (s.modHost f).sched = s.sched := rfl
@[simp] theorem State.modHost_saved (s : State) (f : HostLink → HostLink) : (s.modHost f).saved = s.saved := rfl
@[simp] theorem State.modHost_loop (s : State) (f : HostLink → HostLink) : (s.modHost f).loop = s.loop := rfl
@[simp] theorem State.modHost_fab (s : State) (f : HostLink → HostLink) : (s.modHost f).fab = s.fab := rfl
@[simp] theorem State.modHost_host (s : State) (f : HostLink → HostLink) : (s.modHost f).host = f s.host := rfl
@[simp] theorem State.modHost_dbg (s : State) (f : HostLink → HostLink) : (s.modHost f).dbg = s.dbg := rfl
@[simp] theorem State.modHost_kills (s : State) (f : HostLink → HostLink) : (s.modHost f).kills = s.kills := rfl
@[simp] theorem State.modHost_fw (s : State) (f : HostLink → HostLink) : (s.modHost f).fw = s.fw := rfl
@[simp] theorem State.modHost_ctlq (s : State) (f : HostLink → HostLink) : (s.modHost f).ctlq = s.ctlq := rfl
@[simp] theorem State.modHost_sent (s : State) (f : HostLink → HostLink) : (s.modHost f).sent = s.sent := rfl

@[simp] theorem State.modDbg_mem (s : State) (f : Dbg → Dbg) : (s.modDbg f).mem = s.mem := rfl
@[simp] theorem State.modDbg_cycle (s : State) (f : Dbg → Dbg) : (s.modDbg f).cycle = s.cycle := rfl
@[simp] theorem State.modDbg_tick (s : State) (f : Dbg → Dbg) : (s.modDbg f).tick = s.tick := rfl
@[simp] theorem State.modDbg_inputs (s : State) (f : Dbg → Dbg) : (s.modDbg f).inputs = s.inputs := rfl
@[simp] theorem State.modDbg_args (s : State) (f : Dbg → Dbg) : (s.modDbg f).args = s.args := rfl
@[simp] theorem State.modDbg_round (s : State) (f : Dbg → Dbg) : (s.modDbg f).round = s.round := rfl
@[simp] theorem State.modDbg_runs (s : State) (f : Dbg → Dbg) : (s.modDbg f).runs = s.runs := rfl
@[simp] theorem State.modDbg_strands (s : State) (f : Dbg → Dbg) : (s.modDbg f).strands = s.strands := rfl
@[simp] theorem State.modDbg_orphans (s : State) (f : Dbg → Dbg) : (s.modDbg f).orphans = s.orphans := rfl
@[simp] theorem State.modDbg_teams (s : State) (f : Dbg → Dbg) : (s.modDbg f).teams = s.teams := rfl
@[simp] theorem State.modDbg_grids (s : State) (f : Dbg → Dbg) : (s.modDbg f).grids = s.grids := rfl
@[simp] theorem State.modDbg_ctxs (s : State) (f : Dbg → Dbg) : (s.modDbg f).ctxs = s.ctxs := rfl
@[simp] theorem State.modDbg_cores (s : State) (f : Dbg → Dbg) : (s.modDbg f).cores = s.cores := rfl
@[simp] theorem State.modDbg_xcache (s : State) (f : Dbg → Dbg) : (s.modDbg f).xcache = s.xcache := rfl
@[simp] theorem State.modDbg_ids (s : State) (f : Dbg → Dbg) : (s.modDbg f).ids = s.ids := rfl
@[simp] theorem State.modDbg_pkgid (s : State) (f : Dbg → Dbg) : (s.modDbg f).pkgid = s.pkgid := rfl
@[simp] theorem State.modDbg_npkg (s : State) (f : Dbg → Dbg) : (s.modDbg f).npkg = s.npkg := rfl
@[simp] theorem State.modDbg_sched (s : State) (f : Dbg → Dbg) : (s.modDbg f).sched = s.sched := rfl
@[simp] theorem State.modDbg_saved (s : State) (f : Dbg → Dbg) : (s.modDbg f).saved = s.saved := rfl
@[simp] theorem State.modDbg_loop (s : State) (f : Dbg → Dbg) : (s.modDbg f).loop = s.loop := rfl
@[simp] theorem State.modDbg_fab (s : State) (f : Dbg → Dbg) : (s.modDbg f).fab = s.fab := rfl
@[simp] theorem State.modDbg_host (s : State) (f : Dbg → Dbg) : (s.modDbg f).host = s.host := rfl
@[simp] theorem State.modDbg_dbg (s : State) (f : Dbg → Dbg) : (s.modDbg f).dbg = f s.dbg := rfl
@[simp] theorem State.modDbg_kills (s : State) (f : Dbg → Dbg) : (s.modDbg f).kills = s.kills := rfl
@[simp] theorem State.modDbg_fw (s : State) (f : Dbg → Dbg) : (s.modDbg f).fw = s.fw := rfl
@[simp] theorem State.modDbg_ctlq (s : State) (f : Dbg → Dbg) : (s.modDbg f).ctlq = s.ctlq := rfl
@[simp] theorem State.modDbg_sent (s : State) (f : Dbg → Dbg) : (s.modDbg f).sent = s.sent := rfl

@[simp] theorem State.modFw_mem (s : State) (f : Fw → Fw) : (s.modFw f).mem = s.mem := rfl
@[simp] theorem State.modFw_cycle (s : State) (f : Fw → Fw) : (s.modFw f).cycle = s.cycle := rfl
@[simp] theorem State.modFw_tick (s : State) (f : Fw → Fw) : (s.modFw f).tick = s.tick := rfl
@[simp] theorem State.modFw_inputs (s : State) (f : Fw → Fw) : (s.modFw f).inputs = s.inputs := rfl
@[simp] theorem State.modFw_args (s : State) (f : Fw → Fw) : (s.modFw f).args = s.args := rfl
@[simp] theorem State.modFw_round (s : State) (f : Fw → Fw) : (s.modFw f).round = s.round := rfl
@[simp] theorem State.modFw_runs (s : State) (f : Fw → Fw) : (s.modFw f).runs = s.runs := rfl
@[simp] theorem State.modFw_strands (s : State) (f : Fw → Fw) : (s.modFw f).strands = s.strands := rfl
@[simp] theorem State.modFw_orphans (s : State) (f : Fw → Fw) : (s.modFw f).orphans = s.orphans := rfl
@[simp] theorem State.modFw_teams (s : State) (f : Fw → Fw) : (s.modFw f).teams = s.teams := rfl
@[simp] theorem State.modFw_grids (s : State) (f : Fw → Fw) : (s.modFw f).grids = s.grids := rfl
@[simp] theorem State.modFw_ctxs (s : State) (f : Fw → Fw) : (s.modFw f).ctxs = s.ctxs := rfl
@[simp] theorem State.modFw_cores (s : State) (f : Fw → Fw) : (s.modFw f).cores = s.cores := rfl
@[simp] theorem State.modFw_xcache (s : State) (f : Fw → Fw) : (s.modFw f).xcache = s.xcache := rfl
@[simp] theorem State.modFw_ids (s : State) (f : Fw → Fw) : (s.modFw f).ids = s.ids := rfl
@[simp] theorem State.modFw_pkgid (s : State) (f : Fw → Fw) : (s.modFw f).pkgid = s.pkgid := rfl
@[simp] theorem State.modFw_npkg (s : State) (f : Fw → Fw) : (s.modFw f).npkg = s.npkg := rfl
@[simp] theorem State.modFw_sched (s : State) (f : Fw → Fw) : (s.modFw f).sched = s.sched := rfl
@[simp] theorem State.modFw_saved (s : State) (f : Fw → Fw) : (s.modFw f).saved = s.saved := rfl
@[simp] theorem State.modFw_loop (s : State) (f : Fw → Fw) : (s.modFw f).loop = s.loop := rfl
@[simp] theorem State.modFw_fab (s : State) (f : Fw → Fw) : (s.modFw f).fab = s.fab := rfl
@[simp] theorem State.modFw_host (s : State) (f : Fw → Fw) : (s.modFw f).host = s.host := rfl
@[simp] theorem State.modFw_dbg (s : State) (f : Fw → Fw) : (s.modFw f).dbg = s.dbg := rfl
@[simp] theorem State.modFw_kills (s : State) (f : Fw → Fw) : (s.modFw f).kills = s.kills := rfl
@[simp] theorem State.modFw_fw (s : State) (f : Fw → Fw) : (s.modFw f).fw = f s.fw := rfl
@[simp] theorem State.modFw_ctlq (s : State) (f : Fw → Fw) : (s.modFw f).ctlq = s.ctlq := rfl
@[simp] theorem State.modFw_sent (s : State) (f : Fw → Fw) : (s.modFw f).sent = s.sent := rfl

@[simp] theorem State.send_mem (s : State) (x : Sent) : (s.send x).mem = s.mem := rfl
@[simp] theorem State.send_cycle (s : State) (x : Sent) : (s.send x).cycle = s.cycle := rfl
@[simp] theorem State.send_tick (s : State) (x : Sent) : (s.send x).tick = s.tick := rfl
@[simp] theorem State.send_inputs (s : State) (x : Sent) : (s.send x).inputs = s.inputs := rfl
@[simp] theorem State.send_args (s : State) (x : Sent) : (s.send x).args = s.args := rfl
@[simp] theorem State.send_round (s : State) (x : Sent) : (s.send x).round = s.round := rfl
@[simp] theorem State.send_runs (s : State) (x : Sent) : (s.send x).runs = s.runs := rfl
@[simp] theorem State.send_strands (s : State) (x : Sent) : (s.send x).strands = s.strands := rfl
@[simp] theorem State.send_orphans (s : State) (x : Sent) : (s.send x).orphans = s.orphans := rfl
@[simp] theorem State.send_teams (s : State) (x : Sent) : (s.send x).teams = s.teams := rfl
@[simp] theorem State.send_grids (s : State) (x : Sent) : (s.send x).grids = s.grids := rfl
@[simp] theorem State.send_ctxs (s : State) (x : Sent) : (s.send x).ctxs = s.ctxs := rfl
@[simp] theorem State.send_cores (s : State) (x : Sent) : (s.send x).cores = s.cores := rfl
@[simp] theorem State.send_xcache (s : State) (x : Sent) : (s.send x).xcache = s.xcache := rfl
@[simp] theorem State.send_ids (s : State) (x : Sent) : (s.send x).ids = s.ids := rfl
@[simp] theorem State.send_pkgid (s : State) (x : Sent) : (s.send x).pkgid = s.pkgid := rfl
@[simp] theorem State.send_npkg (s : State) (x : Sent) : (s.send x).npkg = s.npkg := rfl
@[simp] theorem State.send_sched (s : State) (x : Sent) : (s.send x).sched = s.sched := rfl
@[simp] theorem State.send_saved (s : State) (x : Sent) : (s.send x).saved = s.saved := rfl
@[simp] theorem State.send_loop (s : State) (x : Sent) : (s.send x).loop = s.loop := rfl
@[simp] theorem State.send_fab (s : State) (x : Sent) : (s.send x).fab = s.fab := rfl
@[simp] theorem State.send_host (s : State) (x : Sent) : (s.send x).host = s.host := rfl
@[simp] theorem State.send_dbg (s : State) (x : Sent) : (s.send x).dbg = s.dbg := rfl
@[simp] theorem State.send_kills (s : State) (x : Sent) : (s.send x).kills = s.kills := rfl
@[simp] theorem State.send_fw (s : State) (x : Sent) : (s.send x).fw = s.fw := rfl
@[simp] theorem State.send_ctlq (s : State) (x : Sent) : (s.send x).ctlq = s.ctlq := rfl
@[simp] theorem State.send_sent (s : State) (x : Sent) : (s.send x).sent = x :: s.sent := rfl

@[simp] theorem State.addRun_mem (s : State) (r : Run) : (s.addRun r).mem = s.mem := rfl
@[simp] theorem State.addRun_cycle (s : State) (r : Run) : (s.addRun r).cycle = s.cycle := rfl
@[simp] theorem State.addRun_tick (s : State) (r : Run) : (s.addRun r).tick = s.tick := rfl
@[simp] theorem State.addRun_inputs (s : State) (r : Run) : (s.addRun r).inputs = s.inputs := rfl
@[simp] theorem State.addRun_args (s : State) (r : Run) : (s.addRun r).args = s.args := rfl
@[simp] theorem State.addRun_round (s : State) (r : Run) : (s.addRun r).round = s.round := rfl
@[simp] theorem State.addRun_runs (s : State) (r : Run) : (s.addRun r).runs = r :: s.runs := rfl
@[simp] theorem State.addRun_strands (s : State) (r : Run) : (s.addRun r).strands = s.strands := rfl
@[simp] theorem State.addRun_orphans (s : State) (r : Run) : (s.addRun r).orphans = s.orphans := rfl
@[simp] theorem State.addRun_teams (s : State) (r : Run) : (s.addRun r).teams = s.teams := rfl
@[simp] theorem State.addRun_grids (s : State) (r : Run) : (s.addRun r).grids = s.grids := rfl
@[simp] theorem State.addRun_ctxs (s : State) (r : Run) : (s.addRun r).ctxs = s.ctxs := rfl
@[simp] theorem State.addRun_cores (s : State) (r : Run) : (s.addRun r).cores = s.cores := rfl
@[simp] theorem State.addRun_xcache (s : State) (r : Run) : (s.addRun r).xcache = s.xcache := rfl
@[simp] theorem State.addRun_ids (s : State) (r : Run) : (s.addRun r).ids = s.ids := rfl
@[simp] theorem State.addRun_pkgid (s : State) (r : Run) : (s.addRun r).pkgid = s.pkgid := rfl
@[simp] theorem State.addRun_npkg (s : State) (r : Run) : (s.addRun r).npkg = s.npkg := rfl
@[simp] theorem State.addRun_sched (s : State) (r : Run) : (s.addRun r).sched = s.sched := rfl
@[simp] theorem State.addRun_saved (s : State) (r : Run) : (s.addRun r).saved = s.saved := rfl
@[simp] theorem State.addRun_loop (s : State) (r : Run) : (s.addRun r).loop = s.loop := rfl
@[simp] theorem State.addRun_fab (s : State) (r : Run) : (s.addRun r).fab = s.fab := rfl
@[simp] theorem State.addRun_host (s : State) (r : Run) : (s.addRun r).host = s.host := rfl
@[simp] theorem State.addRun_dbg (s : State) (r : Run) : (s.addRun r).dbg = s.dbg := rfl
@[simp] theorem State.addRun_kills (s : State) (r : Run) : (s.addRun r).kills = s.kills := rfl
@[simp] theorem State.addRun_fw (s : State) (r : Run) : (s.addRun r).fw = s.fw := rfl
@[simp] theorem State.addRun_ctlq (s : State) (r : Run) : (s.addRun r).ctlq = s.ctlq := rfl
@[simp] theorem State.addRun_sent (s : State) (r : Run) : (s.addRun r).sent = s.sent := rfl

end Sys2Proof.Machine
end

