-- ==== Sys2Proof/Laws/Memory.lean ====
section
/-! SUPPORT. Finite maps and byte memory: reads after writes, and that every operation that changes memory keeps its
canonical form. -/

namespace Sys2Proof.Machine

/-! Finite maps. -/

@[simp] theorem nget_nil {α : Type} (i : Nat) : nget ([] : NMap α) i = none := rfl

@[simp] theorem nget_nset_same {α : Type} (m : NMap α) (i : Nat) (x : α) : nget (nset m i x) i = some x := by
  induction m with
  | nil => simp [nset, nget]
  | cons c m ih =>
    obtain ⟨k, v⟩ := c
    simp only [nset]
    split
    · simp [nget]
    · split
      · simp [nget]
      · simp only [nget, ih]; split <;> first | omega | rfl

theorem nget_nset_other {α : Type} (m : NMap α) (i j : Nat) (x : α) (h : j ≠ i) : nget (nset m i x) j = nget m j := by
  induction m with
  | nil => simp [nset, nget, Ne.symm h]
  | cons c m ih =>
    obtain ⟨k, v⟩ := c
    simp only [nset]
    split
    · simp [nget, Ne.symm h]
    · split
      · simp only [nget]; split <;> first | omega | (split <;> first | omega | rfl)
      · simp only [nget, ih]

theorem nget_nset {α : Type} (m : NMap α) (i j : Nat) (x : α) :
    nget (nset m i x) j = if j = i then some x else nget m j := by
  split
  · next h => rw [h, nget_nset_same]
  · next h => exact nget_nset_other m i j x h

/-- Changing the value at a key changes what is read there, and nothing else. -/
theorem nget_nmod {α : Type} (m : NMap α) (i j : Nat) (f : α → α) :
    nget (nmod m i f) j = if j = i then (nget m i).map f else nget m j := by
  simp only [nmod]
  split
  · next v h => simp [nget_nset, h]
  · next h => split
              · next e => rw [e, h]; rfl
              · rfl

@[simp] theorem nhas_nmod {α : Type} (m : NMap α) (i j : Nat) (f : α → α) : nhas (nmod m i f) j = nhas m j := by
  simp only [nhas, nget_nmod]; split
  · next e => simp [e]
  · rfl

/-- Rising keys, said of all pairs. -/
theorem nsorted_iff {α : Type} (m : NMap α) : nsorted m = true ↔ m.Pairwise (fun a b => a.1 < b.1) := by
  induction m with
  | nil => simp [nsorted]
  | cons a m ih =>
    cases m with
    | nil => simp [nsorted]
    | cons b m =>
      simp only [nsorted, Bool.and_eq_true, decide_eq_true_eq, ih, List.pairwise_cons]
      refine ⟨fun ⟨h, hb, hm⟩ => ⟨?_, hb, hm⟩, fun ⟨ha, hb, hm⟩ => ⟨ha b (by simp), hb, hm⟩⟩
      intro c hc
      rcases List.mem_cons.1 hc with rfl | hc
      · exact h
      · exact Nat.lt_trans h (hb c hc)

theorem nget_none_of_lt {α : Type} (m : NMap α) (i : Nat) (h : ∀ c ∈ m, i < c.1) : nget m i = none := by
  induction m with
  | nil => rfl
  | cons c m ih =>
    obtain ⟨k, v⟩ := c
    have : k ≠ i := fun e => Nat.lt_irrefl i (e ▸ h (k, v) (by simp))
    simp [nget, this, ih fun c hc => h c (by simp [hc])]

/-- A key that was set is the only one added. -/
theorem mem_nset {α : Type} (m : NMap α) (i : Nat) (x : α) (c : Nat × α) (h : c ∈ nset m i x) : c = (i, x) ∨ c ∈ m := by
  induction m with
  | nil => simpa [nset] using h
  | cons d m ih =>
    obtain ⟨k, v⟩ := d
    simp only [nset] at h
    split at h
    · simpa using h
    · split at h
      · simp only [List.mem_cons] at h ⊢; tauto
      · simp only [List.mem_cons] at h ⊢; tauto

theorem mem_ndel {α : Type} (m : NMap α) (i : Nat) (c : Nat × α) (h : c ∈ ndel m i) : c ∈ m := by
  induction m with
  | nil => simp [ndel] at h
  | cons d m ih =>
    obtain ⟨k, v⟩ := d
    simp only [ndel] at h
    split at h
    · simp [h]
    · simp only [List.mem_cons] at h ⊢; tauto

theorem nsorted_nset {α : Type} (m : NMap α) (i : Nat) (x : α) (h : nsorted m = true) : nsorted (nset m i x) = true := by
  rw [nsorted_iff] at h ⊢
  induction m with
  | nil => simp [nset]
  | cons c m ih =>
    obtain ⟨k, v⟩ := c
    obtain ⟨hk, hm⟩ := List.pairwise_cons.1 h
    simp only [nset]
    split
    · next hlt =>
      refine List.pairwise_cons.2 ⟨fun d hd => ?_, h⟩
      rcases List.mem_cons.1 hd with rfl | hd
      · exact hlt
      · exact Nat.lt_trans hlt (hk d hd)
    · split
      · next hn e => subst e; exact List.pairwise_cons.2 ⟨hk, hm⟩
      · next hn hne =>
        refine List.pairwise_cons.2 ⟨fun d hd => ?_, ih hm⟩
        rcases mem_nset m i x d hd with rfl | hd
        · simp only; omega
        · exact hk d hd

theorem nsorted_ndel {α : Type} (m : NMap α) (i : Nat) (h : nsorted m = true) : nsorted (ndel m i) = true := by
  rw [nsorted_iff] at h ⊢
  induction m with
  | nil => simp [ndel]
  | cons c m ih =>
    obtain ⟨k, v⟩ := c
    obtain ⟨hk, hm⟩ := List.pairwise_cons.1 h
    simp only [ndel]
    split
    · exact hm
    · exact List.pairwise_cons.2 ⟨fun d hd => hk d (mem_ndel m i d hd), ih hm⟩

theorem nget_ndel {α : Type} (m : NMap α) (i j : Nat) (h : nsorted m = true) :
    nget (ndel m i) j = if j = i then none else nget m j := by
  rw [nsorted_iff] at h
  induction m with
  | nil => simp [ndel]
  | cons c m ih =>
    obtain ⟨k, v⟩ := c
    obtain ⟨hk, hm⟩ := List.pairwise_cons.1 h
    simp only [ndel]
    split
    · next e =>
      subst e
      split
      · next e => subst e; exact nget_none_of_lt m _ hk
      · next e => simp [nget, Ne.symm e]
    · next e =>
      simp only [nget, ih hm]
      split <;> split <;> first | rfl | omega

/-! Memory. -/

theorem Memory.wf_iff (m : Memory) : m.wf = true ↔ nsorted m = true ∧ ∀ c ∈ m, c.2 ≠ unlistedByte := by
  simp [Memory.wf]

/-- The byte written is read back. -/
theorem Memory.read_write_same (m : Memory) (a : Nat) (b : Byte) (h : m.wf = true) : (m.write a b).read a = b := by
  have hs := ((Memory.wf_iff m).1 h).1
  simp only [Memory.write]
  split
  · next e => simp [Memory.read, nget_ndel m a a hs, e]
  · simp [Memory.read]

/-- A write leaves every other byte alone. -/
theorem Memory.read_write_other (m : Memory) (a c : Nat) (b : Byte) (h : m.wf = true) (hc : c ≠ a) :
    (m.write a b).read c = m.read c := by
  have hs := ((Memory.wf_iff m).1 h).1
  simp only [Memory.write]
  split
  · simp [Memory.read, nget_ndel m a c hs, hc]
  · simp [Memory.read, nget_nset_other m a c b hc]

theorem Memory.wf_write (m : Memory) (a : Nat) (b : Byte) (h : m.wf = true) : (m.write a b).wf = true := by
  rw [Memory.wf_iff] at h ⊢
  simp only [Memory.write]
  split
  · exact ⟨nsorted_ndel m a h.1, fun c hc => h.2 c (mem_ndel m a c hc)⟩
  · next hb =>
    refine ⟨nsorted_nset m a b h.1, fun c hc => ?_⟩
    rcases mem_nset m a b c hc with rfl | hc
    · exact hb
    · exact h.2 c hc

theorem Memory.wf_writeN (m : Memory) (a : Nat) (bs : List Byte) (h : m.wf = true) : (m.writeN a bs).wf = true := by
  induction bs generalizing m a with
  | nil => exact h
  | cons b bs ih => exact ih _ _ (m.wf_write a b h)

theorem Memory.wf_writeLe (m : Memory) (a n x : Nat) (h : m.wf = true) : (m.writeLe a n x).wf = true :=
  m.wf_writeN a _ h

theorem Memory.wf_writeCells (m : Memory) (cs : List Host.Cell) (h : m.wf = true) : (m.writeCells cs).wf = true := by
  induction cs generalizing m with
  | nil => exact h
  | cons c cs ih => exact ih _ (m.wf_write c.1 c.2 h)

/-- Dropping cells keeps the form (regions that are zeroed, R426). -/
theorem Memory.wf_filter (m : Memory) (p : Host.Cell → Bool) (h : m.wf = true) : Memory.wf (m.filter p) = true := by
  rw [Memory.wf_iff, nsorted_iff] at h ⊢
  exact ⟨h.1.filter p, fun c hc => h.2 c (List.mem_filter.1 hc).1⟩

theorem Memory.wf_fill (m : Memory) (a n : Nat) (f : Nat → Byte) (h : m.wf = true) : (m.fill a n f).wf = true := by
  rw [Memory.wf_iff, nsorted_iff] at h ⊢
  have mid : ∀ c ∈ (List.range n).filterMap (fun i => if f i = unlistedByte then none else some (a + i, f i)),
      a ≤ c.1 ∧ c.1 < a + n ∧ c.2 ≠ unlistedByte := by
    intro c hc
    obtain ⟨i, hi, e⟩ := List.mem_filterMap.1 hc
    split at e
    · cases e
    · next hf =>
      cases e
      have := List.mem_range.1 hi
      exact ⟨by simp, by simpa using this, hf⟩
  refine ⟨?_, ?_⟩
  · rw [Memory.fill, List.pairwise_append, List.pairwise_append]
    refine ⟨⟨h.1.filter _, ?_, ?_⟩, h.1.filter _, ?_⟩
    · rw [List.pairwise_filterMap]
      refine List.pairwise_lt_range.imp ?_
      intro i j hij c hc d hd
      split at hc <;> split at hd <;> first | cases hc; done | skip
      · cases hd
      · cases hc; cases hd; simpa using hij
    · intro c hc d hd
      have := (List.mem_filter.1 hc).2
      have := (mid d hd).1
      simp only [decide_eq_true_eq] at *
      omega
    · intro c hc d hd
      have hd' := (List.mem_filter.1 hd).2
      simp only [decide_eq_true_eq] at hd'
      rcases List.mem_append.1 hc with hc | hc
      · have := (List.mem_filter.1 hc).2
        simp only [decide_eq_true_eq] at this
        omega
      · have := (mid c hc).2.1
        omega
  · intro c hc
    rw [Memory.fill] at hc
    rcases List.mem_append.1 hc with hc | hc
    · rcases List.mem_append.1 hc with hc | hc
      · exact h.2 c (List.mem_filter.1 hc).1
      · exact (mid c hc).2.2
    · exact h.2 c (List.mem_filter.1 hc).1

theorem reset_mem_wf : State.reset.mem.wf = true := by decide

/-- Undefined bytes keep the form. -/
theorem undefine_mem_wf (s : State) (a n : Nat) (h : s.mem.wf = true) : (s.undefine a n).mem.wf = true :=
  Memory.wf_fill s.mem a n _ h

end Sys2Proof.Machine
end

