-- ==== Sys2Proof/Laws/Operands.lean ====
section
/-! SUPPORT. What the shared operations of a word can do: run on the path that issues, pass its operand phase, write its
result, go on past the word. A proof about a word cites these and does not unfold the operations. -/

namespace Sys2Proof.Machine

/-! The path that issues. -/

theorem onPath_next {f : Nat → RunPath → State → State} {s : State} {sid : Nat} {p : RunPath} {rest : List Run}
    (hr : s.runs = ⟨sid, p⟩ :: rest) (hs : nhas s.strands sid = true) :
    onPath f s = .next (f sid p { s with runs := rest }) := by
  simp [onPath, hr, hs]

theorem onPath_no_run {f : Nat → RunPath → State → State} {s : State} (h : s.runs = []) : onPath f s = .fault .noPath := by
  simp [onPath, h]

theorem onPath_no_strand {f : Nat → RunPath → State → State} {s : State} {r : Run} {rest : List Run}
    (h : s.runs = r :: rest) (hs : nhas s.strands r.strand = false) : onPath f s = .fault .noPath := by
  simp [onPath, h, hs]

/-- All it can do. -/
theorem onPath_cases (f : Nat → RunPath → State → State) (s : State) :
    (∃ sid p rest, s.runs = ⟨sid, p⟩ :: rest ∧ nhas s.strands sid = true ∧ onPath f s = .next (f sid p { s with runs := rest })) ∨
    onPath f s = .fault .noPath := by
  unfold onPath
  split
  · exact .inr rfl
  · next r rest h =>
    split
    · next hs => exact .inl ⟨r.strand, r.path, rest, h, hs, rfl⟩
    · exact .inr rfl

/-! The operand phase (R139). -/

section
variable {s : State} {sid : Nat} {p : RunPath} {srcs dsts : List Opd} {k : RunPath → State → NMap (List Word64) → State}
  {at' : Nat → Word64}

/-- A register beyond the frame traps the path. -/
theorem operands_outside (h : (srcs ++ dsts).any ((s.str sid).outside p.lanes) = true) :
    s.operandsAt sid p srcs dsts at' k = s.trap sid (p.lanes.map fun l => ⟨l, 0x30, 1, at' l, p.recPc⟩) := by
  simp only [State.operandsAt, h, if_true]

/-- A strand without soft errors in its registers has no lane that traps for one. -/
theorem softLanes_none {st : Strand} (h : st.softRegs = []) (lanes : List Nat) (xs : List Opd) : st.softLanes lanes xs = [] := by
  simp [Strand.softLanes, h]

/-- Without soft errors the word goes on. -/
theorem softGate_none {k : State → State} (h : (s.str sid).softLanes p.lanes srcs = []) : s.softGate sid p srcs k = k s := by
  simp [State.softGate, h]

/-- All it can do: go on, or trap the lanes whose registers hold a soft error while the others stay at the word. -/
theorem softGate_cases (k : State → State) :
    s.softGate sid p srcs k = k s ∨
    ((s.str sid).softLanes p.lanes srcs ≠ [] ∧
      let soft := (s.str sid).softLanes p.lanes srcs
      let u := (s.modFw fun f => { f with serrunc := f.serrunc + BitVec.ofNat 32 soft.length }).trapAt sid p
        (soft.map fun x => (x.1, 0x80, 1, BitVec.ofNat 64 x.2))
      s.softGate sid p srcs k = u ∨ s.softGate sid p srcs k = u.addRun ⟨sid, { p with lanes := lessNat p.lanes (soft.map (·.1)) }⟩) := by
  generalize hx : s.softGate sid p srcs k = x
  simp only [State.softGate] at hx
  split at hx
  · exact .inl hx.symm
  · next h =>
    refine .inr ⟨by simpa using h, ?_⟩
    split at hx
    · exact .inl hx.symm
    · exact .inr hx.symm

/-- Without queue ports the form goes on with the values of its sources. -/
theorem operands_no_ports (h : (srcs ++ dsts).any ((s.str sid).outside p.lanes) = false)
    (hs : (s.str sid).softLanes p.lanes srcs = []) (hp : firsts (srcs.filterMap fun x => portOf x.1) = [])
    (hd : (dsts.filterMap fun x => portOf x.1).head? = none) :
    s.operandsAt sid p srcs dsts at' k =
      k p (s.touchSrcs sid p.lanes srcs) ((s.touchSrcs sid p.lanes srcs).srcVals sid [] p.lanes srcs) := by
  simp only [State.operandsAt, h, softGate_none hs, hp, hd]
  rfl

/-- All it can do: trap for a register beyond the frame, trap the lanes whose registers hold a soft error while the others stay at the
word, trap for a misused port, wait at the ports, or go on with the pops made. -/
theorem operands_cases :
    s.operandsAt sid p srcs dsts at' k = s.trap sid (p.lanes.map fun l => ⟨l, 0x30, 1, at' l, p.recPc⟩) ∨
    ((s.str sid).softLanes p.lanes srcs ≠ [] ∧
      let soft := (s.str sid).softLanes p.lanes srcs
      let u := (s.modFw fun f => { f with serrunc := f.serrunc + BitVec.ofNat 32 soft.length }).trapAt sid p
        (soft.map fun x => (x.1, 0x80, 1, BitVec.ofNat 64 x.2))
      s.operandsAt sid p srcs dsts at' k = u ∨
        s.operandsAt sid p srcs dsts at' k = u.addRun ⟨sid, { p with lanes := lessNat p.lanes (soft.map (·.1)) }⟩) ∨
    (∃ port desc, s.operandsAt sid p srcs dsts at' k = s.trapPath sid p 0x61 port (BitVec.ofNat 64 desc)) ∨
    (∃ pops push, s.operandsAt sid p srcs dsts at' k = s.await sid p (.ports pops push)) ∨
    ∃ q t vals, s.operandsAt sid p srcs dsts at' k = k q t vals := by
  by_cases ho : (srcs ++ dsts).any ((s.str sid).outside p.lanes) = true
  · exact .inl (operands_outside ho)
  · simp only [State.operandsAt, ho]
    rcases softGate_cases (s := s) (sid := sid) (p := p) (srcs := srcs) _ with h | h
    · rw [if_neg (by simp), h]
      split
      · exact .inr (.inr (.inr (.inr ⟨_, _, _, rfl⟩)))
      · split
        · exact .inr (.inr (.inl ⟨_, _, rfl⟩))
        · exact .inr (.inr (.inr (.inl ⟨_, _, rfl⟩)))
        · exact .inr (.inr (.inr (.inr ⟨_, _, _, rfl⟩)))
    · exact .inr (.inl h)

end

/-- A core without matrix tokens has nothing to touch, of a strand that left none unread. -/
theorem touchSrcs_idle {s : State} {sid : Nat} (h : (s.coreOf sid).mx = []) (hu : (s.str sid).unread = []) (lanes : List Nat)
    (srcs : List Opd) : s.touchSrcs sid lanes srcs = s := by simp [State.touchSrcs, h, hu]

theorem mxTouch_idle {s : State} {sid : Nat} (h : (s.coreOf sid).mx = []) (hu : (s.str sid).unread = []) (locs : List RegLoc) :
    s.mxTouch sid locs = s := by simp [State.mxTouch, h, hu]

/-! Past the word (R80, R89, R172). -/

/-- All a path can do past its word: nothing (it has no lanes left, or its strand is gone), wait at a switch marker, issue the
next word, or leave the clause. -/
theorem advance_cases (s : State) (sid : Nat) (p : RunPath) :
    let q := { p with pos := p.pos + 1, pfx := none, hi := none, resume := none, got := none, undo := [], taken := none }
    s.advance sid p = s ∨ s.advance sid p = s.await sid { q with prev := p.recPc } .switch ∨ s.advance sid p = s.addRun ⟨sid, q⟩ ∨
    s.advance sid p = s.clauseEnd sid p p.lanes := by
  simp only [State.advance, State.advanceHi]
  split
  · exact .inl rfl
  · split
    · exact .inr (.inl rfl)
    · split
      · exact .inr (.inr (.inl rfl))
      · exact .inr (.inr (.inr rfl))

theorem splitOff_none (s : State) (sid : Nat) (p : RunPath) : s.splitOff sid p [] = s.advance sid p := by
  simp [State.splitOff]

theorem trap_none (s : State) (sid : Nat) : s.trap sid [] = s := by simp [State.trap]

theorem await_eq (s : State) (sid : Nat) (p : RunPath) (on : Wait) :
    s.await sid p on = { s with strands := nmod s.strands sid fun st => { st with waits := st.waits ++ [⟨p, on⟩] } } := rfl

/-! Strands and threads under a change. -/

theorem str_modStr (s : State) (i j : Nat) (f : Strand → Strand) :
    (s.modStr i f).str j = if j = i ∧ nhas s.strands i = true then f (s.str i) else s.str j := by
  simp only [State.str, State.modStr_strands, nget_nmod, nhas]
  by_cases h : j = i
  · subst h
    by_cases hn : (nget s.strands j).isSome = true
    · obtain ⟨v, hv⟩ := Option.isSome_iff_exists.1 hn
      simp [hv]
    · simp [Option.not_isSome_iff_eq_none.1 hn]
  · simp [h]

theorem str_modStr_same {s : State} {i : Nat} (h : nhas s.strands i = true) (f : Strand → Strand) :
    (s.modStr i f).str i = f (s.str i) := by simp [str_modStr, h]

theorem str_modStr_other {s : State} {i j : Nat} (h : j ≠ i) (f : Strand → Strand) : (s.modStr i f).str j = s.str j := by
  simp [str_modStr, h]

@[simp] theorem nhas_modStr (s : State) (i j : Nat) (f : Strand → Strand) :
    nhas (s.modStr i f).strands j = nhas s.strands j := by simp

/-- A change of every lane, by its number. -/
theorem nget_map_lanes {α : Type} (m : NMap α) (f : Nat → α → α) (j : Nat) :
    nget (m.map fun x => (x.1, f x.1 x.2)) j = (nget m j).map (f j) := by
  induction m with
  | nil => rfl
  | cons c m ih =>
    obtain ⟨k, v⟩ := c
    simp only [List.map_cons, nget, ih]
    split
    · next e => subst e; rfl
    · rfl

theorem nget_modThs (st : Strand) (ls : List Nat) (f : Nat → Thread → Thread) (j : Nat) :
    nget (st.modThs ls f).lanes j = if ls.contains j then (nget st.lanes j).map (f j) else nget st.lanes j := by
  have h : (st.modThs ls f).lanes = st.lanes.map fun x => (x.1, if ls.contains x.1 then f x.1 x.2 else x.2) := by
    simp only [Strand.modThs]
    exact List.map_congr_left fun x _ => by split <;> rfl
  rw [h, nget_map_lanes st.lanes (fun l t => if ls.contains l then f l t else t)]
  cases hc : ls.contains j <;> simp_all

/-- `lr` takes its values and no other part of the strand changes (R27). -/
theorem nget_setLr (st : Strand) (vals : NMap Word64) (j : Nat) :
    nget (st.setLr vals).lanes j =
      (nget st.lanes j).map fun t => match nget vals j with
        | some v => { t with lr := v }
        | none => t := by
  have h : (st.setLr vals).lanes = st.lanes.map fun x => (x.1, match nget vals x.1 with
        | some v => { x.2 with lr := v }
        | none => x.2) := by
    simp only [Strand.setLr]
    exact List.map_congr_left fun x _ => by split <;> simp_all
  rw [h, nget_map_lanes st.lanes fun l (t : Thread) => match nget vals l with
        | some v => { t with lr := v }
        | none => t]

@[simp] theorem setLr_frames (st : Strand) (vals : NMap Word64) : (st.setLr vals).frames = st.frames := rfl
@[simp] theorem setLr_csr (st : Strand) (vals : NMap Word64) : (st.setLr vals).csr = st.csr := rfl
@[simp] theorem setLr_fl (st : Strand) (vals : NMap Word64) : (st.setLr vals).fl = st.fl := rfl
@[simp] theorem modThs_frames (st : Strand) (ls : List Nat) (f : Nat → Thread → Thread) : (st.modThs ls f).frames = st.frames := rfl
@[simp] theorem modThs_csr (st : Strand) (ls : List Nat) (f : Nat → Thread → Thread) : (st.modThs ls f).csr = st.csr := rfl
@[simp] theorem modThs_fl (st : Strand) (ls : List Nat) (f : Nat → Thread → Thread) : (st.modThs ls f).fl = st.fl := rfl

/-! Registers. -/

/-- Writing registers changes the strand's registers and pending loads, and no other part of the machine. -/
theorem regWrite_frame (s : State) (sid : Nat) (r : RegLoc) (v : Word) (site : Nat) :
    s.regWrite sid r v site = { s with strands := (s.regWrite sid r v site).strands } := rfl

theorem regWrites_frame (s : State) (sid : Nat) (ws : List (RegLoc × Word)) :
    s.regWrites sid ws = { s with strands := (s.regWrites sid ws).strands } := by
  induction ws generalizing s with
  | nil => rfl
  | cons w ws ih =>
    have := ih (s.regWrite sid w.1 w.2 (0x100000 + w.1.code))
    rw [State.regWrites, this]
    rfl

/-- Other strands keep everything. -/
theorem regWrites_other (s : State) (sid j : Nat) (ws : List (RegLoc × Word)) (h : j ≠ sid) :
    (s.regWrites sid ws).str j = s.str j := by
  induction ws generalizing s with
  | nil => rfl
  | cons w ws ih =>
    rw [State.regWrites, ih]
    exact str_modStr_other h _

/-- Operands that are not registers discard what is written to them (R27). -/
theorem dstWrites_none (st : Strand) (l : Nat) (d : Sel) (vs : List Word) (h : ∀ k, st.loc l d k = none) :
    st.dstWrites l d vs = [] := by
  simp [Strand.dstWrites, h]

end Sys2Proof.Machine
end

