-- ==== Sys2Proof/Laws/Claims.lean ====
section
/-! SUPPORT. From the statements' words to the shared operations: an operand phase that passes, and the forms whose lanes are
independent. -/

namespace Sys2Proof.Claim

open Sys2Proof.Machine

/-- Where steps 1 to 3 of R139 pass, the operand phase goes on with what they give. -/
theorem operands_ready {s : State} {sid : Nat} {p : RunPath} {srcs dsts : List Opd} {q : RunPath} {t : State} {vals : NMap (List Word64)}
    {site : Nat → Word64} (k : RunPath → State → NMap (List Word64) → State) (h : ready s sid p srcs dsts = some (q, t, vals)) :
    s.operandsAt sid p srcs dsts site k = k q t vals := by
  unfold ready outside popsOf pushOf at h
  unfold State.operandsAt
  split at h
  · cases h
  · next h1 =>
    obtain ⟨h1, h2⟩ : (srcs ++ dsts).any ((s.str sid).outside p.lanes) = false ∧
        (s.str sid).softLanes p.lanes srcs = [] := by simpa using h1
    simp only [h1, Bool.false_eq_true, if_false]
    rw [softGate_none h2]
    split at h
    · next h3 => simp only [h3, if_true]; cases h; rfl
    · next h3 =>
      simp only [h3]
      generalize hg : s.portGate sid p.lanes (firsts (List.filterMap (fun x => portOf x.1) srcs))
        (List.filterMap (fun x => portOf x.1) dsts).head? = g at h ⊢
      cases g with
      | go => cases h; rfl
      | wait => cases h
      | misuse _ _ => cases h

/-- A path that issues runs its word's meaning. -/
theorem onPath_issues {f : Nat → RunPath → State → State} {s : State} {sid : Nat} {p : RunPath} {rest : List Run}
    (h : issues s sid p rest) : onPath f s = .next (f sid p (begun s rest)) := onPath_next h.1 h.2

/-- A form whose lanes are independent gives each its own result. -/
theorem lanewise_gives (i : Instr) (srcs : List Opd) (d : Opd) (f : List Word64 → Word64) (h : ∀ s, exec i s = lanewise srcs d f s) :
    gives i srcs d (fun v _ l => f ((nget v l).getD [])) := by
  intro s sid p rest q t vals hi hr
  rw [h, lanewise, onPath_issues hi]
  refine congrArg Host.Outcome.next ?_
  unfold State.compute State.operands
  rw [operands_ready _ hr]
  simp [wrote, State.splitOff, List.filterMap_map, Function.comp_def]

end Sys2Proof.Claim
end

