-- ==== Sys2Proof/Laws/PerInstr.lean ====
section
/-! SUPPORT. One statement about every instruction as syntax: its word carries its major opcode (R92), and an event has no
word. One lemma for each constructor. -/

namespace Sys2Proof.Laws.Encoding

/-- The word of an instruction has its major opcode in bits 31:27, one of 0 to 27 (R92, R105); an event has no word. -/
def Statement (i : Instr) : Prop :=
  match Machine.majorOf i with
  | some m => encode i / 0x8000000 = m ∧ m < 28
  | none => i.isWord = false ∧ encode i = 0

theorem selCode_lt (a : Sel) : selCode a < 128 := by
  cases a <;> simp only [selCode] <;> omega
theorem selCodeC_lt (a : Sel) : selCodeC a < 64 := by
  cases a <;> simp only [selCodeC] <;> omega
theorem baseCode_lt (b : Base) : baseCode b < 4 := by cases b <;> decide
theorem natOf_lt (b : Bool) : natOf b < 2 := by cases b <;> decide

theorem nop : Statement .nop := by
  show wordS 0 0 0 / 0x8000000 = 0 ∧ 0 < 28
  unfold wordS; omega
theorem loop (a : Sel) (off : BitVec 14) : Statement (.loop a off) := by
  show wordS 0 1 (selCode a * 0x4000 + off.toNat) / 0x8000000 = 0 ∧ 0 < 28
  have := selCode_lt a; unfold wordS; omega
theorem brk (n : BitVec 21) : Statement (.brk n) := by
  show wordS 0 2 n.toNat / 0x8000000 = 0 ∧ 0 < 28
  unfold wordS; omega
theorem swtrap (t : BitVec 13) (c : BitVec 8) : Statement (.swtrap t c) := by
  show wordS 0 3 (t.toNat * 256 + c.toNat) / 0x8000000 = 0 ∧ 0 < 28
  unfold wordS; omega
theorem yield : Statement .yield := by
  show wordS 0 4 0 / 0x8000000 = 0 ∧ 0 < 28
  unfold wordS; omega
theorem sleep (n : BitVec 21) : Statement (.sleep n) := by
  show wordS 0 5 n.toNat / 0x8000000 = 0 ∧ 0 < 28
  unfold wordS; omega
theorem iadd (d : Sel) (a : Sel) (b : Sel) : Statement (.iadd d a b) := by
  show wordX3 1 0 (selCode d) (selCode a) (selCode b) / 0x8000000 = 1 ∧ 1 < 28
  have := selCode_lt d; have := selCode_lt a; have := selCode_lt b; unfold wordX3; omega
theorem isub (d : Sel) (a : Sel) (b : Sel) : Statement (.isub d a b) := by
  show wordX3 1 1 (selCode d) (selCode a) (selCode b) / 0x8000000 = 1 ∧ 1 < 28
  have := selCode_lt d; have := selCode_lt a; have := selCode_lt b; unfold wordX3; omega
theorem imul (d : Sel) (a : Sel) (b : Sel) : Statement (.imul d a b) := by
  show wordX3 1 2 (selCode d) (selCode a) (selCode b) / 0x8000000 = 1 ∧ 1 < 28
  have := selCode_lt d; have := selCode_lt a; have := selCode_lt b; unfold wordX3; omega
theorem imulhS32 (d : Sel) (a : Sel) (b : Sel) : Statement (.imulhS32 d a b) := by
  show wordX3 1 3 (selCode d) (selCode a) (selCode b) / 0x8000000 = 1 ∧ 1 < 28
  have := selCode_lt d; have := selCode_lt a; have := selCode_lt b; unfold wordX3; omega
theorem imulhN32 (d : Sel) (a : Sel) (b : Sel) : Statement (.imulhN32 d a b) := by
  show wordX3 1 4 (selCode d) (selCode a) (selCode b) / 0x8000000 = 1 ∧ 1 < 28
  have := selCode_lt d; have := selCode_lt a; have := selCode_lt b; unfold wordX3; omega
theorem idivS32 (d : Sel) (a : Sel) (b : Sel) : Statement (.idivS32 d a b) := by
  show wordX3 1 5 (selCode d) (selCode a) (selCode b) / 0x8000000 = 1 ∧ 1 < 28
  have := selCode_lt d; have := selCode_lt a; have := selCode_lt b; unfold wordX3; omega
theorem idivN32 (d : Sel) (a : Sel) (b : Sel) : Statement (.idivN32 d a b) := by
  show wordX3 1 6 (selCode d) (selCode a) (selCode b) / 0x8000000 = 1 ∧ 1 < 28
  have := selCode_lt d; have := selCode_lt a; have := selCode_lt b; unfold wordX3; omega
theorem iremS32 (d : Sel) (a : Sel) (b : Sel) : Statement (.iremS32 d a b) := by
  show wordX3 1 7 (selCode d) (selCode a) (selCode b) / 0x8000000 = 1 ∧ 1 < 28
  have := selCode_lt d; have := selCode_lt a; have := selCode_lt b; unfold wordX3; omega
theorem iremN32 (d : Sel) (a : Sel) (b : Sel) : Statement (.iremN32 d a b) := by
  show wordX3 1 8 (selCode d) (selCode a) (selCode b) / 0x8000000 = 1 ∧ 1 < 28
  have := selCode_lt d; have := selCode_lt a; have := selCode_lt b; unfold wordX3; omega
theorem iminS32 (d : Sel) (a : Sel) (b : Sel) : Statement (.iminS32 d a b) := by
  show wordX3 1 9 (selCode d) (selCode a) (selCode b) / 0x8000000 = 1 ∧ 1 < 28
  have := selCode_lt d; have := selCode_lt a; have := selCode_lt b; unfold wordX3; omega
theorem iminN32 (d : Sel) (a : Sel) (b : Sel) : Statement (.iminN32 d a b) := by
  show wordX3 1 10 (selCode d) (selCode a) (selCode b) / 0x8000000 = 1 ∧ 1 < 28
  have := selCode_lt d; have := selCode_lt a; have := selCode_lt b; unfold wordX3; omega
theorem imaxS32 (d : Sel) (a : Sel) (b : Sel) : Statement (.imaxS32 d a b) := by
  show wordX3 1 11 (selCode d) (selCode a) (selCode b) / 0x8000000 = 1 ∧ 1 < 28
  have := selCode_lt d; have := selCode_lt a; have := selCode_lt b; unfold wordX3; omega
theorem imaxN32 (d : Sel) (a : Sel) (b : Sel) : Statement (.imaxN32 d a b) := by
  show wordX3 1 12 (selCode d) (selCode a) (selCode b) / 0x8000000 = 1 ∧ 1 < 28
  have := selCode_lt d; have := selCode_lt a; have := selCode_lt b; unfold wordX3; omega
theorem iabs (d : Sel) (a : Sel) : Statement (.iabs d a) := by
  show wordX3 1 13 (selCode d) (selCode a) 0 / 0x8000000 = 1 ∧ 1 < 28
  have := selCode_lt d; have := selCode_lt a; unfold wordX3; omega
theorem iaddsS32 (d : Sel) (a : Sel) (b : Sel) : Statement (.iaddsS32 d a b) := by
  show wordX3 1 14 (selCode d) (selCode a) (selCode b) / 0x8000000 = 1 ∧ 1 < 28
  have := selCode_lt d; have := selCode_lt a; have := selCode_lt b; unfold wordX3; omega
theorem isubsS32 (d : Sel) (a : Sel) (b : Sel) : Statement (.isubsS32 d a b) := by
  show wordX3 1 15 (selCode d) (selCode a) (selCode b) / 0x8000000 = 1 ∧ 1 < 28
  have := selCode_lt d; have := selCode_lt a; have := selCode_lt b; unfold wordX3; omega
theorem iaddsN32 (d : Sel) (a : Sel) (b : Sel) : Statement (.iaddsN32 d a b) := by
  show wordX3 1 16 (selCode d) (selCode a) (selCode b) / 0x8000000 = 1 ∧ 1 < 28
  have := selCode_lt d; have := selCode_lt a; have := selCode_lt b; unfold wordX3; omega
theorem isubsN32 (d : Sel) (a : Sel) (b : Sel) : Statement (.isubsN32 d a b) := by
  show wordX3 1 17 (selCode d) (selCode a) (selCode b) / 0x8000000 = 1 ∧ 1 < 28
  have := selCode_lt d; have := selCode_lt a; have := selCode_lt b; unfold wordX3; omega
theorem add64 (d : Sel) (a : Sel) (b : Sel) : Statement (.add64 d a b) := by
  show wordX3 1 18 (selCode d) (selCode a) (selCode b) / 0x8000000 = 1 ∧ 1 < 28
  have := selCode_lt d; have := selCode_lt a; have := selCode_lt b; unfold wordX3; omega
theorem sub64 (d : Sel) (a : Sel) (b : Sel) : Statement (.sub64 d a b) := by
  show wordX3 1 19 (selCode d) (selCode a) (selCode b) / 0x8000000 = 1 ∧ 1 < 28
  have := selCode_lt d; have := selCode_lt a; have := selCode_lt b; unfold wordX3; omega
theorem mulwS32 (d : Sel) (a : Sel) (b : Sel) : Statement (.mulwS32 d a b) := by
  show wordX3 1 20 (selCode d) (selCode a) (selCode b) / 0x8000000 = 1 ∧ 1 < 28
  have := selCode_lt d; have := selCode_lt a; have := selCode_lt b; unfold wordX3; omega
theorem mulwN32 (d : Sel) (a : Sel) (b : Sel) : Statement (.mulwN32 d a b) := by
  show wordX3 1 21 (selCode d) (selCode a) (selCode b) / 0x8000000 = 1 ∧ 1 < 28
  have := selCode_lt d; have := selCode_lt a; have := selCode_lt b; unfold wordX3; omega
theorem iaddi (d : Sel) (a : Sel) (i : BitVec 10) : Statement (.iaddi d a i) := by
  show wordI 2 0 (selCode d) (selCode a) i.toNat / 0x8000000 = 2 ∧ 2 < 28
  have := selCode_lt d; have := selCode_lt a; unfold wordI; omega
theorem iandi (d : Sel) (a : Sel) (i : BitVec 10) : Statement (.iandi d a i) := by
  show wordI 2 1 (selCode d) (selCode a) i.toNat / 0x8000000 = 2 ∧ 2 < 28
  have := selCode_lt d; have := selCode_lt a; unfold wordI; omega
theorem iori (d : Sel) (a : Sel) (i : BitVec 10) : Statement (.iori d a i) := by
  show wordI 2 2 (selCode d) (selCode a) i.toNat / 0x8000000 = 2 ∧ 2 < 28
  have := selCode_lt d; have := selCode_lt a; unfold wordI; omega
theorem ixori (d : Sel) (a : Sel) (i : BitVec 10) : Statement (.ixori d a i) := by
  show wordI 2 3 (selCode d) (selCode a) i.toNat / 0x8000000 = 2 ∧ 2 < 28
  have := selCode_lt d; have := selCode_lt a; unfold wordI; omega
theorem ishli (d : Sel) (a : Sel) (i : BitVec 10) : Statement (.ishli d a i) := by
  show wordI 2 4 (selCode d) (selCode a) i.toNat / 0x8000000 = 2 ∧ 2 < 28
  have := selCode_lt d; have := selCode_lt a; unfold wordI; omega
theorem ishri (d : Sel) (a : Sel) (i : BitVec 10) : Statement (.ishri d a i) := by
  show wordI 2 5 (selCode d) (selCode a) i.toNat / 0x8000000 = 2 ∧ 2 < 28
  have := selCode_lt d; have := selCode_lt a; unfold wordI; omega
theorem israi (d : Sel) (a : Sel) (i : BitVec 10) : Statement (.israi d a i) := by
  show wordI 2 6 (selCode d) (selCode a) i.toNat / 0x8000000 = 2 ∧ 2 < 28
  have := selCode_lt d; have := selCode_lt a; unfold wordI; omega
theorem icmpiLt (d : Sel) (a : Sel) (i : BitVec 10) : Statement (.icmpiLt d a i) := by
  show wordI 2 7 (selCode d) (selCode a) i.toNat / 0x8000000 = 2 ∧ 2 < 28
  have := selCode_lt d; have := selCode_lt a; unfold wordI; omega
theorem and (d : Sel) (a : Sel) (b : Sel) : Statement (.and d a b) := by
  show wordX3 3 0 (selCode d) (selCode a) (selCode b) / 0x8000000 = 3 ∧ 3 < 28
  have := selCode_lt d; have := selCode_lt a; have := selCode_lt b; unfold wordX3; omega
theorem or (d : Sel) (a : Sel) (b : Sel) : Statement (.or d a b) := by
  show wordX3 3 1 (selCode d) (selCode a) (selCode b) / 0x8000000 = 3 ∧ 3 < 28
  have := selCode_lt d; have := selCode_lt a; have := selCode_lt b; unfold wordX3; omega
theorem xor (d : Sel) (a : Sel) (b : Sel) : Statement (.xor d a b) := by
  show wordX3 3 2 (selCode d) (selCode a) (selCode b) / 0x8000000 = 3 ∧ 3 < 28
  have := selCode_lt d; have := selCode_lt a; have := selCode_lt b; unfold wordX3; omega
theorem andn (d : Sel) (a : Sel) (b : Sel) : Statement (.andn d a b) := by
  show wordX3 3 3 (selCode d) (selCode a) (selCode b) / 0x8000000 = 3 ∧ 3 < 28
  have := selCode_lt d; have := selCode_lt a; have := selCode_lt b; unfold wordX3; omega
theorem orn (d : Sel) (a : Sel) (b : Sel) : Statement (.orn d a b) := by
  show wordX3 3 4 (selCode d) (selCode a) (selCode b) / 0x8000000 = 3 ∧ 3 < 28
  have := selCode_lt d; have := selCode_lt a; have := selCode_lt b; unfold wordX3; omega
theorem shl (d : Sel) (a : Sel) (b : Sel) : Statement (.shl d a b) := by
  show wordX3 3 5 (selCode d) (selCode a) (selCode b) / 0x8000000 = 3 ∧ 3 < 28
  have := selCode_lt d; have := selCode_lt a; have := selCode_lt b; unfold wordX3; omega
theorem shr (d : Sel) (a : Sel) (b : Sel) : Statement (.shr d a b) := by
  show wordX3 3 6 (selCode d) (selCode a) (selCode b) / 0x8000000 = 3 ∧ 3 < 28
  have := selCode_lt d; have := selCode_lt a; have := selCode_lt b; unfold wordX3; omega
theorem sra (d : Sel) (a : Sel) (b : Sel) : Statement (.sra d a b) := by
  show wordX3 3 7 (selCode d) (selCode a) (selCode b) / 0x8000000 = 3 ∧ 3 < 28
  have := selCode_lt d; have := selCode_lt a; have := selCode_lt b; unfold wordX3; omega
theorem rotl (d : Sel) (a : Sel) (b : Sel) : Statement (.rotl d a b) := by
  show wordX3 3 8 (selCode d) (selCode a) (selCode b) / 0x8000000 = 3 ∧ 3 < 28
  have := selCode_lt d; have := selCode_lt a; have := selCode_lt b; unfold wordX3; omega
theorem shl64 (d : Sel) (a : Sel) (b : Sel) : Statement (.shl64 d a b) := by
  show wordX3 3 9 (selCode d) (selCode a) (selCode b) / 0x8000000 = 3 ∧ 3 < 28
  have := selCode_lt d; have := selCode_lt a; have := selCode_lt b; unfold wordX3; omega
theorem shr64 (d : Sel) (a : Sel) (b : Sel) : Statement (.shr64 d a b) := by
  show wordX3 3 10 (selCode d) (selCode a) (selCode b) / 0x8000000 = 3 ∧ 3 < 28
  have := selCode_lt d; have := selCode_lt a; have := selCode_lt b; unfold wordX3; omega
theorem sra64 (d : Sel) (a : Sel) (b : Sel) : Statement (.sra64 d a b) := by
  show wordX3 3 11 (selCode d) (selCode a) (selCode b) / 0x8000000 = 3 ∧ 3 < 28
  have := selCode_lt d; have := selCode_lt a; have := selCode_lt b; unfold wordX3; omega
theorem popc (d : Sel) (a : Sel) : Statement (.popc d a) := by
  show wordX3 3 12 (selCode d) (selCode a) 0 / 0x8000000 = 3 ∧ 3 < 28
  have := selCode_lt d; have := selCode_lt a; unfold wordX3; omega
theorem clz (d : Sel) (a : Sel) : Statement (.clz d a) := by
  show wordX3 3 13 (selCode d) (selCode a) 0 / 0x8000000 = 3 ∧ 3 < 28
  have := selCode_lt d; have := selCode_lt a; unfold wordX3; omega
theorem ctz (d : Sel) (a : Sel) : Statement (.ctz d a) := by
  show wordX3 3 14 (selCode d) (selCode a) 0 / 0x8000000 = 3 ∧ 3 < 28
  have := selCode_lt d; have := selCode_lt a; unfold wordX3; omega
theorem brev (d : Sel) (a : Sel) : Statement (.brev d a) := by
  show wordX3 3 15 (selCode d) (selCode a) 0 / 0x8000000 = 3 ∧ 3 < 28
  have := selCode_lt d; have := selCode_lt a; unfold wordX3; omega
theorem bfxS (d : Sel) (a : Sel) (b : Sel) : Statement (.bfxS d a b) := by
  show wordX3 3 16 (selCode d) (selCode a) (selCode b) / 0x8000000 = 3 ∧ 3 < 28
  have := selCode_lt d; have := selCode_lt a; have := selCode_lt b; unfold wordX3; omega
theorem bfxN (d : Sel) (a : Sel) (b : Sel) : Statement (.bfxN d a b) := by
  show wordX3 3 17 (selCode d) (selCode a) (selCode b) / 0x8000000 = 3 ∧ 3 < 28
  have := selCode_lt d; have := selCode_lt a; have := selCode_lt b; unfold wordX3; omega
theorem bfi (d : Sel) (a : Sel) (b : Sel) : Statement (.bfi d a b) := by
  show wordX3 3 18 (selCode d) (selCode a) (selCode b) / 0x8000000 = 3 ∧ 3 < 28
  have := selCode_lt d; have := selCode_lt a; have := selCode_lt b; unfold wordX3; omega
theorem perm (d : Sel) (a : Sel) (b : Sel) : Statement (.perm d a b) := by
  show wordX3 3 19 (selCode d) (selCode a) (selCode b) / 0x8000000 = 3 ∧ 3 < 28
  have := selCode_lt d; have := selCode_lt a; have := selCode_lt b; unfold wordX3; omega
theorem ceq (d : Sel) (a : Sel) (b : Sel) : Statement (.ceq d a b) := by
  show wordX3 4 0 (selCode d) (selCode a) (selCode b) / 0x8000000 = 4 ∧ 4 < 28
  have := selCode_lt d; have := selCode_lt a; have := selCode_lt b; unfold wordX3; omega
theorem cne (d : Sel) (a : Sel) (b : Sel) : Statement (.cne d a b) := by
  show wordX3 4 1 (selCode d) (selCode a) (selCode b) / 0x8000000 = 4 ∧ 4 < 28
  have := selCode_lt d; have := selCode_lt a; have := selCode_lt b; unfold wordX3; omega
theorem cltS (d : Sel) (a : Sel) (b : Sel) : Statement (.cltS d a b) := by
  show wordX3 4 2 (selCode d) (selCode a) (selCode b) / 0x8000000 = 4 ∧ 4 < 28
  have := selCode_lt d; have := selCode_lt a; have := selCode_lt b; unfold wordX3; omega
theorem cleS (d : Sel) (a : Sel) (b : Sel) : Statement (.cleS d a b) := by
  show wordX3 4 3 (selCode d) (selCode a) (selCode b) / 0x8000000 = 4 ∧ 4 < 28
  have := selCode_lt d; have := selCode_lt a; have := selCode_lt b; unfold wordX3; omega
theorem cltN (d : Sel) (a : Sel) (b : Sel) : Statement (.cltN d a b) := by
  show wordX3 4 4 (selCode d) (selCode a) (selCode b) / 0x8000000 = 4 ∧ 4 < 28
  have := selCode_lt d; have := selCode_lt a; have := selCode_lt b; unfold wordX3; omega
theorem cleN (d : Sel) (a : Sel) (b : Sel) : Statement (.cleN d a b) := by
  show wordX3 4 5 (selCode d) (selCode a) (selCode b) / 0x8000000 = 4 ∧ 4 < 28
  have := selCode_lt d; have := selCode_lt a; have := selCode_lt b; unfold wordX3; omega
theorem fceq (d : Sel) (a : Sel) (b : Sel) : Statement (.fceq d a b) := by
  show wordX3 4 6 (selCode d) (selCode a) (selCode b) / 0x8000000 = 4 ∧ 4 < 28
  have := selCode_lt d; have := selCode_lt a; have := selCode_lt b; unfold wordX3; omega
theorem fcne (d : Sel) (a : Sel) (b : Sel) : Statement (.fcne d a b) := by
  show wordX3 4 7 (selCode d) (selCode a) (selCode b) / 0x8000000 = 4 ∧ 4 < 28
  have := selCode_lt d; have := selCode_lt a; have := selCode_lt b; unfold wordX3; omega
theorem fclt (d : Sel) (a : Sel) (b : Sel) : Statement (.fclt d a b) := by
  show wordX3 4 8 (selCode d) (selCode a) (selCode b) / 0x8000000 = 4 ∧ 4 < 28
  have := selCode_lt d; have := selCode_lt a; have := selCode_lt b; unfold wordX3; omega
theorem fcle (d : Sel) (a : Sel) (b : Sel) : Statement (.fcle d a b) := by
  show wordX3 4 9 (selCode d) (selCode a) (selCode b) / 0x8000000 = 4 ∧ 4 < 28
  have := selCode_lt d; have := selCode_lt a; have := selCode_lt b; unfold wordX3; omega
theorem fcun (d : Sel) (a : Sel) (b : Sel) : Statement (.fcun d a b) := by
  show wordX3 4 10 (selCode d) (selCode a) (selCode b) / 0x8000000 = 4 ∧ 4 < 28
  have := selCode_lt d; have := selCode_lt a; have := selCode_lt b; unfold wordX3; omega
theorem fclass (d : Sel) (a : Sel) (b : Sel) : Statement (.fclass d a b) := by
  show wordX3 4 11 (selCode d) (selCode a) (selCode b) / 0x8000000 = 4 ∧ 4 < 28
  have := selCode_lt d; have := selCode_lt a; have := selCode_lt b; unfold wordX3; omega
theorem ceq64 (d : Sel) (a : Sel) (b : Sel) : Statement (.ceq64 d a b) := by
  show wordX3 4 12 (selCode d) (selCode a) (selCode b) / 0x8000000 = 4 ∧ 4 < 28
  have := selCode_lt d; have := selCode_lt a; have := selCode_lt b; unfold wordX3; omega
theorem clt64S (d : Sel) (a : Sel) (b : Sel) : Statement (.clt64S d a b) := by
  show wordX3 4 13 (selCode d) (selCode a) (selCode b) / 0x8000000 = 4 ∧ 4 < 28
  have := selCode_lt d; have := selCode_lt a; have := selCode_lt b; unfold wordX3; omega
theorem clt64N (d : Sel) (a : Sel) (b : Sel) : Statement (.clt64N d a b) := by
  show wordX3 4 14 (selCode d) (selCode a) (selCode b) / 0x8000000 = 4 ∧ 4 < 28
  have := selCode_lt d; have := selCode_lt a; have := selCode_lt b; unfold wordX3; omega
theorem fadd (d : Sel) (a : Sel) (b : Sel) : Statement (.fadd d a b) := by
  show wordX3 5 0 (selCode d) (selCode a) (selCode b) / 0x8000000 = 5 ∧ 5 < 28
  have := selCode_lt d; have := selCode_lt a; have := selCode_lt b; unfold wordX3; omega
theorem fsub (d : Sel) (a : Sel) (b : Sel) : Statement (.fsub d a b) := by
  show wordX3 5 1 (selCode d) (selCode a) (selCode b) / 0x8000000 = 5 ∧ 5 < 28
  have := selCode_lt d; have := selCode_lt a; have := selCode_lt b; unfold wordX3; omega
theorem fmul (d : Sel) (a : Sel) (b : Sel) : Statement (.fmul d a b) := by
  show wordX3 5 2 (selCode d) (selCode a) (selCode b) / 0x8000000 = 5 ∧ 5 < 28
  have := selCode_lt d; have := selCode_lt a; have := selCode_lt b; unfold wordX3; omega
theorem fmin (d : Sel) (a : Sel) (b : Sel) : Statement (.fmin d a b) := by
  show wordX3 5 3 (selCode d) (selCode a) (selCode b) / 0x8000000 = 5 ∧ 5 < 28
  have := selCode_lt d; have := selCode_lt a; have := selCode_lt b; unfold wordX3; omega
theorem fmax (d : Sel) (a : Sel) (b : Sel) : Statement (.fmax d a b) := by
  show wordX3 5 4 (selCode d) (selCode a) (selCode b) / 0x8000000 = 5 ∧ 5 < 28
  have := selCode_lt d; have := selCode_lt a; have := selCode_lt b; unfold wordX3; omega
theorem fabs (d : Sel) (a : Sel) : Statement (.fabs d a) := by
  show wordX3 5 5 (selCode d) (selCode a) 0 / 0x8000000 = 5 ∧ 5 < 28
  have := selCode_lt d; have := selCode_lt a; unfold wordX3; omega
theorem fneg (d : Sel) (a : Sel) : Statement (.fneg d a) := by
  show wordX3 5 6 (selCode d) (selCode a) 0 / 0x8000000 = 5 ∧ 5 < 28
  have := selCode_lt d; have := selCode_lt a; unfold wordX3; omega
theorem fdiv (d : Sel) (a : Sel) (b : Sel) : Statement (.fdiv d a b) := by
  show wordX3 5 7 (selCode d) (selCode a) (selCode b) / 0x8000000 = 5 ∧ 5 < 28
  have := selCode_lt d; have := selCode_lt a; have := selCode_lt b; unfold wordX3; omega
theorem fsqrt (d : Sel) (a : Sel) : Statement (.fsqrt d a) := by
  show wordX3 5 8 (selCode d) (selCode a) 0 / 0x8000000 = 5 ∧ 5 < 28
  have := selCode_lt d; have := selCode_lt a; unfold wordX3; omega
theorem frcp (d : Sel) (a : Sel) : Statement (.frcp d a) := by
  show wordX3 5 9 (selCode d) (selCode a) 0 / 0x8000000 = 5 ∧ 5 < 28
  have := selCode_lt d; have := selCode_lt a; unfold wordX3; omega
theorem frsqrt (d : Sel) (a : Sel) : Statement (.frsqrt d a) := by
  show wordX3 5 10 (selCode d) (selCode a) 0 / 0x8000000 = 5 ∧ 5 < 28
  have := selCode_lt d; have := selCode_lt a; unfold wordX3; omega
theorem fexp2 (d : Sel) (a : Sel) : Statement (.fexp2 d a) := by
  show wordX3 5 11 (selCode d) (selCode a) 0 / 0x8000000 = 5 ∧ 5 < 28
  have := selCode_lt d; have := selCode_lt a; unfold wordX3; omega
theorem flog2 (d : Sel) (a : Sel) : Statement (.flog2 d a) := by
  show wordX3 5 12 (selCode d) (selCode a) 0 / 0x8000000 = 5 ∧ 5 < 28
  have := selCode_lt d; have := selCode_lt a; unfold wordX3; omega
theorem fsinpi (d : Sel) (a : Sel) : Statement (.fsinpi d a) := by
  show wordX3 5 13 (selCode d) (selCode a) 0 / 0x8000000 = 5 ∧ 5 < 28
  have := selCode_lt d; have := selCode_lt a; unfold wordX3; omega
theorem fcospi (d : Sel) (a : Sel) : Statement (.fcospi d a) := by
  show wordX3 5 14 (selCode d) (selCode a) 0 / 0x8000000 = 5 ∧ 5 < 28
  have := selCode_lt d; have := selCode_lt a; unfold wordX3; omega
theorem ftanh (d : Sel) (a : Sel) : Statement (.ftanh d a) := by
  show wordX3 5 15 (selCode d) (selCode a) 0 / 0x8000000 = 5 ∧ 5 < 28
  have := selCode_lt d; have := selCode_lt a; unfold wordX3; omega
theorem faddF16x2 (d : Sel) (a : Sel) (b : Sel) : Statement (.faddF16x2 d a b) := by
  show wordX3 5 16 (selCode d) (selCode a) (selCode b) / 0x8000000 = 5 ∧ 5 < 28
  have := selCode_lt d; have := selCode_lt a; have := selCode_lt b; unfold wordX3; omega
theorem fmulF16x2 (d : Sel) (a : Sel) (b : Sel) : Statement (.fmulF16x2 d a b) := by
  show wordX3 5 17 (selCode d) (selCode a) (selCode b) / 0x8000000 = 5 ∧ 5 < 28
  have := selCode_lt d; have := selCode_lt a; have := selCode_lt b; unfold wordX3; omega
theorem faddBf16x2 (d : Sel) (a : Sel) (b : Sel) : Statement (.faddBf16x2 d a b) := by
  show wordX3 5 18 (selCode d) (selCode a) (selCode b) / 0x8000000 = 5 ∧ 5 < 28
  have := selCode_lt d; have := selCode_lt a; have := selCode_lt b; unfold wordX3; omega
theorem fmulBf16x2 (d : Sel) (a : Sel) (b : Sel) : Statement (.fmulBf16x2 d a b) := by
  show wordX3 5 19 (selCode d) (selCode a) (selCode b) / 0x8000000 = 5 ∧ 5 < 28
  have := selCode_lt d; have := selCode_lt a; have := selCode_lt b; unfold wordX3; omega
theorem fminF16x2 (d : Sel) (a : Sel) (b : Sel) : Statement (.fminF16x2 d a b) := by
  show wordX3 5 20 (selCode d) (selCode a) (selCode b) / 0x8000000 = 5 ∧ 5 < 28
  have := selCode_lt d; have := selCode_lt a; have := selCode_lt b; unfold wordX3; omega
theorem fmaxF16x2 (d : Sel) (a : Sel) (b : Sel) : Statement (.fmaxF16x2 d a b) := by
  show wordX3 5 21 (selCode d) (selCode a) (selCode b) / 0x8000000 = 5 ∧ 5 < 28
  have := selCode_lt d; have := selCode_lt a; have := selCode_lt b; unfold wordX3; omega
theorem fscl (d : Sel) (a : Sel) (b : Sel) : Statement (.fscl d a b) := by
  show wordX3 5 22 (selCode d) (selCode a) (selCode b) / 0x8000000 = 5 ∧ 5 < 28
  have := selCode_lt d; have := selCode_lt a; have := selCode_lt b; unfold wordX3; omega
theorem frnd (d : Sel) (a : Sel) : Statement (.frnd d a) := by
  show wordX3 5 23 (selCode d) (selCode a) 0 / 0x8000000 = 5 ∧ 5 < 28
  have := selCode_lt d; have := selCode_lt a; unfold wordX3; omega
theorem ffmaF16x2 (d : Sel) (a : Sel) (b : Sel) : Statement (.ffmaF16x2 d a b) := by
  show wordX3 5 24 (selCode d) (selCode a) (selCode b) / 0x8000000 = 5 ∧ 5 < 28
  have := selCode_lt d; have := selCode_lt a; have := selCode_lt b; unfold wordX3; omega
theorem ffmaBf16x2 (d : Sel) (a : Sel) (b : Sel) : Statement (.ffmaBf16x2 d a b) := by
  show wordX3 5 25 (selCode d) (selCode a) (selCode b) / 0x8000000 = 5 ∧ 5 < 28
  have := selCode_lt d; have := selCode_lt a; have := selCode_lt b; unfold wordX3; omega
theorem fdot2Bf16 (d : Sel) (a : Sel) (b : Sel) : Statement (.fdot2Bf16 d a b) := by
  show wordX3 5 26 (selCode d) (selCode a) (selCode b) / 0x8000000 = 5 ∧ 5 < 28
  have := selCode_lt d; have := selCode_lt a; have := selCode_lt b; unfold wordX3; omega
theorem idp4S8 (d : Sel) (a : Sel) (b : Sel) : Statement (.idp4S8 d a b) := by
  show wordX3 5 27 (selCode d) (selCode a) (selCode b) / 0x8000000 = 5 ∧ 5 < 28
  have := selCode_lt d; have := selCode_lt a; have := selCode_lt b; unfold wordX3; omega
theorem idp4N8 (d : Sel) (a : Sel) (b : Sel) : Statement (.idp4N8 d a b) := by
  show wordX3 5 28 (selCode d) (selCode a) (selCode b) / 0x8000000 = 5 ∧ 5 < 28
  have := selCode_lt d; have := selCode_lt a; have := selCode_lt b; unfold wordX3; omega
theorem cvtF32S32 (d : Sel) (a : Sel) (rm : BitVec 2) : Statement (.cvtF32S32 d a rm) := by
  show wordX3 6 0 (selCode d) (selCode a) (rm.toNat) / 0x8000000 = 6 ∧ 6 < 28
  have := selCode_lt d; have := selCode_lt a; unfold wordX3; omega
theorem cvtF32N32 (d : Sel) (a : Sel) (rm : BitVec 2) : Statement (.cvtF32N32 d a rm) := by
  show wordX3 6 1 (selCode d) (selCode a) (rm.toNat) / 0x8000000 = 6 ∧ 6 < 28
  have := selCode_lt d; have := selCode_lt a; unfold wordX3; omega
theorem cvtS32F32 (d : Sel) (a : Sel) (sat : Bool) (rm : BitVec 2) : Statement (.cvtS32F32 d a sat rm) := by
  show wordX3 6 2 (selCode d) (selCode a) (natOf sat * 4 + rm.toNat) / 0x8000000 = 6 ∧ 6 < 28
  have := selCode_lt d; have := selCode_lt a; have := natOf_lt sat; unfold wordX3; omega
theorem cvtN32F32 (d : Sel) (a : Sel) (sat : Bool) (rm : BitVec 2) : Statement (.cvtN32F32 d a sat rm) := by
  show wordX3 6 3 (selCode d) (selCode a) (natOf sat * 4 + rm.toNat) / 0x8000000 = 6 ∧ 6 < 28
  have := selCode_lt d; have := selCode_lt a; have := natOf_lt sat; unfold wordX3; omega
theorem cvtF32F16 (d : Sel) (a : Sel) (el : BitVec 2) : Statement (.cvtF32F16 d a el) := by
  show wordX3 6 4 (selCode d) (selCode a) (el.toNat * 8) / 0x8000000 = 6 ∧ 6 < 28
  have := selCode_lt d; have := selCode_lt a; unfold wordX3; omega
theorem cvtF32Bf16 (d : Sel) (a : Sel) (el : BitVec 2) : Statement (.cvtF32Bf16 d a el) := by
  show wordX3 6 5 (selCode d) (selCode a) (el.toNat * 8) / 0x8000000 = 6 ∧ 6 < 28
  have := selCode_lt d; have := selCode_lt a; unfold wordX3; omega
theorem pkF16 (d : Sel) (a : Sel) (el : BitVec 2) (sat : Bool) (rm : BitVec 2) : Statement (.pkF16 d a el sat rm) := by
  show wordX3 6 6 (selCode d) (selCode a) (el.toNat * 8 + natOf sat * 4 + rm.toNat) / 0x8000000 = 6 ∧ 6 < 28
  have := selCode_lt d; have := selCode_lt a; have := natOf_lt sat; unfold wordX3; omega
theorem pkBf16 (d : Sel) (a : Sel) (el : BitVec 2) (sat : Bool) (rm : BitVec 2) : Statement (.pkBf16 d a el sat rm) := by
  show wordX3 6 7 (selCode d) (selCode a) (el.toNat * 8 + natOf sat * 4 + rm.toNat) / 0x8000000 = 6 ∧ 6 < 28
  have := selCode_lt d; have := selCode_lt a; have := natOf_lt sat; unfold wordX3; omega
theorem pkE4m3 (d : Sel) (a : Sel) (el : BitVec 2) (sat : Bool) (rm : BitVec 2) : Statement (.pkE4m3 d a el sat rm) := by
  show wordX3 6 8 (selCode d) (selCode a) (el.toNat * 8 + natOf sat * 4 + rm.toNat) / 0x8000000 = 6 ∧ 6 < 28
  have := selCode_lt d; have := selCode_lt a; have := natOf_lt sat; unfold wordX3; omega
theorem pkE5m2 (d : Sel) (a : Sel) (el : BitVec 2) (sat : Bool) (rm : BitVec 2) : Statement (.pkE5m2 d a el sat rm) := by
  show wordX3 6 9 (selCode d) (selCode a) (el.toNat * 8 + natOf sat * 4 + rm.toNat) / 0x8000000 = 6 ∧ 6 < 28
  have := selCode_lt d; have := selCode_lt a; have := natOf_lt sat; unfold wordX3; omega
theorem pkE2m1 (d : Sel) (a : Sel) (el : BitVec 2) (sat : Bool) (rm : BitVec 2) : Statement (.pkE2m1 d a el sat rm) := by
  show wordX3 6 10 (selCode d) (selCode a) (el.toNat * 8 + natOf sat * 4 + rm.toNat) / 0x8000000 = 6 ∧ 6 < 28
  have := selCode_lt d; have := selCode_lt a; have := natOf_lt sat; unfold wordX3; omega
theorem pkF8d (d : Sel) (a : Sel) (bias : BitVec 4) (el : BitVec 2) : Statement (.pkF8d d a bias el) := by
  show wordX3 6 11 (selCode d) (selCode a) (bias.toNat / 4 * 32 + el.toNat * 8 + bias.toNat % 4) / 0x8000000 = 6 ∧ 6 < 28
  have := selCode_lt d; have := selCode_lt a; unfold wordX3; omega
theorem upkE4m3 (d : Sel) (a : Sel) (el : BitVec 2) : Statement (.upkE4m3 d a el) := by
  show wordX3 6 12 (selCode d) (selCode a) (el.toNat * 8) / 0x8000000 = 6 ∧ 6 < 28
  have := selCode_lt d; have := selCode_lt a; unfold wordX3; omega
theorem upkE5m2 (d : Sel) (a : Sel) (el : BitVec 2) : Statement (.upkE5m2 d a el) := by
  show wordX3 6 13 (selCode d) (selCode a) (el.toNat * 8) / 0x8000000 = 6 ∧ 6 < 28
  have := selCode_lt d; have := selCode_lt a; unfold wordX3; omega
theorem upkE2m1 (d : Sel) (a : Sel) (el : BitVec 2) : Statement (.upkE2m1 d a el) := by
  show wordX3 6 14 (selCode d) (selCode a) (el.toNat * 8) / 0x8000000 = 6 ∧ 6 < 28
  have := selCode_lt d; have := selCode_lt a; unfold wordX3; omega
theorem upkF8d (d : Sel) (a : Sel) (bias : BitVec 4) (el : BitVec 2) : Statement (.upkF8d d a bias el) := by
  show wordX3 6 15 (selCode d) (selCode a) (bias.toNat / 4 * 32 + el.toNat * 8 + bias.toNat % 4) / 0x8000000 = 6 ∧ 6 < 28
  have := selCode_lt d; have := selCode_lt a; unfold wordX3; omega
theorem cvtE8m0 (d : Sel) (a : Sel) (el : BitVec 2) (sat : Bool) (rm : BitVec 2) : Statement (.cvtE8m0 d a el sat rm) := by
  show wordX3 6 16 (selCode d) (selCode a) (el.toNat * 8 + natOf sat * 4 + rm.toNat) / 0x8000000 = 6 ∧ 6 < 28
  have := selCode_lt d; have := selCode_lt a; have := natOf_lt sat; unfold wordX3; omega
theorem frint (d : Sel) (a : Sel) (rm : BitVec 2) : Statement (.frint d a rm) := by
  show wordX3 6 17 (selCode d) (selCode a) (rm.toNat) / 0x8000000 = 6 ∧ 6 < 28
  have := selCode_lt d; have := selCode_lt a; unfold wordX3; omega
theorem ffma (d : Sel) (a : Sel) (b : Sel) (c : Sel) : Statement (.ffma d a b c) := by
  show wordX4 7 (selCode d) (selCode a) (selCode b) (selCodeC c) / 0x8000000 = 7 ∧ 7 < 28
  have := selCode_lt d; have := selCode_lt a; have := selCode_lt b; have := selCodeC_lt c; unfold wordX4; omega
theorem sel (d : Sel) (a : Sel) (b : Sel) (c : Sel) : Statement (.sel d a b c) := by
  show wordX4 8 (selCode d) (selCode a) (selCode b) (selCodeC c) / 0x8000000 = 8 ∧ 8 < 28
  have := selCode_lt d; have := selCode_lt a; have := selCode_lt b; have := selCodeC_lt c; unfold wordX4; omega
theorem imad (d : Sel) (a : Sel) (b : Sel) (c : Sel) : Statement (.imad d a b c) := by
  show wordX4 9 (selCode d) (selCode a) (selCode b) (selCodeC c) / 0x8000000 = 9 ∧ 9 < 28
  have := selCode_lt d; have := selCode_lt a; have := selCode_lt b; have := selCodeC_lt c; unfold wordX4; omega
theorem ldN8 (d : Sel) (a : Sel) (base : Base) (off : BitVec 8) : Statement (.ldN8 d a base off) := by
  show wordM 10 0 (selCode d) (selCode a) (baseCode base) off.toNat / 0x8000000 = 10 ∧ 10 < 28
  have := selCode_lt d; have := selCode_lt a; have := baseCode_lt base; unfold wordM; omega
theorem ldS8 (d : Sel) (a : Sel) (base : Base) (off : BitVec 8) : Statement (.ldS8 d a base off) := by
  show wordM 10 1 (selCode d) (selCode a) (baseCode base) off.toNat / 0x8000000 = 10 ∧ 10 < 28
  have := selCode_lt d; have := selCode_lt a; have := baseCode_lt base; unfold wordM; omega
theorem ldN16 (d : Sel) (a : Sel) (base : Base) (off : BitVec 8) : Statement (.ldN16 d a base off) := by
  show wordM 10 2 (selCode d) (selCode a) (baseCode base) off.toNat / 0x8000000 = 10 ∧ 10 < 28
  have := selCode_lt d; have := selCode_lt a; have := baseCode_lt base; unfold wordM; omega
theorem ldS16 (d : Sel) (a : Sel) (base : Base) (off : BitVec 8) : Statement (.ldS16 d a base off) := by
  show wordM 10 3 (selCode d) (selCode a) (baseCode base) off.toNat / 0x8000000 = 10 ∧ 10 < 28
  have := selCode_lt d; have := selCode_lt a; have := baseCode_lt base; unfold wordM; omega
theorem ldB32 (d : Sel) (a : Sel) (base : Base) (off : BitVec 8) : Statement (.ldB32 d a base off) := by
  show wordM 10 4 (selCode d) (selCode a) (baseCode base) off.toNat / 0x8000000 = 10 ∧ 10 < 28
  have := selCode_lt d; have := selCode_lt a; have := baseCode_lt base; unfold wordM; omega
theorem ldB64 (d : Sel) (a : Sel) (base : Base) (off : BitVec 8) : Statement (.ldB64 d a base off) := by
  show wordM 10 5 (selCode d) (selCode a) (baseCode base) off.toNat / 0x8000000 = 10 ∧ 10 < 28
  have := selCode_lt d; have := selCode_lt a; have := baseCode_lt base; unfold wordM; omega
theorem ldB128 (d : Sel) (a : Sel) (base : Base) (off : BitVec 8) : Statement (.ldB128 d a base off) := by
  show wordM 10 6 (selCode d) (selCode a) (baseCode base) off.toNat / 0x8000000 = 10 ∧ 10 < 28
  have := selCode_lt d; have := selCode_lt a; have := baseCode_lt base; unfold wordM; omega
theorem ldBlk (d : Sel) (a : Sel) (base : Base) (n : BitVec 5) : Statement (.ldBlk d a base n) := by
  show wordM 10 7 (selCode d) (selCode a) (baseCode base) n.toNat / 0x8000000 = 10 ∧ 10 < 28
  have := selCode_lt d; have := selCode_lt a; have := baseCode_lt base; unfold wordM; omega
theorem stB8 (d : Sel) (a : Sel) (base : Base) (off : BitVec 8) : Statement (.stB8 d a base off) := by
  show wordM 11 0 (selCode d) (selCode a) (baseCode base) off.toNat / 0x8000000 = 11 ∧ 11 < 28
  have := selCode_lt d; have := selCode_lt a; have := baseCode_lt base; unfold wordM; omega
theorem stB16 (d : Sel) (a : Sel) (base : Base) (off : BitVec 8) : Statement (.stB16 d a base off) := by
  show wordM 11 1 (selCode d) (selCode a) (baseCode base) off.toNat / 0x8000000 = 11 ∧ 11 < 28
  have := selCode_lt d; have := selCode_lt a; have := baseCode_lt base; unfold wordM; omega
theorem stB32 (d : Sel) (a : Sel) (base : Base) (off : BitVec 8) : Statement (.stB32 d a base off) := by
  show wordM 11 2 (selCode d) (selCode a) (baseCode base) off.toNat / 0x8000000 = 11 ∧ 11 < 28
  have := selCode_lt d; have := selCode_lt a; have := baseCode_lt base; unfold wordM; omega
theorem stB64 (d : Sel) (a : Sel) (base : Base) (off : BitVec 8) : Statement (.stB64 d a base off) := by
  show wordM 11 3 (selCode d) (selCode a) (baseCode base) off.toNat / 0x8000000 = 11 ∧ 11 < 28
  have := selCode_lt d; have := selCode_lt a; have := baseCode_lt base; unfold wordM; omega
theorem stB128 (d : Sel) (a : Sel) (base : Base) (off : BitVec 8) : Statement (.stB128 d a base off) := by
  show wordM 11 4 (selCode d) (selCode a) (baseCode base) off.toNat / 0x8000000 = 11 ∧ 11 < 28
  have := selCode_lt d; have := selCode_lt a; have := baseCode_lt base; unfold wordM; omega
theorem stBlk (d : Sel) (a : Sel) (base : Base) (n : BitVec 5) : Statement (.stBlk d a base n) := by
  show wordM 11 5 (selCode d) (selCode a) (baseCode base) n.toNat / 0x8000000 = 11 ∧ 11 < 28
  have := selCode_lt d; have := selCode_lt a; have := baseCode_lt base; unfold wordM; omega
theorem aadd (d : Sel) (a : Sel) (b : Sel) (base : Base) : Statement (.aadd d a b base) := by
  show wordA 0 (selCode d) (selCode a) (selCode b) (baseCode base) / 0x8000000 = 12 ∧ 12 < 28
  have := selCode_lt d; have := selCode_lt a; have := selCode_lt b; have := baseCode_lt base; unfold wordA; omega
theorem aand (d : Sel) (a : Sel) (b : Sel) (base : Base) : Statement (.aand d a b base) := by
  show wordA 1 (selCode d) (selCode a) (selCode b) (baseCode base) / 0x8000000 = 12 ∧ 12 < 28
  have := selCode_lt d; have := selCode_lt a; have := selCode_lt b; have := baseCode_lt base; unfold wordA; omega
theorem aor (d : Sel) (a : Sel) (b : Sel) (base : Base) : Statement (.aor d a b base) := by
  show wordA 2 (selCode d) (selCode a) (selCode b) (baseCode base) / 0x8000000 = 12 ∧ 12 < 28
  have := selCode_lt d; have := selCode_lt a; have := selCode_lt b; have := baseCode_lt base; unfold wordA; omega
theorem axor (d : Sel) (a : Sel) (b : Sel) (base : Base) : Statement (.axor d a b base) := by
  show wordA 3 (selCode d) (selCode a) (selCode b) (baseCode base) / 0x8000000 = 12 ∧ 12 < 28
  have := selCode_lt d; have := selCode_lt a; have := selCode_lt b; have := baseCode_lt base; unfold wordA; omega
theorem aminS32 (d : Sel) (a : Sel) (b : Sel) (base : Base) : Statement (.aminS32 d a b base) := by
  show wordA 4 (selCode d) (selCode a) (selCode b) (baseCode base) / 0x8000000 = 12 ∧ 12 < 28
  have := selCode_lt d; have := selCode_lt a; have := selCode_lt b; have := baseCode_lt base; unfold wordA; omega
theorem amaxS32 (d : Sel) (a : Sel) (b : Sel) (base : Base) : Statement (.amaxS32 d a b base) := by
  show wordA 5 (selCode d) (selCode a) (selCode b) (baseCode base) / 0x8000000 = 12 ∧ 12 < 28
  have := selCode_lt d; have := selCode_lt a; have := selCode_lt b; have := baseCode_lt base; unfold wordA; omega
theorem aminN32 (d : Sel) (a : Sel) (b : Sel) (base : Base) : Statement (.aminN32 d a b base) := by
  show wordA 6 (selCode d) (selCode a) (selCode b) (baseCode base) / 0x8000000 = 12 ∧ 12 < 28
  have := selCode_lt d; have := selCode_lt a; have := selCode_lt b; have := baseCode_lt base; unfold wordA; omega
theorem amaxN32 (d : Sel) (a : Sel) (b : Sel) (base : Base) : Statement (.amaxN32 d a b base) := by
  show wordA 7 (selCode d) (selCode a) (selCode b) (baseCode base) / 0x8000000 = 12 ∧ 12 < 28
  have := selCode_lt d; have := selCode_lt a; have := selCode_lt b; have := baseCode_lt base; unfold wordA; omega
theorem axchg (d : Sel) (a : Sel) (b : Sel) (base : Base) : Statement (.axchg d a b base) := by
  show wordA 8 (selCode d) (selCode a) (selCode b) (baseCode base) / 0x8000000 = 12 ∧ 12 < 28
  have := selCode_lt d; have := selCode_lt a; have := selCode_lt b; have := baseCode_lt base; unfold wordA; omega
theorem acas (d : Sel) (a : Sel) (b : Sel) (base : Base) : Statement (.acas d a b base) := by
  show wordA 9 (selCode d) (selCode a) (selCode b) (baseCode base) / 0x8000000 = 12 ∧ 12 < 28
  have := selCode_lt d; have := selCode_lt a; have := selCode_lt b; have := baseCode_lt base; unfold wordA; omega
theorem aadd64 (d : Sel) (a : Sel) (b : Sel) (base : Base) : Statement (.aadd64 d a b base) := by
  show wordA 10 (selCode d) (selCode a) (selCode b) (baseCode base) / 0x8000000 = 12 ∧ 12 < 28
  have := selCode_lt d; have := selCode_lt a; have := selCode_lt b; have := baseCode_lt base; unfold wordA; omega
theorem acas64 (d : Sel) (a : Sel) (b : Sel) (base : Base) : Statement (.acas64 d a b base) := by
  show wordA 11 (selCode d) (selCode a) (selCode b) (baseCode base) / 0x8000000 = 12 ∧ 12 < 28
  have := selCode_lt d; have := selCode_lt a; have := selCode_lt b; have := baseCode_lt base; unfold wordA; omega
theorem afadd (d : Sel) (a : Sel) (b : Sel) (base : Base) : Statement (.afadd d a b base) := by
  show wordA 12 (selCode d) (selCode a) (selCode b) (baseCode base) / 0x8000000 = 12 ∧ 12 < 28
  have := selCode_lt d; have := selCode_lt a; have := selCode_lt b; have := baseCode_lt base; unfold wordA; omega
theorem afaddBf16x2 (d : Sel) (a : Sel) (b : Sel) (base : Base) : Statement (.afaddBf16x2 d a b base) := by
  show wordA 13 (selCode d) (selCode a) (selCode b) (baseCode base) / 0x8000000 = 12 ∧ 12 < 28
  have := selCode_lt d; have := selCode_lt a; have := selCode_lt b; have := baseCode_lt base; unfold wordA; omega
theorem aincWrap (d : Sel) (a : Sel) (b : Sel) (base : Base) : Statement (.aincWrap d a b base) := by
  show wordA 14 (selCode d) (selCode a) (selCode b) (baseCode base) / 0x8000000 = 12 ∧ 12 < 28
  have := selCode_lt d; have := selCode_lt a; have := selCode_lt b; have := baseCode_lt base; unfold wordA; omega
theorem bra (off : BitVec 17) : Statement (.bra off) := by
  show wordB 0 0 off.toNat / 0x8000000 = 13 ∧ 13 < 28
  unfold wordB; omega
theorem bz (a : Sel) (off : BitVec 17) : Statement (.bz a off) := by
  show wordB 1 (selCode a) off.toNat / 0x8000000 = 13 ∧ 13 < 28
  have := selCode_lt a; unfold wordB; omega
theorem bnz (a : Sel) (off : BitVec 17) : Statement (.bnz a off) := by
  show wordB 2 (selCode a) off.toNat / 0x8000000 = 13 ∧ 13 < 28
  have := selCode_lt a; unfold wordB; omega
theorem blz (a : Sel) (off : BitVec 17) : Statement (.blz a off) := by
  show wordB 3 (selCode a) off.toNat / 0x8000000 = 13 ∧ 13 < 28
  have := selCode_lt a; unfold wordB; omega
theorem bgez (a : Sel) (off : BitVec 17) : Statement (.bgez a off) := by
  show wordB 4 (selCode a) off.toNat / 0x8000000 = 13 ∧ 13 < 28
  have := selCode_lt a; unfold wordB; omega
theorem call (a : Sel) (off : BitVec 17) : Statement (.call a off) := by
  show wordB 5 (selCode a) off.toNat / 0x8000000 = 13 ∧ 13 < 28
  have := selCode_lt a; unfold wordB; omega
theorem bany (a : Sel) (off : BitVec 17) : Statement (.bany a off) := by
  show wordB 6 (selCode a) off.toNat / 0x8000000 = 13 ∧ 13 < 28
  have := selCode_lt a; unfold wordB; omega
theorem ball (a : Sel) (off : BitVec 17) : Statement (.ball a off) := by
  show wordB 7 (selCode a) off.toNat / 0x8000000 = 13 ∧ 13 < 28
  have := selCode_lt a; unfold wordB; omega
theorem jr (a : Sel) : Statement (.jr a) := by
  show wordX3 14 0 0 (selCode a) 0 / 0x8000000 = 14 ∧ 14 < 28
  have := selCode_lt a; unfold wordX3; omega
theorem callr (d : Sel) (a : Sel) : Statement (.callr d a) := by
  show wordX3 14 1 (selCode d) (selCode a) 0 / 0x8000000 = 14 ∧ 14 < 28
  have := selCode_lt d; have := selCode_lt a; unfold wordX3; omega
theorem ret (a : Sel) : Statement (.ret a) := by
  show wordX3 14 2 0 (selCode a) 0 / 0x8000000 = 14 ∧ 14 < 28
  have := selCode_lt a; unfold wordX3; omega
theorem exit : Statement .exit := by
  show wordX3 14 3 0 0 0 / 0x8000000 = 14 ∧ 14 < 28
  unfold wordX3; omega
theorem reform (n : BitVec 7) : Statement (.reform n) := by
  show wordX3 14 4 0 0 n.toNat / 0x8000000 = 14 ∧ 14 < 28
  unfold wordX3; omega
theorem spawn (c : BitVec 3) (a : Sel) (b : Sel) : Statement (.spawn c a b) := by
  show wordX3 14 5 c.toNat (selCode a) (selCode b) / 0x8000000 = 14 ∧ 14 < 28
  have := selCode_lt a; have := selCode_lt b; unfold wordX3; omega
theorem rbar : Statement .rbar := by
  show wordX3 14 6 0 0 0 / 0x8000000 = 14 ∧ 14 < 28
  unfold wordX3; omega
theorem lxPick (d : Sel) (a : Sel) (b : Sel) : Statement (.lxPick d a b) := by
  show wordX3 15 0 (selCode d) (selCode a) (selCode b) / 0x8000000 = 15 ∧ 15 < 28
  have := selCode_lt d; have := selCode_lt a; have := selCode_lt b; unfold wordX3; omega
theorem lxShift (d : Sel) (a : Sel) (b : Sel) : Statement (.lxShift d a b) := by
  show wordX3 15 1 (selCode d) (selCode a) (selCode b) / 0x8000000 = 15 ∧ 15 < 28
  have := selCode_lt d; have := selCode_lt a; have := selCode_lt b; unfold wordX3; omega
theorem lxRot (d : Sel) (a : Sel) (b : Sel) : Statement (.lxRot d a b) := by
  show wordX3 15 2 (selCode d) (selCode a) (selCode b) / 0x8000000 = 15 ∧ 15 < 28
  have := selCode_lt d; have := selCode_lt a; have := selCode_lt b; unfold wordX3; omega
theorem lxSwap (d : Sel) (a : Sel) (b : Sel) : Statement (.lxSwap d a b) := by
  show wordX3 15 3 (selCode d) (selCode a) (selCode b) / 0x8000000 = 15 ∧ 15 < 28
  have := selCode_lt d; have := selCode_lt a; have := selCode_lt b; unfold wordX3; omega
theorem lxAny (d : Sel) (a : Sel) : Statement (.lxAny d a) := by
  show wordX3 15 4 (selCode d) (selCode a) 0 / 0x8000000 = 15 ∧ 15 < 28
  have := selCode_lt d; have := selCode_lt a; unfold wordX3; omega
theorem lxAll (d : Sel) (a : Sel) : Statement (.lxAll d a) := by
  show wordX3 15 5 (selCode d) (selCode a) 0 / 0x8000000 = 15 ∧ 15 < 28
  have := selCode_lt d; have := selCode_lt a; unfold wordX3; omega
theorem lxMask (d : Sel) (a : Sel) : Statement (.lxMask d a) := by
  show wordX3 15 6 (selCode d) (selCode a) 0 / 0x8000000 = 15 ∧ 15 < 28
  have := selCode_lt d; have := selCode_lt a; unfold wordX3; omega
theorem lxActive (d : Sel) : Statement (.lxActive d) := by
  show wordX3 15 7 (selCode d) 0 0 / 0x8000000 = 15 ∧ 15 < 28
  have := selCode_lt d; unfold wordX3; omega
theorem lxFirst (d : Sel) (a : Sel) : Statement (.lxFirst d a) := by
  show wordX3 15 8 (selCode d) (selCode a) 0 / 0x8000000 = 15 ∧ 15 < 28
  have := selCode_lt d; have := selCode_lt a; unfold wordX3; omega
theorem lxSumS32 (d : Sel) (a : Sel) : Statement (.lxSumS32 d a) := by
  show wordX3 15 9 (selCode d) (selCode a) 0 / 0x8000000 = 15 ∧ 15 < 28
  have := selCode_lt d; have := selCode_lt a; unfold wordX3; omega
theorem lxMinS32 (d : Sel) (a : Sel) : Statement (.lxMinS32 d a) := by
  show wordX3 15 10 (selCode d) (selCode a) 0 / 0x8000000 = 15 ∧ 15 < 28
  have := selCode_lt d; have := selCode_lt a; unfold wordX3; omega
theorem lxMaxS32 (d : Sel) (a : Sel) : Statement (.lxMaxS32 d a) := by
  show wordX3 15 11 (selCode d) (selCode a) 0 / 0x8000000 = 15 ∧ 15 < 28
  have := selCode_lt d; have := selCode_lt a; unfold wordX3; omega
theorem lxFsum (d : Sel) (a : Sel) : Statement (.lxFsum d a) := by
  show wordX3 15 12 (selCode d) (selCode a) 0 / 0x8000000 = 15 ∧ 15 < 28
  have := selCode_lt d; have := selCode_lt a; unfold wordX3; omega
theorem lxPrefixS32 (d : Sel) (a : Sel) : Statement (.lxPrefixS32 d a) := by
  show wordX3 15 13 (selCode d) (selCode a) 0 / 0x8000000 = 15 ∧ 15 < 28
  have := selCode_lt d; have := selCode_lt a; unfold wordX3; omega
theorem lxSame (d : Sel) (a : Sel) : Statement (.lxSame d a) := by
  show wordX3 15 14 (selCode d) (selCode a) 0 / 0x8000000 = 15 ∧ 15 < 28
  have := selCode_lt d; have := selCode_lt a; unfold wordX3; omega
theorem lxLead (d : Sel) : Statement (.lxLead d) := by
  show wordX3 15 15 (selCode d) 0 0 / 0x8000000 = 15 ∧ 15 < 28
  have := selCode_lt d; unfold wordX3; omega
theorem barArrive (n : BitVec 7) : Statement (.barArrive n) := by
  show wordS 16 0 n.toNat / 0x8000000 = 16 ∧ 16 < 28
  unfold wordS; omega
theorem barWait (n : BitVec 7) : Statement (.barWait n) := by
  show wordS 16 1 n.toNat / 0x8000000 = 16 ∧ 16 < 28
  unfold wordS; omega
theorem barSync (n : BitVec 7) : Statement (.barSync n) := by
  show wordS 16 2 n.toNat / 0x8000000 = 16 ∧ 16 < 28
  unfold wordS; omega
theorem barInit (e : BitVec 11) (n : BitVec 7) : Statement (.barInit e n) := by
  show wordS 16 3 (e.toNat * 128 + n.toNat) / 0x8000000 = 16 ∧ 16 < 28
  unfold wordS; omega
theorem fence (k : BitVec 2) (s : BitVec 3) : Statement (.fence k s) := by
  show wordS 16 4 (k.toNat * 8 + s.toNat) / 0x8000000 = 16 ∧ 16 < 28
  unfold wordS; omega
theorem fenceOpnd : Statement .fenceOpnd := by
  show wordS 16 5 0 / 0x8000000 = 16 ∧ 16 < 28
  unfold wordS; omega
theorem fenceIfetch : Statement .fenceIfetch := by
  show wordS 16 6 0 / 0x8000000 = 16 ∧ 16 < 28
  unfold wordS; omega
theorem wait (m : BitVec 7) : Statement (.wait m) := by
  show wordS 16 7 m.toNat / 0x8000000 = 16 ∧ 16 < 28
  unfold wordS; omega
theorem tktWait (t : BitVec 3) : Statement (.tktWait t) := by
  show wordS 16 8 t.toNat / 0x8000000 = 16 ∧ 16 < 28
  unfold wordS; omega
theorem tktPass (t : BitVec 3) : Statement (.tktPass t) := by
  show wordS 16 9 t.toNat / 0x8000000 = 16 ∧ 16 < 28
  unfold wordS; omega
theorem mxGo (d : Sel) (a : Sel) (b : Sel) : Statement (.mxGo d a b) := by
  show wordX3 17 0 (selCode d) (selCode a) (selCode b) / 0x8000000 = 17 ∧ 17 < 28
  have := selCode_lt d; have := selCode_lt a; have := selCode_lt b; unfold wordX3; omega
theorem mxWait (d : Sel) (a : Sel) (retire : Bool) : Statement (.mxWait d a retire) := by
  show wordX3 17 1 (selCode d) (selCode a) (natOf retire) / 0x8000000 = 17 ∧ 17 < 28
  have := selCode_lt d; have := selCode_lt a; have := natOf_lt retire; unfold wordX3; omega
theorem mxTest (d : Sel) (a : Sel) : Statement (.mxTest d a) := by
  show wordX3 17 2 (selCode d) (selCode a) 0 / 0x8000000 = 17 ∧ 17 < 28
  have := selCode_lt d; have := selCode_lt a; unfold wordX3; omega
theorem mxStat (d : Sel) (a : Sel) : Statement (.mxStat d a) := by
  show wordX3 17 3 (selCode d) (selCode a) 0 / 0x8000000 = 17 ∧ 17 < 28
  have := selCode_lt d; have := selCode_lt a; unfold wordX3; omega
theorem mxAbort (a : Sel) : Statement (.mxAbort a) := by
  show wordX3 17 4 0 (selCode a) 0 / 0x8000000 = 17 ∧ 17 < 28
  have := selCode_lt a; unfold wordX3; omega
theorem drnLoad (s : BitVec 7) (a : Sel) : Statement (.drnLoad s a) := by
  show wordX3 17 5 s.toNat (selCode a) 0 / 0x8000000 = 17 ∧ 17 < 28
  have := selCode_lt a; unfold wordX3; omega
theorem qBind (p : BitVec 3) (b : Sel) : Statement (.qBind p b) := by
  show wordX3 18 0 0 (0x50 + p.toNat) (selCode b) / 0x8000000 = 18 ∧ 18 < 28
  have := selCode_lt b; unfold wordX3; omega
theorem qUnbind (p : BitVec 3) : Statement (.qUnbind p) := by
  show wordX3 18 1 0 (0x50 + p.toNat) 0 / 0x8000000 = 18 ∧ 18 < 28
  unfold wordX3; omega
theorem qTake (d : Sel) (p : BitVec 3) : Statement (.qTake d p) := by
  show wordX3 18 2 (selCode d) (0x50 + p.toNat) 0 / 0x8000000 = 18 ∧ 18 < 28
  have := selCode_lt d; unfold wordX3; omega
theorem qGive (p : BitVec 3) : Statement (.qGive p) := by
  show wordX3 18 3 0 (0x50 + p.toNat) 0 / 0x8000000 = 18 ∧ 18 < 28
  unfold wordX3; omega
theorem qAlloc (d : Sel) (p : BitVec 3) : Statement (.qAlloc d p) := by
  show wordX3 18 4 (selCode d) (0x50 + p.toNat) 0 / 0x8000000 = 18 ∧ 18 < 28
  have := selCode_lt d; unfold wordX3; omega
theorem qPost (p : BitVec 3) : Statement (.qPost p) := by
  show wordX3 18 5 0 (0x50 + p.toNat) 0 / 0x8000000 = 18 ∧ 18 < 28
  unfold wordX3; omega
theorem qCnt (d : Sel) (p : BitVec 3) : Statement (.qCnt d p) := by
  show wordX3 18 6 (selCode d) (0x50 + p.toNat) 0 / 0x8000000 = 18 ∧ 18 < 28
  have := selCode_lt d; unfold wordX3; omega
theorem qClose (p : BitVec 3) : Statement (.qClose p) := by
  show wordX3 18 7 0 (0x50 + p.toNat) 0 / 0x8000000 = 18 ∧ 18 < 28
  unfold wordX3; omega
theorem cpGo (d : Sel) (a : Sel) : Statement (.cpGo d a) := by
  show wordX3 19 0 (selCode d) (selCode a) 0 / 0x8000000 = 19 ∧ 19 < 28
  have := selCode_lt d; have := selCode_lt a; unfold wordX3; omega
theorem cpFill (d : Sel) (a : Sel) : Statement (.cpFill d a) := by
  show wordX3 19 1 (selCode d) (selCode a) 0 / 0x8000000 = 19 ∧ 19 < 28
  have := selCode_lt d; have := selCode_lt a; unfold wordX3; omega
theorem cpGather (d : Sel) (a : Sel) : Statement (.cpGather d a) := by
  show wordX3 19 2 (selCode d) (selCode a) 0 / 0x8000000 = 19 ∧ 19 < 28
  have := selCode_lt d; have := selCode_lt a; unfold wordX3; omega
theorem cpQ (d : Sel) (a : Sel) : Statement (.cpQ d a) := by
  show wordX3 19 3 (selCode d) (selCode a) 0 / 0x8000000 = 19 ∧ 19 < 28
  have := selCode_lt d; have := selCode_lt a; unfold wordX3; omega
theorem cpWait (d : Sel) (a : Sel) (retire : Bool) : Statement (.cpWait d a retire) := by
  show wordX3 19 4 (selCode d) (selCode a) (natOf retire) / 0x8000000 = 19 ∧ 19 < 28
  have := selCode_lt d; have := selCode_lt a; have := natOf_lt retire; unfold wordX3; omega
theorem cpTest (d : Sel) (a : Sel) : Statement (.cpTest d a) := by
  show wordX3 19 5 (selCode d) (selCode a) 0 / 0x8000000 = 19 ∧ 19 < 28
  have := selCode_lt d; have := selCode_lt a; unfold wordX3; omega
theorem lpLd (d : Sel) (a : Sel) : Statement (.lpLd d a) := by
  show wordX3 20 0 (selCode d) (selCode a) 0 / 0x8000000 = 20 ∧ 20 < 28
  have := selCode_lt d; have := selCode_lt a; unfold wordX3; omega
theorem lpPut (d : Sel) (a : Sel) (b : Sel) : Statement (.lpPut d a b) := by
  show wordX3 20 1 (selCode d) (selCode a) (selCode b) / 0x8000000 = 20 ∧ 20 < 28
  have := selCode_lt d; have := selCode_lt a; have := selCode_lt b; unfold wordX3; omega
theorem lpAdd (d : Sel) (a : Sel) (b : Sel) : Statement (.lpAdd d a b) := by
  show wordX3 20 2 (selCode d) (selCode a) (selCode b) / 0x8000000 = 20 ∧ 20 < 28
  have := selCode_lt d; have := selCode_lt a; have := selCode_lt b; unfold wordX3; omega
theorem lpCas (d : Sel) (a : Sel) (b : Sel) : Statement (.lpCas d a b) := by
  show wordX3 20 3 (selCode d) (selCode a) (selCode b) / 0x8000000 = 20 ∧ 20 < 28
  have := selCode_lt d; have := selCode_lt a; have := selCode_lt b; unfold wordX3; omega
theorem lpMsg (d : Sel) (a : Sel) (b : Sel) : Statement (.lpMsg d a b) := by
  show wordX3 20 4 (selCode d) (selCode a) (selCode b) / 0x8000000 = 20 ∧ 20 < 28
  have := selCode_lt d; have := selCode_lt a; have := selCode_lt b; unfold wordX3; omega
theorem lpFence (a : Sel) : Statement (.lpFence a) := by
  show wordX3 20 5 0 (selCode a) 0 / 0x8000000 = 20 ∧ 20 < 28
  have := selCode_lt a; unfold wordX3; omega
theorem lpGate : Statement .lpGate := by
  show wordX3 20 6 0 0 0 / 0x8000000 = 20 ∧ 20 < 28
  unfold wordX3; omega
theorem lpNow (d : Sel) : Statement (.lpNow d) := by
  show wordX3 20 7 (selCode d) 0 0 / 0x8000000 = 20 ∧ 20 < 28
  have := selCode_lt d; unfold wordX3; omega
theorem lpSeq (d : Sel) (a : Sel) : Statement (.lpSeq d a) := by
  show wordX3 20 8 (selCode d) (selCode a) 0 / 0x8000000 = 20 ∧ 20 < 28
  have := selCode_lt d; have := selCode_lt a; unfold wordX3; omega
theorem lpLaunch (d : Sel) (a : Sel) : Statement (.lpLaunch d a) := by
  show wordX3 20 9 (selCode d) (selCode a) 0 / 0x8000000 = 20 ∧ 20 < 28
  have := selCode_lt d; have := selCode_lt a; unfold wordX3; omega
theorem fabPut (d : Sel) (a : Sel) : Statement (.fabPut d a) := by
  show wordX3 21 0 (selCode d) (selCode a) 0 / 0x8000000 = 21 ∧ 21 < 28
  have := selCode_lt d; have := selCode_lt a; unfold wordX3; omega
theorem fabGet (d : Sel) (a : Sel) : Statement (.fabGet d a) := by
  show wordX3 21 1 (selCode d) (selCode a) 0 / 0x8000000 = 21 ∧ 21 < 28
  have := selCode_lt d; have := selCode_lt a; unfold wordX3; omega
theorem fabAadd (d : Sel) (a : Sel) (b : Sel) : Statement (.fabAadd d a b) := by
  show wordX3 21 2 (selCode d) (selCode a) (selCode b) / 0x8000000 = 21 ∧ 21 < 28
  have := selCode_lt d; have := selCode_lt a; have := selCode_lt b; unfold wordX3; omega
theorem fabAcas (d : Sel) (a : Sel) (b : Sel) : Statement (.fabAcas d a b) := by
  show wordX3 21 3 (selCode d) (selCode a) (selCode b) / 0x8000000 = 21 ∧ 21 < 28
  have := selCode_lt d; have := selCode_lt a; have := selCode_lt b; unfold wordX3; omega
theorem fabFence : Statement .fabFence := by
  show wordX3 21 4 0 0 0 / 0x8000000 = 21 ∧ 21 < 28
  unfold wordX3; omega
theorem fabWait (a : Sel) : Statement (.fabWait a) := by
  show wordX3 21 5 0 (selCode a) 0 / 0x8000000 = 21 ∧ 21 < 28
  have := selCode_lt a; unfold wordX3; omega
theorem movi (d : Sel) (i : BitVec 20) : Statement (.movi d i) := by
  show wordW 22 (selCode d) i.toNat / 0x8000000 = 22 ∧ 22 < 28
  have := selCode_lt d; unfold wordW; omega
theorem movh (d : Sel) (i : BitVec 12) : Statement (.movh d i) := by
  show wordW 23 (selCode d) i.toNat / 0x8000000 = 23 ∧ 23 < 28
  have := selCode_lt d; unfold wordW; omega
theorem scopeOpen (n : BitVec 21) : Statement (.scopeOpen n) := by
  show wordS 24 0 n.toNat / 0x8000000 = 24 ∧ 24 < 28
  unfold wordS; omega
theorem scopeClose : Statement .scopeClose := by
  show wordS 24 1 0 / 0x8000000 = 24 ∧ 24 < 28
  unfold wordS; omega
theorem wbase (k : BitVec 21) : Statement (.wbase k) := by
  show wordS 24 2 k.toNat / 0x8000000 = 24 ∧ 24 < 28
  unfold wordS; omega
theorem safept (n : BitVec 21) : Statement (.safept n) := by
  show wordS 24 3 n.toNat / 0x8000000 = 24 ∧ 24 < 28
  unfold wordS; omega
theorem dgOn (clear : Bool) : Statement (.dgOn clear) := by
  show wordX3 25 0 0 0 (natOf clear) / 0x8000000 = 25 ∧ 25 < 28
  have := natOf_lt clear; unfold wordX3; omega
theorem dgOff : Statement .dgOff := by
  show wordX3 25 1 0 0 0 / 0x8000000 = 25 ∧ 25 < 28
  unfold wordX3; omega
theorem dgChk (d : Sel) (a : Sel) (cmp : Bool) : Statement (.dgChk d a cmp) := by
  show wordX3 25 2 (selCode d) (selCode a) (natOf cmp) / 0x8000000 = 25 ∧ 25 < 28
  have := selCode_lt d; have := selCode_lt a; have := natOf_lt cmp; unfold wordX3; omega
theorem dgFold (d : Sel) (a : Sel) : Statement (.dgFold d a) := by
  show wordX3 25 3 (selCode d) (selCode a) 0 / 0x8000000 = 25 ∧ 25 < 28
  have := selCode_lt d; have := selCode_lt a; unfold wordX3; omega
theorem csrRd (d : Sel) (n : BitVec 7) : Statement (.csrRd d n) := by
  show wordX3 26 0 (selCode d) 0 n.toNat / 0x8000000 = 26 ∧ 26 < 28
  have := selCode_lt d; unfold wordX3; omega
theorem csrWr (a : Sel) (n : BitVec 7) : Statement (.csrWr a n) := by
  show wordX3 26 1 0 (selCode a) n.toNat / 0x8000000 = 26 ∧ 26 < 28
  have := selCode_lt a; unfold wordX3; omega
theorem tret : Statement .tret := by
  show wordX3 26 2 0 0 0 / 0x8000000 = 26 ∧ 26 < 28
  unfold wordX3; omega
theorem tkill (a : Sel) : Statement (.tkill a) := by
  show wordX3 26 3 0 (selCode a) 0 / 0x8000000 = 26 ∧ 26 < 28
  have := selCode_lt a; unfold wordX3; omega
theorem tlbInv (a : Sel) (pod : Bool) (size : BitVec 2) : Statement (.tlbInv a pod size) := by
  show wordX3 26 4 0 (selCode a) (natOf pod * 4 + size.toNat) / 0x8000000 = 26 ∧ 26 < 28
  have := selCode_lt a; have := natOf_lt pod; unfold wordX3; omega
theorem tlbProbe (d : Sel) (a : Sel) : Statement (.tlbProbe d a) := by
  show wordX3 26 5 (selCode d) (selCode a) 0 / 0x8000000 = 26 ∧ 26 < 28
  have := selCode_lt d; have := selCode_lt a; unfold wordX3; omega
theorem dbgHalt (a : Sel) : Statement (.dbgHalt a) := by
  show wordX3 26 6 0 (selCode a) 0 / 0x8000000 = 26 ∧ 26 < 28
  have := selCode_lt a; unfold wordX3; omega
theorem mattr (scope : BitVec 3) (order : BitVec 2) (use : BitVec 3) (hint : BitVec 2) : Statement (.mattr scope order use hint) := by
  show wordP scope.toNat order.toNat use.toNat hint.toNat / 0x8000000 = 27 ∧ 27 < 28
  unfold wordP; omega
theorem clauseIssue : Statement .clauseIssue := ⟨rfl, rfl⟩
theorem waitConditionMet : Statement .waitConditionMet := ⟨rfl, rfl⟩
theorem variableLatencyResult : Statement .variableLatencyResult := ⟨rfl, rfl⟩
theorem storeAcknowledge : Statement .storeAcknowledge := ⟨rfl, rfl⟩
theorem pushLatchWrite : Statement .pushLatchWrite := ⟨rfl, rfl⟩
theorem quantumPublishDeadline : Statement .quantumPublishDeadline := ⟨rfl, rfl⟩
theorem sleepIntervalElapsed : Statement .sleepIntervalElapsed := ⟨rfl, rfl⟩
theorem watchdogExpiry : Statement .watchdogExpiry := ⟨rfl, rfl⟩
theorem binAgeTimerExpiry : Statement .binAgeTimerExpiry := ⟨rfl, rfl⟩
theorem binLaunch : Statement .binLaunch := ⟨rfl, rfl⟩
theorem compactorMove : Statement .compactorMove := ⟨rfl, rfl⟩
theorem teamEnd : Statement .teamEnd := ⟨rfl, rfl⟩
theorem atomicopCompletion : Statement .atomicopCompletion := ⟨rfl, rfl⟩
theorem copyRow : Statement .copyRow := ⟨rfl, rfl⟩
theorem cpQSlotFill : Statement .cpQSlotFill := ⟨rfl, rfl⟩
theorem wavefrontAdmission : Statement .wavefrontAdmission := ⟨rfl, rfl⟩
theorem wavefrontComplete : Statement .wavefrontComplete := ⟨rfl, rfl⟩
theorem weightReloadComplete : Statement .weightReloadComplete := ⟨rfl, rfl⟩
theorem arrayQuiescentPoint : Statement .arrayQuiescentPoint := ⟨rfl, rfl⟩
theorem drainUnitEntry : Statement .drainUnitEntry := ⟨rfl, rfl⟩
theorem drainUnitCommit : Statement .drainUnitCommit := ⟨rfl, rfl⟩
theorem mxcapWrite : Statement .mxcapWrite := ⟨rfl, rfl⟩
theorem rlstallRead : Statement .rlstallRead := ⟨rfl, rfl⟩
theorem aqpmaxRead : Statement .aqpmaxRead := ⟨rfl, rfl⟩
theorem kick : Statement .kick := ⟨rfl, rfl⟩
theorem kickPageOtherWrite : Statement .kickPageOtherWrite := ⟨rfl, rfl⟩
theorem uqregWrite : Statement .uqregWrite := ⟨rfl, rfl⟩
theorem uqderegWrite : Statement .uqderegWrite := ⟨rfl, rfl⟩
theorem uqclrWrite : Statement .uqclrWrite := ⟨rfl, rfl⟩
theorem uqstatRejClear : Statement .uqstatRejClear := ⟨rfl, rfl⟩
theorem kickdropRead : Statement .kickdropRead := ⟨rfl, rfl⟩
theorem launchPacket : Statement .launchPacket := ⟨rfl, rfl⟩
theorem clusterLaunchPacket : Statement .clusterLaunchPacket := ⟨rfl, rfl⟩
theorem copyPacket : Statement .copyPacket := ⟨rfl, rfl⟩
theorem waitLsnPacket : Statement .waitLsnPacket := ⟨rfl, rfl⟩
theorem signalPacket : Statement .signalPacket := ⟨rfl, rfl⟩
theorem barrierPacket : Statement .barrierPacket := ⟨rfl, rfl⟩
theorem graphPacket : Statement .graphPacket := ⟨rfl, rfl⟩
theorem graphNodeStart : Statement .graphNodeStart := ⟨rfl, rfl⟩
theorem packetCompletion : Statement .packetCompletion := ⟨rfl, rfl⟩
theorem sliceExpiry : Statement .sliceExpiry := ⟨rfl, rfl⟩
theorem teamAdmission : Statement .teamAdmission := ⟨rfl, rfl⟩
theorem clusterReservationDelay : Statement .clusterReservationDelay := ⟨rfl, rfl⟩
theorem saveComplete : Statement .saveComplete := ⟨rfl, rfl⟩
theorem preemptionTimeout : Statement .preemptionTimeout := ⟨rfl, rfl⟩
theorem teamResumption : Statement .teamResumption := ⟨rfl, rfl⟩
theorem coreHot : Statement .coreHot := ⟨rfl, rfl⟩
theorem coreCool : Statement .coreCool := ⟨rfl, rfl⟩
theorem coreThrottle : Statement .coreThrottle := ⟨rfl, rfl⟩
theorem coreUnthrottle : Statement .coreUnthrottle := ⟨rfl, rfl⟩
theorem packageOvertempShut : Statement .packageOvertempShut := ⟨rfl, rfl⟩
theorem coreIdleTimeout : Statement .coreIdleTimeout := ⟨rfl, rfl⟩
theorem ctxkillWrite : Statement .ctxkillWrite := ⟨rfl, rfl⟩
theorem ctxctlKilledClear : Statement .ctxctlKilledClear := ⟨rfl, rfl⟩
theorem loopGrantArrival : Statement .loopGrantArrival := ⟨rfl, rfl⟩
theorem loopIdleArrival : Statement .loopIdleArrival := ⟨rfl, rfl⟩
theorem numberedRecordReceive : Statement .numberedRecordReceive := ⟨rfl, rfl⟩
theorem recordWriteApply : Statement .recordWriteApply := ⟨rfl, rfl⟩
theorem recordAtomicApply : Statement .recordAtomicApply := ⟨rfl, rfl⟩
theorem recordMsgApply : Statement .recordMsgApply := ⟨rfl, rfl⟩
theorem recordLaunchApply : Statement .recordLaunchApply := ⟨rfl, rfl⟩
theorem recordKillOrderApply : Statement .recordKillOrderApply := ⟨rfl, rfl⟩
theorem recordXlateApply : Statement .recordXlateApply := ⟨rfl, rfl⟩
theorem recordDigestApply : Statement .recordDigestApply := ⟨rfl, rfl⟩
theorem grantRegeneration : Statement .grantRegeneration := ⟨rfl, rfl⟩
theorem lossOfSignal : Statement .lossOfSignal := ⟨rfl, rfl⟩
theorem missingIdleTimeout : Statement .missingIdleTimeout := ⟨rfl, rfl⟩
theorem loopctlJoinWrite : Statement .loopctlJoinWrite := ⟨rfl, rfl⟩
theorem loopctlMasterWrite : Statement .loopctlMasterWrite := ⟨rfl, rfl⟩
theorem loopctlStartWrite : Statement .loopctlStartWrite := ⟨rfl, rfl⟩
theorem mzmHeaterWrite : Statement .mzmHeaterWrite := ⟨rfl, rfl⟩
theorem qalarmClear : Statement .qalarmClear := ⟨rfl, rfl⟩
theorem tapMinmaxRead : Statement .tapMinmaxRead := ⟨rfl, rfl⟩
theorem grantsRead : Statement .grantsRead := ⟨rfl, rfl⟩
theorem regenRead : Statement .regenRead := ⟨rfl, rfl⟩
theorem crcerrRead : Statement .crcerrRead := ⟨rfl, rfl⟩
theorem ibdropRead : Statement .ibdropRead := ⟨rfl, rfl⟩
theorem loopFormationTimeout : Statement .loopFormationTimeout := ⟨rfl, rfl⟩
theorem framePutReceive : Statement .framePutReceive := ⟨rfl, rfl⟩
theorem frameGetreqReceive : Statement .frameGetreqReceive := ⟨rfl, rfl⟩
theorem frameGetrespReceive : Statement .frameGetrespReceive := ⟨rfl, rfl⟩
theorem frameAaddReceive : Statement .frameAaddReceive := ⟨rfl, rfl⟩
theorem frameAcasReceive : Statement .frameAcasReceive := ⟨rfl, rfl⟩
theorem frameAtomrespReceive : Statement .frameAtomrespReceive := ⟨rfl, rfl⟩
theorem frameAckReceive : Statement .frameAckReceive := ⟨rfl, rfl⟩
theorem frameNaksReceive : Statement .frameNaksReceive := ⟨rfl, rfl⟩
theorem frameNakfReceive : Statement .frameNakfReceive := ⟨rfl, rfl⟩
theorem frameSleepReceive : Statement .frameSleepReceive := ⟨rfl, rfl⟩
theorem frameWakeReceive : Statement .frameWakeReceive := ⟨rfl, rfl⟩
theorem pfcPauseReceive : Statement .pfcPauseReceive := ⟨rfl, rfl⟩
theorem ackDelayExpiry : Statement .ackDelayExpiry := ⟨rfl, rfl⟩
theorem retransmitTimeout : Statement .retransmitTimeout := ⟨rfl, rfl⟩
theorem fabOperationTimeout : Statement .fabOperationTimeout := ⟨rfl, rfl⟩
theorem rateRecoveryTimer : Statement .rateRecoveryTimer := ⟨rfl, rfl⟩
theorem portctlEnWrite : Statement .portctlEnWrite := ⟨rfl, rfl⟩
theorem portctlLpreqWrite : Statement .portctlLpreqWrite := ⟨rfl, rfl⟩
theorem portctlWakeWrite : Statement .portctlWakeWrite := ⟨rfl, rfl⟩
theorem portLinkUp : Statement .portLinkUp := ⟨rfl, rfl⟩
theorem portLinkLost : Statement .portLinkLost := ⟨rfl, rfl⟩
theorem portDrainComplete : Statement .portDrainComplete := ⟨rfl, rfl⟩
theorem portLanesReady : Statement .portLanesReady := ⟨rfl, rfl⟩
theorem lpabortRead : Statement .lpabortRead := ⟨rfl, rfl⟩
theorem dropsRead : Statement .dropsRead := ⟨rfl, rfl⟩
theorem hostWindowRead : Statement .hostWindowRead := ⟨rfl, rfl⟩
theorem hostWindowWrite : Statement .hostWindowWrite := ⟨rfl, rfl⟩
theorem hostAtomicopRequest : Statement .hostAtomicopRequest := ⟨rfl, rfl⟩
theorem hostCompletionTimeout : Statement .hostCompletionTimeout := ⟨rfl, rfl⟩
theorem hostLinkDown : Statement .hostLinkDown := ⟨rfl, rfl⟩
theorem hostLinkUp : Statement .hostLinkUp := ⟨rfl, rfl⟩
theorem eqdropRead : Statement .eqdropRead := ⟨rfl, rfl⟩
theorem controlRegisterWrite : Statement .controlRegisterWrite := ⟨rfl, rfl⟩
theorem dbgcmdHalt : Statement .dbgcmdHalt := ⟨rfl, rfl⟩
theorem dbgcmdResume : Statement .dbgcmdResume := ⟨rfl, rfl⟩
theorem dbgcmdDump : Statement .dbgcmdDump := ⟨rfl, rfl⟩
theorem dbgcmdCheckpoint : Statement .dbgcmdCheckpoint := ⟨rfl, rfl⟩
theorem dbgcmdReplay : Statement .dbgcmdReplay := ⟨rfl, rfl⟩
theorem checkpointPeriodExpiry : Statement .checkpointPeriodExpiry := ⟨rfl, rfl⟩
theorem sampleIntervalExpiry : Statement .sampleIntervalExpiry := ⟨rfl, rfl⟩
theorem sampleRecordAppend : Statement .sampleRecordAppend := ⟨rfl, rfl⟩
theorem drdropRead : Statement .drdropRead := ⟨rfl, rfl⟩
theorem packageReset : Statement .packageReset := ⟨rfl, rfl⟩
theorem suppliesGood : Statement .suppliesGood := ⟨rfl, rfl⟩
theorem powerCycle : Statement .powerCycle := ⟨rfl, rfl⟩
theorem dievWrite : Statement .dievWrite := ⟨rfl, rfl⟩
theorem dievSupplyChange : Statement .dievSupplyChange := ⟨rfl, rfl⟩
theorem dievSupplySettled : Statement .dievSupplySettled := ⟨rfl, rfl⟩
theorem serrcntRead : Statement .serrcntRead := ⟨rfl, rfl⟩
theorem serruncRead : Statement .serruncRead := ⟨rfl, rfl⟩
theorem pcieConfigWrite : Statement .pcieConfigWrite := ⟨rfl, rfl⟩
theorem tapPowerSample : Statement .tapPowerSample := ⟨rfl, rfl⟩

end Sys2Proof.Laws.Encoding
end

