-- ==== Sys2Proof/Tests/Slice0.lean ====
section
/-! SUPPORT. Tests: ill-formed terms that the checks refuse, words written out from the encodings of the spec and decoded, small
results worked out by hand from the rules, and for every statement with hypotheses a state and operands that meet them. -/

namespace Sys2Proof.Tests

set_option Elab.async false

open Sys2Proof.Machine Sys2Proof.Claim

/-! A small state: one team of one strand of two threads, whose path stands at word 1 of a clause of two words. -/

def p0 : RunPath :=
  { lanes := [0, 1], hdrAddr := 0x20004, hdr := 0x62, words := [0, 0], nxt := 0x20084, pos := 1, pfx := none, hi := none,
    resume := none, entered := 1, got := none, skips := [] }
def frame0 (cells : NMap Word) : Frame := { loneFrame 1 with cells := cells }
def st0 (cells : NMap Word) : Strand :=
  { team := 0, core := 0, part := 0, role := 0, strandid := 0, lanes := [(0, loneThread), (1, loneThread)], frames := [frame0 cells],
    ports := [], csr := {}, fl := {}, waits := [], seq := 0, aged := 0, stopping := false, bindErr := none, serial := 0, passed := [] }
def team0 : Team :=
  { grid := 0, teamid := 0, cluIdx := 0, cluster := [0], core := 0, slot := 0, spBase := 0, stackBlk := 0, bars := [],
    dgval := 0, dgcnt := 0, queues := [], finals := [], saving := false, stopReq := 0, ptoHalted := false, saveRes := 0,
    saveOff := 0, dgstep := 0 }
def kd0 : KDesc := { loneKernel with spSize := 4096 }
def grid0 : Grid :=
  { ctx := 0, kdescVa := 0, kd := kd0, param := 0, teams := 1, next := 1, last := 1, share := (0, 1), ended := [],
    tbase := some 0x20000, tickets := [], src := .packet 0 0, ck := none, serial := false, since := 0 }
def ctx0 : Ctx := { root := tier2Base + 0x10000, valid := true }
def mem0 : Memory := Memory.writeCells [] (loneCells 0)
/-- The state with its strand, team, grid and context given. -/
def mk (p : RunPath) (st : Strand) (tm : Team) (g : Grid) (c : Ctx) (m : Memory) : State :=
  { State.reset with mem := m, runs := [⟨0, p⟩], strands := [(0, st)], teams := [(0, tm)], grids := [(0, g)], ctxs := [(0, c)],
                     ids := { uid := 2, sid := 1, tid := 1, gid := 1 }, fw := { State.reset.fw with st := .run } }
/-- The state with registers of the frame given, by 32 * register + lane. -/
def s0 (cells : NMap Word) : State := mk p0 (st0 cells) team0 grid0 ctx0 mem0
/-- v1 is 5 and 7, v2 is 2 and 3. -/
def v12 : NMap Word := [(32, 5), (33, 7), (64, 2), (65, 3)]
def stW (f : Strand → Strand) : State := mk p0 (f (st0 v12)) team0 grid0 ctx0 mem0
def teamW (f : Team → Team) : State := mk p0 (st0 v12) (f team0) grid0 ctx0 mem0
def gridW (f : Grid → Grid) : State := mk p0 (st0 v12) team0 (f grid0) ctx0 mem0
def pathW (p : RunPath) : State := mk p (st0 v12) team0 grid0 ctx0 mem0

/-- A path issues with an operand phase that passes. -/
def able (s : State) (p : RunPath) (srcs dsts : List Opd) (vals : NMap (List Word64)) : Prop :=
  issues s 0 p [] ∧ ready (begun s []) 0 p srcs dsts = some (p, begun s [], vals)
/-- The same of a strand with nothing in flight. -/
def fit (s : State) (p : RunPath) (srcs dsts : List Opd) (vals : NMap (List Word64)) : Prop :=
  able s p srcs dsts vals ∧ quiet (begun s []) 0 p

theorem quiet_of {s : State} {p : RunPath} (h : let st := s.str 0
    p.resume = none ∧ p.got = none ∧ p.taken = none ∧
    st.fl.loads = [] ∧ st.fl.stores = [] ∧ st.fl.fabs = [] ∧ (∀ x ∈ st.fl.posts, s.postDone 0 x.2 = true) ∧
    st.fl.soft = [] ∧ st.fl.hostBad = [] ∧ st.fl.hostLost = [] ∧ st.fl.fabFails = [] ∧ st.fl.gate = false ∧ s.heldPosts 0 = [] ∧
    st.waits = []) : quiet s 0 p := by
  obtain ⟨h1, h2, h3, h4, h5, h6, h7, h8, h9, h10, h11, h12, h13, h14⟩ := h
  exact ⟨h1, h2, h3, h4, h5, h6, h7, h8, h9, h10, h11, h12, h13, fun w hw => by rw [h14] at hw; cases hw⟩

theorem fit_of {s : State} {p : RunPath} {srcs dsts : List Opd} {vals : NMap (List Word64)} (h : able s p srcs dsts vals)
    (q : quiet (begun s []) 0 p) : fit s p srcs dsts vals := ⟨h, q⟩

/-! Witnesses: arithmetic. -/

/-- Every shape of operands of the forms of R137 and R177 passes its operand phase (IntegerArithmeticResults,
DivisionResultsAndTraps, BitAndImmediateResults, CompareResults, FloatResults). -/
theorem wit_shapes : able (s0 v12) p0 [(.v 1, 1), (.v 2, 1)] [(.v 3, 1)] [(0, [5, 2]), (1, [7, 3])] ∧
    able (s0 v12) p0 [(.v 1, 1)] [(.v 3, 1)] [(0, [5]), (1, [7])] ∧
    able (s0 v12) p0 [(.v 2, 2), (.v 4, 2)] [(.v 6, 2)] [(0, [2, 0]), (1, [3, 0])] ∧
    able (s0 v12) p0 [(.v 1, 1), (.v 2, 1)] [(.v 6, 2)] [(0, [5, 2]), (1, [7, 3])] ∧
    able (s0 v12) p0 [(.v 2, 2), (.v 1, 1)] [(.v 6, 2)] [(0, [2, 5]), (1, [3, 7])] ∧
    able (s0 v12) p0 [(.v 3, 1), (.v 1, 1), (.v 2, 1)] [(.v 3, 1)] [(0, [0, 5, 2]), (1, [0, 7, 3])] :=
  ⟨⟨⟨rfl, rfl⟩, rfl⟩, ⟨⟨rfl, rfl⟩, rfl⟩, ⟨⟨rfl, rfl⟩, rfl⟩, ⟨⟨rfl, rfl⟩, rfl⟩, ⟨⟨rfl, rfl⟩, rfl⟩, ⟨⟨rfl, rfl⟩, rfl⟩⟩

/-- The other shapes (CompareResults, ConversionResults, FourOperandAndConstantResults, CrossLaneResults). -/
theorem wit_shapes' : able (s0 v12) p0 [(.v 2, 2), (.v 4, 2)] [(.v 1, 1)] [(0, [2, 0]), (1, [3, 0])] ∧
    able (s0 v12) p0 [(.v 2, 1), (.v 1, 1)] [(.v 2, 1)] [(0, [2, 5]), (1, [3, 7])] ∧
    able (s0 v12) p0 [(.v 1, 1), (.v 2, 2)] [(.v 1, 1)] [(0, [5, 2]), (1, [7, 3])] ∧
    able (s0 v12) p0 [(.v 1, 1)] [(.v 4, 2)] [(0, [5]), (1, [7])] ∧
    able (s0 v12) p0 [(.v 1, 1), (.v 2, 1), (.v 3, 1)] [(.v 3, 1)] [(0, [5, 2, 0]), (1, [7, 3, 0])] ∧
    able (s0 v12) p0 [] [(.v 3, 1)] [(0, []), (1, [])] ∧ able (s0 v12) p0 [(.v 1, 1)] [(.v 1, 1)] [(0, [5]), (1, [7])] ∧
    lanesOk p0 :=
  ⟨⟨⟨rfl, rfl⟩, rfl⟩, ⟨⟨rfl, rfl⟩, rfl⟩, ⟨⟨rfl, rfl⟩, rfl⟩, ⟨⟨rfl, rfl⟩, rfl⟩, ⟨⟨rfl, rfl⟩, rfl⟩, ⟨⟨rfl, rfl⟩, rfl⟩,
    ⟨⟨rfl, rfl⟩, rfl⟩, by unfold lanesOk; decide⟩

/-- Shift counts and elements at the ends of their ranges (BitAndImmediateResults, ConversionResults). -/
theorem wit_fields : (31 : BitVec 10).toNat < 32 ∧ (0 : BitVec 10).toNat < 32 ∧ (1 : BitVec 2).toNat < 2 := by decide

/-- FloatValues, clause by clause: a NaN; a finite dividend over zero; zeros; infinities; a negative number; a code that is no NaN;
the greatest finite codes of FP16 and BF16. -/
theorem wit_FloatValues : nanF 0x7FC00000 ∧
    ((f32 0xBF800000).isNan = false ∧ (f32 0xBF800000).isInf = false ∧ (f32 0xBF800000).isZero = false ∧ (f32 0x80000000).isZero = true) ∧
    (f32 0).isZero = true ∧ (f32 0x7F800000).isInf = true ∧
    ((0x80000001 : Word).msb = true ∧ (f32 0x80000001).isZero = false ∧ (f32 0x80000001).isNan = false) ∧ ¬nanF 0xFF800000 ∧
    (0xFBFF < 2 ^ 16 ∧ (Fmt.f16.value 0xFBFF).isNan = false) ∧ (0xFF7F < 2 ^ 16 ∧ (Fmt.bf16.value 0xFF7F).isNan = false) := by
  unfold nanF; decide

/-- A strand with two ready threads at one PC and one that runs (PathsPartitionReadyThreads). -/
theorem wit_PathsPartitionReadyThreads :
    let st : Strand := { st0 [] with lanes := [(0, { loneThread with st := .ready }), (5, loneThread), (31, { loneThread with st := .ready })] }
    nsorted st.lanes = true ∧ (∀ x ∈ st.lanes, x.1 < 32) ∧ nget st.lanes 31 = some { loneThread with st := .ready } := by decide

/-- RegisterFormsFrame: a form whose destination discards its result, and a division with SSW.DZT clear. -/
theorem wit_RegisterFormsFrame : shape (.iadd .zero (.v 1) (.v 2)) = some ([(.v 1, 1), (.v 2, 1)], (.zero, 1)) ∧
    issues (s0 v12) 0 p0 [] ∧ lanesOk p0 ∧ midClause (s0 v12) 0 p0 ∧ ((s0 v12).coreOf 0).mx = [] ∧
    ((s0 v12).str 0).unread = [] ∧ ((s0 v12).str 0).softRegs = [] ∧
    (∀ x y z, Instr.iadd .zero (.v 1) (.v 2) ≠ .idivS32 x y z ∧ Instr.iadd .zero (.v 1) (.v 2) ≠ .idivN32 x y z ∧
      Instr.iadd .zero (.v 1) (.v 2) ≠ .iremS32 x y z ∧ Instr.iadd .zero (.v 1) (.v 2) ≠ .iremN32 x y z) ∧
    outside (s0 v12) 0 p0 [(.v 1, 1), (.v 2, 1), (.zero, 1)] = false ∧ popsOf [(.v 1, 1), (.v 2, 1)] = [] ∧
    pushOf [(.zero, 1)] = none := by
  refine ⟨rfl, ⟨rfl, rfl⟩, by unfold lanesOk; decide, by unfold midClause; decide, rfl, rfl, rfl, fun x y z => ⟨nofun, nofun, nofun, nofun⟩, rfl, rfl, rfl⟩

def noDzt : State := stW fun st => { st with csr := { dzt := false } }
theorem wit_RegisterFormsFrame_division : shape (.idivS32 (.v 63) (.v 1) (.v 2)) = some ([(.v 1, 1), (.v 2, 1)], (.v 63, 1)) ∧
    issues noDzt 0 p0 [] ∧ midClause noDzt 0 p0 ∧ (noDzt.coreOf 0).mx = [] ∧ (noDzt.str 0).csr.dzt = false ∧
    outside noDzt 0 p0 [(.v 1, 1), (.v 2, 1), (.v 63, 1)] = false ∧ Sel.isRun (.v 63) 1 = true :=
  ⟨rfl, ⟨rfl, rfl⟩, by unfold midClause; decide, rfl, rfl, rfl, rfl⟩

/-- OperandPhaseStops: register 128 of a frame of 128, in the lane whose window begins at 120; a port that is bound to nothing; a
port whose queue is empty. -/
def st120 : Strand → Strand := fun st => { st with lanes := [(0, loneThread), (1, { loneThread with wb := 120 })] }
def q4 (c0 c1 : Nat) : LiveQ := { base := 0x100, shape := 0x00080401, c0 := c0, c1 := c1, c2 := 0, c3 := 0, closed := false, engines := [] }
theorem wit_outside : outside (begun (stW st120) []) 0 p0 [(.v 1, 1), (.v 2, 1), (.v 8, 1)] = true ∧
    outside (begun (stW st120) []) 0 p0 [(.v 1, 1), (.v 2, 1), (.v 7, 1)] = false ∧ issues (stW st120) 0 p0 [] := ⟨rfl, rfl, rfl, rfl⟩

def qKind (shape : Nat) (c0 c1 : Nat) : LiveQ := ⟨0x100, shape, c0, c1, 0, 0, false, []⟩
/-- Port 0 of the strand bound to the queue at offset 64. -/
def portW (q : LiveQ) : State :=
  mk p0 { st0 v12 with ports := [(0, ⟨64, none⟩)] } { team0 with queues := [(64, q)] } grid0 ctx0 mem0
theorem wit_port_misuse : popsOf [(.q 0, 1), (.v 2, 1)] = [0] ∧
    outside (begun (s0 v12) []) 0 p0 [(.q 0, 1), (.v 2, 1), (.v 3, 1)] = false ∧
    ((s0 v12).str 0).softLanes p0.lanes [(.q 0, 1), (.v 2, 1)] = [] ∧
    (match (begun (s0 v12) []).portGate 0 p0.lanes [0] none with
      | .misuse port desc => (port, desc) = (0, 0)
      | _ => False) := ⟨rfl, rfl, rfl, rfl⟩
theorem wit_port_wait : (match (begun (portW (qKind 0x142 0 0)) []).portGate 0 p0.lanes [0] none with
      | .wait => True
      | _ => False) := trivial

/-- WordSequence: a word with another behind it, one before a switch marker with a load pending, the last word. -/
theorem wit_WordSequence : midClause (s0 v12) 0 p0 ∧
    (let p : RunPath := { p0 with hdr := 0xE2 }
     let s := stW fun st => { st with fl := { loads := [{ writes := [], on := .ready }] } }
     p.marked = true ∧ (s.str 0).switchHeld = true) ∧
    (let p : RunPath := { p0 with pos := 2 }
     p.count ≤ p.pos ∧ p.marked = false) := by unfold midClause; decide

/-- ClauseEndGoesOn, LoopStep: threads without a loop; loops that go back, run out, and end together. -/
theorem wit_ClauseEndGoesOn : nhas (s0 v12).strands 0 = true ∧ ((s0 v12).str 0).csr.sstep = false ∧
    (∀ l ∈ p0.lanes, (((s0 v12).str 0).th l).loops.head?.map (·.e) ≠ some p0.hdrAddr) := by decide
theorem wit_LoopStep : (⟨3, 0x100, 0x200⟩ : LoopEnt).count ≠ 1 ∧ (⟨0, 0x100, 0x200⟩ : LoopEnt).count ≠ 1 ∧
    (⟨3, 0x100, 0x200⟩ : LoopEnt).e ≠ 0x204 ∧ (⟨1, 0x100, 0x200⟩ : LoopEnt).count = 1 ∧
    (⟨2, 0x80, 0x200⟩ : LoopEnt).e = (⟨1, 0x100, 0x200⟩ : LoopEnt).e ∧ (⟨2, 0x80, 0x200⟩ : LoopEnt).count ≠ 1 := by decide

/-- TrapEntry: level 0 with a handler; S1 at level 1; a lane outside it; no handler table; S2 at level 2. -/
theorem wit_canEnter : canEnter (s0 v12) 0 [0, 1] 0x0F := by
  unfold canEnter; refine ⟨rfl, rfl, rfl, rfl, by decide, by decide, by decide, by decide, rfl⟩
def level (n : Nat) (s1 s2 : List Nat) (tb : Word64) : State :=
  mk p0 { st0 v12 with csr := { tlevel := n, s1 := s1, s2 := s2 } } team0 { grid0 with tbase := some tb } ctx0 mem0
theorem wit_TrapAtHigherLevels :
    (((level 1 [0] [] 0x20000).str 0).csr.tlevel = 1 ∧ ((level 1 [0] [] 0x20000).str 0).group 0 = 1 ∧
      ((level 1 [0] [] 0x20000).gridOf 0).tbase.getD 0 ≠ 0 ∧
      ((level 1 [0] [] 0x20000).target 0 (0x20000 + BitVec.ofNat 64 (128 * (0x03 / 16) + 4)) true).1 = .ok) ∧
    ((level 1 [0] [] 0x20000).str 0).group 1 = 0 ∧
    (((level 0 [] [] 0).str 0).csr.tlevel = 0 ∧ ((level 0 [] [] 0).gridOf 0).tbase.getD 0 = 0 ∧ ((level 0 [] [] 0).ctxOf 0).killed = false) ∧
    (((level 2 [0] [0] 0x20000).str 0).csr.tlevel = 2 ∧ ((level 2 [0] [0] 0x20000).str 0).group 0 = 2) :=
  ⟨⟨rfl, rfl, by decide, rfl⟩, rfl, ⟨rfl, rfl, rfl⟩, rfl, rfl⟩

/-- BranchesCallsReturns: v3 is 0 in lane 0 and 1 in lane 1; the pair v4:v5 holds the address of the clause. -/
def vBr : NMap Word := [(97, 1), (128, 0x20004), (129, 0x20004)]
theorem wit_BranchResults : able (s0 vBr) p0 [(.v 3, 1)] [] [(0, [0]), (1, [1])] ∧ lanesOk p0 ∧ brTo p0 0 = 0x20004 ∧
    (begun (s0 vBr) []).checkTargets 0 true [(0, 0x20004), (1, 0x20004)] =
      ([(0, 0x20004), (1, 0x20004)], [], ((begun (s0 vBr) []).checkTargets 0 true [(0, 0x20004), (1, 0x20004)]).2.2) ∧
    (begun (s0 vBr) []).checkTargets 0 true [(0, 0x20004)] =
      ([(0, 0x20004)], [], ((begun (s0 vBr) []).checkTargets 0 true [(0, 0x20004)]).2.2) :=
  ⟨⟨⟨rfl, rfl⟩, rfl⟩, by unfold lanesOk; decide, rfl, rfl, rfl⟩
theorem wit_CallJumpReturnResults : able (s0 vBr) p0 [(.v 4, 2)] [(.v 6, 2)] [(0, [0x20004]), (1, [0x20004])] ∧
    able (s0 vBr) p0 [(.v 4, 2)] [] [(0, [0x20004]), (1, [0x20004])] ∧ able (s0 vBr) p0 [] [(.v 6, 2)] [(0, []), (1, [])] ∧
    (begun (s0 vBr) []).checkTargets 0 false [(0, 0x20004), (1, 0x20004)] =
      ([(0, 0x20004), (1, 0x20004)], [], ((begun (s0 vBr) []).checkTargets 0 false [(0, 0x20004), (1, 0x20004)]).2.2) :=
  ⟨⟨⟨rfl, rfl⟩, rfl⟩, ⟨⟨rfl, rfl⟩, rfl⟩, ⟨⟨rfl, rfl⟩, rfl⟩, rfl⟩

/-- FailedTargetsTrap: a target that is no word, one beyond the address space, one that begins no quad, word 0 of a line. -/
theorem wit_FailedTargetsTrap : (0x20006 : Word64).toNat % 4 ≠ 0 ∧ 2 ^ 56 ≤ (0x100000000000000 : Word64).toNat ∧
    ((0x20008 : Word64).toNat % 128 ≠ 4 ∧ (0x20008 : Word64).toNat % 16 ≠ 0) ∧ (0x20080 : Word64).toNat % 128 = 0 := by decide
theorem wit_TransferLeavesClause : ([(0, (0x20004 : Word64))].map (·.1)).Nodup ∧ (∀ x ∈ [(0, (0x20004 : Word64))], x.1 ∈ p0.lanes) ∧
    (∀ l ∈ p0.lanes.filter (fun l => !([0] : List Nat).contains l), (((s0 v12).str 0).th l).loops.head?.map (·.e) ≠ some p0.hdrAddr) := by decide

/-- LoopResults: the body ends with the clause of the next line; an end that is no clause. LoopCompletes: lane 0's count is 0, lane 1's 1. -/
def loopS : State := mk p0 (st0 vBr) team0 grid0 ctx0 (mem0.writeN (tier2Base + 0x20080) (leBytes 4 0x0101 ++ leBytes 4 0x61))
theorem wit_LoopWord : issues loopS 0 p0 [] ∧ p0.hdrAddr + BitVec.ofNat 64 (4 * (32 : BitVec 14).toNat) = 0x20084 ∧
    (begun loopS []).clauseSucc 0 0x20084 = (.ok (some 0x20104), ((begun loopS []).clauseSucc 0 0x20084).2) ∧
    ready ((begun loopS []).clauseSucc 0 0x20084).2 0 p0 [(.v 3, 1)] [] =
      some (p0, ((begun loopS []).clauseSucc 0 0x20084).2, [(0, [0]), (1, [1])]) ∧
    (∀ l ∈ p0.lanes, ((((begun loopS []).clauseSucc 0 0x20084).2.str 0).th l).loops.length < 2) ∧
    (begun loopS []).clauseSucc 0 0x20088 = (.ok none, ((begun loopS []).clauseSucc 0 0x20088).2) :=
  ⟨⟨rfl, rfl⟩, rfl, rfl, rfl, by decide, rfl⟩
theorem wit_LoopCompletes : lanesOk p0 ∧ midClause loopS 0 p0 ∧
    ((begun loopS []).clauseSucc 0 (p0.hdrAddr + BitVec.ofNat 64 (4 * (32 : BitVec 14).toNat))).1 = .ok (some 0x20104) ∧
    outside loopS 0 p0 [(.v 3, 1)] = false ∧ popsOf [(.v 3, 1)] = [] ∧ (loopS.str 0).softRegs = [] ∧
    (∀ l ∈ p0.lanes, ((loopS.str 0).th l).loops.length < 2) ∧ nhas (loopS.str 0).lanes 1 = true ∧ (loopS.coreOf 0).mx = [] ∧
    (loopS.str 0).unread = [] ∧ (loopS.str 0).loc 1 (.v 3) 0 = some ⟨1, 3, 1⟩ ∧ (loopS.str 0).pendingFor ⟨1, 3, 1⟩ = [] :=
  ⟨by unfold lanesOk; decide, by unfold midClause; decide, rfl, rfl, rfl, rfl, by decide, rfl, rfl, rfl, rfl, rfl⟩

/-- PlainWordsAndTraps: `brk` enters the handler of class 9. -/
def brkW : State := mk p0 (st0 v12) team0 { grid0 with tbase := some 0x1FB80 } ctx0 mem0
theorem wit_TrapOnRequest : issues brkW 0 p0 [] ∧ canEnter (begun brkW []) 0 p0.lanes 0x90 ∧ canEnter (begun (s0 v12) []) 0 p0.lanes 0x0F := by
  refine ⟨⟨rfl, rfl⟩, ?_, ?_⟩ <;> unfold canEnter <;> refine ⟨rfl, rfl, rfl, rfl, by decide, by decide, by decide, by decide, rfl⟩

/-- ExitAndReconverge: a third lane stays behind. -/
def st3 : Strand → Strand := fun st => { st with lanes := [(0, loneThread), (1, loneThread), (2, loneThread)] }
theorem wit_ExitAndReconverge : issues (stW st3) 0 p0 [] ∧ ((stW st3).str 0).csr.tlevel = 0 ∧
    (2 ∉ p0.lanes ∧ nget ((stW st3).str 0).lanes 2 = some loneThread ∧ loneThread.live = true) ∧ nsorted ((stW st3).str 0).lanes = true ∧
    p0.resume = none ∧ ({ p0 with resume := some .released } : RunPath).resume = some .released := by
  refine ⟨⟨rfl, rfl⟩, rfl, ⟨by decide, rfl, rfl⟩, rfl, rfl, rfl⟩

/-- ReformAndSpawn: `reform` with live map 0, which keeps v1; `spawn` with one argument. -/
def reformW : State := gridW fun g => { g with kd := { kd0 with liveMaps := [(0, [1])] } }
theorem wit_ReformResults : issues reformW 0 p0 [] ∧ p0.resume = none ∧ (reformW.str 0).fl.stores = [] ∧ (reformW.str 0).hostAtoms = false ∧
    (reformW.str 0).unread = [] ∧ (reformW.str 0).group (lowest p0.lanes) = 0 ∧ (reformW.str 0).frames.length ≤ 1 ∧
    (reformW.str 0).ports = [] ∧ (reformW.str 0).pending = false ∧ (reformW.coreOf 0).mx = [] ∧ (reformW.coreOf 0).cp = [] ∧
    (((begun reformW []).modStr 0 fun st => { st with reformed := true }).fileSome 0 true 0 (p0.lanes.map fun l =>
      filed p0.nxt ((reformW.str 0).th l) l ([1].map fun r => (r, (reformW.str 0).frame.cell r l)))).1 = [] :=
  ⟨⟨rfl, rfl⟩, rfl, rfl, rfl, rfl, rfl, by decide, rfl, rfl, rfl, rfl, rfl⟩
theorem wit_SpawnResults : able (s0 vBr) p0 [(.v 4, 2), (.v 3, 1)] [] [(0, [0x20004, 0]), (1, [0x20004, 1])] ∧ p0.lanes ≠ [] ∧
    (let t := ((begun (s0 vBr) []).checkTargets 0 true [(0, 0x20004), (1, 0x20004)]).2.2
     (t.fileSome 0 false t.cycle (p0.lanes.map fun l =>
       spawned 0x20004 l ((t.srcRun 0 l (.v 3) 1 8 ++ List.replicate 8 0).take 8))).1 = []) :=
  ⟨⟨⟨rfl, rfl⟩, rfl⟩, by decide, by decide +kernel⟩
/-- FilingJoinsBin: a bin with one thread. -/
def bin1 : Bin := ⟨0, 0, 0x20084, [filed 0x20084 loneThread 0 []], { loneFrame 7 with fill := some 7 }, 0, false, none⟩
def binW : State := { s0 v12 with cores := [(0, { bins := [(3, bin1)] })] }
theorem wit_FilingJoinsBin : (binW.team (binW.str 0).team).saving = false ∧ nget (binW.core (binW.str 0).core).bins 3 = some bin1 ∧
    (∀ y ∈ (binW.core (binW.str 0).core).bins, y.2.team = bin1.team → y.2.role = bin1.role → y.2.pc = bin1.pc → y = (3, bin1)) ∧
    bin1.team = (binW.str 0).team ∧ bin1.role = (binW.str 0).role ∧ bin1.pc = (filed 0x20084 loneThread 1 [(1, 7)]).key ∧
    bin1.threads.length < 32 ∧ nget (filed 0x20084 loneThread 1 [(1, 7)]).regs 1 = some 7 := by decide

/-- ScopeResults: room for a frame of 64 beside one of 64; a second frame to close; the last window base, and the first beyond. -/
def frame64 : State := stW fun st => { st with frames := [{ loneFrame 1 with size := 64 }] }
theorem wit_scope_open : issues frame64 0 p0 [] ∧ (frame64.str 0).group (lowest p0.lanes) = 0 ∧ (frame64.str 0).waits = [] ∧ lanesOk p0 ∧ p0.resume = none ∧
    ((frame64.str 0).scopeLanes.all fun l => p0.lanes.contains l) = true ∧
    ((frame64.str 0).frames.map (·.size)).sum + (64 : BitVec 21).toNat ≤ ((frame64.gridOf 0).kd.role (frame64.str 0).role).budget ∧
    (frame64.str 0).frames.length < 16 ∧ (∀ x ∈ frame64.openRequests (frame64.str 0).core (frame64.str 0).part, frame64.cycle ≤ x) ∧
    (begun frame64 []).findBlock (frame64.str 0).core (frame64.str 0).part 64 = some 8 := by
  refine ⟨⟨rfl, rfl⟩, rfl, rfl, by unfold lanesOk; decide, rfl, rfl, by decide, by decide, by decide, rfl⟩
def frames2 : State := stW fun st => { st with frames := [{ loneFrame 2 with wbs := [(0, 8), (1, 16)] }, loneFrame 1] }
theorem wit_scope_close : issues frames2 0 p0 [] ∧ (frames2.str 0).group (lowest p0.lanes) = 0 ∧ (frames2.str 0).waits = [] ∧
    ((frames2.str 0).scopeLanes.all fun l => p0.lanes.contains l) = true ∧ 1 < (frames2.str 0).frames.length ∧
    frames2.frameNamed (frames2.str 0).core (frames2.str 0).frame.uid = false := ⟨⟨rfl, rfl⟩, rfl, rfl, rfl, by decide, rfl⟩
theorem wit_wbase_safept : 8 * (15 : BitVec 21).toNat < ((s0 v12).str 0).frameSize ∧ ((s0 v12).str 0).frameSize ≤ 8 * (16 : BitVec 21).toNat ∧
    ((s0 v12).str 0).stopping = false := by decide

/-! Witnesses: steps. -/

/-- StepRunsDecodedWord, StepElsewhere: a path whose turn has come, at a word that decodes, at one of a reserved major, at one of no
form; an event and a word that have their turn; an event among the inputs when a clock begins. -/
def runW (w : Word) : Run := ⟨0, { p0 with words := [w, 0] }⟩
def wordW (w : Word) : State := { pathW { p0 with words := [w, 0] } with round := [.run (runW w)] }
theorem wit_chosen : chosen (wordW 0) (runW 0) ∧ decodeWord (wordAtHand (runW 0).path) = .ok .nop :=
  ⟨⟨rfl, rfl, rfl, rfl, rfl, fun _ => rfl⟩, rfl⟩
theorem wit_illegal : chosen (wordW 0xE0000000) (runW 0xE0000000) ∧
    decodeWord (wordAtHand (runW 0xE0000000).path) = .error .reservedMajor ∧ chosen (wordW 0x0FE00000) (runW 0x0FE00000) ∧
    decodeWord (wordAtHand (runW 0x0FE00000).path) = .error .unassigned :=
  ⟨⟨rfl, rfl, rfl, rfl, rfl, fun _ => rfl⟩, rfl, ⟨rfl, rfl, rfl, rfl, rfl, fun _ => rfl⟩, rfl⟩
def eventW (i : Instr) : State := { s0 [] with round := [.event i []] }
theorem wit_input : turnOf (eventW .kickdropRead) = some (.event .kickdropRead []) ∧ Instr.kickdropRead.isWord = false ∧
    turnOf (eventW .nop) = some (.event .nop []) ∧ Instr.nop.isWord = true ∧ (s0 []).round = [] ∧
    { s0 [] with inputs := [(.kickdropRead, [])] }.inputs = (.kickdropRead, []) :: [] ∧ Instr.kickdropRead ≠ .coreHot ∧ 
    Instr.kickdropRead ≠ .coreThrottle :=
  ⟨rfl, rfl, rfl, rfl, rfl, rfl, nofun, nofun⟩
/-- ClockPasses: a strand that runs, one of a halted context, a slot. -/
def haltedW : State := mk p0 (st0 v12) team0 grid0 { ctx0 with dbg := { halted := true } } mem0
theorem wit_ClockPasses : (wordW 0).round ≠ [] ∧ (s0 v12).round = [] ∧ nget (s0 v12).strands 0 = some (st0 v12) ∧ (s0 v12).haltedStrand 0 = false ∧ haltedW.haltedStrand 0 = true ∧
    nget ({ slots := [(0, { queue := 5, st := .active, used := 0, sliceEnergy := 0, lastActive := 0, capped := false })] } : Sched).slots 0 =
      some { queue := 5, st := .active, used := 0, sliceEnergy := 0, lastActive := 0, capped := false } := ⟨nofun, rfl, rfl, rfl, rfl, rfl⟩

/-- A store on its way. -/
def inFlight : PendStore := { cells := [(0x80000100, 7)], rmws := [], scope := 0, release := false, use := 0, host := false, parts := [],
                              vaddr := [], ctl := false, issued := 0 }

/-! Witnesses: memory. -/

/-- v2:v3 is address 0x20000 in lane 0 and 0x20010 in lane 1, v4 team offsets 0 and 16, v6:v7 an operand. -/
def vMem : NMap Word := [(64, 0x20000), (65, 0x20010), (129, 16), (192, 9), (193, 8)]
/-- LoadForms, StoreForms, AtomicForms: a load, a store and an atomic pass their operand phases, in memory and in the team window. -/
theorem wit_loads : fit (s0 vMem) p0 [(.v 2, 2)] [(.v 1, 1)] [(0, [0x20000]), (1, [0x20010])] ∧
    fit (s0 vMem) p0 [(.v 4, 1)] [(.v 8, 4)] [(0, [0]), (1, [16])] ∧ roomy (begun (s0 vMem) []) 0 p0 1 :=
  ⟨fit_of ⟨⟨rfl, rfl⟩, rfl⟩ (quiet_of (by decide)),
   fit_of ⟨⟨rfl, rfl⟩, rfl⟩ (quiet_of (by decide)), by unfold roomy; decide⟩
theorem wit_stores : fit (s0 vMem) p0 [(.v 4, 1), (.v 6, 1)] [] [(0, [0, 9]), (1, [16, 8])] ∧
    failsOf (accesses (begun (s0 vMem) []) 0 p0 .st .team [(0, [0, 9]), (1, [16, 8])] 0 4 4) = [] :=
  ⟨fit_of ⟨⟨rfl, rfl⟩, rfl⟩ (quiet_of (by decide)), rfl⟩
/-- A strand whose path waits, with the arguments of the event that goes on. -/
def waiting (w : Wait) : State := { stW fun st => { st with waits := [⟨p0, w⟩] } with args := [0, 0], runs := [] }
theorem wit_BlockLoad : fit (s0 vMem) p0 [(.v 4, 1)] [(.v 8, 32)] [(0, [0]), (1, [16])] ∧
    roomy (begun (s0 vMem) []) 0 p0 ((31 : BitVec 5).toNat + 1) ∧ p0.lanes ≠ [] ∧
    (let as := accesses (begun (s0 vMem) []) 0 p0 .ld .team [(0, [0]), (1, [16])] 0 128 4
     failsOf as = []) ∧
    (let s := waiting (.words (.v 8) [3] [(0, tier2Base, [(tier2Base, 128)])] [] [] [])
     s.args = [0, 0] ∧ s.haltedStrand 0 = false ∧
      (s.str 0).waits[0]? = some ⟨p0, .words (.v 8) [3] [(0, tier2Base, [(tier2Base, 128)])] [] [] []⟩ ∧ [3] ≠ ([] : List Nat)) :=
  ⟨fit_of ⟨⟨rfl, rfl⟩, rfl⟩ (quiet_of (by decide)), by unfold roomy; decide, nofun, by decide +kernel, rfl, rfl, rfl, nofun⟩
/-- BlockStoreWords: two lanes with two words each; the second word of both. -/
theorem wit_BlockStoreWords : let as := accesses (begun (s0 vMem) []) 0 p0 .st .team [(0, [0]), (1, [16])] 0 8 4
    ((blkStores (as.map fun x => (x, leBytes 8 0x0807060504030201)) inFlight)[1]?).map (fun y => y.cells.length) = some 8 ∧
    (∃ z ∈ as.map fun x => (x, leBytes 8 0x0807060504030201), 4 * 1 + 4 ≤ z.2.length) := by decide +kernel
theorem wit_atomics : fit (s0 vMem) p0 (atomSrcs 0 (.v 8) (.v 2) (.v 6) .virt) [(.v 8, rmwRegs 0)] [(0, [0x20000, 9]), (1, [0x20010, 8])] ∧
    fit (s0 vMem) p0 (atomSrcs 11 (.v 8) (.v 4) (.v 6) .team) [(.v 8, rmwRegs 11)] [(0, [0, 9, 0]), (1, [16, 8, 0])] ∧
    (∀ x ∈ goodOf (accesses (begun (s0 vMem) []) 0 p0 .atom .virt [(0, [0x20000, 9]), (1, [0x20010, 8])] 0 4 4),
      x.inRegion .host = false) ∧
    (Sel.v 8 ≠ .zero ∧ ({ p0 with pfx := some ⟨3, 1, 0, 0⟩ } : RunPath).order = 1 ∧ p0.order = 0 ∧
      ({ p0 with pfx := some ⟨3, 3, 0, 0⟩ } : RunPath).order = 3 ∧ ({ p0 with pfx := some ⟨3, 2, 0, 0⟩ } : RunPath).order = 2) :=
  ⟨fit_of ⟨⟨rfl, rfl⟩, rfl⟩ (quiet_of (by decide)),
   fit_of ⟨⟨rfl, rfl⟩, rfl⟩ (quiet_of (by decide)), by decide +kernel, by decide⟩

/-- AtomicForms on host memory: address 0x40000000 is mapped to it for lane 0; the link is up, and is not. -/
def vHost : NMap Word := [(64, 0x40000000), (65, 0x20010), (192, 9), (193, 8)]
def hostMem : Memory := mem0.writeN (tier2Base + 0x12008) (leBytes 8 (2 ^ 55 + 0xF))
def atHost (up : Bool) : State :=
  { mk p0 (st0 vHost) team0 grid0 ctx0 hostMem with host := { up := up, atomok := true, atomEn := true } }
theorem wit_hostAtomics : ∀ up ∈ [true, false],
    issues (atHost up) 0 p0 [] ∧
    ready (begun (atHost up) []) 0 p0 (atomSrcs 0 (.v 8) (.v 2) (.v 6) .virt) [(.v 8, rmwRegs 0)] =
      some (p0, begun (atHost up) [], [(0, [0x40000000, 9]), (1, [0x20010, 8])]) ∧
    (let as := (accesses (begun (atHost up) []) 0 p0 .atom .virt [(0, [0x40000000, 9]), (1, [0x20010, 8])] 0 4 4).map
      (hostAllowed (begun (atHost up) []) 0)
     failsOf as = [] ∧ ((goodOf as).filter (·.inRegion .host)).map (·.lane) = [0]) ∧
    (begun (atHost up) []).host.up = up := by
  intro up h
  obtain rfl | rfl : up = true ∨ up = false := by cases up <;> simp
  all_goals exact ⟨⟨rfl, rfl⟩, rfl, by decide +kernel, rfl⟩
theorem wit_hostAtomics_quiet : quiet (begun (atHost true) []) 0 p0 ∧ quiet (begun (atHost false) []) 0 p0 ∧
    roomy (begun (atHost true) []) 0 p0 1 ∧ roomy (begun (atHost false) []) 0 p0 1 :=
  ⟨quiet_of (by decide), quiet_of (by decide), by unfold roomy; decide, by unfold roomy; decide⟩

/-- HostAtomicsComplete: a request outstanding, its completion of each status, and a wait for none. -/
def rmw0 : Rmw := { op := 0, addr := 2 ^ 55, b := 9, x := 0, lane := 0, va := 0x40000000 }
def reqW (status : Nat) : State :=
  { waiting (.host 0 (.v 8) [rmw0] [] []) with args := [0, status], host := { up := true, reqs := [⟨0, 0, rmw0, 0⟩] } }
theorem wit_HostAtomicsComplete : (∀ k ∈ [0, 1, 2], (reqW k).args = [0, k] ∧ (reqW k).host.up = true ∧
      (reqW k).host.reqs[0]? = some ⟨0, 0, rmw0, 0⟩) ∧
    ((waiting (.host 0 (.v 8) [] [(0, 5)] [(1, 0xB0, 0, 7)])).args = [0, 0] ∧
      (waiting (.host 0 (.v 8) [] [(0, 5)] [(1, 0xB0, 0, 7)])).haltedStrand 0 = false ∧
      ((waiting (.host 0 (.v 8) [] [(0, 5)] [(1, 0xB0, 0, 7)])).str 0).waits[0]? =
        some ⟨p0, .host 0 (.v 8) [] [(0, 5)] [(1, 0xB0, 0, 7)]⟩) := ⟨by decide, rfl, rfl, rfl⟩

/-- WindowsMap: the last bytes of a column, and of the scratchpad of a cluster's one team. -/
theorem wit_WindowsMap : 0 < 4 ∧ ((s0 []).grid ((s0 []).team 0).grid).kd.spSize ≤ 0x600000 ∧
    ((s0 []).grid ((s0 []).team 0).grid).kd.csHi ≤ 0x4000 ∧ [(1 : Byte), 2, 3, 4].length = 4 ∧ 127 < 128 ∧ 0x3FFC + 4 ≤ 0x4000 ∧
    ((s0 []).team 0).cluster[0]? = some 0 ∧ 4092 + 4 ≤ ((s0 []).grid ((s0 []).team 0).grid).kd.spSize := by decide

/-- AccessAndScratchpad, where its clauses meet: the end of the address space, an odd address, the end of a scratchpad of 4,096
bytes, of a cluster's window, of a stack of 64. -/
def stackW : State := gridW fun g => { g with kd := { kd0 with stack := 64 } }
theorem wit_AccessChecks : 2 ^ 56 ≤ ((0x0FFFFFFFFFFFFFC : Word64) + BitVec.ofInt 64 0x1000000000000004).toNat ∧
    (((0x0FFFFFFFFFFFFFE : Word64) + BitVec.ofInt 64 0).toNat < 2 ^ 56 ∧ ((0x0FFFFFFFFFFFFFE : Word64) + BitVec.ofInt 64 0).toNat % 4 ≠ 0) ∧
    ((0x20004 : Word64) + BitVec.ofInt 64 (-4)).toNat % 4 = 0 ∧
    stackW.windowRange (stackW.str 0).team 1 4096 4 = false ∧ stackW.windowRange (stackW.str 0).team 1 4093 4 = false ∧
    stackW.windowRange (stackW.str 0).team 1 4092 4 = true ∧ (stackW.windowRange (stackW.str 0).team 1 4090 4 = true ∧ 4090 % 4 ≠ 0) ∧
    stackW.windowRange (stackW.str 0).team 2 0x800000 4 = false ∧ stackW.windowRange (stackW.str 0).team 2 4092 4 = true ∧
    (stackW.windowRange (stackW.str 0).team 2 4090 4 = true ∧ 4090 % 4 ≠ 0) ∧
    (stackW.gridOf 0).kd.stack < 61 + 4 ∧ (58 + 4 ≤ (stackW.gridOf 0).kd.stack ∧ 58 % 4 ≠ 0) :=
  ⟨by decide, by decide, by decide, rfl, rfl, rfl, ⟨rfl, by decide⟩, rfl, rfl, ⟨rfl, by decide⟩, by decide, by decide⟩
theorem wit_ScratchpadAccess : 0 < 4 ∧ 4092 + 4 ≤ ((s0 []).gridOf 0).kd.spSize ∧ ((s0 []).gridOf 0).kd.spSize ≤ 0x600000 ∧
    ((4092 : Word64).setWidth 32 + BitVec.ofInt 32 0).toNat % 4 = 0 ∧ ((s0 []).str 0).fl.stores = [] ∧
    ((s0 []).teamOf 0).spBase + 4092 + 4 ≤ 0x80000000 ∧ (∀ k < 4, (s0 []).liveByte (((s0 []).teamOf 0).spBase + 4092 + k) = false) := by decide

/-- AtomicTouchesItsBytes, MemoryReadsBack. -/
theorem wit_AtomicTouchesItsBytes : (∀ k < 8, (s0 []).liveByte (0x80000100 + k) = false ∧ regionOf (0x80000100 + k) ≠ .control) ∧
    (∀ c ∈ (s0 []).cores, c.2.mx = []) ∧ (s0 []).mem.wf = true := ⟨by decide, by decide, rfl⟩
theorem wit_MemoryReadsBack : (s0 []).mem.wf = true ∧ State.reset.mem.wf = true ∧ (5 : Nat) ≠ 4 ∧
    (∀ x ∈ [((4 : Nat), (9 : Byte))], x.1 ≠ 5) ∧ (3 < 4 ∨ 4 + [(9 : Byte)].length ≤ 3) ∧ (5 < 4 ∨ 4 + [(9 : Byte)].length ≤ 5) := by decide +kernel

/-- ResultsLandAndStoresPerform: a result, a store, a quantum atomic one cycle before and at its deadline. -/
def landing (args : List Nat) (fl : Flight) (cycle : Nat) : State :=
  { stW fun st => { st with fl := fl } with args := args, cycle := cycle }
theorem wit_ResultsLand : (landing [0, 0] { loads := [{ writes := [], on := .ready, acq := some 3 }] } 0).args = [0, 0] ∧
    nhas (landing [0, 0] { loads := [{ writes := [], on := .ready, acq := some 3 }] } 0).strands 0 = true ∧
    ((landing [0, 0] { loads := [{ writes := [], on := .ready, acq := some 3 }] } 0).str 0).fl.loads[0]? =
      some { writes := [], on := .ready, acq := some 3 } := ⟨rfl, rfl, rfl⟩
theorem wit_StoresPerform : ((landing [0, 0, 0] { stores := [inFlight] } 0).str 0).fl.stores[0]? = some inFlight ∧
    ((landing [0, 0, 0] { stores := [inFlight] } 0).str 0).storeFree 0 inFlight = true ∧ inFlight.rmws = [] ∧ inFlight.host = false ∧
    (∀ c ∈ inFlight.cells, (landing [0, 0, 0] { stores := [inFlight] } 0).liveByte c.1 = false ∧ regionOf c.1 ≠ .control) ∧
    (∀ c ∈ (landing [0, 0, 0] { stores := [inFlight] } 0).cores, c.2.mx = []) := by decide
theorem wit_Quantum : ((landing [0, 0] { stores := [{ inFlight with use := 3 }] } 4096).str 0).fl.stores[0]? = some { inFlight with use := 3 } ∧
    ({ inFlight with use := 3 } : PendStore).issued + 4096 ≤ (landing [0, 0] {} 4096).cycle ∧
    ((landing [0, 0] { stores := [{ inFlight with use := 3 }] } 4096).str 0).storeFree 0 { inFlight with use := 3 } = true ∧
    (∀ j, ((landing [0, 0] { stores := [{ inFlight with use := 3 }] } 4096).str 0).fl.stores[j]? = some { inFlight with use := 3 } → j = 0) ∧
    (landing [0, 0] {} 4095).cycle < ({ inFlight with use := 3 } : PendStore).issued + 4096 := by
  refine ⟨by decide, by decide, by decide, ?_, by decide⟩
  intro j h
  match j with
  | 0 => rfl
  | j + 1 => cases h

/-! Witnesses: synchronisation and queues. -/

def quiet0 (s : State) (p : RunPath) : Prop := issues s 0 p [] ∧ quiet (begun s []) 0 p
/-- Barrier 3 of the team. -/
def barW (b : Barrier) : State := teamW fun t => { t with bars := [(3, b)] }
theorem wit_BarrierForms : quiet0 (barW {}) p0 ∧
    (15 < ((barW {}).gridOf 0).kd.nbar ∧ (barOf (barW {}) 0 15).arrived = 0) ∧ ((barW {}).gridOf 0).kd.nbar ≤ 16 ∧
    0 < (barOf (barW ⟨true, 4, 1, 0⟩) 0 3).arrived ∧ ¬usable (barW {}) 0 3 ∧
    (usable (barW ⟨true, 2, 1, 0⟩) 0 3 ∧ (barOf (barW ⟨true, 2, 1, 0⟩) 0 3).expect < (barOf (barW ⟨true, 2, 1, 0⟩) 0 3).arrived + p0.lanes.length) ∧
    (usable (barW ⟨true, 2, 0, 65535⟩) 0 3 ∧ nhas (barW ⟨true, 2, 0, 65535⟩).teams 0 = true ∧
      (barOf (barW ⟨true, 2, 0, 65535⟩) 0 3).arrived + p0.lanes.length = (barOf (barW ⟨true, 2, 0, 65535⟩) 0 3).expect) ∧
    (usable (barW ⟨true, 4, 0, 0⟩) 0 3 ∧
      (barOf (barW ⟨true, 4, 0, 0⟩) 0 3).arrived + p0.lanes.length < (barOf (barW ⟨true, 4, 0, 0⟩) 0 3).expect) := by
  refine ⟨⟨⟨rfl, rfl⟩, quiet_of (by decide)⟩, ?_⟩
  unfold usable; decide
theorem wit_barSync : ∀ l ∈ p0.lanes, nhas ((barW ⟨true, 2, 0, 65535⟩).str 0).lanes l = true ∧
    (((barW ⟨true, 2, 0, 65535⟩).str 0).th l).resumeWait = false := by decide
/-- `bar.wait`: threads that arrived in an earlier phase, and threads that did not arrive; one that resumes. -/
theorem wit_barWait :
    let s := mk p0 { st0 v12 with lanes := [(0, { loneThread with arrival := some (3, 7) }), (1, { loneThread with arrival := some (3, 7) })] }
      { team0 with bars := [(3, ⟨true, 2, 0, 8⟩)] } grid0 ctx0 mem0
    (∀ l ∈ p0.lanes, ((s.str 0).th l).arrival = some (3, 7) ∧ 7 ≠ (barOf s 0 3).phase) ∧
    (∃ l ∈ p0.lanes, (((barW ⟨true, 2, 0, 8⟩).str 0).th l).arrival = none) ∧
    (∃ m ph ts, ({ p0 with resume := some (.bar 3 [8] [(0, 8)]) } : RunPath).resume = some (.bar m ph ts)) :=
  ⟨by decide, ⟨0, by decide, rfl⟩, ⟨3, _, _, rfl⟩⟩

/-- FenceWaitMask: nothing in flight; a store to wait for; masks that hold and do not. -/
def storing : State := stW fun st => { st with fl := { stores := [inFlight] } }
theorem wit_FenceWaitMask : quiet0 (s0 v12) p0 ∧ (∃ x ∈ (storing.str 0).fl.stores, x.use ≠ 2) ∧
    ((∀ r ∈ (begun (s0 v12) []).runs, r.strand = 0 → ∀ w, r.path.resume = some w → w.owes = false) ∧ ((s0 v12).str 0).waits = []) ∧ (∀ w ∈ ((s0 v12).str 0).waits, w.on.owes = false) ∧ (begun (s0 v12) []).maskHolds 0 0x7F = true ∧
    (let s := stW fun st => { st with ports := [(0, ⟨0, some [1]⟩)] }
     quiet0 s p0 ∧ (begun s []).maskHolds 0 0x40 = false) := by
  refine ⟨⟨⟨rfl, rfl⟩, quiet_of (by decide)⟩, ⟨inFlight, by decide, by decide⟩, ⟨?_, rfl⟩, by decide, by decide,
    ⟨⟨rfl, rfl⟩, quiet_of (by decide)⟩, by decide⟩
  intro r hr
  exact absurd hr List.not_mem_nil

/-- TicketForms: ticket 2 shows the team, another team, another team's poison. -/
def tktW (k : Ticket) : State := gridW fun g => { g with tickets := [(2, k)] }
theorem wit_TicketForms : quiet0 (tktW {}) p0 ∧ nhas (tktW {}).grids ((tktW {}).teamOf 0).grid = true ∧
    (ticketOf (tktW {}) 0 2).value = ((tktW {}).teamOf 0).teamid ∧
    ((ticketOf (tktW ⟨1, false, false⟩) 0 2).value ≠ ((tktW ⟨1, false, false⟩).teamOf 0).teamid ∧
      (ticketOf (tktW ⟨1, false, false⟩) 0 2).effect = false) ∧
    ((ticketOf (tktW ⟨1, true, true⟩) 0 2).value ≠ ((tktW ⟨1, true, true⟩).teamOf 0).teamid ∧
      (ticketOf (tktW ⟨1, true, true⟩) 0 2).effect = true) :=
  ⟨⟨⟨rfl, rfl⟩, quiet_of (by decide)⟩, by decide⟩

/-- QueueForms: a descriptor in the scratchpad that `q.bind` loads, one that is live; slots free, all taken, filled, none filled;
a port without a queue. -/
def descMem : Memory := mem0.writeN 64 (leBytes 4 0x100 ++ leBytes 4 0x314 ++ leBytes 24 0)
def bindW : State := mk p0 (st0 [(32, 64), (33, 64)]) team0 grid0 ctx0 descMem
theorem wit_bind : fit bindW p0 [(.v 1, 1)] [] [(0, [64]), (1, [64])] ∧
    (low32 p0 [(0, [64]), (1, [64])] 0 % 32 = 0 ∧ 64 + 32 ≤ (bindW.gridOf 0).kd.spSize ∧ nhas (bindW.str 0).ports 7 = false ∧
      nget (bindW.teamOf 0).queues 64 = none ∧ (bindW.teamOf 0).queues.length < 16 ∧ (bindW.gridOf 0).kd.spSize ≤ 0x600000 ∧
      validDescriptor (bindW.gridOf 0).kd.spSize (bindW.mem.readN ((bindW.teamOf 0).spBase + 64) 32) = true) :=
  ⟨fit_of ⟨⟨rfl, rfl⟩, rfl⟩ (quiet_of (by decide)), by decide +kernel⟩
def slots (c0 c1 c2 c3 : Nat) : LiveQ := ⟨0x100, 0x314, c0, c1, c2, c3, false, []⟩
def boundW (q : LiveQ) : State := mk p0 { st0 [(32, 64), (33, 64)] with ports := [(0, ⟨64, none⟩)] } { team0 with queues := [(64, q)] } grid0 ctx0 mem0
theorem wit_QueueForms : nhas ((boundW (slots 0 0 0 0)).teamOf 0).queues 64 = true ∧
    nget ((boundW (slots 0 0 0 0)).str 0).ports 0 = some ⟨64, none⟩ ∧
    bound (begun (boundW (slots 1 0 0 0)) []) 0 0 64 (slots 1 0 0 0) ∧
    ((slots 1 0 0 0).kind = 3 ∧ (slots 1 0 0 0).closed = false ∧ ahead 1 0 < (slots 1 0 0 0).count) ∧
    (slots 0 0 0 0xFFFFFFFE).count ≤ ahead 0 0xFFFFFFFE ∧ (slots 1 1 0 0).c1 ≠ (slots 1 1 0 0).c2 ∧
    (slots 1 1 1 0).c1 = (slots 1 1 1 0).c2 ∧ (slots 1 0 0 0).c1 ≠ (slots 1 0 0 0).c0 ∧ (slots 1 1 1 0).c3 ≠ (slots 1 1 1 0).c2 ∧
    nget ((s0 v12).str 0).ports 0 = none :=
  ⟨rfl, rfl, ⟨⟨none, rfl⟩, rfl⟩, by decide, by decide, by decide, by decide, by decide, by decide, rfl⟩
theorem wit_bound : quiet0 (boundW (slots 1 1 0 0)) p0 ∧ fit (boundW (slots 1 1 0 0)) p0 [] [(.v 3, 1)] [(0, []), (1, [])] ∧
    fit (boundW (slots 1 1 0 0)) p0 [(.v 1, 1)] [] [(0, [64]), (1, [64])] ∧ nhas ((boundW (slots 1 1 0 0)).str 0).ports 1 = false :=
  ⟨⟨⟨rfl, rfl⟩, (quiet_of (by decide))⟩,
   fit_of ⟨⟨rfl, rfl⟩, rfl⟩ (quiet_of (by decide)),
   fit_of ⟨⟨rfl, rfl⟩, rfl⟩ (quiet_of (by decide)), rfl⟩
theorem wit_settleQueue : (boundW (slots 1 1 0 0)).queueUsed 0 64 = true ∧
    (teamW fun t => { t with queues := [(64, slots 1 1 0 0)] }).queueUsed 0 64 = false := ⟨rfl, rfl⟩

/-- QueuePortsMove: queues of the kinds; a full latch that waits for its write. -/
def latchW : State :=
  { mk p0 { st0 v12 with ports := [(0, ⟨64, some (List.replicate 32 5)⟩)] } { team0 with queues := [(64, qKind 0x027 0 0)] } grid0 ctx0 mem0 with
    args := [0, 0] }
theorem wit_QueuePortsMove : (qKind 0x142 2 0).base + (qKind 0x142 2 0).count * (qKind 0x142 2 0).size ≤ 0x800000 ∧
    ((qKind 0x142 2 0).kind = 1 ∧ (qKind 0x142 2 0).size = 4) ∧ ((qKind 0x242 2 0).kind = 2 ∧ (qKind 0x242 2 0).size = 4) ∧
    ((qKind 0x027 2 0).kind = 0 ∧ (qKind 0x027 2 0).size = 128 ∧ ∀ l ∈ p0.lanes, l < 32) := by decide
theorem wit_latch : latchW.args = [0, 0] ∧ nhas latchW.strands 0 = true ∧ nhas latchW.teams (latchW.str 0).team = true ∧
    (latchW.str 0).finished = false ∧ (latchW.str 0).csr.tlevel = 0 ∧ nget (latchW.str 0).ports 0 = some ⟨64, some (List.replicate 32 5)⟩ ∧
    nget (latchW.teamOf 0).queues 64 = some (qKind 0x027 0 0) ∧ (List.replicate 32 (5 : Word)).length = 32 ∧
    (latchW.str 0).fl.loads = [] ∧ (latchW.str 0).fl.stores = [] ∧
    (qKind 0x027 0 0).base + (qKind 0x027 0 0).count * 128 ≤ 0x800000 := by decide

/-! Witnesses: engines. -/

/-- v1 is x in both lanes. -/
def vOne (x : Word) : NMap Word := [(32, x), (33, x)]
def one (x : Word64) : NMap (List Word64) := [(0, [x]), (1, [x])]
def atMem (cells : NMap Word) (a : Nat) (bs : List Byte) (c : Core) (kd : KDesc) : State :=
  { mk p0 (st0 cells) team0 { grid0 with kd := kd } ctx0 (mem0.writeN a bs) with cores := [(0, c)] }
/-- A copy descriptor: 16 bytes from 0x20000 in memory to a team offset. -/
def copyDesc (dst : Nat) : List Byte :=
  leBytes 8 0x20000 ++ leBytes 8 dst ++ leBytes 4 16 ++ leBytes 4 1 ++ leBytes 8 0 ++ leBytes 4 4 ++ leBytes 28 0
def cpTok (st : CpSt) : CpTok :=
  { st := st, reported := false, team := 0, strand := 0, form := 0, desc := copyDesc 0x100, rowdone := 0, later := [], qclosed := false,
    slot := none, cause := 0, faultAddr := 0, dgon := false }
/-- CopyForms: a descriptor at an odd place, beyond the window, with no bytes, with a row outside the window, and one that passes with
and without a FREE token. -/
theorem wit_CopyForms : fit (atMem (vOne 64) 64 (copyDesc 0x100) {} kd0) p0 [(.v 1, 1)] [(.v 3, 1)] (one 64) ∧
    ((atMem (vOne 64) 64 (copyDesc 0x100) {} kd0).gridOf 0).kd.spSize ≤ 0x600000 ∧ low32 p0 (one 4) 0 % 64 ≠ 0 ∧
    (low32 p0 (one 4096) 0 % 64 = 0 ∧ kd0.spSize < low32 p0 (one 4096) 0 + 64) ∧
    (low32 p0 (one 4032) 0 % 64 = 0 ∧ low32 p0 (one 4032) 0 + 64 ≤ kd0.spSize) :=
  ⟨fit_of ⟨⟨rfl, rfl⟩, rfl⟩ (quiet_of (by decide)), by decide, by decide, by decide, by decide⟩
theorem wit_cpStarts : (s0 []).cpFails 0 0 (cpDesc (leBytes 64 0)) = some 0x10 ∧
    ((s0 []).cpFails 0 0 (cpDesc (copyDesc 4096)) = none ∧ (s0 []).cpOutside 0 0 (cpDesc (copyDesc 4096)) = some 4096) ∧
    ((s0 []).cpFails 0 0 (cpDesc (copyDesc 4080)) = none ∧ (s0 []).cpOutside 0 0 (cpDesc (copyDesc 4080)) = none) ∧
    ((s0 []).coreOf 0).freeCp ≠ [] ∧ ({ cp := (List.range 64).map fun k => (k, cpTok .busy) } : Core).freeCp = [] := by decide +kernel
/-- Tokens of the copy engine in their states. -/
def cpW (st : CpSt) : State := atMem (vOne 63) 64 [] { cp := [(63, cpTok st)] } kd0
theorem wit_cpTokens : fit (cpW .done) p0 [(.v 1, 1)] [(.v 3, 1)] (one 63) ∧ low32 p0 (one 63) 0 < 64 ∧
    (cpAt (begun (cpW .done) []) 0 63 = some (cpTok .done) ∧ (cpTok .done).team = ((cpW .done).str 0).team) ∧
    cpAt (begun (cpW .busy) []) 0 63 = some (cpTok .busy) ∧ 64 ≤ low32 p0 (one 64) 0 ∧ cpAt (begun (cpW .busy) []) 0 62 = none :=
  ⟨fit_of ⟨⟨rfl, rfl⟩, rfl⟩ (quiet_of (by decide)), by decide, ⟨rfl, rfl⟩, rfl, by decide, rfl⟩

/-- MatrixStart: one row of one k-step, 32 columns, accumulators from register 8. -/
def parBlk (word0 : Nat) : List Byte :=
  leBytes 4 word0 ++ leBytes 4 0x00010101 ++ leBytes 4 0x100 ++ leBytes 4 128 ++ leBytes 4 0 ++ leBytes 4 0x0800 ++ leBytes 40 0
def kdMx : KDesc := { kd0 with csHi := 128 }
def mxTok (st : MxSt) : MxTok :=
  { st := st, reported := false, team := 0, strand := 0, order := 0, fmt := 0, param := parBlk 0x00FF0301, acc := [], aReg := [], undef := [],
    waited := [], raced := false, abort := false, posS := 0, posM := 0, slot := none, kdone := 0, ug := 0, um := 0, dcause := 0,
    resumed := false, pushClosed := false, qclosed := false, ovf := false, miss := false, darg := none, rpart := [], asum := [],
    dgon := false, faultAddr := 0, blk := 64 }
def goW (c : Core) : State := atMem (vOne 64) 64 (parBlk 0x00FF0301) c kdMx
theorem wit_MatrixStart : fit (goW {}) p0 [(.v 1, 1), (.v 2, 1)] [(.v 3, 1)] [(0, [64, 0]), (1, [64, 0])] ∧ lanesOk p0 ∧
    ((goW {}).gridOf 0).kd.spSize ≤ 0x600000 ∧
    (∃ l ∈ p0.lanes, x32 [(0, [64, 0]), (1, [64, 1])] l 1 ≠ x32 [(0, [64, 0]), (1, [64, 1])] (p0.lanes.headD 0) 1) ∧
    (∀ l ∈ p0.lanes, x32 [(0, [64, 0]), (1, [64, 0])] l 1 = x32 [(0, [64, 0]), (1, [64, 0])] (p0.lanes.headD 0) 1) ∧
    formatFails 0x40000 = some 2 ∧ formatFails 0 = none ∧ 65 % 64 ≠ 0 ∧ kdMx.spSize < 4096 + 64 :=
  ⟨fit_of ⟨⟨rfl, rfl⟩, rfl⟩ (quiet_of (by decide)), by unfold lanesOk; decide, by decide,
   ⟨1, by decide⟩, by decide, rfl, rfl, by decide, by decide⟩
theorem wit_mxGo : (goW {}).mem.readN (((goW {}).teamOf 0).spBase + 64) 64 = parBlk 0x00FF0301 ∧
    (goW {}).parFails 0 0 (parBlk 0x00FF0300) = [0] ∧ (goW {}).parFails 0 0 (parBlk 0x00FF0301) = [] ∧
    (atMem (vOne 64) 64 (parBlk 0x00FF0301) {} { kdMx with csHi := 127 }).bFails 0 0 (mxPar (parBlk 0x00FF0301)) = some 0 ∧
    (goW {}).bFails 0 0 (mxPar (parBlk 0x00FF0301)) = none ∧ portOf (.v 3) = none ∧ ((goW {}).coreOf 0).freeMx ≠ [] ∧
    ({ mx := (List.range 32).map fun k => (k, mxTok .queued) } : Core).freeMx = [] := by decide +kernel

/-- MatrixTokenForms: token 31 in each state, of this team and of another; numbers that name none. -/
def tokW (t : MxTok) : State := atMem (vOne 31) 64 [] { mx := [(31, t)] } kd0
theorem wit_MatrixTokens : fit (tokW (mxTok .done)) p0 [(.v 1, 1)] [(.v 3, 1)] (one 31) ∧
    fit (tokW (mxTok .done)) p0 [(.v 1, 1)] [(.v 6, 2)] (one 31) ∧ fit (tokW (mxTok .queued)) p0 [(.v 1, 1)] [] (one 31) ∧
    low32 p0 (one 31) 0 < 32 ∧ (∀ m, mxAt (begun (tokW (mxTok .done)) []) 0 31 = some m → m.team = 0) ∧ 32 ≤ low32 p0 (one 32) 0 ∧
    (∃ m, mxAt (begun (tokW { mxTok .done with team := 4 }) []) 0 31 = some m ∧ m.team ≠ 0) ∧
    mxAt (begun (tokW (mxTok .done)) []) 0 31 = some (mxTok .done) ∧ mxAt (begun (tokW (mxTok .array)) []) 0 31 = some (mxTok .array) ∧
    (mxAt (begun (tokW (mxTok .stopped)) []) 0 31 = some (mxTok .stopped) ∧ (mxTok .stopped).reported = false ∧
      ((tokW (mxTok .stopped)).str 0).csr.tlevel = 0) ∧ mxAt (begun (tokW (mxTok .done)) []) 0 30 = none :=
  ⟨fit_of ⟨⟨rfl, rfl⟩, rfl⟩ (quiet_of (by decide)),
   fit_of ⟨⟨rfl, rfl⟩, rfl⟩ (quiet_of (by decide)),
   fit_of ⟨⟨rfl, rfl⟩, rfl⟩ (quiet_of (by decide)),
   by decide, fun m h => by cases h; rfl, by decide, ⟨_, rfl, by decide⟩, rfl, rfl, ⟨rfl, rfl, rfl⟩, rfl⟩

/-- DrainLoad: an empty program, and one whose first word is no drain word. -/
def drnW (w : Nat) : State :=
  mk p0 (st0 [(64, 0x20080), (65, 0x20080)]) team0 grid0 ctx0 (mem0.writeN (tier2Base + 0x20080) (leBytes 4 w))
theorem wit_DrainLoad : fit (drnW 0) p0 [(.v 2, 2)] [] (one 0x20080) ∧ low64 p0 (one 0x20080) 0 < 2 ^ 56 ∧
    nget ((drnW 0).coreOf 0).drn 5 = none ∧ ((drnW 0).coreOf 0).resvs = [] ∧ ((drnW 0).coreOf 0).mx = [] ∧
    low64 p0 (one 0x20040) 0 % 128 ≠ 0 ∧ low64 p0 (one 0x20080) 0 % 128 = 0 :=
  ⟨fit_of ⟨⟨rfl, rfl⟩, rfl⟩ (quiet_of (by decide)), by decide, rfl, rfl, rfl, by decide, by decide⟩
theorem wit_DrainLoad_image : ((begun (drnW 0) []).accessParts 0 .ld 0x8000000 (pageParts 0x20080 128)).2 = none ∧
    drainInvalid ((List.range 32).map fun i => BitVec.ofNat 32 (leSum ((((begun (drnW 0) []).loadParts 0 none 0x8800000
      ((begun (drnW 0) []).accessParts 0 .ld 0x8000000 (pageParts 0x20080 128)).1).drop (4 * i)).take 4))) = none ∧
    drainInvalid ((List.range 32).map fun i => BitVec.ofNat 32 (leSum ((((begun (drnW 0xFFFFFFFF) []).loadParts 0 none 0x8800000
      ((begun (drnW 0xFFFFFFFF) []).accessParts 0 .ld 0x8000000 (pageParts 0x20080 128)).1).drop (4 * i)).take 4))) = some 0 := by decide +kernel

/-! Witnesses: loop, fabric, digests, system forms. -/

/-- LoopForms: the last eight bytes of the locket, of a context whose allotment ends there. -/
def locketW (x : Word) (f : Strand → Strand) : State :=
  mk p0 (f (st0 (vOne x))) team0 grid0 { ctx0 with allot := [(0xFFFFC0, 0x1000000)] } mem0
theorem wit_LoopForms : fit (locketW 0xFFFFF8 id) p0 [(.v 1, 1)] [(.v 6, 2)] (one 0xFFFFF8) ∧
    fit (locketW 0xFFFFF8 id) p0 [(.v 1, 1)] [(.v 3, 1), (.v 4, 2)] (one 0xFFFFF8) ∧
    fit (locketW 0xFFFFF8 id) p0 [(.v 1, 1), (.v 4, 2)] [(.v 6, 2)] [(0, [0xFFFFF8, 0]), (1, [0xFFFFF8, 0])] ∧
    fit (locketW 0xFFFFF8 id) p0 [(.v 1, 1), (.v 4, 2), (.v 6, 2)] [(.v 6, 2)] [(0, [0xFFFFF8, 0, 0]), (1, [0xFFFFF8, 0, 0])] ∧
    locketOk (begun (locketW 0xFFFFF8 id) []) 0 0xFFFFF8 8 0 ∧ locketOk (begun (locketW 0xFFFFF8 id) []) 0 0xFFFFF8 8 2 ∧
    postable (begun (locketW 0xFFFFF8 id) []) 0 ∧
    (Sel.isRun (.v 4) 8 = true ∧ ((locketW 0xFFFFF8 id).str 0).outside p0.lanes (.v 4, 8) = false) ∧
    ((0x100 : Nat) / 2 ^ 5 % 8 = 0 ∧ 0x100 < 2 ^ 12 ∧ 0x100 % 32 < (locketW 0 id).npkg) :=
  ⟨fit_of ⟨⟨rfl, rfl⟩, rfl⟩ (quiet_of (by decide)),
   fit_of ⟨⟨rfl, rfl⟩, rfl⟩ (quiet_of (by decide)),
   fit_of ⟨⟨rfl, rfl⟩, rfl⟩ (quiet_of (by decide)),
   fit_of ⟨⟨rfl, rfl⟩, rfl⟩ (quiet_of (by decide)),
   by unfold locketOk; decide +kernel, by unfold locketOk; decide +kernel, by unfold postable live; decide, ⟨rfl, rfl⟩, by decide⟩
theorem wit_LoopForms_more : fit (drnW 0) p0 [(.v 2, 2)] [(.v 3, 1)] (one 0x20080) ∧
    ((begun (drnW 0) []).accessParts 0 .ld 0xA000000 (pageParts 0x20080 48)).2 = none ∧ postable (begun (drnW 0) []) 0 ∧
    fit (locketW 0 id) p0 [(.v 2, 2)] [] (one 0) ∧ low64 p0 (one 0) 0 ≤ (begun (locketW 0 id) []).appliedLsn 0 ∧
    (begun (locketW 0 id) []).appliedLsn 0 < low64 p0 (one 1) 0 ∧ fit (locketW 0 id) p0 [] [(.v 6, 2)] [(0, []), (1, [])] :=
  ⟨fit_of ⟨⟨rfl, rfl⟩, rfl⟩ (quiet_of (by decide)), rfl, by unfold postable live; decide,
   fit_of ⟨⟨rfl, rfl⟩, rfl⟩ (quiet_of (by decide)), by decide, by decide,
   fit_of ⟨⟨rfl, rfl⟩, rfl⟩ (quiet_of (by decide))⟩
def seqW : State := locketW 0 fun st => { st with fl := { posts := [(0, { lsn := some 0 })], postCount := 1 } }
theorem wit_lpSeq : fit seqW p0 [(.v 1, 1)] [(.v 6, 2)] (one 0) ∧ ahead (nextPost (begun seqW []) 0) (low32 p0 (one 0) 0) = 1 ∧
    live (begun seqW []) 0 ∧ nget ((begun seqW []).str 0).fl.posts 0 = some { lsn := some 0 } ∧ 0 ≤ seqW.loop.applied ∧
    ahead 256 0 ≤ 256 :=
  ⟨fit_of ⟨⟨rfl, rfl⟩, rfl⟩ (quiet_of (by decide)), rfl, rfl, rfl, by decide, by decide⟩
/-- LocketChecks: an odd offset, one beyond the locket, one outside the allotment. -/
theorem wit_LocketChecks : ¬locketOk (begun (locketW 4 id) []) 0 4 8 0 ∧ ¬locketOk (begun (locketW 0x1000000 id) []) 0 0x1000000 8 0 ∧
    ¬locketOk (begun (locketW 0xFFFFB8 id) []) 0 0xFFFFB8 8 0 := by
  unfold locketOk; decide +kernel

/-- FabricForms: 16 bytes from 0x20000 to offset 8 of this package; descriptors at odd places, beyond the window, of no bytes. -/
def fabDescB : List Byte := leBytes 8 0x20000 ++ leBytes 8 8 ++ leBytes 4 16 ++ leBytes 12 0
def fabW : State := atMem (vOne 64) 64 fabDescB {} kd0
theorem wit_fabMoves : fit fabW p0 [(.v 1, 1)] [(.v 3, 1)] (one 64) ∧ (fabW.gridOf 0).kd.spSize ≤ 0x600000 ∧ live (begun fabW []) 0 ∧
    low32 p0 (one 65) 0 % 32 ≠ 0 ∧ kd0.spSize < low32 p0 (one 4096) 0 + 32 ∧ low32 p0 (one 4064) 0 + 32 ≤ kd0.spSize ∧
    ¬fabOk fabW (leBytes 32 0) ∧ fabOk fabW fabDescB ∧ (begun fabW []).mem.readN (((begun fabW []).teamOf 0).spBase + 64) 32 = fabDescB ∧
    (match (begun fabW []).fabLocal 0 .ld (fabDesc fabDescB) with
      | .ok _ => True
      | .error _ => False) :=
  ⟨fit_of ⟨⟨rfl, rfl⟩, rfl⟩ (quiet_of (by decide)), by decide, rfl, by decide, by decide, by decide,
   by unfold fabOk; decide +kernel, by unfold fabOk; decide +kernel, by decide +kernel, trivial⟩
def vFab : NMap Word := [(64, 8), (65, 16), (128, 1), (129, 1)]
theorem wit_fabAtoms : fit (s0 vFab) p0 [(.v 2, 2), (.v 4, 2)] [(.v 6, 2)] [(0, [8, 1]), (1, [16, 1])] ∧
    fit (s0 vFab) p0 [(.v 2, 2), (.v 4, 2), (.v 6, 2)] [(.v 6, 2)] [(0, [8, 1, 0]), (1, [16, 1, 0])] ∧
    (∀ l ∈ p0.lanes, (x64 [(0, [8, 1]), (1, [16, 1])] l 0).toNat < 2 ^ 61 ∧ (x64 [(0, [8, 1]), (1, [16, 1])] l 0).toNat / 2 ^ 56 < (s0 vFab).npkg ∧
      (x64 [(0, [8, 1]), (1, [16, 1])] l 0).toNat % 8 = 0) ∧ (s0 vFab).fab.tag < 2 ^ 32 ∧
    (∃ l ∈ p0.lanes, ¬((x64 [(0, [0x100000000000000, 1])] l 0).toNat < 2 ^ 61 ∧ (x64 [(0, [0x100000000000000, 1])] l 0).toNat / 2 ^ 56 < (s0 vFab).npkg)) :=
  ⟨fit_of ⟨⟨rfl, rfl⟩, rfl⟩ (quiet_of (by decide)),
   fit_of ⟨⟨rfl, rfl⟩, rfl⟩ (quiet_of (by decide)), by decide, by decide, ⟨0, by decide, by decide⟩⟩
def fabSt (fl : Flight) : State := mk p0 { st0 (vOne 0) with fl := fl } team0 grid0 ctx0 mem0
def fab1 : FabSt := { done := false, get := false, use := 0, acq := none, handle := some 0 }
theorem wit_fabWait : fit (fabSt { fabCount := 1 }) p0 [(.v 1, 1)] [] (one 0) ∧ ahead 1 (low32 p0 (one 0) 0) = 1 ∧ ahead 0x80000000 0 ≤ 2 ^ 31 ∧
    (able (fabSt { fabs := [(7, fab1)], fabCount := 1 }) p0 [(.v 1, 1)] [] (one 0) ∧
      ((fabSt { fabs := [(7, fab1)], fabCount := 1 }).str 0).acqHeld = false ∧ fab1.done = false ∧ fab1.handle = some (low32 p0 (one 0) 0)) ∧
    (able (fabSt { fabFails := [⟨7, 8, 0x32⟩] }) p0 [(.v 1, 1)] [] (one 0) ∧ ((fabSt { fabFails := [⟨7, 8, 0x32⟩] }).str 0).acqHeld = false ∧
      ((fabSt { fabFails := [⟨7, 8, 0x32⟩] }).str 0).csr.tlevel = 0) :=
  ⟨fit_of ⟨⟨rfl, rfl⟩, rfl⟩ (quiet_of (by decide)), rfl, by decide, ⟨⟨⟨rfl, rfl⟩, rfl⟩, rfl, rfl, rfl⟩,
   ⟨⟨⟨rfl, rfl⟩, rfl⟩, rfl, rfl⟩⟩

/-- DigestForms: the expected digest, and another. -/
theorem wit_DigestForms : fit (s0 v12) p0 [(.v 6, 2), (.v 8, 2)] [(.v 6, 2)] [(0, [0, 0]), (1, [0, 0])] ∧
    fit (s0 v12) p0 [(.v 2, 2)] [(.v 6, 2)] [(0, [2]), (1, [3])] ∧ ((s0 v12).coreOf 0).cp = [] ∧ ((s0 v12).ctxOf 0).dbg.dgx = false ∧
    ((s0 v12).gridOf 0).ck = none ∧ x64 [(0, [2]), (1, [3])] (p0.lanes.headD 0) 0 ≠ keyOf (s0 v12) 0 ∧
    x64 (one (keyOf (s0 v12) 0)) (p0.lanes.headD 0) 0 = keyOf (s0 v12) 0 ∧ [(⟨0, 0, 1⟩ : DgItem), ⟨0, 0, 2⟩].Perm [⟨0, 0, 2⟩, ⟨0, 0, 1⟩] :=
  ⟨fit_of ⟨⟨rfl, rfl⟩, rfl⟩ (quiet_of (by decide)),
   fit_of ⟨⟨rfl, rfl⟩, rfl⟩ (quiet_of (by decide)), rfl, rfl, rfl, by decide, rfl, List.Perm.swap _ _ _⟩

/-- StatusRegisterForms: reads of both kinds and halves, a latched half, lane detail; writes allowed by mode, by level, and not. -/
def csrW (st : Strand → Strand) (sys : Bool) : State := mk p0 (st (st0 v12)) team0 grid0 { ctx0 with sys := sys } mem0
theorem wit_csrRd : fit (s0 v12) p0 [] [(.v 3, 1)] [(0, []), (1, [])] ∧ p0.hi = none ∧ (0x1C, (0xFFFFFFFF : Word)) ∈ csr32 (s0 v12) 0 ∧
    (0x1A, (0 : Word64)) ∈ csr64 (s0 v12) 0 ∧ (0x1B - 1, (0 : Word64)) ∈ csr64 (s0 v12) 0 ∧ (∀ v, (0x1B, v) ∉ csr64 (s0 v12) 0) ∧
    ({ p0 with hi := some (0x1B, 7) } : RunPath).hi = some (0x1B, 7) ∧ 0x40 ≤ (0x5F : BitVec 7).toNat :=
  ⟨fit_of ⟨⟨rfl, rfl⟩, rfl⟩ (quiet_of (by decide)), rfl, by decide, by decide, by decide,
   fun v => by simp [csr64], rfl, by decide⟩
theorem wit_csrWr : fit (csrW id false) p0 [(.v 1, 1)] [] [(0, [5]), (1, [7])] ∧
    ¬(1 ≤ ((csrW id false).str 0).csr.tlevel ∨ ((csrW id false).ctxOf 0).sys = true) ∧ ((csrW id true).ctxOf 0).sys = true ∧
    (x32 [(0, [5]), (1, [7])] (p0.lanes.headD 0) 0).toNat % 128 ≠ 0 ∧ (x32 [(0, [0x200])] (p0.lanes.headD 0) 0).toNat % 512 = 0 ∧
    2 ≤ ((csrW (fun st => { st with csr := { tlevel := 2, s1 := [0, 1], s2 := [0, 1] } }) false).str 0).csr.tlevel :=
  ⟨fit_of ⟨⟨rfl, rfl⟩, rfl⟩ (quiet_of (by decide)), by decide, rfl, by decide, by decide, by decide⟩

/-- TrapReturn: outside a sub-strand; from level 1; from level 2; with a store that is not performed. -/
theorem wit_TrapReturn : ((s0 v12).str 0).group (p0.lanes.headD 0) = 0 ∧
    (let s := level 1 [0, 1] [] 0
     issues s 0 p0 [] ∧ (s.str 0).fl.stores = [] ∧ (s.str 0).group (p0.lanes.headD 0) = (s.str 0).csr.tlevel ∧
       (s.str 0).csr.tlevel = 1 ∧ ∀ l ∈ subLanes (s.str 0), l ∈ p0.lanes) ∧
    (let s := level 2 [0, 1] [0] 0
     (s.str 0).group (p0.lanes.headD 0) = (s.str 0).csr.tlevel ∧ (s.str 0).csr.tlevel = 2 ∧ ∀ l ∈ subLanes (s.str 0), l ∈ p0.lanes) ∧
    (let s := mk p0 { st0 v12 with csr := { tlevel := 1, s1 := [0, 1] }, fl := { stores := [inFlight] } } team0 grid0 ctx0 mem0
     (s.str 0).group (p0.lanes.headD 0) ≠ 0 ∧ (s.str 0).fl.stores ≠ []) := by
  unfold issues; decide

/-- SystemForms. -/
def tlb1 : TlbEnt := { ctx := 0, level := 4, vbase := 0x20000, leaf := true, entry := 1, addr := 0 }
theorem wit_SystemForms : (((s0 v12).ctxOf 0).killed = false ∧ nsorted (s0 v12).strands = true ∧ nsorted (s0 v12).teams = true ∧
      (∀ x ∈ (s0 v12).strands, nhas (s0 v12).teams x.2.team = true) ∧ ((s0 v12).ctxOf 0).dbg.dumpsize = 0) ∧
    (tlb1.vbase ≤ 0x20FFF ∧ 0x20FFF < tlb1.vbase + 2 ^ levelShift tlb1.level) ∧ postable (begun (s0 v12) []) 0 ∧
    (low32 p0 (one 0) 0 < 256 ∧ ((s0 v12).ctx 0).valid = true ∧ ((s0 v12).ctx 0).dbg.halted = false) ∧
    256 ≤ low32 p0 (one 256) 0 ∧ ((s0 v12).ctx 255).valid = false := by
  unfold postable live; decide


/-! Witnesses: waits, clauses, bins, teams. -/

/-- WaitsEnd: a path that waits, at an instant, with what its strand has in flight. -/
def waitW (args : List Nat) (w : Wait) (fl : Flight) (cycle : Nat) : State :=
  { stW fun st => { st with waits := [⟨p0, w⟩], fl := fl } with args := args, cycle := cycle }
def oneLoad : Flight := { loads := [{ writes := [], on := .ready }] }
theorem wit_WaitsEnd : (waitW [0, 0] .opnd {} 0).args = [0, 0] ∧ mayMove (waitW [0, 0] .opnd {} 0) 0 ∧
    ((waitW [0, 0] .opnd {} 0).str 0).waits[0]? = some ⟨p0, .opnd⟩ ∧ resumesWord .opnd = true ∧
    (waitW [0, 0] .opnd {} 0).waitHolds 0 ⟨p0, .opnd⟩ = true ∧ (waitW [0, 0] .opnd oneLoad 0).waitHolds 0 ⟨p0, .opnd⟩ = false ∧
    bitOf 0x5F 5 = false ∧ (waitW [0, 0] (.mask 0x5F) {} 0).maskHolds 0 0x5F = true ∧ (waitW [0, 0] (.mask 1) oneLoad 0).maskHolds 0 1 = false ∧
    (((waitW [0, 0] .switch {} 0).str 0).pending = false ∧ ((waitW [0, 0] .switch {} 0).str 0).due p0.lanes true false false = []) ∧
    (∀ x ∈ [((1 : Nat), (0x20004 : Word64))], x.1 ∈ p0.lanes) ∧ ((waitW [0, 0] (.leave [(1, 0x20004)]) {} 0).str 0).pending = false ∧ ((waitW [0, 0] .switch oneLoad 0).str 0).pending = true ∧
    (waitW [0, 0] (.sleep 9) {} 9).cycle = 9 ∧ (waitW [0, 0] (.sleep 9) {} 8).cycle = 8 := by
  unfold mayMove; decide
def dogW (n level : Nat) : State := { stW fun st => { st with csr := { wdog := n, tlevel := level } } with args := [0] }
theorem wit_Watchdog : (dogW 0 0).args = [0] ∧ nhas (dogW 0 0).strands 0 = true ∧ ((dogW 0 0).str 0).finished = false ∧
    nsorted ((dogW 0 0).str 0).lanes = true ∧ ((dogW 16777215 0).str 0).csr.wdog < ((dogW 16777215 0).gridOf 0).kd.period ∧
    ((dogW 16777216 0).gridOf 0).kd.period ≤ ((dogW 16777216 0).str 0).csr.wdog ∧ ((dogW 16777216 0).str 0).csr.tlevel = 0 := by decide

/-- ClauseIssues: a strand whose threads are ready at a clause of one word, whose header waits for the loads. -/
def readyW (hdr : Nat) (fl : Flight) : State :=
  { mk p0 { st0 v12 with lanes := [(0, { loneThread with st := .ready }), (1, { loneThread with st := .ready })], fl := fl } team0 grid0 ctx0
      (mem0.writeN (tier2Base + 0x20004) (leBytes 4 hdr)) with runs := [], args := [0, 0] }
theorem wit_ClauseIssues : (readyW 0x400061 {}).args = [0, natOf false] ∧ { readyW 0x400061 {} with strands := [] }.mayIssue 0 false = false ∧
    (readyW 0x400061 {}).mayIssue 0 false = true ∧ (!((readyW 0x400061 {}).issuing 0).isEmpty) = false ∧
    ((s0 v12).str 0).offer false false = none ∧
    ((readyW 0x400061 {}).str 0).offer false false = some (0x20004, [0, 1]) ∧ (readyW 0x400061 {}).bpMatch 0 [0, 1] 0x20004 = none ∧
    ((readyW 0x400061 {}).str 0).bindErr = none := by decide +kernel
/-- A strand whose only path waits has none to offer. -/
theorem wit_ClauseIssues_none : (waitW [0, 0] .rbar {} 0).args = [0, natOf false] ∧
    { waitW [0, 0] .rbar {} 0 with runs := [] }.mayIssue 0 false = true ∧
    ({ waitW [0, 0] .rbar {} 0 with runs := [] }.issuing 0).isEmpty = true ∧
    ({ waitW [0, 0] .rbar {} 0 with runs := [] }.str 0).offer false false = none := by decide +kernel
/-- The conditions on the clause, and whether its mask holds. -/
def clauseFits (s : State) (holds : Bool) : Bool :=
  match (underWay s 0 [0, 1] []).fetchLine 0 0x20000 with
  | (.ok line, t) =>
    let p := atFirst [0, 1] 0x20000 line 1 1 false
    let mask := bitsOf p.hdr.toNat 28 22
    lineOk 0x20000 line && decide (clauseAt line 1 = some (1, 1)) && decide (quadOf 1 = some 0) && bitOf (lineSmap line) 0 &&
    ([0, 1].all fun l => ((t.str 0).th l).chk == none) && decide (t.bpMatch 0 [0, 1] p.wordPc = none) &&
    !headerFails (t.str 0).isLead p.hdr.toNat && decide (clauseFails (t.issueCtx 0) p.hdr.toNat (p.words.map BitVec.toNat) = none) &&
    t.maskHolds 0 mask == holds && decide ((t.str 0).due [0, 1] (bitOf mask 0) (bitOf mask 1) (bitOf mask 4) = [])
  | _ => false
theorem wit_ClauseIssues_clause : clauseFits (readyW 0x400061 {}) true = true ∧ clauseFits (readyW 0x400061 oneLoad) false = true := by
  decide +kernel

/-- BinsAndTeamsEnd: a bin of two threads a clock before its timer and at it; its launch as strand 0 and as strand 1; the
compactor with four frames in the way; a team with a thread, and one whose threads have exited. -/
def filed0 : Filing := { lane := 0, key := 0x20004, thread := loneThread, regs := [], defined := true }
def bin0 (age : Nat) (at' : Option Nat) : Bin :=
  { team := 0, role := 0, pc := 0x20004, threads := [filed0, { filed0 with lane := 1 }], frame := loneFrame 1, age := age, fired := false, readyAt := at' }
def agedW (b : Bin) (strands : NMap Strand) (n : Nat) : State :=
  { gridW fun g => { g with kd := { kd0 with roles := [⟨0x20000, 32, n, 128, 128⟩] } } with
    cores := [(0, { bins := [(5, b)] })], strands := strands, runs := [], args := [0, 5] }
theorem wit_binAge : nget ((agedW (bin0 1999 none) [] 1).core 0).bins 5 = some (bin0 1999 none) ∧
    ((agedW (bin0 1999 none) [] 1).grid ((agedW (bin0 1999 none) [] 1).team 0).grid).kd.age = 0 ∧ (bin0 1999 none).age < 2000 ∧
    2000 ≤ (bin0 2000 none).age := by decide
theorem wit_binLaunch : ∀ x ∈ [(agedW (bin0 0 (some 0)) [] 1, 0), (agedW (bin0 0 (some 0)) [(0, st0 v12)] 2, 1)],
    let s := x.1
    s.args = [0, 5] ∧ nsorted (s.core 0).bins = true ∧ nget (s.core 0).bins 5 = some (bin0 0 (some 0)) ∧
    (bin0 0 (some 0)).readyAt.isSome = true ∧ (∀ y ∈ (s.core 0).bins, y.1 ≠ 5 → ¬(y.2.team = 0 ∧ y.2.role = 0)) ∧
    (s.ctx (s.grid (s.team 0).grid).ctx).dbg.halted = false ∧ (s.team 0).ptoHalted = false ∧
    x.2 < ((s.grid (s.team 0).grid).kd.role 0).strands ∧
    (∀ j, j < x.2 → ∃ y ∈ s.teamStrands 0, y.2.role = 0 ∧ y.2.finished = false ∧ y.2.strandid = j) ∧
    (∀ y ∈ s.teamStrands 0, y.2.role = 0 → y.2.finished = false → y.2.strandid ≠ x.2) := by decide
def frameAt (uid base : Nat) : Frame := { loneFrame uid with size := 8, base := base }
def packedW : State :=
  { stW fun st => { st with frames := [frameAt 1 1, frameAt 2 33, frameAt 3 65, frameAt 4 97], waits := [⟨p0, .frameSpace 256 0⟩] } with
    runs := [], args := [0, 0, 1] }
theorem wit_compactorMove : packedW.args = [0, 0, 1] ∧ (packedW.str 0).core = 0 ∧
    (packedW.str 0).part = 0 ∧ 256 ∈ packedW.frameRequests 0 0 ∧
    (∀ m, (packedW.frameRequests 0 0).head? = some m → packedW.findBlock 0 0 m = none) ∧ frameUnits 256 ≤ packedW.freeUnits 0 0 ∧
    packedW.findBlock 0 0 256 = none ∧ packedW.frameAcc 0 1 = false ∧ nget packedW.strands 0 = some (packedW.str 0) ∧
    (packedW.teamOf 0).saving = false ∧ (packedW.str 0).frames.find? (fun g => g.uid == 1 && g.part == 0) = some (frameAt 1 1) ∧
    (∀ x ∈ packedW.strands, x.1 ≠ 0 → ∀ g ∈ x.2.frames, g.uid ≠ 1) ∧ nsorted packedW.strands = true ∧
    packedW.findBlock 0 0 8 = some 0 ∧ 0 < (frameAt 1 1).base := by decide
def doneW (done : Bool) : State :=
  { stW fun st => { st with lanes := [(0, { loneThread with st := if done then .exited else .run })] } with runs := [], args := [0] }
theorem wit_teamEnd : (doneW true).args = [0] ∧ (doneW true).lastOfShare 0 = none ∧ (doneW true).teamDone 0 = true ∧
    (doneW false).lastOfShare 0 = none ∧ (doneW false).teamDone 0 = false := by decide

/-! Witnesses: events of the engines. -/

/-- An event with its arguments, on a core's state. -/
def coreW (c : Core) (args : List Nat) (kd : KDesc) : State := { atMem [] 64 [] c kd with runs := [], args := args }
def cpC (c : CpTok) (args : List Nat) : State := coreW { cp := [(63, c)] } args kd0
/-- CopyEngineMoves: a fill, a plain copy and a gather of one row of 16 bytes up to the end of the scratchpad; a row out of turn; one
whose source is not mapped; a row with words left, and none. -/
def padDesc : List Byte :=
  leBytes 8 0x200 ++ leBytes 8 4080 ++ leBytes 4 16 ++ leBytes 4 1 ++ leBytes 8 0 ++ leBytes 4 5 ++ leBytes 4 0 ++ leBytes 8 0x300 ++ leBytes 16 0
def rowTok (form : Nat) : CpTok := { cpTok .busy with form := form, desc := padDesc }
def fillTok : CpTok := rowTok 1
def lostTok : CpTok := { cpTok .busy with desc := leBytes 8 0x40000000 ++ (copyDesc 0x100).drop 8 }
theorem wit_CopyRow : (cpC fillTok [0, 63, 0]).args = [0, 63, 0] ∧ nget ((cpC fillTok [0, 63, 0]).core 0).cp 63 = some fillTok ∧
    (cpTok .done).st ≠ .busy ∧ (cpDesc fillTok.desc).rows ≤ 1 ∧ wordsLeft (cpDesc fillTok.desc) (rowSoFar (cpC fillTok []) fillTok 0 0).2 ≠ [] ∧
    (match (cpC lostTok []).copyRow 63 lostTok (cpDesc lostTok.desc) (rowSoFar (cpC lostTok []) lostTok 0 0).1 1 0x100 [0] with
      | .error _ => true
      | .ok _ => false) = true := by decide +kernel
theorem wit_CopyPad : ∀ form ∈ [0, 1, 2], let c := rowTok form
    let s := cpC c [0, 63, 0]
    let d := cpDesc c.desc
    c.st = .busy ∧ c.form < 3 ∧ c.rowdone ≤ 0 ∧ 0 ∉ c.later ∧ 0 < d.rows ∧ 0 < d.rowBytes ∧ d.rowBytes % 4 = 0 ∧ c.dgon = false ∧
    d.dsp = 1 ∧ d.ssp = 1 ∧ inPad s c.team (d.index % 2 ^ 32) 4 ∧
    leSum ((List.range 4).map fun i => padByte s c.team (d.index % 2 ^ 32 + i)) = 0 ∧ inPad s c.team (d.src % 2 ^ 32) d.rowBytes ∧
    inPad s c.team (d.dst % 2 ^ 32) d.rowBytes ∧ nget c.parts 0 = none ∧ c.orig = [] ∧
    (∀ i < d.rowBytes, s.overlaps c d ((s.team c.team).spBase + (d.dst % 2 ^ 32 + i)) = false) ∧ (s.team c.team).core = 0 ∧
    (s.grid (s.team c.team).grid).kd.spSize ≤ 0x600000 ∧ s.mem.wf = true ∧ (∀ x ∈ s.cores, x.2.mx = []) ∧
    (∀ x ∈ s.teams, x.2.queues = []) := by unfold inPad; decide +kernel
/-- `cp.q` with a free slot, one without, a queue that is closed, and a slot at hand. -/
def slotTok : CpTok := { cpTok .busy with form := 3, desc := (copyDesc 64).take 56 ++ leBytes 4 2 ++ leBytes 4 0 }
def slotW (q : LiveQ) : State :=
  { cpC slotTok [0, 63] with teams := [(0, { team0 with queues := [(64, q)] })] }
theorem wit_CpQSlotFill : slotTok.st = .busy ∧ slotTok.form = 3 ∧ slotTok.slot = none ∧
    (slotW (slots 0 0 0 0)).liveQ 0 ((cpDesc slotTok.desc).dst % 2 ^ 32) = some (slots 0 0 0 0) ∧
    ahead (slots 0 0 0 0).c0 (slots 0 0 0 0).c3 < (slots 0 0 0 0).count ∧
    (slots 4 0 0 0).count ≤ ahead (slots 4 0 0 0).c0 (slots 4 0 0 0).c3 ∧ (slots 0 0 0 0).closed = false ∧
    (∃ r < (cpDesc slotTok.desc).rows, r ∉ slotTok.later) ∧ slotTok.rowdone + 1 ≠ (cpDesc slotTok.desc).nslot ∧
    ({ slotTok with rowdone := 1 } : CpTok).rowdone + 1 = (cpDesc slotTok.desc).nslot ∧
    ({ slotTok with slot := some 0x100 } : CpTok).slot ≠ none ∧
    slotTok.rowdone = ((nget ((slotW (slots 0 0 0 0)).core 0).cp 63).getD default).rowdone := by
  refine ⟨rfl, rfl, rfl, rfl, by decide, by decide, rfl, ⟨0, by decide, by decide⟩, by decide, by decide, nofun, by decide +kernel⟩
theorem wit_CpQRows : ∀ r, wordsLeft (cpDesc slotTok.desc)
    (rowSoFar ((slotW (slots 0 0 0 0)).modQ 0 64 fun q => { q with c0 := (q.c0 + 1) % 2 ^ 32 }) slotTok r slotTok.rowdone).2 ≠ [] := by
  intro r
  show wordsLeft (cpDesc slotTok.desc) [] ≠ []
  decide +kernel
theorem wit_CpQGoes : (match ((slotW (slots 0 0 0 0)).modQ 0 64 fun q => { q with c0 := (q.c0 + 1) % 2 ^ 32 }).copyRow 63 slotTok
      (cpDesc slotTok.desc) 0x20000 1 ((slots 0 0 0 0).entryOff 0) [0] with
      | .ok _ => true
      | .error _ => false) = true := by decide +kernel

/-- ArrayMoves: an operation of two rows and two k-steps, promoted at its end. -/
def par22 : List Byte :=
  leBytes 4 0x00FF1301 ++ leBytes 4 0x00020102 ++ leBytes 4 0x100 ++ leBytes 4 256 ++ leBytes 4 0 ++ leBytes 4 0x0800 ++ leBytes 40 0
def op22 (st : MxSt) : MxTok := { mxTok st with param := par22, acc := [⟨0, 1, 8, 8, 4, 1⟩] }
def idle : ArraySt :=
  { op := none, inflight := [], asum := [], weights := none, shadow := none, halt := none, haltAt := 0, held := false, lastSlot := 0 }
def arrW (a : ArraySt) (t : MxTok) (cap : Nat) (hotter : Bool := false) : State :=
  coreW { mx := [(31, t)], arr := a, regs := { mxcap := cap, throttled := hotter, wasThrottled := hotter } } [0] kdMx
def wave (s m : Nat) : Wave := ⟨s, m, leBytes 128 1, [], []⟩
theorem wit_weightReload : (arrW idle (op22 .queued) 0).args = [0] ∧ inArray (arrW { idle with op := some 31 } (op22 .queued) 0) 0 31 (op22 .queued) ∧
    (idle.weights = none ∧ ({ idle with weights := some 0 } : ArraySt).shadow = none ∧ 0 + 1 < (op22 .queued).par.ks) ∧
    (idle.op = none ∧ idle.halt = none) ∧ (arrW idle (op22 .queued) 0).nextOp 0 = some 31 := by
  unfold inArray; decide +kernel
theorem wit_wavefrontAdmission : ∀ c ∈ [(0, [], false), (1, [], false), (1, [0], false), (2501, [0], false), (0, [0], true),
      (626, List.replicate 625 0, true)],
    let s := arrW { idle with op := some 31, weights := some 0, admits := c.2.1 } (op22 .queued) c.1 c.2.2
    inArray s 0 31 (op22 .queued) ∧ (s.core 0).arr.halt = none ∧ (s.core 0).arr.held = false ∧ s.teamHeld 0 = false ∧
    (s.core 0).arr.inflight.length < 8 ∧ (op22 .queued).posS < (op22 .queued).par.ks ∧
    (s.core 0).arr.weights = some (op22 .queued).posS ∧ s.dieShut 0 = false ∧ (op22 .queued).par.aq = false ∧ (op22 .queued).slot = none ∧
    (op22 .queued).par.areg = false ∧ (op22 .queued).posM + 1 ≠ (op22 .queued).par.m ∧ ((s.core 0).arr.admits.filter fun c => decide (s.cycle < c + 2000)).length = c.2.1.length := by
  unfold inArray; decide +kernel
/-- The last row of a k-step is admitted, the next weights there and not; an operation that had begun when its supply was shut. -/
theorem wit_lastRow : ∀ sh ∈ [none, some 1], let t := { op22 .array with posM := 1 }
    let s := arrW { idle with op := some 31, weights := some 0, shadow := sh, begun := true } t 0
    inArray s 0 31 t ∧ (s.core 0).arr.weights = some t.posS ∧ (s.core 0).arr.begun = true ∧ t.posS < t.par.ks ∧
    t.posM + 1 = t.par.m ∧ t.par.aq = false ∧ t.slot = none := by
  unfold inArray; decide +kernel
/-- Every wavefront of the operation completes: in the middle, at the end of a k-step, the last one, of an operation with a drain and
without. -/
theorem wit_wavefrontComplete : ∀ w0 ∈ [0x00FF1301, 0x00001301], ∀ k ∈ [0, 1], ∀ m ∈ [0, 1],
    let t := { op22 .array with param := leBytes 4 w0 ++ par22.drop 4 }
    let s := arrW { idle with op := some 31, weights := some k, inflight := [wave k m] } t 0
    inArray s 0 31 t ∧ (s.core 0).arr.inflight = wave k m :: [] ∧ (wave k m).m < t.par.m ∧
    t.par.n ≤ 128 ∧ nsorted (s.core 0).arr.asum = true ∧ (s.team t.team).core = 0 ∧ (s.core 0).arr.halt = none ∧
    (promotes t (wave k m) ↔ k = 1) ∧ (wave k m).s < t.par.ks ∧ t.par.last = true ∧ (t.par.dslot = 0xFF ↔ w0 = 0x00FF1301) ∧
    t.acc[m / 16]? = some ⟨0, 1, 8, 8, 4, 1⟩ ∧ nhas s.strands 0 = true ∧ (s.str 0).finished = false ∧
    ((s.str 0).frameOf 1).isSome = true ∧ t.raced = false ∧ t.undef = [] ∧ t.par.aq = false ∧
    (∀ y ∈ (s.team t.team).queues, 32 + 31 ∉ y.2.engines) := by
  unfold inArray promotes; decide +kernel

/-- WavefrontValues: a product of two numbers of E4M3; an escape with an outlier, and without; a scale of 255; a sum of finite products,
with and without an escape; an infinite product; the accumulator of a promotion at and below the limit. -/
def colOf (f : Nat) (a : Byte) (sides : List Byte) (sc : Byte) : ColIn := ⟨f, [a], [sc], sides, [0x38], []⟩
theorem wit_WavefrontValues :
    (let i := colOf 0 0x38 [] 127
     num (elemValue (afmt i.f) (i.f / 256 % 16) (elemCode (afmt i.f) i.a 0)) ≠ none ∧
       num (elemValue (bfmt i.f) (i.f / 4096 % 16) (elemCode (bfmt i.f) i.b 0)) ≠ none ∧ (i.prods.all fun p => !p.escape && !p.val.isNan) = true) ∧
    (∀ sides ∈ [[0, 0x80, 0x3F], []], let i := colOf 0x20022 0x08 sides 127
     i.f / 2 ^ 17 % 2 = 1 ∧ elemCode 2 i.a 0 = 8 ∧ (i.ascales.getD 0 0).toNat < 255 ∧ (outlier i.asides 0).isSome = !sides.isEmpty ∧
       ((outlier i.asides 0).all fun o => (num o).isSome) = true ∧
       num (elemValue (bfmt i.f) (i.f / 4096 % 16) (elemCode (bfmt i.f) i.b 0)) ≠ none) ∧
    (fmtScaled (afmt 0x20022) = true ∧ ((colOf 0x20022 0 [] 255).ascales.getD 0 0).toNat = 255) ∧
    (Ext.fin false 1 2).isNan = false ∧ (∃ s n d, Ext.fin false 1 2 = .fin s n d ∧ 0 < d) ∧
    (Fmt.asum.value 0).isNan = false ∧ ¬nanF 0x3F800000 ∧ num (f32 0x3F800000) ≠ none ∧ num (Fmt.asum.value 0) ≠ none ∧
    (f32 0x7F800000 = .inf false ∧ num (f32 0x7F7FFFFF) ≠ none) := by
  refine ⟨by decide +kernel, by decide +kernel, by decide, rfl, ⟨_, _, _, rfl, by decide⟩, by decide +kernel, by unfold nanF; decide, by decide +kernel, by decide +kernel,
    by decide +kernel, by decide +kernel⟩
theorem wit_arrayQuiescentPoint : ∀ h ∈ [Halt.preempt, .abort, .debug],
    let s := arrW { idle with op := some 31, halt := some h } (op22 .array) 0
    inArray s 0 31 (op22 .array) ∧ (s.core 0).arr.halt = some h ∧ (s.core 0).arr.held = false ∧ (s.core 0).arr.inflight = [] ∧
    [wave 0 0] ≠ [] := by
  unfold inArray; decide +kernel

/-- DrainMoves: an operation of two units whose program is empty; one whose argument block is not mapped; a unit to commit. -/
def drainW (t : MxTok) (units : List DrainUnit) : State := coreW { mx := [(31, t)], dre := ⟨[31], units⟩ } [0] kdMx
def drain2 (darg : Nat) : MxTok := { mxTok .drain with param := leBytes 4 0x00FF0301 ++ leBytes 4 0x00010201 ++ (par22.drop 8).take 16 ++ leBytes 8 darg ++ leBytes 32 0 }
theorem wit_drainUnitEntry : ∀ t ∈ [drain2 0, drain2 0x40000000],
    let s := drainW t []
    s.args = [0] ∧ (s.core 0).dre.queue = 31 :: [] ∧ nget (s.core 0).mx 31 = some t ∧ (s.core 0).dre.units.filter (·.tok == 31) = [] ∧
    s.teamHeld t.team = false ∧ t.abort = false ∧ (s.core 0).dre.units.length < 16 ∧ t.um < t.par.m := by decide +kernel
theorem wit_drainArguments : (match (drainW (drain2 0x40000000) []).readDarg 0 31 (drain2 0x40000000) with
      | .error _ => true
      | .ok _ => false) = true ∧
    (match (drainW (drain2 0) []).readDarg 0 31 (drain2 0) with
      | .error _ => false
      | .ok s1 =>
        let t := (s1.mxTok 0 31).getD (drain2 0)
        let prog := drainProgram (((nget ((drainW (drain2 0) []).core 0).drn (drain2 0).par.dslot).map (·.image)).getD [])
        match s1.refPushes 31 t prog with
        | .error _ => false
        | .ok s2 => match s2.dRun t (drain2 0).um (drain2 0).ug prog {} with
          | .error _ => false
          | .ok u0 => u0.pushes == [] && decide (t.par = (drain2 0).par) && decide ((drain2 0).ug + 1 ≠ (drain2 0).par.ng)) = true := by
  decide +kernel
def unit0 : DrainUnit := { tok := 31, m := 0, g := 0, stores := [([(0x80000100, 7)], [])], rows := [], pushes := [] }
/-- A program of one `d.push` to a queue of two entries: with room, without, closed. -/
def pushTok : MxTok := { drain2 0 with
  param := leBytes 4 0x00000301 ++ (drain2 0).param.drop 4, darg := some (leBytes 128 0 ++ leBytes 4 64 ++ leBytes 60 0) }
def ring (c0 : Nat) (closed : Bool) : LiveQ := ⟨0x400, 0x17, c0, 0, 0, 0, closed, []⟩
def pushW (q : LiveQ) (units : List DrainUnit) : State :=
  { coreW { mx := [(31, pushTok)], dre := ⟨[31], units⟩, drn := [(0, { team := 0, image := [0x63C00000] })] } [0] kdMx with
    teams := [(0, { team0 with queues := [(64, q)] })] }
def pushFits (q : LiveQ) (closed room : Bool) : Bool :=
  match (pushW q []).readDarg 0 31 pushTok with
  | .error _ => false
  | .ok s1 =>
    let t := (s1.mxTok 0 31).getD pushTok
    let prog := drainProgram [0x63C00000]
    match s1.refPushes 31 t prog with
    | .error _ => false
    | .ok s2 => match s2.dRun t 0 0 prog {} with
      | .error _ => false
      | .ok u0 => u0.pushes.map (·.1) == [64] && decide (t.ug + 1 ≠ t.par.ng) && decide (t.par = pushTok.par) && nhas (s2.core 0).mx 31 &&
        (s2.liveQ t.team 64).any (fun q => q.closed == closed && q.kind == 0) && s2.hasRoom t.team 64 1 == room
theorem wit_drainPush : pushFits (ring 0 false) false true = true ∧ pushFits (ring 2 false) false false = true ∧
    pushFits (ring 0 true) true true = true ∧ (pushW (ring 0 false) []).args = [0] ∧
    (∀ y ∈ ((pushW (ring 0 false) []).core 0).dre.units, y.more = []) ∧
    nget ((pushW (ring 0 false) []).core 0).mx 31 = some pushTok ∧ pushTok.um < pushTok.par.m ∧
    (((nget ((pushW (ring 0 false) []).core 0).drn pushTok.par.dslot).map (·.image)).getD []) = [0x63C00000] := by decide +kernel
def pushUnit : DrainUnit := { unit0 with pushes := [(64, List.replicate 32 7)] }
theorem wit_drainPushCommit : ((pushW (ring 0 false) [pushUnit]).core 0).dre.units = [pushUnit] ∧
    nget ((pushW (ring 0 false) [pushUnit]).core 0).mx pushUnit.tok = some pushTok ∧ pushUnit.more = [] ∧ pushTok.par.aq = false ∧
    (∀ y ∈ ((pushW (ring 0 false) [pushUnit]).team pushTok.team).queues, 32 + pushUnit.tok ∉ y.2.engines) ∧
    (∀ c ∈ pushUnit.stores.flatMap (·.1) ++ pushUnit.rows.map (·.2),
      regionOf c.1 ≠ .control ∧ (pushW (ring 0 false) [pushUnit]).liveByte c.1 = false) ∧
    pushUnit.pushes = [(64, List.replicate 32 7)] ∧ (List.replicate 32 (7 : Word)).length = 32 ∧
    nhas (pushW (ring 0 false) [pushUnit]).teams pushTok.team = true ∧
    nget ((pushW (ring 0 false) [pushUnit]).team pushTok.team).queues 64 = some (ring 0 false) ∧ (ring 0 false).kind ≤ 1 ∧
    (ring 0 false).base + (ring 0 false).count * (ring 0 false).size ≤ 0x800000 := by decide +kernel
theorem wit_drainUnitCommit : (drainW (drain2 0) [unit0]).args = [0] ∧ ((drainW (drain2 0) [unit0]).core 0).dre.units = [unit0] ∧
    nget ((drainW (drain2 0) [unit0]).core 0).mx unit0.tok = some (drain2 0) ∧ (drain2 0).abort = false ∧ (drain2 0).dgon = false ∧
    unit0.pushes = [] ∧ unit0.more = [] ∧ (drain2 0).par.aq = false ∧ (∀ y ∈ (drainW (drain2 0) [unit0]).teams, y.2.queues = []) ∧
    (∀ c ∈ unit0.stores.flatMap (·.1) ++ unit0.rows.map (·.2), regionOf c.1 ≠ .control) := by decide +kernel

/-! Witnesses: the package. -/

/-- HeatAndSupplies: the last core; the greatest MV and one beyond it; a change of supply that is due; clocks around 20,000. -/
def bare (args : List Nat) : State := { State.reset with args := args }
def idleCore (cycle : Nat) : State := { bare [255] with cycle := cycle }
def wanting (v : Option Nat) : State := { bare [1] with fw := { State.reset.fw with south := { State.reset.fw.south with want := v } } }
theorem wit_HeatAndSupplies : (bare [255, 3]).args = [255, 3] ∧ 255 < 256 ∧
    (((idleCore 20000).core 255).regs.gated = false ∧ (∀ t ∈ (idleCore 20000).teams, t.2.core ≠ 255) ∧
      ((idleCore 20000).core 255).regs.idleSince + 20000 ≤ (idleCore 20000).cycle) ∧
    (idleCore 19999).cycle < ((idleCore 19999).core 255).regs.idleSince + 20000 ∧ (1 < 2 ∧ 10 < 11 ∧ 11 < 256 ∧ 10 ≤ 10) ∧
    (((wanting (some 10)).die 1).want = some 10 ∧ ((wanting (some 10)).die 1).settling = false ∧
      ∀ c ∈ (wanting (some 10)).cores, c.1 / 128 = 1 → c.2.arr.op = none ∨ c.2.arr.begun = false) ∧
    ((wanting none).die 1).want = none ∧ (s0 []).fw.st = .run ∧ State.reset.fw.st ≠ .run := by
  decide +kernel

/-- PackageStates: before and in bring-up, an image given and none, each step, a core that is too hot, one that is not, a package
that is shut. -/
def fwW (st : PState) (step failAt : Nat) : State := { bare [] with fw := { State.reset.fw with st := st, step := step, failAt := failAt } }
def hotW (t : Nat) : State := { bare [] with cores := [(7, { regs := { temp := t } })] }
theorem wit_PackageStates : (bare [3, 1, 2]).args = 3 :: [1, 2] ∧ (fwW .boot 1 0).fw.st ≠ .reset ∧ (bare [0]).fw.st = .reset ∧
    ({ fwW .boot 5 0 with cycle := 20000000000 } : State).formationLate = true ∧ (fwW .boot 5 0).formationLate = false ∧
    ((fwW .boot 2 0).fw.st = .boot ∧ (fwW .boot 2 0).fw.step = 2) ∧ ((fwW .boot 3 3).fw.step = 3 ∧ (fwW .boot 3 3).fw.failAt = 3) ∧
    (fwW .boot 3 0).fw.failAt ≠ 3 ∧ ((fwW .boot 4 4).fw.step = 4 ∧ (fwW .boot 4 4).fw.failAt = 4) ∧ (fwW .boot 7 0).fw.step = 7 ∧
    (fwW .shut 0 0).fw.st = .shut ∧ (∀ c ∈ ((hotW 124).readings []).cores, c.2.regs.temp < 125) ∧
    ((∃ c ∈ ((hotW 125).readings []).cores, 125 ≤ c.2.regs.temp) ∧ ((hotW 125).readings []).fw.st ≠ .shut) := by decide +kernel

/-! Witnesses: queues, packets and teams. -/

/-- A registered queue of 64 packets whose ring lies at 0x30000, and a slot that serves it. -/
def uq0 (st : UqSt) (widx ridx : Nat) (started : NMap Started) : Uq :=
  { ring := 0x30000, rlog := 12, prio := 0, slice := 1, ctx := 0, ridxAddr := 0x40000, errAddr := 0x40040, evq := 0, widx := widx,
    ridx := ridx, st := st, started := started, saved := [], since := 0, hist := [], dereg := false, killed := false, afterWait := false,
    acquired := false }
def slot0 (st : SlotSt) (used : Nat) : Slot := { st := st, queue := 5, used := used, sliceEnergy := 0, lastActive := 0, capped := false }
def queueW (u : Uq) (slots : NMap Slot) (args : List Nat) : State :=
  { s0 [] with runs := [], args := args, sched := { State.reset.sched with queues := [(5, u)], slots := slots, admitOn := true } }
/-- QueueCommands: kicks at the edges: an index not above the last, a ring that is full, one packet more than it holds. -/
theorem wit_kick : (queueW (uq0 .empty 8 8 []) [] [5, 9]).args = [5, 9] ∧ 5 < 16384 ∧ 9 < 2 ^ 64 ∧
    nget (queueW (uq0 .empty 8 8 []) [] [5, 9]).sched.queues 5 = some (uq0 .empty 8 8 []) ∧
    nget (queueW (uq0 .empty 8 8 []) [] [16383, 9]).sched.queues 16383 = none ∧
    ((uq0 .empty 8 8 []).widx < 72 ∧ 72 - (uq0 .empty 8 8 []).ridx ≤ 2 ^ ((uq0 .empty 8 8 []).rlog - 6)) ∧
    2 ^ ((uq0 .empty 8 8 []).rlog - 6) < 73 - (uq0 .empty 8 8 []).ridx := by decide
/-- SlotsMove: two keys; slots of every state with a queue that is drained and one that is not; a queue in error; the mapping of one
pending queue to a free slot and to the slot longest idle; slots of a lower and of a higher rank than a pending queue's. -/
def manyW (st : SlotSt) (prio : Nat) : State :=
  queueW (uq0 .mapped 9 3 []) ((List.range 64).map fun k => (k, { slot0 st 200000 with lastActive := k })) [2] |> fun s =>
    { s with sched := { s.sched with queues := [(5, { uq0 .mapped 9 3 [] with prio := 3 }), (7, { uq0 .pending 9 3 [] with prio := prio })] } }
theorem wit_slotStates : (0 < (((uq0 .mapped 9 3 []).key 5).ratio).2 ∧ ((uq0 .mapped 9 3 []).key 5) ≠ ((uq0 .mapped 9 3 []).key 6)) ∧
    (∀ st ∈ [SlotSt.active, .idle, .saving, .error], ∀ w ∈ [3, 9],
      nget (queueW (uq0 .mapped w 3 []) [(2, slot0 st 0)] []).sched.slots 2 = some (slot0 st 0) ∧
      nget (queueW (uq0 .mapped w 3 []) [(2, slot0 st 0)] []).sched.queues (slot0 st 0).queue = some (uq0 .mapped w 3 []) ∧
      (w ≤ 3 ↔ (uq0 .mapped w 3 []).widx ≤ (uq0 .mapped w 3 []).ridx) ∧ (uq0 .mapped w 3 []).started = [] ∧
      nsorted (queueW (uq0 .mapped w 3 []) [(2, slot0 st 0)] []).sched.slots = true ∧
      (∀ y ∈ (queueW (uq0 .mapped w 3 []) [(2, slot0 st 0)] []).teams,
        ((queueW (uq0 .mapped w 3 []) [(2, slot0 st 0)] []).grid y.2.grid).src.queue = some 5 →
        (queueW (uq0 .mapped w 3 []) [(2, slot0 st 0)] []).hasEnded y.1 = true)) ∧
    (let s := { queueW (uq0 .mapped 9 3 []) [(2, slot0 .saving 0)] [] with grids := [(0, { grid0 with src := .packet 5 0 })] }
     ∃ y ∈ s.teams, (s.grid y.2.grid).src.queue = some 5 ∧ s.hasEnded y.1 = false) ∧
    ((queueW (uq0 .mapped 9 3 []) [(2, slot0 .saving 0)] []).slotOf 5 = some 2 ∧
      nhas (queueW (uq0 .mapped 9 3 []) [(2, slot0 .saving 0)] []).sched.queues 5 = true) := by decide +kernel
theorem wit_mapping : (manyW .idle 1).pendingQueues = [(7, { uq0 .pending 9 3 [] with prio := 1 })] ∧
    (∀ j < 64, nhas (manyW .idle 1).sched.slots j = true) ∧ (0, { slot0 .idle 200000 with lastActive := 0 }) ∈ (manyW .idle 1).sched.slots ∧
    (∀ y ∈ (manyW .idle 1).sched.slots, y.2.st = .idle → y.1 = 0 ∨ 0 < y.2.lastActive) ∧
    (queueW (uq0 .pending 9 3 []) [] []).pendingQueues = [(5, uq0 .pending 9 3 [])] ∧
    nhas (queueW (uq0 .pending 9 3 []) [] []).sched.slots 0 = false := by decide +kernel
theorem wit_displace : let s := queueW { uq0 .mapped 9 3 [] with prio := 3 } [(2, slot0 .active 0)] []
    (2, slot0 .active 0) ∈ s.sched.slots ∧ nsorted s.sched.slots = true ∧
    (∀ y ∈ s.sched.slots, y.2.st = .active ∨ y.2.st = .error → y.1 = 2 ∨
      ((s.uq y.2.queue).key y.2.queue).lt ((s.uq (slot0 .active 0).queue).key (slot0 .active 0).queue) = true) ∧
    2 < (s.uq (slot0 .active 0).queue).prio ∧ (s.uq (slot0 .active 0).queue).prio ≤ 3 := by decide +kernel
/-- A descriptor that is sound at UQTBASE, and none. -/
def regW : State :=
  { queueW (uq0 .empty 0 0 []) [] [6] with
    sched := { State.reset.sched with uqtbase := BitVec.ofNat 64 tier2Base, queues := [(5, uq0 .empty 0 0 [])] }
    mem := Memory.writeN [] (tier2Base + 64 * 6) (leBytes 8 0x30000 ++ leBytes 1 12 ++ leBytes 27 0 ++ leBytes 4 1 ++ leBytes 24 0) }
theorem wit_uqreg : regW.args = [6] ∧ 6 < 16384 ∧ nhas regW.sched.queues 6 = false ∧
    queueDescOk (regW.physBytes (regW.sched.uqtbase.toNat + 64 * 6) 64) = true ∧
    queueDescOk (regW.physBytes (regW.sched.uqtbase.toNat + 64 * 7) 64) = false ∧ nhas regW.sched.queues 5 = true := by decide +kernel
theorem wit_uqdereg : regW.fw.st = .run ∧ State.reset.fw.st ≠ .run ∧ nsorted (queueW (uq0 .faulted 9 3 []) [] [5]).sched.queues = true ∧
    (uq0 .faulted 9 3 []).started = [] ∧ (uq0 .empty 0 0 []).st ≠ .faulted ∧ ((uq0 .faulted 9 3 []).st = .faulted ∧ (uq0 .faulted 9 3 []).saved = []) ∧
    nget regW.sched.queues 6 = none ∧ nget (queueW (uq0 .faulted 9 3 []) [] [5]).sched.queues 5 = some (uq0 .faulted 9 3 []) := by decide
theorem wit_uqclr : ∀ v ∈ [3, 9], (queueW (uq0 .faulted 9 3 []) [] [v, 5 * 2 ^ 18]).args = [v % 2 ^ 32, (5 * 2 ^ 50 + v) / 2 ^ 32] ∧
    (uq0 .faulted 9 3 []).ridx ≤ v ∧ v ≤ (uq0 .faulted 9 3 []).widx ∧ (queueW (uq0 .faulted 9 3 []) [] []).slotOf 5 = none ∧
    ((uq0 .faulted 9 3 []).widx < v + 7 ∨ v < (uq0 .faulted 9 3 []).ridx) ∧
    (queueW (uq0 .faulted 9 3 []) [(2, slot0 .error 0)] []).slotOf 5 = some 2 ∧
    nget (queueW (uq0 .faulted 9 3 []) [(2, slot0 .error 0)] []).sched.slots 2 = some (slot0 .error 0) := by decide
/-- A slice at its end while a queue of the same priority waits for a slot. -/
theorem wit_sliceFull : (manyW .active 3).args = [2] ∧
    nget (manyW .active 3).sched.slots 2 = some { slot0 .active 200000 with lastActive := 2 } ∧
    nget (manyW .active 3).sched.queues 5 = some { uq0 .mapped 9 3 [] with prio := 3 } ∧
    ({ uq0 .mapped 9 3 [] with prio := 3 } : Uq).sliceUs * 2000 ≤ 200000 ∧
    (∃ y ∈ (manyW .active 3).sched.queues, y.2.st = .pending ∧ y.2.prio ≤ 3) ∧
    (∀ j < 64, nhas (manyW .active 3).sched.slots j = true) ∧ (∀ y ∈ (manyW .active 3).sched.slots, y.2.st ≠ .idle) := by decide +kernel
/-- A slice of 100 microseconds at its end and a clock before. -/
theorem wit_slice : (queueW (uq0 .mapped 9 3 []) [(2, slot0 .active 200000)] [2]).args = [2] ∧ nget (queueW (uq0 .mapped 9 3 []) [(2, slot0 .active 200000)] [2, 7]).sched.slots 2 = some (slot0 .active 200000) ∧
    nget (queueW (uq0 .mapped 9 3 []) [(2, slot0 .active 200000)] [2, 7]).sched.queues (slot0 .active 0).queue = some (uq0 .mapped 9 3 []) ∧
    (uq0 .mapped 9 3 []).sliceUs * 2000 ≤ (slot0 .active 200000).used ∧ (slot0 .active 199999).used < (uq0 .mapped 9 3 []).sliceUs * 2000 ∧
    ((queueW (uq0 .mapped 9 3 []) [] []).sched.queues.all fun y => y.2.st != .pending) = true ∧ (slot0 .idle 0).st ≠ .active := by decide
theorem wit_map : (queueW (uq0 .pending 9 3 []) [] []).sched.queues = [(5, uq0 .pending 9 3 [])] ∧
    (queueW (uq0 .pending 9 3 []) [] []).sched.slots = [] ∧ (queueW (uq0 .pending 9 3 []) [] []).sched.reserved = [] ∧
    (uq0 .pending 9 3 []).dereg = false ∧ (uq0 .pending 9 3 []).drained = false := by decide

/-- PacketsStartAndComplete: a BARRIER packet and one of no type at the head of a queue that is mapped. -/
def headW (ty : Nat) (started : NMap Started) (args : List Nat) : State :=
  let s := queueW (uq0 .mapped 1 0 started) [(0, slot0 .active 0)] args
  { s with mem := s.mem.writeN (tier2Base + 0x30000) (leBytes 8 ty) }
def headFits (ty : Nat) : Bool :=
  match (headW ty [] [5]).seqRead 0 0x30000 64 with
  | .ok (b, s1) => (match s1.checkPacket 0 b with
    | .ok _ => pkType b == ty && ty != 0
    | .error _ => ty == 0)
  | .error _ => false
theorem wit_heads : ∀ ty ∈ [0, 6], nhas (headW ty [] [5]).sched.queues 5 = true ∧ ((headW ty [] [5]).uq 5).st = .mapped ∧
    ((headW ty [] [5]).uq 5).dereg = false ∧ ((headW ty [] [5]).ctx 0).killed = false ∧ ((headW ty [] [5]).ctx 0).ck.replay = none ∧
    (∃ k ∈ (headW ty [] [5]).sched.slots, k.2.queue = 5 ∧ k.2.st = .active) ∧ ((headW ty [] [5]).uq 5).ridx < ((headW ty [] [5]).uq 5).widx ∧
    headFits ty = true ∧ (headW ty [] [5]).loop.postq.length < 1024 := by decide +kernel
theorem wit_startHead : nhas (headW 3 [] []).sched.queues 5 = true ∧ ((headW 3 [] []).uq 5).ridx = 0 ∧
    ∀ k ∈ [1, 2, 3, 4, 7], pkType (leBytes 64 k) = k := by decide +kernel
/-- A graph of a BARRIER node after another, and a work that has ended or not. -/
def node (preds : List Nat) (w : Option Work) (done : Bool) : GNode := { kind := 6, args := [], preds := preds, work := w, done := done }
def graph (nodes : NMap GNode) (w : Work) (cpl : Option (Nat × Nat)) : Started :=
  { ty := 7, cpl := cpl, work := w, nodes := nodes, ktab := 0, mptab := 0, image := [] }
theorem wit_startable : (uq0 .mapped 1 0 []).started.length < 16 ∧ (uq0 .mapped 1 0 []).started = [] ∧
    ¬startable { uq0 .mapped 1 0 [(3, graph [] .graph none)] with afterWait := true } (leBytes 64 3) := by
  refine ⟨by decide, rfl, fun h => absurd (h.2 (Or.inr (Or.inr (Or.inr rfl)))) nofun⟩
/-- Signals: a word of tier 2, one of the locket, an address with no translation. -/
def signalW (pte : Nat) : State := { s0 [] with mem := mem0.writeN (tier2Base + 0x12008) (leBytes 8 pte) }
theorem wit_signal : ((signalW 0).ctx 0).ck.replay = none ∧ (signalW (0x80000000 + 0xF)).inLocket 0 0x40000000 = true ∧
    (signalW 0).inLocket 0 0x20040 = false ∧
    (match (signalW 0).signalAt 0 0x40000000 8 with
      | .error _ => true
      | .ok _ => false) = true ∧
    (match (signalW (0x80000000 + 0xF)).signalAt 0 0x40000000 8 with
      | .ok x => regionOf x.pa == .locket
      | .error _ => false) = true ∧
    (match (signalW 0).signalAt 0 0x20040 8 with
      | .ok x => regionOf x.pa == .tier2
      | .error _ => false) = true ∧ State.reset.loop.st ≠ .down := by decide +kernel
def graphW (x : Started) (args : List Nat) : State := headW 6 [(3, x)] args
def twoNodes : Started := graph [(0, node [] (some .barrier) true), (1, node [0] none false), (2, { node [] none false with kind := 9 })] .graph none
theorem wit_graphNodeStart : (graphW twoNodes [5, 3, 1]).args = [5, 3, 1] ∧ nodeIs (graphW twoNodes [5, 3, 1]) 5 3 1 twoNodes (node [0] none false) ∧
    (∀ p ∈ (node [0] none false).preds, ∃ y, nget twoNodes.nodes p = some y ∧ y.done = true) ∧
    (graphW twoNodes [5, 3, 1]).planReady ((graphW twoNodes [5, 3, 1]).uq 5).ctx = true ∧
    (graphW twoNodes [5, 3, 1]).loop.postq.length < 1024 ∧
    (match (graphW twoNodes [5, 3, 1]).nodeWork 5 3 1 twoNodes (node [0] none false) with
      | .ok _ => true
      | .error _ => false) = true ∧
    (match (graphW twoNodes []).nodeWork 5 3 1 twoNodes { node [] none false with kind := 4, args := [2 ^ 40, 0] } with
      | .ok _ => false
      | .error _ => true) = true ∧ (node [0] (some .barrier) true).work ≠ none := by
  refine ⟨rfl, ⟨rfl, rfl⟩, ?_, rfl, by decide, by decide +kernel, by decide +kernel, nofun⟩
  intro p hp
  obtain rfl : p = 0 := by simpa [node] using hp
  exact ⟨_, rfl, rfl⟩
def finished0 : Grid := { grid0 with ended := [0] }
/-- Completions of a WAIT_LSN packet and node, of a post's, of a copy that fails; completion stores that succeed, fail, and are none. -/
theorem wit_otherCompletions :
    (∀ w ∈ [Work.waitLsn 0, .post 0, .copy 0x40000000 0x20000 16],
      nget ((graphW (graph [] w none) [5, 3, 0]).uq 5).started 3 = some (graph [] w none) ∧
      (graphW (graph [] w none) [5, 3, 0]).args = [5, 3, 0]) ∧
    ((graphW (graph [] .ended none) []).ctx ((graphW (graph [] .ended none) []).uq 5).ctx).ck.replay = none ∧
    (match (graphW (graph [] .ended none) []).copyRange 0 0x40000000 0x20000 16 with
      | .ok _ => false
      | .error _ => true) = true ∧
    (match (graphW (graph [] .ended (some (0x40000000, 7))) []).seqWrite 0 0x40000000 (leBytes 8 7) with
      | .ok _ => false
      | .error _ => true) = true ∧
    nodeIs (graphW (graph [(4, node [] (some (.waitWord 0x20040)) false)] .graph none) [5, 3, 5]) 5 3 4
      (graph [(4, node [] (some (.waitWord 0x20040)) false)] .graph none) (node [] (some (.waitWord 0x20040)) false) ∧
    (match (graphW twoNodes []).seqRead 0 0x20040 8 with
      | .ok (_, t) => (t.ctx 0).ck.replay.isNone && t.loop.applied == (graphW twoNodes []).loop.applied
      | .error _ => false) = true := by
  unfold nodeIs; decide +kernel
theorem wit_packetCompletion : (graphW twoNodes [5, 3, 0]).args = [5, 3, 0] ∧
    nget ((graphW (graph [] (.grid 0) none) [5, 3, 0]).uq 5).started 3 = some (graph [] (.grid 0) none) ∧
    ((graphW (graph [] (.grid 0) none) [5, 3, 0]).grid 0).finished = false ∧
    ({ graphW (graph [] (.grid 0) none) [5, 3, 0] with grids := [(0, finished0)] }.grid 0).finished = true ∧
    (∀ y ∈ (graph [(0, node [] (some .barrier) true)] .graph none).nodes, y.2.done = true) ∧
    (match (graphW (graph [] .ended (some (0x40000, 7))) []).copyRange 0 0x20000 0x40000 16 with
      | .ok _ => true
      | .error _ => false) = true ∧
    (match (graphW (graph [] .ended (some (0x40000, 7))) []).seqWrite 0 0x40000 (leBytes 8 7) with
      | .ok _ => true
      | .error _ => false) = true ∧
    (nodeIs (graphW (graph [(4, node [] (some (.grid 0)) false)] .graph none) [5, 3, 5]) 5 3 4 (graph [(4, node [] (some (.grid 0)) false)] .graph none)
      (node [] (some (.grid 0)) false)) :=
  ⟨rfl, rfl, rfl, rfl, by decide, by decide +kernel, by decide +kernel, ⟨rfl, rfl⟩⟩

/-- TeamsArePlaced and TeamsAdmittedAndSaved: a grid with a team to admit, one without; a saved team to resume. -/
def admitW (next : Nat) : State :=
  let s := queueW (uq0 .mapped 1 1 [(3, graph [] (.grid 0) none)]) [(0, slot0 .active 0)] []
  { s with teams := [], strands := [], grids := [(0, { grid0 with next := next })], ctxs := [(0, { ctx0 with ssize := 16 })] }
/-- Where it goes: the core runs, or it is gated, or it is about to run. -/
def fresh (s : State) : Option (List Place) :=
  match (s.readings s.args).choice with
  | .fresh _ p _ _ => some p
  | _ => none
def gatedW (r : CoreRegs) : State := { admitW 0 with cores := [(0, { regs := { r with band := 0 } })] }
theorem wit_teamAdmission : ((fresh (gatedW {})).map fun p => p.map (·.core)) = some [0] ∧
    ((fresh (gatedW {})).any fun p => p.all fun x => !((gatedW {}).core x.core).regs.gated) = true ∧
    ((fresh (gatedW { gated := true })).any fun p => p.any fun x => ((gatedW { gated := true }).core x.core).regs.gated) = true ∧
    ((fresh (gatedW { wakeAt := 1 })).any fun p => p.any fun x => decide (0 < ((gatedW { wakeAt := 1 }).core x.core).regs.wakeAt)) = true ∧
    (match ((admitW 1).readings (admitW 1).args).choice with
      | .none => true
      | _ => false) = true := by decide +kernel
def savedTeam : Saved :=
  { team := 9, info := { team0 with cluster := [9] }, strands := [], mx := [], cp := [], drn := [], mem := [], core := 0, image := 0, size := 0, lsn := 0 }
theorem wit_teamResumption :
    (match ({ admitW 1 with
        saved := [(9, savedTeam)]
        sched := { (admitW 1).sched with queues := [(5, { uq0 .mapped 1 1 [] with saved := [9] })] } }.readings []).choice with
      | .saved t _ => t == 9
      | _ => false) = true := by decide +kernel
/-- A cluster of two cores that has been a candidate for CLRESV microseconds, and a clock less. -/
def clusterW (cycle : Nat) : State :=
  { admitW 0 with
    args := [0], cycle := cycle
    grids := [(0, { grid0 with next := 0, teams := 2, last := 2, share := (0, 2), kd := { kd0 with cw := 2 } })]
    sched := { (admitW 0).sched with waiting := [(.fresh 0, 0)] } }
theorem wit_clusterReservation : (clusterW 2000000).args = [0] ∧ (clusterW 2000000).sched.clresv ≠ 0 ∧
    (14 + ((clusterW 2000000).grid 0).kd.cw ≤ 16 ∧ 15 + ((clusterW 2000000).grid 0).kd.ch ≤ 16) ∧
    (∀ r ∈ (clusterW 2000000).sched.reserved, r.1 ≠ 0) ∧
    (∃ c ∈ (clusterW 2000000).sched.waiting, (clusterW 2000000).candGrid c.1 = 0 ∧ (∃ x ∈ (clusterW 2000000).candidates, x.2 = c.1) ∧
      c.2 + (clusterW 2000000).sched.clresv * 200000 ≤ (clusterW 2000000).cycle) ∧
    (∀ k ∈ rectCores 2 1 14 15, ((clusterW 2000000).core k).regs.hot = false) ∧ { State.reset.sched with clresv := 0 }.clresv = 0 := by
  decide +kernel
/-- Places: of a team, of a cluster of two, and none where every core is hot. -/
theorem wit_places : kd0.cw = 1 ∧ kd0.ch = 1 ∧ ((admitW 0).place 0 kd0 (fun _ => kd0.want) fun _ _ => true).isSome = true ∧
    ((admitW 0).place 0 kd0 (fun _ => kd0.want) fun _ _ => false).isSome = false ∧
    ((admitW 0).fits 0 kd0 kd0.want 255).isSome = true ∧
    (placeOne [⟨2, [(0, 16)], false⟩, ⟨1, [], false⟩, ⟨1, [], false⟩] [128]) = some (1, [0]) := by decide +kernel
theorem wit_clusterPlace : 1 < ({ kd0 with cw := 2 } : KDesc).cw * ({ kd0 with cw := 2 } : KDesc).ch ∧
    ((admitW 0).place 0 { kd0 with cw := 2 } (fun _ => kd0.want) fun _ _ => true).isSome = true ∧
    ((admitW 0).place 0 { kd0 with cw := 2 } (fun _ => kd0.want) fun _ _ => false).isSome = false := by decide +kernel
theorem wit_admitNext : nhas (admitW 0).grids 0 = true ∧ ((admitW 0).ctx ((admitW 0).grid 0).ctx).dbg.reexec = false ∧
    ((s0 []).grid ((s0 []).team 0).grid).kd.qbinds = [] ∧ 4 ≤ 4 := by decide
/-- A team that is to be saved: its strand still runs; it has stopped, with a load on its way and with none; its time around the limit. -/
def savingW (st : TSt) (fl : Flight) (cycle : Nat) : State :=
  { mk p0 { st0 v12 with lanes := [(0, { loneThread with st := st })], fl := fl, stopping := true } { team0 with saving := true } grid0 ctx0 mem0 with
    runs := [], args := [0], cycle := cycle }
theorem wit_saving : (savingW .ready {} 0).args = [0] ∧ nhas (savingW .ready {} 0).teams 0 = true ∧
    ((savingW .ready {} 0).ctx ((savingW .ready {} 0).grid ((savingW .ready {} 0).team 0).grid).ctx).dbg.halted = false ∧
    (∃ k ∈ (savingW .run {} 0).clusterLive 0, (savingW .run {} 0).teamStopped k = false) ∧ (savingW .exited {} 0).clusterLive 0 ≠ [] ∧
    (∀ k ∈ (savingW .exited {} 0).clusterLive 0, (savingW .exited {} 0).teamStopped k = true ∧ ((savingW .exited {} 0).team k).ptoHalted = false) ∧
    (∃ k ∈ (savingW .exited oneLoad 0).clusterLive 0,
      ((savingW .exited oneLoad 0).haltArrays (((savingW .exited oneLoad 0).clusterLive 0).contains ·) .preempt).quiet k = false) ∧
    (∀ k ∈ (savingW .exited {} 0).clusterLive 0,
      ((savingW .exited {} 0).haltArrays (((savingW .exited {} 0).clusterLive 0).contains ·) .preempt).quiet k = true) := by decide +kernel
theorem wit_preemptionTimeout : ((savingW .run {} 2000000).team 0).saving = true ∧ ((savingW .run {} 2000000).team 0).ptoHalted = false ∧
    (savingW .run {} 0).ctx 0 = ctx0 ∧ ctx0.pto = 0 ∧ ctx0.ck.taking = false ∧
    ((savingW .run {} 2000000).clusterLive 0).all (savingW .run {} 2000000).teamStopped = false ∧
    ((savingW .run {} 2000000).team 0).stopReq + 1000 * 2000 ≤ (savingW .run {} 2000000).cycle ∧
    (savingW .run {} 1999999).cycle < ((savingW .run {} 1999999).team 0).stopReq + 1000 * 2000 ∧
    (∀ k, ((savingW .run {} 2000000).team 0).stopAt = some k → k < 2000000) := by decide +kernel
/-- Kills of a context that runs and of one that is killed; control registers at the ends of their ranges. -/
theorem wit_controls : ((s0 []).ctx 0).killed = false ∧ nsorted (s0 []).teams = true ∧
    ({ s0 [] with ctxs := [(255, { ctx0 with killed := true })] }.ctx 255).killed = true ∧ State.reset.fw.st ≠ .run ∧ (s0 []).fw.st = .run ∧
    (0x400010 % 4 = 0 ∧ 0x400010 ≠ 0x400028 ∧ 0x400010 ≠ 0x40002C) ∧ 2 ^ 32 - 1 < 2 ^ 32 := by decide

/-! Witnesses: the loop. -/

/-- A package that takes part in a loop of 64 slots, at a clock, with an event. -/
def loopW (args : List Nat) (f : Loop → Loop) : State :=
  { bare args with cycle := 1000, loop := f { State.reset.loop with join := true, st := .run, circ := 64, gen := 3 } }
/-- A slot's event. -/
def slotW' (n : Nat) (b : List Byte) (f : Loop → Loop) : State := loopW (n :: b.map (·.toNat)) f
/-- A WRITE of package 3, its slot with a bit changed, and one out of order; one of this package. -/
def rec (seq src : Nat) : LRec := ⟨1, 8, seq, src, 8, leBytes 8 77 ++ leBytes 40 0⟩
def bad (b : List Byte) : List Byte := b.take 63 ++ [b.getD 63 0 ^^^ 1]
theorem wit_records :
    (slotComes (slotW' 63 (rec 0 3).bytes id) 63 (rec 0 3).bytes 1 ∧ (rec 0 3).bytes ≠ List.replicate 64 0xFF ∧
      (rec 0 3).bytes ≠ List.replicate 64 0 ∧ validSlot (rec 0 3).bytes = true ∧
      (recOfBytes (rec 0 3).bytes).seq = ((nget (slotW' 63 (rec 0 3).bytes id).loop.seqs 3).getD 255 + 1) % 256) ∧
    (slotComes (slotW' 2 (bad (rec 0 3).bytes) id) 2 (bad (rec 0 3).bytes) 1 ∧ validSlot (bad (rec 0 3).bytes) = false) ∧
    (slotComes (slotW' 2 (rec 1 3).bytes id) 2 (rec 1 3).bytes 1 ∧ validSlot (rec 1 3).bytes = true ∧
      (recOfBytes (rec 1 3).bytes).seq ≠ ((nget (slotW' 2 (rec 1 3).bytes id).loop.seqs 3).getD 255 + 1) % 256) ∧
    (slotComes (slotW' 2 (rec 0 0).bytes id) 2 (rec 0 0).bytes 1 ∧ (recOfBytes (rec 0 0).bytes).src = (slotW' 2 (rec 0 0).bytes id).pkgid) ∧
    (slotW' 2 (rec 0 3).bytes fun l => { l with st := .forming }).loop.st = .forming := by
  unfold slotComes; decide +kernel
def post0 : Post := ⟨rec 0 0, .share, 0⟩
theorem wit_heldGrant : slotComes (slotW' 2 (List.replicate 64 0xFF) fun l => { l with hold := true, left := 1, postq := [post0] }) 2
      (List.replicate 64 0xFF) 0xFF ∧ 1 < 2 ∧
    (slotW' 2 (List.replicate 64 0xFF) fun l => { l with hold := true, left := 1, postq := [post0] }).loop.hold = true ∧
    (slotW' 2 (List.replicate 64 0xFF) fun l => { l with hold := true, left := 1, postq := [post0] }).loop.postq = post0 :: [] ∧
    (slotW' 2 (List.replicate 64 0xFF) fun l => { l with hold := true }).loop.left = 0 ∧
    (loopW [] fun l => { l with join := false }).loop.join = false := by
  unfold slotComes; decide +kernel
/-- LoopReceives: grants of the generation held and of others, while FORMING, invalid, twice in a circulation; IDLE records. -/
def grantW (n gen : Nat) (f : Loop → Loop) : State := slotW' n (grantRec 3 gen).bytes f
theorem wit_grants : (slotComes (grantW 2 3 fun l => { l with postq := [post0] }) 2 (grantRec 3 3).bytes 0x10 ∧
      fld (recOfBytes (grantRec 3 3).bytes).payload 0 2 = (grantW 2 3 fun l => { l with postq := [post0] }).loop.gen ∧
      (grantW 2 3 fun l => { l with postq := [post0] }).loop.hold = false ∧ (grantW 2 3 fun l => { l with postq := [post0] }).loop.postq ≠ [] ∧
      (grantW 2 3 fun l => { l with postq := [post0] }).loop.lastGrant = none ∧ validSlot (grantRec 3 3).bytes = true) ∧
    validSlot (bad (grantRec 3 3).bytes) = false ∧
    (fld (recOfBytes (grantRec 3 1).bytes).payload 0 2 = 1 ∧ (grantW 2 1 fun l => { l with st := .forming }).loop.numbered = false) ∧
    (fld (recOfBytes (grantRec 3 2).bytes).payload 0 2 ≠ (grantW 2 2 fun l => { l with master := true }).loop.gen) ∧
    (let s := grantW 2 3 fun l => { l with lastGrant := some 3, circs := 0 }
     s.loop.lastGrant = some 3 ∧ placeOf s 2 < 3 + s.loop.circ ∧ s.loop.rx = []) ∧
    (let s := grantW 2 3 fun l => { l with lastGrant := some 2, circs := 1 }
     2 + s.loop.circ ≤ placeOf s 2) := by
  unfold slotComes; decide +kernel
theorem wit_idle : ∀ c ∈ [63, 64, 500, 501], slotComes (slotW' 0 (idleRec 0 5 c).bytes id) 0 (idleRec 0 5 c).bytes 0x11 ∧
    validSlot (idleRec 0 5 c).bytes = true ∧ validSlot (bad (idleRec 0 5 c).bytes) = false := by
  unfold slotComes; decide +kernel
/-- Empty slots at a package that does not hold the grant: the master's GRANT is due, and is not. -/
theorem wit_emptySlots : ∀ g ∈ [none, some 4], slotComes (slotW' 2 (List.replicate 64 0xFF) fun l => { l with grantDue := g }) 2
      (List.replicate 64 0xFF) 0xFF ∧ (slotW' 2 (List.replicate 64 0xFF) fun l => { l with grantDue := g }).loop.hold = false ∧
    (slotW' 2 (List.replicate 64 0xFF) fun l => { l with grantDue := g }).loop.grantDue = g := by
  unfold slotComes; decide +kernel
/-- Grants to be taken or passed: of the generation held, and of a later one; one that is neither. The master's IDLE that is due. -/
theorem wit_goodGrants : goodGrant (grantW 2 3 id) 2 3 ∧ goodGrant (grantW 2 4 id) 2 4 ∧ ¬aheadOf (grantW 2 2 id) 2 ∧
    (2 ≠ (grantW 2 2 id).loop.gen ∧ (grantW 2 2 id).loop.st = .run) ∧
    (let s := loopW [] fun l => { l with master := true, idleOut := some 936 }
     s.loop.join = true ∧ s.loop.master = true ∧ s.loop.st ≠ .down ∧ circOk s.loop.circ = true ∧ s.loop.idleOut = some 936 ∧
      936 + s.loop.circ ≤ s.cycle) := by
  unfold goodGrant aheadOf
  refine ⟨Or.inl ⟨rfl, fun t h => ?_⟩, Or.inr ⟨by decide, by decide⟩, by decide, by decide, by decide⟩
  cases h
theorem wit_loopFaults : (loopW [] id).loop.st = .run ∧ (loopW [] id).loop.rx = [] ∧
    (loopW [] fun l => { l with idleAt := 743 }).idleMissing = true ∧ (loopW [] fun l => { l with idleAt := 744 }).idleMissing = false ∧
    ((loopW [] fun l => { l with master := true, noGrant := 4 }).loop.master = true ∧ 4 ≤ (loopW [] fun l => { l with noGrant := 4 }).loop.noGrant) ∧
    (loopW [] fun l => { l with noGrant := 3 }).loop.noGrant < 4 := by decide
/-- LoopApplies: records of every type, the oldest received; an ATOMIC in the last bytes of the locket; messages; a kill order. -/
def rxW (r : LRec) : State := loopW [] fun l => { l with rx := [⟨r, 7, none⟩], lsn := 7 }
def lrec (ty arg : Nat) (payload : List Byte) : LRec := ⟨ty, arg, 0, 3, 8, payload⟩
theorem wit_LoopApplies : (∀ ty ∈ [1, 2, 3, 4, 5, 6], ∃ e ∈ applyForms 1, e.2 (lrec ty 0 (leBytes 48 0)) = true) ∧
    (∃ e ∈ applyForms 1, e.2 (lrec 4 0 (killPayload 1 0)) = true) ∧ (∃ e ∈ applyForms 1, e.2 (lrec 1 0 []) = false) ∧
    calm (rxW (rec 0 3)) ∧ (rxW (rec 0 3)).mem.wf = true ∧ (rxW (rec 0 3)).loop.rx = ⟨rec 0 3, 7, none⟩ :: [] ∧
    ((rec 0 3).len ≤ 48 ∧ (rec 0 3).payload.length = 48 ∧ (rec 0 3).arg % 2 ^ 24 + (rec 0 3).len ≤ 2 ^ 24) ∧
    ((lrec 2 0xFFFFF8 []).arg % 2 ^ 24 + 8 ≤ 2 ^ 24) ∧ (lrec 3 1 []).arg % 32 ≠ (rxW (rec 0 3)).pkgid ∧
    ((lrec 3 0x300 []).arg % 32 = (rxW (rec 0 3)).pkgid ∧ (nget (rxW (rec 0 3)).loop.inboxes (bitsOf 0x300 11 8)).getD {} = {}) ∧
    (rxW (rec 0 3)).loop.postq.length < 1024 := by
  unfold calm; decide +kernel
/-- A message for an inbox of two entries with room, and for one that is full. -/
def inboxAt (tail : Nat) : State :=
  loopW [] (fun l => { l with inboxes := [(3, { base := tier2Base + 0x3000, lcnt := 1, en := true })] }) |> fun s =>
    { s with mem := s.mem.writeN (tier2Base + 0x3000) (leBytes 8 tail) }
theorem wit_inbox : (lrec 3 0x300 []).ty = 3 ∧ (lrec 3 0x300 []).arg % 32 = (inboxAt 0).pkgid ∧
    (∀ n ∈ [1, 2], ∃ b, nget (inboxAt n).loop.inboxes (bitsOf (lrec 3 0x300 []).arg 11 8) = some b ∧ b.en = true ∧ b.lcnt ≠ 0 ∧ b.undef = false ∧
      ((inboxAt n).mem.readLe b.base 8 + 2 ^ 64 - (inboxAt n).mem.readLe (b.base + 8) 8) % 2 ^ 64 = n) ∧
    (lrec 3 0x300 (leBytes 48 5)).payload.length = 48 ∧ (∀ t ∈ (inboxAt 0).teams, t.2.queues = []) ∧
    (∀ i < 64 + 64 * 2 ^ 1, regionOf (tier2Base + 0x3000 + i) ≠ .control) := by
  refine ⟨rfl, by decide, ?_, by decide, by decide, by decide +kernel⟩
  intro n h
  obtain rfl | rfl : n = 1 ∨ n = 2 := by simpa using h
  all_goals exact ⟨_, rfl, rfl, by decide, rfl, by decide +kernel⟩
/-- LAUNCH records: a kernel of one role at 0x20100; for another package; with a reserved byte; with an address that is not mapped; of
one cluster for this package, and of one for this package and the next, of which this one has none. -/
def kernelBytes : List Byte :=
  leBytes 8 0 ++ [1, 1, 1, 0] ++ leBytes 12 0 ++ leBytes 8 (2 ^ 64 - 1) ++ leBytes 4 0x20000 ++ leBytes 2 32 ++ [1, 16, 16] ++ leBytes 99 0 ++
    leBytes 4 none32
def launchPay (va mask last : Nat) : List Byte :=
  leBytes 8 va ++ leBytes 8 0 ++ leBytes 4 1 ++ leBytes 4 mask ++ leBytes 8 0 ++ leBytes 4 none32 ++ leBytes 11 0 ++ leBytes 1 last
def launchW : State := { s0 [] with mem := mem0.writeN (tier2Base + 0x20100) kernelBytes }
def launches (va mask : Nat) : Bool :=
  match launchW.checkLaunch (launchCtx (lrec 4 0 (launchPay va mask 0))) 2 va 1 0 0 with
  | .ok (kd, v) => kd.cw * kd.ch == 1 && v.pkgid == 0
  | .error _ => false
theorem wit_launches : kernelBytes.length = 144 ∧ launches 0x20100 1 = true ∧ launches 0x40000000 1 = false ∧
    (∀ x ∈ [(1, 0), (3, 0), (2, 0), (1, 9)], (lrec 4 0 (launchPay 0x20100 x.1 x.2)).killOrder launchW.npkg = false ∧
      (launchPay 0x20100 x.1 x.2).length = 48) ∧
    bitOf (fld (launchPay 0x20100 2 0) 0x14 4) launchW.pkgid = false ∧ bitOf (fld (launchPay 0x20100 3 0) 0x14 4) launchW.pkgid = true ∧
    ((launchPay 0x20100 1 0).drop 0x1D).take 3 ++ ((launchPay 0x20100 1 0).drop 0x24).take 12 = leBytes 15 0 ∧
    ((launchPay 0x20100 1 9).drop 0x1D).take 3 ++ ((launchPay 0x20100 1 9).drop 0x24).take 12 ≠ leBytes 15 0 ∧
    (launchW.sched.shares.filter fun y => launchW.shareWaits y.2).length < 64 ∧ fld (launchPay 0x20100 3 0) 0x20 4 = none32 := by
  decide +kernel
/-- DIGEST records: DGX clear, set, and set where another source has given another value. -/
def digestW (dgx : Bool) (d : List (Nat × Nat × Nat × Nat × Nat)) : State :=
  { s0 [] with ctxs := [(0, { ctx0 with dbg := { dgx := dgx } })], loop := { State.reset.loop with digests := d } }
theorem wit_digests : ((digestW false []).ctx 0).dbg.dgx = false ∧ ((digestW true []).ctx 0).dbg.dgx = true ∧
    fld (lrec 6 0 (leBytes 48 0)).payload 8 4 = 0 ∧ (4, 0, 0, 0, 7) ∈ (digestW true [(4, 0, 0, 0, 7)]).loop.digests ∧ (4 : Nat) ≠ 3 ∧
    (7 : Nat) ≠ fld (lrec 6 0 (leBytes 48 0)).payload 0 8 := by decide +kernel
/-- LoopControls: JOIN set and clear; a heater at its greatest code. -/
theorem wit_LoopControls : (s0 []).fw.st = .run ∧ State.reset.fw.st ≠ .run ∧ ¬shown State.reset ∧ shown (s0 []) ∧ (loopW [1] id).args = [1] ∧ (loopW [0] id).loop.join = true ∧
    (loopW [1] fun l => { l with join := false }).loop.join = false ∧ (loopW [15, 4095] id).args = [15, 4095] ∧ 4095 < 4096 ∧ 37 < 38 := by
  unfold shown; decide

/-! Witnesses: the fabric, the host and the debug unit. -/

/-- Port 2 is up; a frame of each operation comes from package 3 for this one, or for another. -/
def fabState (args : List Nat) (port : FabPort) (f : Fab → Fab) : State :=
  { s0 [] with runs := [], args := args, cycle := 1000000
               fab := f { State.reset.fab with en := true, ports := [(2, port)] } }
def upPort : FabPort := { st := .up, en := true }
def frame (op dst psn : Nat) (addr : Nat) (data : List Byte) : Machine.Frm := ⟨op, 1, false, 0, 3, dst, psn, 0, addr, 9, if op = 9 then 0x32 else 0, data⟩
def dataOf (op : Nat) : List Byte :=
  if op = 1 ∨ op = 3 then leBytes 4 5 else if op = 2 then leBytes 8 4 else if op = 4 ∨ op = 6 then leBytes 8 1 else if op = 5 then leBytes 16 1 else []
def frameOf (op dst : Nat) : Machine.Frm := frame op dst 0 (if op ≤ 5 then 0x20040 else 0) (dataOf op)
def frameW (f : Machine.Frm) (ok hop : Nat) (g : Fab → Fab) : State := fabState ([2, ok, hop, natOf false] ++ f.bytes.map (·.toNat)) upPort g
theorem wit_FabricReceives : (∀ e ∈ frameForms, comes (frameW (frameOf e.2 0) 1 4 id) e.2 2 1 4 false (frameOf e.2 0).bytes ∧
      validFrame (frameOf e.2 0).bytes = true ∧ (frmOfBytes (frameOf e.2 5).bytes).dst ≠ (frameW (frameOf e.2 0) 1 4 id).pkgid ∧
      validFrame ((frameOf e.2 0).bytes ++ [0]) = false) ∧
    ((frmOfBytes (frame 0 0 0 0 []).bytes).op = 0 ∧ 11 < (frmOfBytes (frame 12 0 0 0 []).bytes).op) ∧
    ((fabState [] upPort id).conn (frameOf 1 0).connFrom).st ≠ 2 ∧
    (1 ≠ ((fabState [] upPort id).conn 13).rxPsn ∧ 1024 < sub24 ((fabState [] upPort id).conn 13).rxPsn 1) ∧
    ((fabState [] upPort id).ctx 255).valid = false ∧ ((fabState [] upPort id).ctx 0).valid = true ∧ 0x20042 % 4 ≠ 0 ∧ 0x20044 % 8 ≠ 0 ∧
    haltedW.ctx 0 = { ctx0 with dbg := { halted := true } } := by
  unfold comes; decide +kernel
/-- NAKS for a frame after the one that is expected, the first time and later; a duplicate before it; the port a NAKS leaves by. -/
def oddW (c : Conn) : State := fabState [] upPort fun f => { f with conns := [(13, c)], fwd := [(3, 4)] }
theorem wit_outOfOrder : (∀ n ∈ [true, false], ((oddW { rxPsn := 5, naked := n }).conn 13).naked = n ∧
      ((oddW { rxPsn := 5, naked := n }).conn 13).st ≠ 2 ∧ (frame 1 0 9 0 []).connFrom = 13 ∧
      9 ≠ ((oddW { rxPsn := 5, naked := n }).conn 13).rxPsn ∧ 1024 < sub24 ((oddW { rxPsn := 5, naked := n }).conn 13).rxPsn 9 ∧
      3 ≠ ((oddW { rxPsn := 5, naked := n }).conn 13).rxPsn ∧ sub24 ((oddW { rxPsn := 5, naked := n }).conn 13).rxPsn 3 ≤ 1024) ∧
    (oddW {}).fab.en = true ∧
    (oddW {}).outPort ⟨8, 0, ((oddW {}).conn 12).ece, 0, (oddW {}).pkgid, 3, 0, (oddW {}).apsnOf 12, 0, 0, 0, []⟩ = some 2 ∧
    ((oddW {}).port 2).st = .up ∧ ((oddW {}).port 2).paused = 0 ∧ ((oddW {}).port 2).peerSleep = false := by decide
/-- The response that is kept for a duplicate: still unacknowledged, still queued, neither; none is kept. -/
def reply0 : Machine.Frm := ⟨6, 1, false, 0, 0, 3, 0, 0, 0x40, 9, 0, leBytes 8 1⟩
def again : Machine.Frm := ⟨4, 1, false, 0, 3, 0, 7, 0, 0x40, 9, 0, leBytes 8 1⟩
theorem wit_duplicates : again.connFrom = 13 ∧ sameReply reply0 again reply0 = true ∧
    (∀ c ∈ [({ kept := [(7, reply0)], unacked := [⟨reply0, 1, 0⟩] } : Conn), { kept := [(7, reply0)], queued := [reply0] }, { kept := [(7, reply0)] }],
      ((oddW c).conn 13).kept.find? (fun x => x.1 == again.psn && x.2.tag == again.tag) = some (7, reply0)) ∧
    (∀ x ∈ ((oddW {}).conn 13).kept, x.1 ≠ again.psn ∨ x.2.tag ≠ again.tag) := by decide
/-- The ACK of a SLEEP, at a port that drains. -/
theorem wit_drainAck : ∃ f : Machine.Frm, f.op = 7 ∧ f.src = Config.portPeer 2 ∧ f.cls = 0 ∧
    ((fabState [] { upPort with st := .drain } id).port 2).st = .drain ∧
    ((fabState [] { upPort with st := .drain } id).port 2).acked = false ∧
    ((fabState [] { upPort with st := .drain } id).conn f.connFrom).unacked = [] :=
  ⟨⟨7, 0, false, 0, Config.portPeer 2, 0, 0, 0, 0, 0, 0, []⟩, rfl, rfl, rfl, rfl, rfl, rfl⟩
/-- FramesPerformed: requests to mapped memory; answers to a get, an atomic and one that is refused. -/
def op9 : FabOp :=
  { strand := 0, num := 0, op := 2, posted := false, conn := 13, ctx := 0, remote := 0x20040, lane := 0, frames := 1, locals := [], fence := 0,
    held := [], evq := 0, queue := 0, failed := false }
def withOp (f : Fab) : Fab := { f with ops := [(9, op9)] }
theorem wit_FramesPerformed : ∀ e ∈ frameForms,
    let f := frmOfBytes (frameOf e.2 0).bytes
    let s := frameW (frameOf e.2 0) 1 4 withOp
    let m := performing s f
    comes s e.2 2 1 4 false (frameOf e.2 0).bytes ∧ f.dst = s.pkgid ∧ f.ece = false ∧ (s.conn f.connFrom).st ≠ 2 ∧
    f.psn = (s.conn f.connFrom).rxPsn ∧ s.holdsFrame f = false ∧ (m.ctx f.ctx).valid = true ∧ f.addr % 8 = 0 ∧
    (match m.fabParts f.ctx 0x20040 8 .write true with
      | .ok ps => ps.length == 1
      | .error _ => false) = true ∧
    (match m.fabParts f.ctx 0x20040 4 .read false with
      | .ok ps => ps.all fun p => regionOf p.pa != .control
      | .error _ => false) = true ∧
    (∀ x ∈ m.teams, x.2.queues = []) ∧ nget m.fab.ops f.tag = some op9 ∧ op9.frames ≠ 0 ∧ op9.posted = false ∧
    s.asksReset f.connFrom f.apsn = true ∧ s.asksReset f.connFrom 5 = false ∧ (s.port 2).st = .up ∧ bitOf (s.port 2).paused 0 = false := by
  unfold comes; decide +kernel
/-- FabricTimersAndPorts: connections with something to acknowledge or to resend, at their times; ports in their states. -/
def connW (c : Conn) (cycle : Nat) : State := { fabState [13] upPort (fun f => { f with conns := [(13, c)] }) with cycle := cycle }
def sent1 (tries : Nat) : Unacked := ⟨frame 1 3 0 0x40 [1, 2, 3, 4], tries, 0⟩
/-- The limit of FABTO at and before its end; a target without a port; connections that are asked to be reset. -/
theorem wit_FabricLate : (sent1 1 ∈ ((connW { unacked := [sent1 1] } 20000000).conn 13).unacked ∧ (sent1 1).tries ≠ 0 ∧
      (sent1 1).first + (connW { unacked := [sent1 1] } 20000000).fab.fabto * 2000 ≤ (connW { unacked := [sent1 1] } 20000000).cycle) ∧
    (∀ u ∈ ((connW { unacked := [sent1 1] } 19999999).conn 13).unacked, u.tries = 0 ∨
      (connW {} 19999999).cycle < u.first + (connW {} 19999999).fab.fabto * 2000) ∧
    (nget (oddW {}).fab.fwd 3).getD 0 ≠ 0 ∧ ((nget (connW {} 0).fab.fwd 3).getD 0 = 0 ∧ ((connW { unacked := [sent1 1] } 0).conn 13).unacked ≠ []) ∧
    (∀ x ∈ (connW {} 0).fab.ops, x.2.conn ≠ 13 ∨ x.2.frames = 0 ∨ x.2.held ≠ []) ∧ ((connW { st := 2 } 0).conn 13).st = 2 ∧
    (((connW { rxPsn := 1 } 0).conn 13).st ≠ 2 ∧ ((connW { rxPsn := 1 } 0).conn 13).rxPsn ≠ 0) ∧
    (((connW {} 0).conn 13).rxPsn = 0 ∧ ((connW {} 0).conn 13).txPsn = 0 ∧ ((connW {} 0).conn 13).naked = false ∧
      ((connW {} 0).conn 13).unacked = []) := by decide +kernel
theorem wit_FabricTimers : (connW { since := 1 } 8000).args = [13] ∧
    (((connW { since := 1 } 8000).conn 13).since ≠ 0 ∧ ((connW { since := 1 } 8000).conn 13).owe = none ∧
      ((connW { since := 1 } 8000).conn 13).ackAt + 8000 ≤ 8000) ∧
    (connW {} 0).resendDue 13 = false ∧ (connW { unacked := [sent1 1] } 128000).resendDue 13 = true ∧
    ((connW { st := 2 } 128000).resendDue 13 = true ∧ ((connW { st := 2 } 128000).conn 13).st = 2) ∧
    (((connW { rate := 799 } 100000).conn 13).rate < 800 ∧ ((connW { rate := 799 } 100000).conn 13).calmAt + 100000 ≤ 100000) ∧
    800 ≤ ((connW {} 0).conn 13).rate ∧ sent1 16 ∈ ((connW { unacked := [sent1 16] } 0).conn 13).unacked ∧ 16 ≤ (sent1 16).tries := by
  decide +kernel
theorem wit_Ports : (fabState [2, 255, 255] upPort id).args = [2, 255, 255] ∧ ((fabState [2, 255, 255] upPort id).port 2).queue = [] ∧
    (fabState [2, 255, 255] upPort id).fab.conns = [] ∧ ((fabState [2, 1] {} id).port 2).st = .down ∧
    ((fabState [2, 0] upPort id).port 2).st ≠ .down ∧ ((fabState [2, 1] upPort id).port 2).st = .up ∧
    ((fabState [2] { upPort with st := .drain, acked := true } id).port 2).st = .drain ∧
    (fabState [] upPort fun f => { f with en := false }).fab.en = false ∧ (fabState [2, 1] upPort id).fw.st = .run ∧
    (upPort.oweAck = false ∧ upPort.oweSleep = false) ∧
    ((fabState [2, 1] { upPort with hintAt := some 1000000 } id).port 2).hintAt = some (fabState [2, 1] upPort id).cycle ∧
    ((fabState [2, 1] upPort id).port 2).hintAt ≠ some (fabState [2, 1] upPort id).cycle ∧ clear (fabState [2, 1] upPort id) 2 ∧
    ((fabState [2] { upPort with st := .drain, queue := [default] } id).port 2).queue ≠ [] := by
  unfold clear; decide +kernel

/-- HostLinkMoves: a link that is up, in RUN and not; windows at their ends; requests outstanding. -/
def hostW (args : List Nat) (up : Bool) (reqs : List HostReq) : State :=
  { s0 [] with runs := [], args := args, host := { State.reset.host with up := up, reqs := reqs } }
def req0 : HostReq := ⟨0, 1, ⟨0, 0x10000000000000, 1, 0, 1, 0x50000⟩, 0⟩
def hostLoad : PendLoad := { writes := [], on := .host }
theorem wit_HostLinkMoves : (hostW [4, 384 * 2 ^ 30 - 8, 8] true []).args = [4, 384 * 2 ^ 30 - 8, 8] ∧ 384 * 2 ^ 30 - 8 + 8 ≤ 384 * 2 ^ 30 ∧
    (hostW [] true []).host.up = true ∧ (hostW [] false []).host.up = false ∧ (hostW [] true []).fw.st = .run ∧ State.reset.fw.st ≠ .run ∧
    2 ^ 24 - 4 + 4 ≤ 2 ^ 24 ∧ 384 * 2 ^ 30 < 384 * 2 ^ 30 - 1 + [(1 : Byte), 2].length ∧
    ((hostW [] true []).host.reqs = [] ∧ ∀ x ∈ (hostW [] true []).strands, ∀ l ∈ x.2.fl.loads, l.on ≠ .host) ∧
    (hostW [0, 0] true [req0]).host.reqs[0]? = some req0 ∧ (hostW [0, 0] true []).fw.st ≠ .shut ∧
    (let s := { hostW [1, 0, 0] true [] with strands := [(0, { st0 [] with fl := { loads := [hostLoad] } })] }
     nhas s.strands 0 = true ∧ (s.str 0).fl.loads[0]? = some hostLoad ∧ ∀ w ∈ hostLoad.writes, w.1.lane ∈ hostLoad.hosts) ∧
    384 * 2 ^ 30 ≤ 2 ^ (20 + (hostW [] true []).host.bar4) ∧ (∀ t ∈ (hostW [] true []).teams, t.2.queues = []) ∧
    (hostBase ≤ 2 * hostBase - 1 ∧ 2 * hostBase - 1 + [(1 : Byte)].length ≤ 2 * hostBase) ∧
    (nget configId 0x02 = some 0x20 ∧ nhas configId 0x103 = true) ∧ shown (hostW [] true []) ∧ ¬shown State.reset ∧
    ((hostW [] true []).cycle < req0.since + ctoUs (hostW [] true []).host.cto * 2000 ∧
      req0.since + ctoUs 0 * 2000 ≤ { hostW [] true [] with cycle := ctoUs 0 * 2000 }.cycle) := by
  unfold shown; decide +kernel

/-- DebugCommands: contexts that run, halted for reasons 1 and 4, with room for a dump; dumps in each phase; periods; checkpoints;
samplers. -/
def dbgW (args : List Nat) (d : CtxDbg) (k : CtxCk) (cycle : Nat) : State :=
  { s0 [] with runs := [], args := args, cycle := cycle, ctxs := [(0, { ctx0 with dbg := d, ck := k })] }
def kill0 : Kill := { (default : Kill) with ctx := 0, reason := 3 }
theorem wit_Dumps : (s0 []).fw.st = .run ∧ State.reset.fw.st ≠ .run ∧
    (((dbgW [] { dumpsize := 64 } {} 0).ctx kill0.ctx).killed = false ∧ kill0.reason ≤ 4 ∧
      ((dbgW [] { dumpsize := 64 } {} 0).ctx kill0.ctx).dbg.dump = none ∧ ((dbgW [] { dumpsize := 64 } {} 0).ctx kill0.ctx).dbg.halted = false) ∧
    ((dbgW [] { dump := some { kill := some kill0 } } {} 0).ctx 0).dbg.dump = some { kill := some kill0 } ∧
    (let s := dbgW [] { dump := some { kill := some kill0 } } {} 0
     { s with runs := [] }.dumpReady 0 = true ∧ ({ s with runs := [⟨0, p0⟩] }.dumpReady 0 = false) ∧ s.dumpSlot = true) ∧
    (∀ n, 0 % (n + 1) = 0) := by
  refine ⟨rfl, by decide, by decide, rfl, by decide +kernel, fun n => Nat.zero_mod _⟩
theorem wit_DebugCommands : (dbgW [0] {} {} 0).args = [0] ∧ ((dbgW [0] { halted := true, why := 1 } {} 0).ctx 0).dbg.halted = true ∧
    ((dbgW [0] { halted := true, why := 4 } {} 0).ctx 0).dbg.why ≠ 2 ∧ (dbgW [0] {} {} 0).fab.halted = [] ∧
    ((dbgW [0] { halted := true, dumpsize := 64 } {} 0).ctx 0).dbg.dumpsize ≠ 0 ∧ ((dbgW [0] { full := true } {} 0).ctx 0).dbg.full = true ∧
    (let s := { dbgW [0] {} {} 0 with teams := [] }
     (s.ctx 0).dbg.full = false ∧ (s.ctx 0).ck.taking = false ∧ (s.ctx 0).killed = false ∧ (s.ctx 0).ck.replay = none ∧
       ∀ t ∈ s.teams, (s.grid t.2.grid).ctx ≠ 0) ∧
    ((dbgW [0] { period := 1 } {} 2000000).ctx 0).ck.last + ((dbgW [0] { period := 1 } {} 2000000).ctx 0).dbg.period * 2000000 ≤ 2000000 ∧
    1999999 < ((dbgW [0] { period := 1 } {} 1999999).ctx 0).ck.last + ((dbgW [0] { period := 1 } {} 1999999).ctx 0).dbg.period * 2000000 ∧
    nget ((dbgW [0, 0] {} {} 0).ctx 0).ck.stored 0 = none ∧
    nget ((dbgW [0, 0] {} { stored := [(0, ⟨0x40000, [savedTeam], []⟩)] } 0).ctx 0).ck.stored 0 = some ⟨0x40000, [savedTeam], []⟩ := by
  decide +kernel
def sampleW (due : NMap Nat) (tags : NMap Tag) : State := { s0 [] with args := [0], dbg := { State.reset.dbg with sampEn := true, due := due, tags := tags } }
def tag0 : Tag := { strand := 0, ctx := 0, slot := 0, word := some (0x20008, 0, 3, 0xFFFFFFFF, 0), status := some 0,
                    level := 0, since := 0 }
theorem wit_Samplers : (sampleW [(0, 0)] []).args = [0] ∧ (sampleW [(0, 0)] []).dbg.sampEn = true ∧ nget (sampleW [(0, 0)] []).dbg.due 0 = some 0 ∧
    nget (sampleW [(0, 1)] []).dbg.due 0 ≠ some 0 ∧ nget (sampleW [(0, 0)] []).dbg.tags 0 = none ∧ (sampleW [(0, 0)] []).inPart 0 = [0] ∧
    nget (sampleW [] [(0, tag0)]).dbg.tags 0 = some tag0 ∧ tag0.status = some 0 ∧ tag0.word.isSome = true ∧
    (sampleW [] [(0, tag0)]).dbg.en = false ∧ nsorted (sampleW [] [(0, tag0)]).dbg.tags = true := by decide +kernel

/-! Witnesses: values, paths, targets, traps and `reform` at the ends of their clauses. -/

/-- RoundedValues: a NaN, an infinity and a number in FP32; the layouts and the wide formats; a value that overflows E4M3 in the mode
that rounds up and one that does not overflow in the mode that truncates; a quotient's divisor. -/
theorem wit_RoundedValues : (Fmt.f32, 23, 127) ∈ layouts ∧ (Fmt.asum, 29, 511) ∈ layouts ∧ (Fmt.asum, (2 ^ 30 - 1) * 2 ^ 482, 2 ^ 481) ∈ wide ∧
    (Fmt.e4m3, 448, 16, 0x7E, 0x7F) ∈ narrow ∧ (0x3FFFFFFFFF : ℕ) % 2 ^ (Fmt.asum.width - 1) ≤ Fmt.asum.maxFin ∧
    nanF 0x7FC00000 ∧ (f32 0xFF800000 : Ext) = .inf true ∧ (∃ x, num (f32 0x3F800000) = some x) ∧ (∃ x, num (Fmt.bf16.value (lo16 0x3F80)) = some x) ∧
    overflows 448 16 .rup 449 ∧ overflows 448 16 .rne 464 ∧ ¬overflows 448 16 .rtz 1000 ∧ ¬overflows 448 16 .rne 463 ∧
    ((Fmt.f16.value 0x7E00).isNan = true ∧ (Fmt.f16.value 0x8000).isZero = true ∧ (Fmt.f16.value 0).isZero = true) ∧
    (|(4294967296 : ℤ)| ≤ 2 ^ 32 ∧ |(-4294967296 : ℤ)| ≤ 2 ^ 32) ∧ (Fmt.e5m2.value 0x7C).isInf = true ∧ (Fmt.e5m2.value 0x7D).isNan = true := by
  refine ⟨by simp [layouts], by simp [layouts], by simp [wide], by simp [narrow], by decide, by unfold nanF; decide,
    by decide, ⟨_, rfl⟩, ⟨_, rfl⟩, ?_, ?_, ?_, ?_, by decide, by decide, by decide, by decide⟩ <;> norm_num [overflows, abs_of_pos]

/-- RoundedValues, Facet-8 and E8M0: the ends of the bias; payloads with and without leading ones; FP32 numbers below the least code,
above the greatest, and between. -/
theorem wit_DecimalValues : (-8 : ℤ) ≤ -8 ∧ (7 : ℤ) ≤ 7 ∧ (0x81 < 2 ^ 8 ∧ 0x81 % 128 ≠ 0) ∧ (f8dValue 0 0x80).isNan = true ∧
    (∃ x, hasF8d 0 1 x) ∧ (∃ x, num (f32 0x7F000001) = some x) ∧ (∃ x, num (f32 0x7F400001) = some x) ∧
    ((2 : ℚ) ^ 127 < 3 * 2 ^ 126) ∧ ((0 : ℚ) < 2 ^ (-127 : ℤ)) := by
  refine ⟨by decide, by decide, by decide, by decide, ⟨_, by decide, rfl⟩, ⟨_, rfl⟩, ⟨_, rfl⟩, by norm_num, by positivity⟩

/-- PathsPartitionReadyThreads: a strand of three ready threads, two at one PC; the second path is the other's, or, where it has
starved, that of a thread that has waited long enough. -/
def threads3 (n : Nat) : Strand :=
  { st0 [] with lanes := [(0, { loneThread with st := .ready }), (5, { loneThread with st := .ready, pc := 0x20100, starve := n }),
                          (31, { loneThread with st := .ready })] }
theorem wit_Paths_offer : nsorted (threads3 0).lanes = true ∧ (∀ x ∈ (threads3 0).lanes, x.1 < 32) ∧
    (threads3 0).group 0 = (threads3 0).group 31 ∧ (threads3 0).paths.map (·.2) = [[0, 31], [5]] ∧
    ((threads3 0).offer true false).isSome = true ∧ ((threads3 0).offer true true).isSome = true ∧
    (∃ y ∈ (threads3 1024).paths.tail, 1024 ≤ (threads3 1024).starve y.2) ∧
    (∀ y ∈ (threads3 1023).paths.tail, (threads3 1023).starve y.2 < 1024) := by decide

/-- TargetsChecked: no address, no quad, word 0; quads 0, 1 and 7 of a line that can be fetched; a line that cannot. -/
theorem wit_TargetsChecked : 2 ^ 56 ≤ (0x100000000000004 : Word64).toNat ∧
    (∀ x ∈ [(0, 0x20004), (1, 0x20010), (7, 0x20070)], x.1 < 8 ∧ (x.2 : Word64).toNat < 2 ^ 56 ∧
      (x.2 : Word64).toNat % 128 = if x.1 = 0 then 4 else 16 * x.1) ∧
    (match (s0 []).fetchLine 0 0x20000 with
      | (.ok line, _) => (line.getD 0 0).getLsbD 0 && (line.getD 0 0).getLsbD 8 && !(line.getD 0 0).getLsbD 1
      | (.error _, _) => false) = true ∧
    (match (s0 []).fetchLine 0 0x40000000 with
      | (.ok _, _) => false
      | (.error _, _) => true) = true := by
  refine ⟨by decide, by decide, ?_, ?_⟩ <;> decide +kernel

/-- FailedTargetsTrap: the conditional branches and the jumps; a lane whose target passes beside one whose target fails. -/
theorem wit_FailedTargets : (Instr.bany (.v 3) 0, fun x p _ => p.lanes.any fun j => x j != 0) ∈ conditional (.v 3) 0 ∧
    (Instr.callr (.v 6) (.v 4), true, some (.v 6)) ∈ [(Instr.jr (.v 4), true, none), (Instr.ret (.v 4), false, none), (Instr.callr (.v 6) (.v 4), true, some (Sel.v 6))] ∧
    (let r := (s0 []).checkTargets 0 true [(0, 0x20004), (1, 0x20010)]
     r.1 = [(0, 0x20004)] ∧ r.2.1 = [(1, 0x03, 0, 0x20010)]) := by
  refine ⟨by simp [conditional], by decide, by decide +kernel⟩

/-- LoopWord: a third loop in lane 1, at trap level 0. -/
def loop3 : State :=
  let two : List LoopEnt := [⟨3, 0x20004, 0x20084⟩, ⟨3, 0x20004, 0x20084⟩]
  mk p0 { st0 vBr with lanes := [(0, loneThread), (1, { loneThread with loops := two })] } team0 grid0 ctx0
    (mem0.writeN (tier2Base + 0x20080) (leBytes 4 0x0101 ++ leBytes 4 0x61))
theorem wit_LoopWord_third : (match (begun loop3 []).clauseSucc 0 0x20084 with
      | (.ok (some a), u) => a == 0x20104 && (match ready u 0 p0 [(.v 3, 1)] [] with
        | some (_, t, vals) => (p0.lanes.filter fun l => x32 vals l 0 != 0 && decide (2 ≤ ((t.str 0).th l).loops.length)) == [1] &&
            (t.str 0).csr.tlevel == 0
        | none => false)
      | _ => false) = true := by decide +kernel

/-- TrapAtHigherLevels: contexts with and without dumps whose traps are fatal, at levels 0, 1 and 2. -/
theorem wit_fatal : ((level 0 [] [] 0).ctx 0).dbg.dump = none ∧ ((level 0 [] [] 0).ctx 0).dbg.dumpsize = 0 ∧ (level 0 [] [] 0).loop.st ≠ .down ∧
    (((level 1 [0] [] 0).str 0).csr.tlevel = 1 ∧ (∀ l ∈ [0], ((level 1 [0] [] 0).str 0).group l = 1) ∧
      ((level 1 [0] [] 0).gridOf 0).tbase.getD 0 = 0) ∧
    (let s := mk p0 (st0 v12) team0 { grid0 with tbase := some 0 } { ctx0 with dbg := { dumpsize := 64 } } mem0
     (s.ctx 0).killed = false ∧ (s.ctx 0).dbg.dump = none ∧ (s.ctx 0).dbg.dumpsize ≠ 0) := by decide

/-- ReformOrders: a parked lane; two frames; a bound port; a load under way; a token that is busy; tokens that have stopped. -/
def formW (f : Strand → Strand) (c : Core) : State := { stW f with cores := [(0, c)] }
theorem wit_ReformOrders : ((formW (fun st => { st with csr := { tlevel := 1, s1 := [0] } }) {}).str 0).group (lowest p0.lanes) ≠ 0 := by decide
theorem wit_ReformOrders_more : 1 < (frames2.str 0).frames.length ∧ ((portW (qKind 0x142 0 0)).str 0).ports = [(0, ⟨64, none⟩)] ∧
    ((stW fun st => { st with fl := { loads := [{ writes := [], on := .ready }] } }).str 0).pending = true ∧
    (∃ t ∈ (begun (formW id { mx := [(31, mxTok .array)] }) []).mxHeld 0, t.2.st.busy = true) ∧
    (∃ t ∈ (begun (formW id { cp := [(63, cpTok .busy)] }) []).cpHeld 0, t.2.st = .busy) ∧
    (let s := formW id { mx := [(31, mxTok .stopped)] }
     (begun s []).reformReady 0 = true ∧ (∀ l ∈ p0.lanes, (s.str 0).holds l = false) ∧
     ((begun s []).mxHeld 0).find? (fun t => t.2.st == .stopped && !t.2.reported) = some (31, mxTok .stopped)) ∧
    (let s := formW id { cp := [(63, cpTok .stopped)] }
     (begun s []).reformReady 0 = true ∧ (∀ k t, ((begun s []).mxHeld 0).find? (fun t => t.2.st == .stopped && !t.2.reported) ≠ some (k, t)) ∧
     ((begun s []).cpHeld 0).find? (fun t => t.2.st == .stopped && !t.2.reported) = some (63, cpTok .stopped)) := by
  refine ⟨by decide, by decide, by decide, by decide, by decide, by decide, by decide, ?_, by decide⟩
  intro k t; exact nofun

/-! Witnesses: the remaining clauses of queues, engines, digests, clauses, bins and teams. -/

/-- ClockPasses: cores in order, a core with a bin whose team is halted, a core with an idle array. -/
theorem wit_ClockPasses_cores : nsorted (agedW (bin0 0 none) [] 1).cores = true ∧ nsorted (s0 v12).cores = true ∧
    (haltedW.ctx (haltedW.grid (haltedW.team 0).grid).ctx).dbg.halted = true ∧ ({ idle with op := some 31 } : ArraySt).op.isSome = true := by decide

/-- QueuePortsMove: full latches of the other kinds, one word a lane and one word; a port whose token the engines' forms await. -/
def latchOf (shape : Nat) (ws : List Word) : State :=
  { mk p0 { st0 v12 with ports := [(0, ⟨64, some ws⟩)] } { team0 with queues := [(64, qKind shape 0 0)] } grid0 ctx0 mem0 with args := [0, 0] }
theorem wit_latch_kinds : ∀ e ∈ [((0x142 : Nat), ([5, 7] : List Word)), (0x242, [5])],
    (qKind e.1 0 0).kind ≠ 3 ∧ (qKind e.1 0 0).kind ≠ 0 ∧ e.2 ≠ [] ∧ nget ((latchOf e.1 e.2).str 0).ports 0 = some ⟨64, some e.2⟩ ∧
    nget ((latchOf e.1 e.2).teamOf 0).queues 64 = some (qKind e.1 0 0) ∧ (latchOf e.1 e.2).args = [0, 0] ∧
    (qKind e.1 0 0).base + (qKind e.1 0 0).count * (qKind e.1 0 0).size ≤ 0x800000 ∧ ((latchOf e.1 e.2).str 0).fl.loads = [] ∧
    ((latchOf e.1 e.2).str 0).fl.stores = [] ∧ (∀ w ∈ ((latchOf e.1 e.2).str 0).waits, w.on.loading = false ∧ w.on.hostAtom = false) := by decide
theorem wit_noPort : (match (s0 []).portGate 0 p0.lanes [] (portOf (.v 3)) with
      | .go => true
      | _ => false) = true := by decide

/-- DigestForms: a lead strand whose check posts; lanes that hold their traps, and lanes that do not. -/
def dgW : State := mk p0 { st0 v12 with role := 4 } team0 grid0 { ctx0 with dbg := { dgx := true } } mem0
theorem wit_digestPosted : (dgW.ctxOf 0).dbg.dgx = true ∧ (dgW.str 0).role = 4 ∧ postable (begun dgW []) 0 ∧ (dgW.coreOf 0).cp = [] ∧
    quiet (begun dgW []) 0 p0 ∧ p0.lanes.all ((s0 v12).str 0).holds = false ∧
    p0.lanes.all ((level 1 [5] [] 0x20000).str 0).holds = true := by
  refine ⟨rfl, rfl, by unfold postable live; decide, rfl, quiet_of (by decide), by decide, by decide⟩

/-- IllegalClausesTrap: a line that is ill-formed, a header with a reserved bit, a word of a reserved major; words for each check. -/
def clauseStops (s : State) : Option (Bool × Bool × Option (Nat × Nat × Nat)) :=
  match (underWay s 0 [0, 1] []).fetchLine 0 0x20000 with
  | (.ok line, t) =>
    let hdr := wordAt line 1
    if t.bpMatch 0 [0, 1] (0x20004 + 4) = none ∧ (([0, 1] : List Nat).all fun l => ((t.str 0).th l).chk == none) = true ∧
      t.maskHolds 0 (bitsOf hdr 28 22) = true ∧ ((t.passMask 0 (bitsOf hdr 28 22)).str 0).due [0, 1] false false false = [] then
      some (lineOk 0x20000 line, headerFails (t.str 0).isLead hdr, clauseFails (t.issueCtx 0) hdr [wordAt line 2])
    else none
  | _ => none
def lineW (line0 hdr word : Nat) : State :=
  let s := readyW hdr {}
  { s with mem := (s.mem.writeN (tier2Base + 0x20000) (leBytes 4 line0)).writeN (tier2Base + 0x20008) (leBytes 4 word) }
theorem wit_IllegalClauses : clauseStops (lineW 0x0101 0x61 0) = some (true, false, none) ∧
    (clauseStops (lineW 0x01000101 0x61 0)).map (·.1) = some false ∧
    (clauseStops (lineW 0x0101 0x20000061 0)).map (fun x => (x.1, x.2.1)) = some (true, true) ∧
    clauseStops (lineW 0x0101 0x61 0xE0000000) = some (true, false, some (1, 3, 0x00)) ∧
    ((lineW 0x0101 0x61 0).str 0).waits = [] := by
  refine ⟨?_, ?_, ?_, ?_, ?_⟩ <;> decide +kernel
theorem wit_noMasks : noMasks (st0 v12) := fun _ hw => absurd hw List.not_mem_nil

/-- FilingOpensBin: no bin of the key; sixteen bins of other keys; a partition without a block. -/
def fullBins : State := { s0 [] with cores := [(0, { bins := (List.range 16).map fun k => (k, bin0 0 none) })] }
theorem wit_FilingOpensBin : ((s0 []).team ((s0 []).str 0).team).saving = false ∧ (s0 []).binPart 0 < 4 ∧
    ((∀ k < 16, nhas (fullBins.core 0).bins k = true) ∧ ∀ y ∈ (fullBins.core 0).bins, y.2.pc ≠ 0x20084) ∧
    nget ((s0 []).core 0).bins 0 = none ∧ (s0 []).openRequests 0 ((s0 []).binPart 0) = [] ∧ (s0 []).fileRequests 0 = [] ∧
    ((s0 []).findBlock 0 ((s0 []).binPart 0) (((s0 []).gridOf 0).kd.role ((s0 []).str 0).role).frame).isSome = true ∧
    packedW.findBlock 0 0 256 = none := by decide +kernel

/-- BinsAndTeamsEnd: a partition with a strand slot free, and one without; the last team of a cluster of one ends, and passes a ticket on. -/
def slotless : State := { s0 [] with strands := (List.range 32).map fun k => (k, st0 []) }
theorem wit_BinsAndTeamsEnd : (agedW (bin0 0 (some 0)) [] 1).slotsFull 0 (bin0 0 (some 0)).frame.part = false ∧ slotless.slotsFull 0 0 = true ∧
    (let s := { doneW true with grids := [(0, { grid0 with teams := 2, tickets := [(3, { (default : Ticket) with value := 0 })] })] }
     (s.ctx (s.grid (s.team 0).grid).ctx).ck.taking = false ∧ nhas s.grids (s.team 0).grid = true ∧ (s.team 0).cluster = [0] ∧
     nget (s.grid (s.team 0).grid).tickets 3 = some { (default : Ticket) with value := 0 } ∧ s.teamDone 0 = true ∧ s.lastOfShare 0 = none) := by decide +kernel

/-! Ill-formed terms: one for each check on the fields of a word (R29 to R31, R105 check 8). -/

/-- Each is refused, and each of its well-formed neighbours is not. -/
theorem test_wellFormed : ∀ x ∈ ([
    (.iadd (.imm 3) (.v 0) (.v 1), .iadd .zero (.v 0) (.v 1)),                              -- a destination
    (.idivS32 (.q 0) (.v 0) (.v 1), .idivS32 (.v 3) (.v 0) (.v 1)),                         -- no port as destination
    (.idivN32 (.v 3) (.q 0) (.v 1), .idivN32 (.v 3) .lr (.v 1)),                            -- no port as source
    (.add64 (.v 3) (.v 0) (.v 2), .add64 (.v 4) (.v 0) (.v 2)),                             -- an even pair as destination
    (.add64 (.v 4) (.v 1) (.v 2), .add64 (.v 4) (.o 2) (.v 2)),                             -- an even pair as source
    (.ishli (.v 0) (.v 1) 32, .ishli (.v 0) (.v 1) 31),
    (.cvtF32F16 (.v 0) (.v 1) 2, .cvtF32F16 (.v 0) (.v 1) 1),
    (.ffma (.v 0) (.v 1) (.v 2) (.v 32), .ffma (.v 0) (.v 1) (.v 2) (.v 31)),               -- a selector that c can name
    (.loop (.v 2) 0, .loop (.v 2) 1),
    (.swtrap 0 0x05, .swtrap 0 0x60),                                                       -- an assigned cause
    (.ldB32 (.v 0) (.v 3) .virt 0, .ldB32 (.v 0) (.v 3) .team 0),                           -- an address
    (.ldB128 (.v 2) (.v 4) .virt 0, .ldB128 (.v 8) (.v 4) .virt 0),
    (.stB128 (.v 2) (.v 4) .virt 0, .stB128 (.o 4) (.v 4) .virt 0),
    (.ldBlk (.v 60) (.v 4) .virt 4, .ldBlk (.v 60) (.v 4) .virt 3),                         -- a run of registers
    (.stBlk (.o 7) (.v 4) .virt 1, .stBlk (.o 7) (.v 4) .virt 0),
    (.spawn 5 (.v 0) (.v 2), .spawn 4 (.v 0) (.v 2)), (.spawn 0 (.v 0) (.v 2), .spawn 0 (.v 0) (.v 0)),
    (.barInit 0 3, .barInit 1 3), (.barInit 1026 3, .barInit 1025 3),
    (.fence 1 6, .fence 1 5), (.fence 0 5, .fence 2 0), (.mattr 6 0 0 0, .mattr 5 0 0 0), (.mattr 0 0 5 0, .mattr 0 0 4 0), (.mattr 0 0 0 3, .mattr 0 0 0 2),
    (.lpMsg (.v 0) (.v 1) (.v 53), .lpMsg (.v 0) (.v 1) (.v 52)),
    (.scopeOpen 4, .scopeOpen 8), (.scopeOpen 12, .scopeOpen 16), (.scopeOpen 264, .scopeOpen 256),
    (.csrRd (.v 0) 0x06, .csrRd (.v 0) 0x05), (.csrWr (.v 0) 0x24, .csrWr (.v 0) 0x23),
    (.kick, .nop)                                                                           -- an event is no word
    ] : List (Instr × Instr)), x.1.WellFormed = false ∧ x.2.WellFormed = true := by decide +kernel

/-! Words written out field by field (R92 to R101, R110). -/

/-- Majors 0 to 9: X3 is major, func, d, a, b; I is major, func3, d, a, imm10; X4 is major, d, a, b, c. Code 116 is lr (R30). -/
theorem test_decode_arith : ∀ x ∈ ([
    (0b00000_000101_000000000000001100100, .sleep 100),
    (0b00001_000000_0000011_0000001_0000010, .iadd (.v 3) (.v 1) (.v 2)),
    (0b00001_010010_0000110_0000010_0000100, .add64 (.v 6) (.v 2) (.v 4)),
    (0b00010_000_0000011_0000001_1000000000, .iaddi (.v 3) (.v 1) (-512)),
    (0b00010_110_0000011_0000001_0000011111, .israi (.v 3) (.v 1) 31),
    (0b00011_010011_0000011_0000001_0000010, .perm (.v 3) (.v 1) (.v 2)),
    (0b00100_001011_0000011_0000001_0000010, .fclass (.v 3) (.v 1) (.v 2)),
    (0b00101_011010_0000011_0000001_0000010, .fdot2Bf16 (.v 3) (.v 1) (.v 2)),
    (0b00110_010001_0000011_0000001_0000011, .frint (.v 3) (.v 1) 3),
    (0b00111_0000011_0000001_0000010_000100, .ffma (.v 3) (.v 1) (.v 2) (.v 4)),
    (0b01000_0000011_0000001_0000010_011111, .sel (.v 3) (.v 1) (.v 2) (.v 31)),
    (0b01001_0000011_0000001_0000010_000000, .imad (.v 3) (.v 1) (.v 2) (.v 0))
    ] : List (Nat × Instr)), decodeWord x.1 = .ok x.2 := by decide +kernel

/-- Majors 10 to 16: M is major, kind3, d, a, base2, off8; A is major, op4, d, a, b, base2; B is major, cond3, a, off17. -/
theorem test_decode_memory : ∀ x ∈ ([
    (0b01010_100_0000011_0000100_00_11111110, .ldB32 (.v 3) (.v 4) .virt (-2)),
    (0b01010_111_0001000_0000001_01_00011111, .ldBlk (.v 8) (.v 1) .team 31),
    (0b01011_011_0000110_0000001_11_01111111, .stB64 (.v 6) (.v 1) .stk 127),
    (0b01100_1110_0000011_0000001_0000010_10, .aincWrap (.v 3) (.v 1) (.v 2) .clu),
    (0b01101_000_0000000_10000000000000000, .bra (-65536)),
    (0b01101_101_0000110_01111111111111111, .call (.v 6) 65535),
    (0b01110_000010_0000000_0000110_0000000, .ret (.v 6)),
    (0b01110_000100_0000000_0000000_0000101, .reform 5),
    (0b01111_001111_0000011_0000000_0000000, .lxLead (.v 3)),
    (0b10000_001001_000000000000000000111, .tktPass 7)
    ] : List (Nat × Instr)), decodeWord x.1 = .ok x.2 := by decide +kernel

/-- Majors 17 to 27: W is major, d, imm20; P is major, scope3, order2, use3, hint2, zero. -/
theorem test_decode_engines : ∀ x ∈ ([
    (0b10001_000000_0000011_0000001_0000010, .mxGo (.v 3) (.v 1) (.v 2)),
    (0b10010_000110_0000011_1010101_0000000, .qCnt (.v 3) 5),
    (0b10011_000101_0000011_0000001_0000000, .cpTest (.v 3) (.v 1)),
    (0b10100_000011_0000110_0000001_0000010, .lpCas (.v 6) (.v 1) (.v 2)),
    (0b10101_000010_0000110_0000010_0000100, .fabAadd (.v 6) (.v 2) (.v 4)),
    (0b10110_0000011_10000000000000000000, .movi (.v 3) (-524288)),
    (0b10111_0000011_00000000111111111111, .movh (.v 3) 0xFFF),
    (0b11000_000001_000000000000000000000, .scopeClose),
    (0b11001_000011_0000110_0000010_0000000, .dgFold (.v 6) (.v 2)),
    (0b11010_000000_0000011_0000000_0011010, .csrRd (.v 3) 0x1A),
    (0b11010_000010_0000000_0000000_0000000, .tret),
    (0b11011_011_01_000_10_00000000000000000, .mattr 3 1 0 2)
    ] : List (Nat × Instr)), decodeWord x.1 = .ok x.2 := by decide +kernel

/-- Reserved majors, unassigned functions, and reserved fields (R105 checks 3, 4 and 8). -/
theorem test_decode_refused :
    decodeWord 0b11100_000000_0000000_0000000_0000000 = .error .reservedMajor ∧
    decodeWord 0b00001_010110_0000011_0000001_0000010 = .error .unassigned ∧
    decodeWord 0b01100_1111_0000011_0000001_0000010_10 = .error .unassigned ∧
    decodeWord 0b00000_000000_000000000000000000001 = .error .reservedField ∧
    decodeWord 0b10111_0000011_00000001000000000000 = .error .reservedField := by decide +kernel

/-! Results worked out by hand from the rules: v1 is 5 and 7, v2 is 2 and 3 in lanes 0 and 1. -/

/-- Register r of lane l after one instruction. -/
def after (i : Instr) (s : State) (r l : Nat) : Option Word :=
  match exec i s with
  | .next t => some ((t.str 0).peek ⟨1, r, l⟩)
  | _ => none
/-- R142: sums wrap; a source that is also the destination is read first. -/
theorem test_iadd_wraps : after (.iadd (.v 1) (.v 1) (.v 1)) (s0 [(32, 0x80000001)]) 1 0 = some 2 := by decide +kernel
/-- R143: -7 divided by 2 is -3, remainder -1; -2^31 by -1 wraps. -/
theorem test_idiv_truncates : after (.idivS32 (.v 3) (.v 1) (.v 2)) (s0 [(32, 0xFFFFFFF9), (64, 2)]) 3 0 = some 0xFFFFFFFD ∧
    after (.iremS32 (.v 3) (.v 1) (.v 2)) (s0 [(32, 0xFFFFFFF9), (64, 2)]) 3 0 = some 0xFFFFFFFF ∧
    after (.idivS32 (.v 3) (.v 1) (.v 2)) (s0 [(32, 0x80000000), (64, 0xFFFFFFFF)]) 3 0 = some 0x80000000 := by decide +kernel
/-- R145: a shift by 32 or more gives 0, an arithmetic one the sign. -/
theorem test_shift_width : after (.shl (.v 3) (.v 1) (.v 2)) (s0 [(32, 1), (64, 32)]) 3 0 = some 0 ∧
    after (.sra (.v 3) (.v 1) (.v 2)) (s0 [(32, 0x80000000), (64, 40)]) 3 0 = some 0xFFFFFFFF := by decide +kernel
/-- R147: bytes reversed (nibbles 0, 1, 2, 3 from the top), a byte of zeros, a byte of signs. -/
theorem test_perm : after (.perm (.v 3) (.v 1) (.v 2)) (s0 [(32, 0x81223344), (64, 0x0123)]) 3 0 = some 0x44332281 ∧
    after (.perm (.v 3) (.v 1) (.v 2)) (s0 [(32, 0x81223344), (64, 0x4BB0)]) 3 0 = some 0x00FFFF44 := by decide +kernel
/-- R60 to R62: 1.5 + 2^-24 rounds to even, down; inf - inf is the default NaN; the smaller zero is -0. -/
theorem test_float : after (.fadd (.v 3) (.v 1) (.v 2)) (s0 [(32, 0x3FC00000), (64, 0x33800000)]) 3 0 = some 0x3FC00000 ∧
    after (.fsub (.v 3) (.v 1) (.v 2)) (s0 [(32, 0x7F800000), (64, 0x7F800000)]) 3 0 = some 0x7FC00000 ∧
    after (.fmin (.v 3) (.v 1) (.v 2)) (s0 [(32, 0), (64, 0x80000000)]) 3 0 = some 0x80000000 := by decide +kernel
/-- R155: 2^31 as a signed integer saturates; 2.5 rounds to 2. -/
theorem test_cvt : after (.cvtS32F32 (.v 3) (.v 1) true 0) (s0 [(32, 0x4F000000), (33, 0x40200000)]) 3 0 = some 0x7FFFFFFF ∧
    after (.cvtS32F32 (.v 3) (.v 1) true 0) (s0 [(32, 0x4F000000), (33, 0x40200000)]) 3 1 = some 2 := by decide +kernel
/-- R177: the sum of the active lanes; a shift from a lane that is not active keeps the lane's own value. -/
theorem test_crossLane : after (.lxSumS32 (.v 3) (.v 1)) (s0 v12) 3 1 = some 12 ∧
    after (.lxShift (.v 3) (.v 1) .ones) (s0 v12) 3 1 = some 5 ∧ after (.lxShift (.v 3) (.v 1) .ones) (s0 v12) 3 0 = some 5 := by
  decide +kernel
/-- R163: movi extends its sign. -/
theorem test_movi : after (.movi (.v 3) (-1)) (s0 v12) 3 0 = some 0xFFFFFFFF := by decide +kernel
/-- R143: lane 0 divides by zero and traps with DZT set, lane 1 gets its quotient. -/
theorem test_divide_trap : (match exec (.idivN32 (.v 3) (.v 1) (.v 2)) (mk p0
      { st0 [(32, 5), (33, 7), (65, 3)] with csr := { dzt := true } } team0 { grid0 with tbase := some 0x1FF80 } ctx0 mem0) with
    | .next t => ((t.str 0).csr.tlevel, (t.str 0).csr.s1, (t.str 0).csr.bankA.cause, (t.str 0).peek ⟨1, 3, 1⟩) == (1, [0], 0x10, 2)
    | _ => false) = true := by decide +kernel
/-- A word placed by `withFetchWord` is the next to run: `movi v3, -524288` gives its constant, and its clause of one word ends. -/
theorem test_withFetchWord : (match step (State.reset.withFetchWord 32 0b10110_0000011_10000000000000000000) with
    | .next t => ((t.strands.map fun x => (x.2.peek ⟨1, 3, 0⟩).toNat), t.runs.length)
    | _ => ([], 7)) = ([0xFFF80000], 0) := by decide +kernel

end Sys2Proof.Tests
end

section
/-! PROOFS. Memory reads back what was written (R3, R357): the unwritten bytes, ranges of bytes, little-endian numbers, and
that what memory reads as determines its canonical form. -/

namespace Sys2Proof.Machine

/-! Finite maps. -/

/-- In a map with rising keys, the entries are what a lookup finds. -/
theorem mem_iff_nget {α : Type} (m : NMap α) (c : Nat × α) (h : nsorted m = true) : c ∈ m ↔ nget m c.1 = some c.2 := by
  rw [nsorted_iff] at h
  induction m with
  | nil => simp
  | cons d m ih =>
    obtain ⟨hd, hm⟩ := List.pairwise_cons.1 h
    rw [List.mem_cons, ih hm, nget]
    split
    · next e =>
      have hnone : nget m c.1 = none := e ▸ nget_none_of_lt m d.1 hd
      simp [hnone, Prod.ext_iff, e, eq_comm]
    · next e =>
      simp [Prod.ext_iff, Ne.symm e]

/-- Two maps with rising keys and the same entries are the same list. -/
theorem eq_of_nsorted_of_mem_iff {α : Type} (m m' : NMap α) (h : nsorted m = true) (h' : nsorted m' = true)
    (hmem : ∀ c, c ∈ m ↔ c ∈ m') : m = m' := by
  rw [nsorted_iff] at h h'
  have nodup {l : NMap α} (hl : l.Pairwise fun a b => a.1 < b.1) : l.Nodup :=
    hl.imp fun hlt e => Nat.ne_of_lt hlt (congrArg Prod.fst e)
  have perm : m.Perm m' := (List.perm_ext_iff_of_nodup (nodup h) (nodup h')).2 hmem
  exact perm.eq_of_pairwise (fun _ _ _ _ hab hba => absurd hab (Nat.lt_asymm hba)) h h'

/-! Memory in its canonical form. -/

/-- Memory lists exactly the bytes that read as something else than an unlisted byte. -/
theorem Memory.mem_iff_read (m : Memory) (c : Host.Cell) (h : m.wf = true) :
    c ∈ m ↔ c.2 ≠ unlistedByte ∧ m.read c.1 = c.2 := by
  obtain ⟨hs, hz⟩ := (Memory.wf_iff m).1 h
  rw [Memory.read]
  constructor
  · intro hc
    exact ⟨hz c hc, by simp [(mem_iff_nget m c hs).1 hc]⟩
  · rintro ⟨hne, hr⟩
    rw [mem_iff_nget m c hs]
    cases hg : nget m c.1 with
    | none => exact absurd (by simpa [hg] using hr.symm) hne
    | some b => simpa [hg] using hr

/-- The canonical form is one: memories that read alike are equal. -/
theorem Memory.ext_read (m m' : Memory) (h : m.wf = true) (h' : m'.wf = true) (hr : ∀ a, m.read a = m'.read a) : m = m' :=
  eq_of_nsorted_of_mem_iff m m' ((Memory.wf_iff m).1 h).1 ((Memory.wf_iff m').1 h').1 fun c => by
    rw [m.mem_iff_read c h, m'.mem_iff_read c h', hr]

/-- Writing bytes leaves every byte outside their range alone. -/
theorem Memory.read_writeN_outside (m : Memory) (a c : Nat) (bs : List Byte) (h : m.wf = true)
    (hc : c < a ∨ a + bs.length ≤ c) : (m.writeN a bs).read c = m.read c := by
  induction bs generalizing m a with
  | nil => rfl
  | cons b bs ih =>
    rw [List.length_cons] at hc
    calc ((m.write a b).writeN (a + 1) bs).read c
      _ = (m.write a b).read c := ih _ _ (m.wf_write a b h) (by omega)
      _ = m.read c := m.read_write_other a c b h (by omega)

/-- Bytes written are read back: the later ones lie above each byte, and leave it alone. -/
theorem Memory.readN_writeN (m : Memory) (a : Nat) (bs : List Byte) (h : m.wf = true) :
    (m.writeN a bs).readN a bs.length = bs := by
  induction bs generalizing m a with
  | nil => rfl
  | cons b bs ih =>
    have hw : (m.write a b).wf = true := m.wf_write a b h
    have hb : ((m.write a b).writeN (a + 1) bs).read a = b := by
      rw [Memory.read_writeN_outside _ _ _ _ hw (by omega), m.read_write_same a b h]
    rw [Memory.writeN, List.length_cons, Memory.readN, hb, ih _ _ hw]

/-- Writing cells leaves every byte that none of them names alone. -/
theorem Memory.read_writeCells_other (m : Memory) (c : Nat) (cells : List Host.Cell) (h : m.wf = true)
    (hc : ∀ x ∈ cells, x.1 ≠ c) : (m.writeCells cells).read c = m.read c := by
  induction cells generalizing m with
  | nil => rfl
  | cons x xs ih =>
    obtain ⟨hx, hxs⟩ := List.forall_mem_cons.1 hc
    calc ((m.write x.1 x.2).writeCells xs).read c
      _ = (m.write x.1 x.2).read c := ih _ (m.wf_write x.1 x.2 h) hxs
      _ = m.read c := m.read_write_other x.1 c x.2 h hx.symm

/-! Little-endian numbers (R3). -/

@[simp] theorem leBytes_length (n x : Nat) : (leBytes n x).length = n := by
  induction n generalizing x with
  | zero => rfl
  | succ n ih => rw [leBytes, List.length_cons, ih]

/-- n bytes hold a number modulo 256^n. -/
theorem leNat_leBytes (n x : Nat) : leNat (leBytes n x) = x % 256 ^ n := by
  induction n generalizing x with
  | zero => rw [Nat.pow_zero, Nat.mod_one]; rfl
  | succ n ih =>
    calc (BitVec.ofNat 8 x).toNat + 256 * leNat (leBytes n (x / 256))
      _ = x % 256 + 256 * (x / 256 % 256 ^ n) := by rw [ih, BitVec.toNat_ofNat]
      _ = x % 256 ^ (n + 1) := by rw [Nat.pow_succ', Nat.mod_mul]

theorem Memory.readLe_writeLe (m : Memory) (a n x : Nat) (h : m.wf = true) : (m.writeLe a n x).readLe a n = x % 256 ^ n := by
  have hb : (m.writeLe a n x).readN a n = leBytes n x := by
    simpa [Memory.writeLe] using m.readN_writeN a (leBytes n x) h
  rw [Memory.readLe, hb, leNat_leBytes]

/-- Settles O31: byte by byte from the laws of one write, the ranges by induction on the bytes, and equality from the canonical
form. -/
theorem memoryReadsBack : Obligations.MemoryReadsBack := by
  intro m hm
  exact ⟨fun a b => ⟨m.wf_write a b hm, m.read_write_same a b hm, fun c => m.read_write_other a c b hm⟩,
    fun a bs => ⟨m.wf_writeN a bs hm, m.readN_writeN a bs hm, fun c => m.read_writeN_outside a c bs hm⟩,
    fun cells => ⟨m.wf_writeCells cells hm, fun c => m.read_writeCells_other c cells hm⟩,
    fun a n x => m.readLe_writeLe a n x hm,
    fun m' hm' => m.ext_read m' hm hm'⟩

end Sys2Proof.Machine
end

section
/-! PROOFS. Reset, and the clock that passes in a step (R13, R32, R322, R326, R329, R356): what a clock changes of each part of
the state, and that it leaves the rest alone. -/

namespace Sys2Proof.Machine

/-! Finite maps. -/

/-- A change of every value, by its key. -/
theorem nget_nall {α : Type} (m : NMap α) (f : Nat → α → α) (k : Nat) : nget (nall m f) k = (nget m k).map (f k) :=
  nget_map_lanes m f k

theorem nhas_of_mem_nkeys {α : Type} {m : NMap α} {k : Nat} (h : k ∈ nkeys m) : (nget m k).isSome = true := by
  induction m with
  | nil => simp [nkeys] at h
  | cons c m ih =>
    rw [nget]
    split
    · rfl
    · next hne => exact ih ((List.mem_cons.1 h).resolve_left (Ne.symm hne))

/-- Settles O25: the registers one by one, each a small computation in the reset state. -/
theorem resetLeaves : Obligations.ResetLeaves := by
  refine ⟨rfl, rfl, rfl, rfl, rfl, rfl, reset_mem_wf, fun k => ⟨rfl, rfl, rfl, rfl⟩, ?_⟩
  decide

/-! The array takes an operation (R326). -/

/-- What the taking of operations may change in a core: an idle array, and the tokens. -/
def Core.tookOp (c d : Core) : Prop :=
  d = { c with arr := d.arr, mx := d.mx } ∧ (c.arr.op.isSome = true ∨ c.arr.halt.isSome = true → d.arr = c.arr ∧ d.mx = c.mx)

theorem Core.tookOp_refl (c : Core) : c.tookOp c := ⟨rfl, fun _ => ⟨rfl, rfl⟩⟩

theorem Core.tookOp_trans {c d e : Core} (h : c.tookOp d) (h' : d.tookOp e) : c.tookOp e := by
  obtain ⟨hd, hbusy⟩ := h
  obtain ⟨he, hbusy'⟩ := h'
  refine ⟨by rw [he, hd], fun hc => ?_⟩
  obtain ⟨harr, hmx⟩ := hbusy hc
  obtain ⟨harr', hmx'⟩ := hbusy' (by rwa [harr])
  exact ⟨harr'.trans harr, hmx'.trans hmx⟩

theorem core_modCore (s : State) (i k : Nat) (f : Core → Core) :
    (s.modCore i f).core k = if k = i then f (s.core i) else s.core k := by
  simp only [State.core, State.modCore_cores, nget_nset]
  split <;> rfl

theorem takeOp_frame (s : State) (i : Nat) : s.takeOp i = { s with cores := (s.takeOp i).cores } := by
  simp only [State.takeOp]
  split
  · rfl
  · split <;> rfl

theorem core_takeOp (s : State) (i k : Nat) : (s.core k).tookOp ((s.takeOp i).core k) := by
  simp only [State.takeOp]
  split
  · exact Core.tookOp_refl _
  · next hidle =>
    split
    · exact Core.tookOp_refl _
    · simp only [State.modMx, core_modCore]
      split
      · next e =>
        subst e
        exact ⟨rfl, fun hbusy => absurd (by simpa using hbusy) hidle⟩
      · exact Core.tookOp_refl _

theorem cores_takeOp_isSome (s : State) (i k : Nat) (hi : (nget s.cores i).isSome = true) :
    (nget (s.takeOp i).cores k).isSome = (nget s.cores k).isSome := by
  simp only [State.takeOp]
  split
  · rfl
  · split
    · rfl
    · simp only [State.modMx, State.modCore_cores, nget_nset]
      split
      · next e => simp [e, hi]
      · rfl

/-- Every array takes its turn: only the cores change, and each as one array may change it. -/
theorem takeOps_keeps (s : State) (ks : List Nat) (hks : ∀ k ∈ ks, (nget s.cores k).isSome = true) :
    let t := ks.foldl State.takeOp s
    t = { s with cores := t.cores } ∧ (∀ k, (s.core k).tookOp (t.core k)) ∧
      ∀ k, (nget t.cores k).isSome = (nget s.cores k).isSome := by
  induction ks generalizing s with
  | nil => exact ⟨rfl, fun k => Core.tookOp_refl _, fun k => rfl⟩
  | cons i ks ih =>
    obtain ⟨hi, hrest⟩ := List.forall_mem_cons.1 hks
    have hhas (k : Nat) := cores_takeOp_isSome s i k hi
    obtain ⟨hframe, hcore, hkeys⟩ := ih (s.takeOp i) fun k hk => by rw [hhas k]; exact hrest k hk
    refine ⟨?_, fun k => Core.tookOp_trans (core_takeOp s i k) (hcore k), fun k => (hkeys k).trans (hhas k)⟩
    calc (i :: ks).foldl State.takeOp s
      _ = { s.takeOp i with cores := (ks.foldl State.takeOp (s.takeOp i)).cores } := hframe
      _ = { s with cores := (ks.foldl State.takeOp (s.takeOp i)).cores } := by rw [takeOp_frame]

/-! The reloads counted (R329). -/

theorem core_countReloads (s : State) (k : Nat) :
    s.countReloads.core k = { s.core k with regs := { (s.core k).regs with rlstall := (s.countReloads.core k).regs.rlstall } } := by
  simp only [State.core, State.countReloads, nget_nall]
  cases nget s.cores k with
  | none => rfl
  | some c =>
    simp only [Option.map_some, Option.getD_some]
    split
    · rfl
    · split <;> rfl

theorem cores_countReloads_isSome (s : State) (k : Nat) : (nget s.countReloads.cores k).isSome = (nget s.cores k).isSome := by
  simp [State.countReloads, nget_nall]

/-! The clock (R32). -/

/-- The state in which the arrays look for their next operations: what a clock counts has been counted. -/
def State.counted (s : State) : State :=
  { s with
    cycle := s.cycle + 1
    tick := s.tick + 1
    strands := nall s.strands fun sid st =>
      if s.haltedStrand sid then st
      else { st with
        aged := if st.paths.isEmpty && (s.issuing sid).isEmpty then st.aged else st.aged + 1
        csr := { st.csr with wdog := st.csr.wdog + 1 } }
    cores := nall s.cores fun _ c =>
      let c := { c with regs := { c.regs with wasHot := c.regs.hot, wasThrottled := c.regs.throttled } }
      if c.bins.isEmpty then c
      else { c with
        bins := nall c.bins fun _ b =>
          if (s.ctx (s.grid (s.team b.team).grid).ctx).dbg.halted || (s.team b.team).ptoHalted then b else { b with age := b.age + 1 } }
    sched := { s.sched with slots := nall s.sched.slots fun _ x => if x.st == .active then { x with used := x.used + 1 } else x } }

theorem clock_eq (s : State) : s.clock = s.counted.takeOps.countReloads := rfl

theorem counted_takeOps (s : State) :
    s.counted.takeOps = { s.counted with cores := s.counted.takeOps.cores } ∧
      (∀ k, (s.counted.core k).tookOp (s.counted.takeOps.core k)) ∧
      ∀ k, (nget s.counted.takeOps.cores k).isSome = (nget s.counted.cores k).isSome :=
  takeOps_keeps s.counted (nkeys s.counted.cores) fun _ => nhas_of_mem_nkeys

/-- Beside the cores a clock changes what it counts. -/
theorem clock_frame (s : State) : s.clock = { s.counted with cores := s.clock.cores } := by
  rw [clock_eq, State.countReloads, (counted_takeOps s).1]

/-- A bin of a team that is not halted ages (R322). -/
def State.binAged (s : State) (b : Bin) : Bin :=
  if (s.ctx (s.grid (s.team b.team).grid).ctx).dbg.halted || (s.team b.team).ptoHalted then b else { b with age := b.age + 1 }

theorem core_counted (s : State) (k : Nat) :
    s.counted.core k = { s.core k with
      bins := nall (s.core k).bins fun _ b => s.binAged b
      regs := (s.counted.core k).regs } ∧
    (s.counted.core k).regs = { (s.core k).regs with
      wasHot := (s.counted.core k).regs.wasHot, wasThrottled := (s.counted.core k).regs.wasThrottled } := by
  simp only [State.core, State.counted, nget_nall]
  cases nget s.cores k with
  | none => exact ⟨rfl, rfl⟩
  | some c =>
    simp only [Option.map_some, Option.getD_some]
    split
    · next he => simp [List.isEmpty_iff.1 he, nall]
    · exact ⟨rfl, rfl⟩

/-- A core over a clock: its bins age, an idle array may take an operation, and the rest stands still. -/
theorem core_clock (s : State) (k : Nat) :
    let c := s.core k
    let d := s.clock.core k
    d = { c with bins := nall c.bins fun _ b => s.binAged b, arr := d.arr, mx := d.mx, regs := d.regs } ∧
      (c.arr.op.isSome = true ∨ c.arr.halt.isSome = true → d.arr = c.arr ∧ d.mx = c.mx) ∧
      d.regs = { c.regs with rlstall := d.regs.rlstall, wasHot := d.regs.wasHot, wasThrottled := d.regs.wasThrottled } := by
  obtain ⟨hcounted, hregs⟩ := core_counted s k
  obtain ⟨htook, hbusy⟩ := (counted_takeOps s).2.1 k
  have hreload : s.clock.core k = { s.counted.takeOps.core k with
      regs := { (s.counted.takeOps.core k).regs with rlstall := (s.clock.core k).regs.rlstall } } := core_countReloads _ k
  generalize s.clock.core k = d at *
  generalize s.counted.takeOps.core k = e at *
  generalize s.counted.core k = b at *
  generalize s.core k = c at *
  rw [hcounted] at htook hbusy
  rw [htook] at hreload
  refine ⟨?_, fun hc => ?_, ?_⟩
  · rw [hreload]
  · obtain ⟨harr, hmx⟩ := hbusy hc
    rw [hreload]
    exact ⟨harr, hmx⟩
  · rw [hreload, hregs]

theorem cores_clock_isSome (s : State) (k : Nat) : (nget s.clock.cores k).isSome = (nget s.cores k).isSome := by
  calc (nget s.clock.cores k).isSome
    _ = (nget s.counted.takeOps.cores k).isSome := cores_countReloads_isSome _ k
    _ = (nget s.counted.cores k).isSome := (counted_takeOps s).2.2 k
    _ = (nget s.cores k).isSome := by simp [State.counted, nget_nall]

/-- A strand over a clock (R323, R356). -/
def State.strandCounted (s : State) (j : Nat) (st : Strand) : Strand :=
  if s.haltedStrand j then st
  else { st with
    aged := if st.paths.isEmpty && (s.issuing j).isEmpty then st.aged else st.aged + 1
    csr := { st.csr with wdog := st.csr.wdog + 1 } }

theorem nget_strands_clock (s : State) (j : Nat) : nget s.clock.strands j = (nget s.strands j).map (s.strandCounted j) := by
  rw [clock_frame]
  exact nget_nall s.strands s.strandCounted j

theorem str_of_nget {s : State} {j : Nat} {st : Strand} (h : nget s.strands j = some st) : s.str j = st := by
  simp [State.str, h]

/-- A strand that moves is counted; its lanes and frames stand still. -/
theorem str_clock_moving {s : State} {j : Nat} {st : Strand} (h : nget s.strands j = some st) (hh : s.haltedStrand j = false) :
    (s.clock.str j).csr.wdog = st.csr.wdog + 1 ∧ (s.clock.str j).lanes = st.lanes ∧ (s.clock.str j).frames = st.frames := by
  simp [State.str, nget_strands_clock, State.strandCounted, h, hh]

theorem str_clock_halted {s : State} {j : Nat} {st : Strand} (h : nget s.strands j = some st) (hh : s.haltedStrand j = true) :
    s.clock.str j = st := by
  simp [State.str, nget_strands_clock, State.strandCounted, h, hh]

/-- No lane changes in the clock itself. -/
theorem nget_strands_clock_lanes {s : State} {j : Nat} {st : Strand} (h : nget s.strands j = some st) :
    ∃ u, nget s.clock.strands j = some u ∧ u.lanes = st.lanes := by
  rw [nget_strands_clock, h]
  refine ⟨_, rfl, ?_⟩
  rw [State.strandCounted]
  split <;> rfl

/-! The words of a clock (R13). -/

/-- A ready thread of a strand that issues, but not with it, is starved one clock more. -/
theorem lanes_countStarve {s : State} {j : Nat} {st : Strand} (cs : List IssueCand) (h : nget s.strands j = some st) :
    let mine := cs.filter (·.strand == j)
    ((s.countStarve cs).str j).lanes = nall st.lanes fun l t =>
      if !mine.isEmpty && t.st == .ready && mine.all fun c => !c.lanes.contains l then { t with starve := t.starve + 1 } else t := by
  simp only [State.str, State.countStarve, nget_nall, h, Option.map_some, Option.getD_some]
  split
  · next he => simp [he, nall]
  · next he => simp [he]

theorem opened_of_round {s : State} (h : s.round ≠ []) : s.opened = s := by
  cases hr : s.round with
  | nil => exact absurd hr h
  | cons x xs => simp [State.opened, hr]

theorem opened_of_over {s : State} (h : s.round = []) :
    s.opened = { (s.clock.schedClock).countStarve s.clock.schedClock.issues with
      round := s.clock.schedClock.newRound s.clock.schedClock.issues, inputs := s.clock.schedClock.inputs.tail } := by
  simp [State.opened, h]

/-- Settles O24: the lemmas on a clock's cores, strands and threads; the rest is the frame of what it counts. -/
theorem clockPasses : Obligations.ClockPasses := by
  intro s
  have keeps {α : Type} (f : State → α) : f s.clock = f { s.counted with cores := s.clock.cores } := congrArg f (clock_frame s)
  have hslots : s.clock.sched.slots = s.counted.sched.slots := keeps fun t => t.sched.slots
  refine ⟨opened_of_round, fun h => ?_, fun h j st hj => ?_, keeps State.cycle, keeps State.mem, keeps State.runs,
    keeps State.teams, keeps State.grids, keeps State.ctxs, keeps State.loop, keeps State.fab,
    keeps State.host, keeps State.saved, keeps State.dbg, keeps State.fw, keeps State.sent,
    keeps State.kills, keeps State.ids, keeps State.orphans, keeps State.xcache, keeps State.inputs,
    ?_, fun _ k => ?_, fun _ _ => str_clock_moving, fun _ _ => str_clock_halted, fun k x hk => ?_⟩
  · rw [opened_of_over h]
    exact keeps State.cycle
  · obtain ⟨u, hu, hlanes⟩ := nget_strands_clock_lanes hj
    rw [opened_of_over h, ← hlanes]
    exact lanes_countStarve _ hu
  · rw [hslots]
    exact keeps State.sched
  · obtain ⟨hcore, hbusy, hregs⟩ := core_clock s k
    refine ⟨cores_clock_isSome s k, ?_, ?_, ?_, ?_, ?_, ?_, ?_, ?_, hbusy, hregs⟩
    · rw [hcore]; rfl
    all_goals rw [hcore]
  · have hused : nget s.counted.sched.slots k = some (if x.st == .active then { x with used := x.used + 1 } else x) := by
      simp [State.counted, nget_nall, hk]
    rw [hslots, hused]
    split
    · next ha => simp_all
    · next ha => simp_all

end Sys2Proof.Machine
end

section
/-! PROOFS. The paths of a strand (R11 to R13, R343): a path is the ready threads of one PC and one group, and which one a strand
offers. -/

namespace Sys2Proof.Machine

/-! The model's sort is the library's insertion sort. -/

theorem insertBy_eq {α : Type} (le : α → α → Bool) (x : α) (l : List α) : insertBy le x l = l.orderedInsert (le · ·) x := by
  induction l with
  | nil => rfl
  | cons y ys ih => simp only [insertBy, List.orderedInsert_cons, ih]

theorem sortBy_eq {α : Type} (le : α → α → Bool) (l : List α) : sortBy le l = l.insertionSort (le · ·) := by
  induction l with
  | nil => rfl
  | cons x xs ih =>
    rw [List.insertionSort_cons, ← ih, ← insertBy_eq]
    rfl

theorem mem_sortBy {α : Type} (le : α → α → Bool) (l : List α) (x : α) : x ∈ sortBy le l ↔ x ∈ l := by
  rw [sortBy_eq, List.mem_insertionSort]

theorem pairwise_sortBy {α : Type} (le : α → α → Bool) (l : List α) (total : ∀ a b, le a b = true ∨ le b a = true)
    (trans : ∀ a b c, le a b = true → le b c = true → le a c = true) : (sortBy le l).Pairwise (le · ·) := by
  have : Std.Total (fun a b => le a b = true) := ⟨total⟩
  have : IsTrans α (fun a b => le a b = true) := ⟨trans⟩
  rw [sortBy_eq]
  exact List.pairwise_insertionSort _ l

/-- Collecting the values of a function, each once, collects them all. -/
theorem mem_foldl_once {α β : Type} [BEq β] [LawfulBEq β] (f : α → β) (l : List α) (acc : List β) (k : β) :
    k ∈ l.foldl (fun ks x => if ks.contains (f x) then ks else ks ++ [f x]) acc ↔ k ∈ acc ∨ ∃ x ∈ l, f x = k := by
  induction l generalizing acc with
  | nil => simp
  | cons x xs ih =>
    rw [List.foldl_cons, ih]
    split
    · next h =>
      have hmem : f x ∈ acc := by simpa using h
      constructor
      · rintro (hk | ⟨y, hy, e⟩)
        · exact .inl hk
        · exact .inr ⟨y, List.mem_cons_of_mem _ hy, e⟩
      · rintro (hk | ⟨y, hy, e⟩)
        · exact .inl hk
        · rcases List.mem_cons.1 hy with rfl | hy
          · exact .inl (e ▸ hmem)
          · exact .inr ⟨y, hy, e⟩
    · simp only [List.mem_append, List.mem_singleton, List.exists_mem_cons_iff, or_assoc, eq_comm]

/-! What a path is (R11). -/

/-- The lanes of the ready threads at a PC in a group. -/
def Strand.lanesAt (st : Strand) (pc : Word64) (g : Nat) : List Nat :=
  (st.lanes.filter fun x => x.2.st == .ready && (x.2.pc == pc && st.group x.1 == g)).map (·.1)

theorem mem_lanesAt (st : Strand) (pc : Word64) (g l : Nat) :
    l ∈ st.lanesAt pc g ↔ ∃ t, (l, t) ∈ st.lanes ∧ t.st = .ready ∧ t.pc = pc ∧ st.group l = g := by
  simp [Strand.lanesAt]

theorem lanesAt_pairwise {st : Strand} (hs : nsorted st.lanes = true) (pc : Word64) (g : Nat) :
    (st.lanesAt pc g).Pairwise (· < ·) :=
  List.pairwise_map.2 (((nsorted_iff _).1 hs).filter _)

/-- The order in which the paths stand: by PC, then by group. -/
def keyLe (a b : (Nat × Nat) × List Nat) : Bool := decide (a.1.1 < b.1.1 ∨ (a.1.1 = b.1.1 ∧ a.1.2 ≤ b.1.2))

/-- The paths are the lanes of the ready threads' PCs and groups. -/
theorem mem_paths (st : Strand) (x : Word64 × List Nat) :
    x ∈ st.paths ↔ ∃ c ∈ st.lanes, c.2.st = .ready ∧ x = (c.2.pc, st.lanesAt c.2.pc (st.group c.1)) := by
  have hlanes (c : Nat × Thread) : ((st.lanes.filter fun y => y.2.st == .ready).filter fun y =>
      y.2.pc.toNat == c.2.pc.toNat && st.group y.1 == st.group c.1).map (·.1) = st.lanesAt c.2.pc (st.group c.1) := by
    rw [List.filter_filter, Strand.lanesAt]
    refine congrArg _ (List.filter_congr fun y _ => ?_)
    simp [← BitVec.toNat_inj, Bool.and_comm, Bool.beq_eq_decide_eq]
  simp only [Strand.paths, List.mem_map, mem_sortBy, mem_foldl_once, List.not_mem_nil, false_or, List.mem_filter, beq_iff_eq]
  constructor
  · rintro ⟨_, ⟨_, ⟨c, ⟨hc, hr⟩, rfl⟩, rfl⟩, rfl⟩
    exact ⟨c, hc, hr, by rw [hlanes, BitVec.ofNat_toNat, BitVec.setWidth_eq]⟩
  · rintro ⟨c, hc, hr, rfl⟩
    exact ⟨_, ⟨_, ⟨c, ⟨hc, hr⟩, rfl⟩, rfl⟩, by rw [hlanes, BitVec.ofNat_toNat, BitVec.setWidth_eq]⟩

/-- The paths stand in the order of their PCs. -/
theorem paths_pairwise (st : Strand) : st.paths.Pairwise fun x y => x.1.toNat ≤ y.1.toNat := by
  refine List.pairwise_map.2 ((pairwise_sortBy keyLe _ (fun a b => ?_) fun a b c hab hbc => ?_).imp_of_mem ?_)
  · simp only [keyLe, decide_eq_true_eq]
    omega
  · simp only [keyLe, decide_eq_true_eq] at hab hbc ⊢
    omega
  · intro a b ha hb hab
    simp only [mem_sortBy, List.mem_map, mem_foldl_once, List.not_mem_nil, false_or] at ha hb
    obtain ⟨_, ⟨c, _, rfl⟩, rfl⟩ := ha
    obtain ⟨_, ⟨d, _, rfl⟩, rfl⟩ := hb
    simp only [keyLe, decide_eq_true_eq] at hab
    simp only [BitVec.ofNat_toNat, BitVec.setWidth_eq]
    omega

/-- The path of a lane's thread is the only one that holds the lane. -/
theorem path_of_lane {st : Strand} (hs : nsorted st.lanes = true) {x : Word64 × List Nat} (hx : x ∈ st.paths) {l : Nat} (hl : l ∈ x.2) :
    ∃ t, nget st.lanes l = some t ∧ t.st = .ready ∧ x = (t.pc, st.lanesAt t.pc (st.group l)) := by
  obtain ⟨c, _, _, rfl⟩ := (mem_paths st x).1 hx
  obtain ⟨t, ht, hr, hpc, hg⟩ := (mem_lanesAt _ _ _ _).1 hl
  exact ⟨t, (mem_iff_nget st.lanes (l, t) hs).1 ht, hr, by rw [hpc, hg]⟩

/-- A ready thread stands in the path of its PC and its group. -/
theorem path_of_thread {st : Strand} (hs : nsorted st.lanes = true) {l : Nat} {t : Thread} (ht : nget st.lanes l = some t)
    (hr : t.st = .ready) : (t.pc, st.lanesAt t.pc (st.group l)) ∈ st.paths ∧ l ∈ st.lanesAt t.pc (st.group l) := by
  have hmem : (l, t) ∈ st.lanes := (mem_iff_nget st.lanes (l, t) hs).2 ht
  exact ⟨(mem_paths st _).2 ⟨(l, t), hmem, hr, rfl⟩, (mem_lanesAt _ _ _ _).2 ⟨t, hmem, hr, rfl, rfl⟩⟩

/-! Starvation (R13). -/

/-- The greatest value of a function over a list bounds each of them. -/
theorem le_foldl_max {α : Type} (f : α → Nat) (ls : List α) (m : Nat) :
    m ≤ ls.foldl (fun m l => max m (f l)) m ∧ ∀ l ∈ ls, f l ≤ ls.foldl (fun m l => max m (f l)) m := by
  induction ls generalizing m with
  | nil => simp
  | cons x xs ih =>
    obtain ⟨hm, hxs⟩ := ih (max m (f x))
    rw [List.foldl_cons]
    refine ⟨by omega, fun l hl => ?_⟩
    rcases List.mem_cons.1 hl with rfl | hl
    · omega
    · exact hxs l hl

theorem starve_le {st : Strand} {ls : List Nat} {l : Nat} (h : l ∈ ls) : (st.th l).starve ≤ st.starve ls :=
  (le_foldl_max (fun l => (st.th l).starve) ls 0).2 l h

/-- The first of a list's elements that have the greatest value. -/
theorem foldl_best {α : Type} (f g : α → Nat) (xs : List α) (b : α) (hg : (b :: xs).Pairwise fun x y => g x ≤ g y) :
    let r := xs.foldl (fun b y => if f b < f y then y else b) b
    r ∈ b :: xs ∧ ∀ y ∈ b :: xs, f y ≤ f r ∧ (f y = f r → g r ≤ g y) := by
  induction xs generalizing b with
  | nil => simp
  | cons x xs ih =>
    obtain ⟨hb, hxs⟩ := List.pairwise_cons.1 hg
    obtain ⟨hbx, hb'⟩ := List.forall_mem_cons.1 hb
    rw [List.foldl_cons]
    split
    · next hlt =>
      obtain ⟨hr, hbest⟩ := ih x hxs
      refine ⟨List.mem_cons_of_mem _ hr, List.forall_mem_cons.2 ⟨?_, hbest⟩⟩
      have := (hbest x List.mem_cons_self).1
      exact ⟨by omega, by omega⟩
    · next hge =>
      obtain ⟨hr, hbest⟩ := ih b (List.pairwise_cons.2 ⟨hb', (List.pairwise_cons.1 hxs).2⟩)
      obtain ⟨hb, hrest⟩ := List.forall_mem_cons.1 hbest
      refine ⟨?_, List.forall_mem_cons.2 ⟨hb, List.forall_mem_cons.2 ⟨⟨by omega, fun e => ?_⟩, hrest⟩⟩⟩
      · rcases List.mem_cons.1 hr with e | hr
        · rw [e]; exact List.mem_cons_self
        · exact List.mem_cons_of_mem _ (List.mem_cons_of_mem _ hr)
      · have := hb.2 (by omega)
        omega

/-- The second path of R12 among paths in the order of their PCs: a starving one that has waited longest, ties to the lower PC,
else the one with the lowest PC. -/
theorem secondOf_spec {st : Strand} {ps : List (Word64 × List Nat)} {x : Word64 × List Nat}
    (hp : ps.Pairwise fun x y => x.1.toNat ≤ y.1.toNat) (h : st.secondOf ps = some x) :
    x ∈ ps ∧
    ((∃ y ∈ ps, 1024 ≤ st.starve y.2) → 1024 ≤ st.starve x.2 ∧
      ∀ y ∈ ps, st.starve y.2 ≤ st.starve x.2 ∧ (st.starve y.2 = st.starve x.2 → x.1.toNat ≤ y.1.toNat)) ∧
    ((∀ y ∈ ps, st.starve y.2 < 1024) → ∀ y ∈ ps, x.1.toNat ≤ y.1.toNat) := by
  simp only [Strand.secondOf] at h
  split at h
  · next hnone =>
    have hlow : ∀ y ∈ ps, st.starve y.2 < 1024 := by simpa using hnone
    cases ps with
    | nil => cases h
    | cons y ys =>
      cases h
      refine ⟨List.mem_cons_self, fun ⟨y, hy, hstarve⟩ => absurd (hlow y hy) (by omega), fun _ => ?_⟩
      exact List.forall_mem_cons.2 ⟨Nat.le_refl _, (List.pairwise_cons.1 hp).1⟩
  · next y ys hstarving =>
    have hmem (z : Word64 × List Nat) : z ∈ y :: ys ↔ z ∈ ps ∧ 1024 ≤ st.starve z.2 := by
      rw [← hstarving]; simp
    obtain ⟨hx, hbest⟩ := foldl_best (fun z => st.starve z.2) (fun z => z.1.toNat) ys y (hstarving ▸ hp.filter _)
    rw [Option.some.inj h] at hx hbest
    obtain ⟨hx, hxs⟩ := (hmem x).1 hx
    refine ⟨hx, fun _ => ⟨hxs, fun z hz => ?_⟩, fun hlow => absurd (hlow x hx) (by omega)⟩
    by_cases hzs : 1024 ≤ st.starve z.2
    · exact hbest z ((hmem z).2 ⟨hz, hzs⟩)
    · exact ⟨by omega, by omega⟩

/-- Settles O9: what a path is gives the partition, and the order of the paths what is offered. -/
theorem pathsPartitionReadyThreads : Obligations.PathsPartitionReadyThreads := by
  intro st hs hlanes
  have hth {l : Nat} {t : Thread} (h : nget st.lanes l = some t) : st.th l = t := by simp [Strand.th, h]
  refine ⟨fun x hx => ?_, fun l t hl hr => ?_, fun x hx l hl m hm => ?_, fun l t m u hl hm hr hr' hpc hg => ?_, fun x hx y hy l hl hl' => ?_,
    paths_pairwise st, fun _ => rfl, fun beside x hx => ?_, fun c hc x _ hl => ?_⟩
  · obtain ⟨c, hc, hr, e⟩ := (mem_paths st x).1 hx
    have hne := (path_of_thread hs ((mem_iff_nget st.lanes c hs).1 hc) hr).2
    rw [e]
    refine ⟨List.ne_nil_of_mem hne, lanesAt_pairwise hs _ _, fun l hl => ?_⟩
    obtain ⟨t, ht, hr, hpc, -⟩ := (mem_lanesAt _ _ _ _).1 hl
    rw [hth ((mem_iff_nget st.lanes (l, t) hs).1 ht)]
    exact ⟨hlanes (l, t) ht, hr, hpc⟩
  · obtain ⟨hx, hmem⟩ := path_of_thread hs hl hr
    exact ⟨_, hx, hmem, rfl⟩
  · obtain ⟨c, -, -, rfl⟩ := (mem_paths st x).1 hx
    obtain ⟨_, _, _, _, hgl⟩ := (mem_lanesAt _ _ _ _).1 hl
    obtain ⟨_, _, _, _, hgm⟩ := (mem_lanesAt _ _ _ _).1 hm
    exact hgl.trans hgm.symm
  · obtain ⟨hx, hmem⟩ := path_of_thread hs hl hr
    obtain ⟨_, hmem'⟩ := path_of_thread hs hm hr'
    exact ⟨_, hx, hmem, by rwa [hpc, hg]⟩
  · obtain ⟨t, ht, -, rfl⟩ := path_of_lane hs hx hl
    obtain ⟨u, hu, -, rfl⟩ := path_of_lane hs hy hl'
    rw [Option.some.inj (ht.symm.trans hu)]
  · refine secondOf_spec ?_ hx
    split
    · exact paths_pairwise st
    · exact (paths_pairwise st).tail
  · rw [← hth ((mem_iff_nget st.lanes c hs).1 hc)]
    exact starve_le hl

end Sys2Proof.Machine
end

section
/-! PROOFS. The operand phase of the forms of R137 and R177 (R22, R28 to R30, R139): where it traps or waits, and the operands
whose value is fixed. -/

namespace Sys2Proof.Machine

open Sys2Proof.Claim

/-! Where it stops. -/

/-- A meaning that computes a result a lane from the sources (R137). -/
def Computes (srcs : List Opd) (d : Opd) (g : State → Out State) : Prop :=
  ∃ f : Nat → RunPath → State → NMap (List Word64) → Nat → Except (Nat × Nat × Word64) Word64,
    ∀ s, g s = onPath (fun sid p s => s.compute sid p srcs d true (f sid p s)) s

section
variable {g : State → Out State} {d a b c : Sel}

theorem computes_lanewise {srcs : List Opd} {d : Opd} {f : List Word64 → Word64} (h : ∀ s, g s = lanewise srcs d f s) :
    Computes srcs d g := ⟨_, h⟩

theorem computes_op1 {f : Word → Word} (h : ∀ s, g s = op1 f d a s) : Computes [(a, 1)] (d, 1) g := computes_lanewise h
theorem computes_op2 {f : Word → Word → Word} (h : ∀ s, g s = op2 f d a b s) : Computes [(a, 1), (b, 1)] (d, 1) g :=
  computes_lanewise h
theorem computes_op3 {f : Word → Word → Word → Word} (h : ∀ s, g s = op3 f d a b c s) :
    Computes [(a, 1), (b, 1), (c, 1)] (d, 1) g := computes_lanewise h
theorem computes_op1d {f : Word → Word → Word} (h : ∀ s, g s = op1d f d a s) : Computes [(d, 1), (a, 1)] (d, 1) g :=
  computes_lanewise h
theorem computes_op2d {f : Word → Word → Word → Word} (h : ∀ s, g s = op2d f d a b s) :
    Computes [(d, 1), (a, 1), (b, 1)] (d, 1) g := computes_lanewise h
theorem computes_op2w {f : Word64 → Word64 → Word64} (h : ∀ s, g s = op2w f d a b s) : Computes [(a, 2), (b, 2)] (d, 2) g :=
  computes_lanewise h
theorem computes_op2p {f : Word → Word → Word64} (h : ∀ s, g s = op2p f d a b s) : Computes [(a, 1), (b, 1)] (d, 2) g :=
  computes_lanewise h
theorem computes_opShift64 {f : Word64 → Nat → Word64} (h : ∀ s, g s = opShift64 f d a b s) :
    Computes [(a, 2), (b, 1)] (d, 2) g := computes_lanewise h
theorem computes_cmp64 {f : Word64 → Word64 → Bool} (h : ∀ s, g s = cmp64 f d a b s) : Computes [(a, 2), (b, 2)] (d, 1) g :=
  computes_lanewise h
theorem computes_fop1 {f : Nat → Nat} (h : ∀ s, g s = fop1 f d a s) : Computes [(a, 1)] (d, 1) g := computes_op1 h
theorem computes_opImm {f : Word → Word → Word} {c : BitVec 10} (h : ∀ s, g s = opImm f d a c s) : Computes [(a, 1)] (d, 1) g :=
  computes_op1 h
theorem computes_unpack {w : Nat} {f : Nat → Nat} {el : BitVec 2} (h : ∀ s, g s = unpack w f el d a s) :
    Computes [(a, 1)] (d, 1) g := computes_op1 h
theorem computes_pack {w : Nat} {f : Nat → Nat} {el : BitVec 2} (h : ∀ s, g s = pack w f el d a s) :
    Computes [(d, 1), (a, 1)] (d, 1) g := computes_op1d h
theorem computes_fop2 {f : Nat → Nat → Nat} (h : ∀ s, g s = fop2 f d a b s) : Computes [(a, 1), (b, 1)] (d, 1) g := computes_op2 h
theorem computes_cmp32 {f : Word → Word → Bool} (h : ∀ s, g s = cmp32 f d a b s) : Computes [(a, 1), (b, 1)] (d, 1) g :=
  computes_op2 h
theorem computes_fcmp {f : Ext → Ext → Bool} (h : ∀ s, g s = fcmp f d a b s) : Computes [(a, 1), (b, 1)] (d, 1) g :=
  computes_cmp32 h
theorem computes_facc {f : Nat → Nat → Nat → Nat} (h : ∀ s, g s = facc f d a b s) :
    Computes [(d, 1), (a, 1), (b, 1)] (d, 1) g := computes_op2d h

theorem computes_division {f : Word → Word → Word} (h : ∀ s, g s = division f d a b s) : Computes [(a, 1), (b, 1)] (d, 1) g :=
  ⟨_, h⟩
theorem computes_xln0 {f : List Nat → Nat → Word} (h : ∀ s, g s = xln0 f d s) : Computes [] (d, 1) g := ⟨_, h⟩
theorem computes_xln1 {f : LaneVals → Nat → Word} (h : ∀ s, g s = xln1 f d a s) : Computes [(a, 1)] (d, 1) g := ⟨_, h⟩
theorem computes_xlnPick {j : Nat → Word → Int} (h : ∀ s, g s = xlnPick j d a b s) : Computes [(a, 1), (b, 1)] (d, 1) g := ⟨_, h⟩

end

/-- Every form of R137 and R177 is of one of these kinds. -/
theorem exec_of_shape {i : Instr} {srcs : List Opd} {d : Opd} (h : shape i = some (srcs, d)) : Computes srcs d (exec i) := by
  unfold exec
  cases i with
  | iadd | isub | imul | imulhS32 | imulhN32 | iminS32 | iminN32 | imaxS32 | imaxN32 | iaddsS32 | isubsS32 | iaddsN32 | isubsN32
  | and | or | xor | andn | orn | shl | shr | sra | rotl | bfxS | bfxN | perm | fscl => cases h; exact computes_op2 fun _ => rfl
  | ceq | cne | cltS | cleS | cltN | cleN | fclass => cases h; exact computes_cmp32 fun _ => rfl
  | fceq | fcne | fclt | fcle | fcun => cases h; exact computes_fcmp fun _ => rfl
  | fadd | fsub | fmul | fmin | fmax | fdiv | faddF16x2 | fmulF16x2 | faddBf16x2 | fmulBf16x2 | fminF16x2 | fmaxF16x2 =>
    cases h; exact computes_fop2 fun _ => rfl
  | iabs | popc | clz | ctz | brev | fabs | fneg | cvtF32S32 | cvtF32N32 | movh => cases h; exact computes_op1 fun _ => rfl
  | iaddi | iandi | iori | ixori | ishli | ishri | israi | icmpiLt => cases h; exact computes_opImm fun _ => rfl
  | fsqrt | frcp | frsqrt | fexp2 | flog2 | fsinpi | fcospi | ftanh | frnd | cvtS32F32 | cvtN32F32 | frint =>
    cases h; exact computes_fop1 fun _ => rfl
  | cvtF32F16 | cvtF32Bf16 | upkE4m3 | upkE5m2 | upkF8d => cases h; exact computes_unpack fun _ => rfl
  | ffma | sel | imad => cases h; exact computes_op3 fun _ => rfl
  | bfi | idp4S8 | idp4N8 => cases h; exact computes_op2d fun _ => rfl
  | ffmaF16x2 | ffmaBf16x2 | fdot2Bf16 => cases h; exact computes_facc fun _ => rfl
  | pkF16 | pkBf16 | pkE4m3 | pkE5m2 | pkF8d | cvtE8m0 => cases h; exact computes_pack fun _ => rfl
  | add64 | sub64 => cases h; exact computes_op2w fun _ => rfl
  | mulwS32 | mulwN32 => cases h; exact computes_op2p fun _ => rfl
  | shl64 | shr64 | sra64 => cases h; exact computes_opShift64 fun _ => rfl
  | ceq64 | clt64S | clt64N => cases h; exact computes_cmp64 fun _ => rfl
  | idivS32 | idivN32 | iremS32 | iremN32 => cases h; exact computes_division fun _ => rfl
  | pkE2m1 | upkE2m1 | movi => cases h; exact computes_lanewise fun _ => rfl
  | lxActive | lxLead => cases h; exact computes_xln0 fun _ => rfl
  | lxAny | lxAll | lxMask | lxFirst | lxSumS32 | lxMinS32 | lxMaxS32 | lxFsum | lxPrefixS32 | lxSame =>
    cases h; exact computes_xln1 fun _ => rfl
  | lxPick | lxShift | lxRot | lxSwap => cases h; exact computes_xlnPick fun _ => rfl
  | _ => cases h

/-- Past the window check, and without soft errors, the ports decide. -/
theorem operandsAt_ports {s : State} {sid : Nat} {p : RunPath} {srcs dsts : List Opd} {at' : Nat → Word64}
    {k : RunPath → State → NMap (List Word64) → State} (hin : outside s sid p (srcs ++ dsts) = false)
    (hsoft : (s.str sid).softLanes p.lanes srcs = []) (hports : ¬(popsOf srcs = [] ∧ pushOf dsts = none)) :
    (∀ port desc, s.portGate sid p.lanes (popsOf srcs) (pushOf dsts) = .misuse port desc →
      s.operandsAt sid p srcs dsts at' k = s.trapPath sid p 0x61 port (BitVec.ofNat 64 desc)) ∧
    (s.portGate sid p.lanes (popsOf srcs) (pushOf dsts) = .wait →
      s.operandsAt sid p srcs dsts at' k = s.await sid p (.ports (popsOf srcs) (pushOf dsts))) := by
  have hsome : ((popsOf srcs).isEmpty && (pushOf dsts).isNone) = false := by
    simpa [← Option.isNone_iff_eq_none, ← Bool.not_eq_true] using hports
  simp only [popsOf, pushOf, outside] at *
  simp only [State.operandsAt, hin, softGate_none hsoft, hsome, Bool.false_eq_true, if_false]
  exact ⟨fun port desc hg => by rw [hg], fun hg => by rw [hg]⟩

theorem operandPhaseStops : OperandPhaseStops := by
  intro i srcs d s sid p rest hshape hi
  obtain ⟨f, hf⟩ := exec_of_shape hshape
  rw [hf, onPath_issues hi]
  unfold State.compute State.operands
  refine ⟨fun hout => ⟨_, congrArg _ (operands_outside hout)⟩, fun hin hsoft hports => ?_⟩
  obtain ⟨hmisuse, hwait⟩ := operandsAt_ports hin hsoft hports
  exact ⟨fun port desc hg => congrArg _ (hmisuse port desc hg), fun hg => congrArg _ (hwait hg)⟩

/-! Operands whose value is fixed (R29, R30). -/

/-- The small constants as one register, and as a pair. -/
theorem imm_toInt (c : BitVec 5) : (BitVec.ofInt 32 (Int.ofNat c.toNat - 16)).toInt = (c.toNat : Int) - 16 := by
  revert c; decide

theorem immPair_toInt (c : BitVec 5) :
    (BitVec.sshiftRight (BitVec.ofInt 32 (Int.ofNat c.toNat - 16)) 31 ++ BitVec.ofInt 32 (Int.ofNat c.toNat - 16)).toInt =
      (c.toNat : Int) - 16 := by
  revert c; decide

theorem mxTouch_nil (s : State) (sid : Nat) : s.mxTouch sid [] = s := by
  rw [State.mxTouch]
  split <;> rfl

theorem writeDst_zero (s : State) (sid n : Nat) (res : NMap Word64) : s.writeDst sid (.zero, n) res = s := by
  have hnone (l : Nat) (vs : List Word) : (s.str sid).dstWrites l .zero vs = [] := dstWrites_none _ _ _ _ fun _ => rfl
  have hnil : res.flatMap (fun (x : Nat × Word64) => (s.str sid).dstWrites x.1 .zero
      (if n ≤ 1 then [x.2.setWidth 32] else [x.2.setWidth 32, (x.2 >>> 32).setWidth 32])) = [] := by simp [hnone]
  exact (congrArg (s.regPuts sid) hnil).trans (mxTouch_nil s sid)

theorem hardwiredOperands : HardwiredOperands :=
  ⟨fun _ _ _ _ _ _ => rfl, fun _ _ _ _ _ => ⟨rfl, rfl⟩, fun _ _ _ _ _ c => ⟨imm_toInt c, immPair_toInt c⟩,
    fun s sid n res => writeDst_zero s sid n res⟩

/-- Settles O11: every form of R137 and R177 is one operand phase, whose first two steps stop it; the fixed operands are computed. -/
theorem operandPhase : Obligations.OperandPhase := ⟨operandPhaseStops, hardwiredOperands⟩

end Sys2Proof.Machine
end

section
/-! PROOFS. Accesses of a lane and the windows (R36 to R39, R186): the order of the checks, and the bytes that a window reaches. A
range is accessed in parts between multiples of 64 KiB; the parts lie one after another and make up the range. -/

namespace Sys2Proof.Machine

open Sys2Proof.Claim

/-! The parts of a range. -/

/-- The parts lie one after another, from `a` on over `n` bytes, each inside one 64 KiB page. -/
def Tiles : Nat → Nat → List (Nat × Nat) → Prop
  | _, n, [] => n = 0
  | a, n, p :: ps => p.1 = a ∧ 0 < p.2 ∧ p.2 ≤ n ∧ a % 65536 + p.2 ≤ 65536 ∧ Tiles (a + p.2) (n - p.2) ps

theorem tiles_pageParts (va n : Nat) : Tiles va n (pageParts va n) := by
  by_cases hn : n = 0
  · simp [pageParts, hn, Tiles]
  · let part (i : Nat) : Nat × Nat := (max va ((va / 65536 + i) * 65536),
      min (va + n) ((va / 65536 + i + 1) * 65536) - max va ((va / 65536 + i) * 65536))
    have rest (m : Nat) : ∀ j, j + m = (va + n - 1) / 65536 - va / 65536 + 1 →
        Tiles (part j).1 (va + n - (part j).1) ((List.range' j m).map part) := by
      induction m with
      | zero =>
        intro j hj
        simp only [Tiles, List.range'_zero, List.map_nil, part]
        omega
      | succ m ih =>
        intro j hj
        have hnext := ih (j + 1) (by omega)
        have hstart : (part j).1 + (part j).2 = (part (j + 1)).1 ∨ m = 0 ∧ (part j).1 + (part j).2 = va + n := by
          simp only [part]
          omega
        refine ⟨rfl, ?_, ?_, ?_, ?_⟩
        · simp only [part]; omega
        · simp only [part]; omega
        · simp only [part]; omega
        · rcases hstart with e | ⟨rfl, e⟩
          · rw [e, show va + n - (part j).1 - (part j).2 = va + n - (part (j + 1)).1 by omega]
            exact hnext
          · simp only [Tiles, List.range'_zero, List.map_nil]
            omega
    have h := rest ((va + n - 1) / 65536 - va / 65536 + 1) 0 (by omega)
    have h0 : (part 0).1 = va := by simp only [part]; omega
    rw [← List.range_eq_range', h0, Nat.add_sub_cancel_left] at h
    rw [pageParts, if_neg hn]
    exact h

/-- What holds of every byte of the parts holds of every byte of the range. -/
theorem forall_bytes_iff {ps : List (Nat × Nat)} {a n : Nat} (h : Tiles a n ps) (P : Nat → Prop) :
    (∀ p ∈ ps, ∀ j < p.2, P (p.1 + j)) ↔ ∀ i < n, P (a + i) := by
  induction ps generalizing a n with
  | nil => simp [show n = 0 from h]
  | cons p ps ih =>
    obtain ⟨ha, -, hle, -, hrest⟩ := h
    rw [List.forall_mem_cons, ih hrest, ha]
    constructor
    · rintro ⟨hp, hps⟩ i hi
      by_cases hip : i < p.2
      · exact hp i hip
      · have := hps (i - p.2) (by omega)
        rwa [show a + p.2 + (i - p.2) = a + i by omega] at this
    · intro hall
      refine ⟨fun j hj => hall j (by omega), fun i hi => ?_⟩
      rw [Nat.add_assoc]
      exact hall (p.2 + i) (by omega)

/-- Every part lies in the range, and in one 64 KiB page. -/
theorem mem_tiles {ps : List (Nat × Nat)} {a n : Nat} (h : Tiles a n ps) {p : Nat × Nat} (hp : p ∈ ps) :
    a ≤ p.1 ∧ 0 < p.2 ∧ p.1 + p.2 ≤ a + n ∧ p.1 % 65536 + p.2 ≤ 65536 := by
  induction ps generalizing a n with
  | nil => cases hp
  | cons q ps ih =>
    obtain ⟨ha, hpos, hle, hpage, hrest⟩ := h
    rcases List.mem_cons.1 hp with rfl | hp
    · rw [ha]
      omega
    · have := ih hrest hp
      omega

theorem sum_tiles {ps : List (Nat × Nat)} {a n : Nat} (h : Tiles a n ps) : (ps.map (·.2)).sum = n := by
  induction ps generalizing a n with
  | nil => exact Eq.symm h
  | cons p ps ih =>
    obtain ⟨-, -, hle, -, hrest⟩ := h
    rw [List.map_cons, List.sum_cons, ih hrest]
    omega

/-- A physical part for each part of the range, each at `f` of its address. -/
def partsAt (f : Nat → Nat) (ps : List (Nat × Nat)) : List XPart := ps.map fun p => ⟨p.1, f p.1, p.2, default⟩

/-- Where the parts lie one after another in physical memory too, the bytes laid over them do. -/
theorem partCells_tiles {ps : List (Nat × Nat)} {a n b : Nat} {f : Nat → Nat} (h : Tiles a n ps)
    (hf : ∀ p ∈ ps, f p.1 + a = b + p.1) (bs : List Byte) (hb : bs.length = n) : partCells (partsAt f ps) bs = cellsAt b bs := by
  induction ps generalizing a n b bs with
  | nil => simp [partsAt, partCells, cellsAt, List.length_eq_zero_iff.1 (hb.trans h)]
  | cons p ps ih =>
    obtain ⟨ha, -, hle, -, hrest⟩ := h
    obtain ⟨hp, hps⟩ := List.forall_mem_cons.1 hf
    have hlater : ∀ q ∈ ps, f q.1 + (a + p.2) = b + p.2 + q.1 := fun q hq => by have := hps q hq; omega
    have hfp : f p.1 = b := by omega
    have htake : (bs.take p.2).length = p.2 := by rw [List.length_take]; omega
    calc partCells (partsAt f (p :: ps)) bs
      _ = cellsAt b (bs.take p.2) ++ partCells (partsAt f ps) (bs.drop p.2) := by
        rw [← hfp]
        rfl
      _ = cellsAt b (bs.take p.2) ++ cellsAt (b + p.2) (bs.drop p.2) := by
        rw [ih hrest hlater (bs.drop p.2) (by rw [List.length_drop, hb])]
      _ = cellsAt b bs := by
        conv_rhs => rw [← List.take_append_drop p.2 bs]
        simp only [cellsAt, List.zipIdx_append, List.map_append, htake]
        congr 1
        rw [Nat.zero_add, List.zipIdx_eq_map_add (i := p.2)]
        simp [Nat.add_assoc]

theorem flatMap_tiles {α : Type} {ps : List (Nat × Nat)} {a n : Nat} (h : Tiles a n ps) (f : Nat → α) :
    (ps.flatMap fun p => (List.range p.2).map fun i => f (p.1 + i)) = (List.range n).map fun k => f (a + k) := by
  induction ps generalizing a n with
  | nil => simp [show n = 0 from h]
  | cons p ps ih =>
    obtain ⟨ha, -, hle, -, hrest⟩ := h
    rw [List.flatMap_cons, ih hrest, ha]
    conv_rhs => rw [← Nat.add_sub_cancel' hle, List.range_add, List.map_append]
    simp [Function.comp_def, Nat.add_assoc]

/-! The checks in order (R186). -/

/-- What an access fails with at an address, in a window and on a thread stack. -/
theorem fail_virt (s : State) (sid : Nat) (acc : Acc) (l : Nat) (v : Word64) (disp : Int) (n align : Nat) :
    let a := (v + BitVec.ofInt 64 disp).toNat
    (s.laneAccess sid acc .virt l v disp n align).fail =
      if 2 ^ 56 ≤ a then some (0x32, 0, a) else if a % align ≠ 0 then some (0x31, 0, a)
      else (s.accessParts sid acc 0x8000000 (pageParts a n)).2 := by
  simp only [State.laneAccess]
  split
  · rfl
  · split <;> rfl

theorem fail_window (s : State) (sid : Nat) (acc : Acc) (base : Base) (space l : Nat) (v : Word64) (disp : Int) (n align : Nat)
    (hb : base = .team ∧ space = 1 ∨ base = .clu ∧ space = 2) :
    let off := (v.setWidth 32 + BitVec.ofInt 32 disp).toNat
    (s.laneAccess sid acc base l v disp n align).fail =
      if s.windowRange (s.str sid).team space off n = false then some (0x30, 0, off)
      else if off % align ≠ 0 then some (0x31, 0, off) else none := by
  rcases hb with ⟨rfl, rfl⟩ | ⟨rfl, rfl⟩
  all_goals
    simp only [State.laneAccess, Bool.not_eq_true']
    split
    · rfl
    · split <;> rfl

theorem fail_stack (s : State) (sid : Nat) (acc : Acc) (l : Nat) (v : Word64) (disp : Int) (n align : Nat) :
    let off := (v.setWidth 32 + BitVec.ofInt 32 disp).toNat
    (s.laneAccess sid acc .stk l v disp n align).fail =
      if (s.gridOf sid).kd.stack < off + n then some (0x30, 2, off) else if off % align ≠ 0 then some (0x31, 0, off)
      else (s.accessParts sid acc 0x8000000 (pageParts (s.stackVa sid l + off) n)).2 := by
  simp only [State.laneAccess]
  split
  · rfl
  · split <;> rfl

theorem accessChecks : AccessChecks := by
  intro s sid acc l v disp n align va off kd
  have hvirt := fail_virt s sid acc l v disp n align
  have hteam := fail_window s sid acc .team 1 l v disp n align (.inl ⟨rfl, rfl⟩)
  have hclu := fail_window s sid acc .clu 2 l v disp n align (.inr ⟨rfl, rfl⟩)
  have hstk := fail_stack s sid acc l v disp n align
  refine ⟨fun h => hvirt.trans (if_pos h), fun h ha => hvirt.trans ?_, fun h ha => hvirt.trans ?_,
    fun h => hteam.trans (if_pos h), fun h ha => hteam.trans ?_, fun h ha => hteam.trans ?_,
    fun h => hclu.trans (if_pos h), fun h ha => hclu.trans ?_, fun h ha => hclu.trans ?_,
    fun h => hstk.trans (if_pos h), fun h ha => hstk.trans ?_⟩
  · exact (if_neg (Nat.not_le.2 h)).trans (if_pos ha)
  · exact (if_neg (Nat.not_le.2 h)).trans (if_neg (not_not.2 ha))
  · exact (if_neg (ne_false_of_eq_true h)).trans (if_pos ha)
  · exact (if_neg (ne_false_of_eq_true h)).trans (if_neg (not_not.2 ha))
  · exact (if_neg (ne_false_of_eq_true h)).trans (if_pos ha)
  · exact (if_neg (ne_false_of_eq_true h)).trans (if_neg (not_not.2 ha))
  · exact (if_neg (Nat.not_lt.2 h)).trans (if_pos ha)

/-! The scratchpad (R37). -/

/-- A team window's parts below the column store lie one after another in the scratchpad. -/
theorem windowParts_scratch {s : State} {tid off n : Nat} (h : off + n ≤ 0x800000) (bs : List Byte) (hb : bs.length = n) :
    partCells (s.windowParts tid 1 off n) bs = cellsAt ((s.team tid).spBase + off) bs := by
  refine partCells_tiles (f := s.windowPhys tid 1) (tiles_pageParts off n) (fun p hp => ?_) bs hb
  have := mem_tiles (tiles_pageParts off n) hp
  simp only [State.windowPhys, Team.phys, if_pos, show p.1 < 0x800000 by omega]
  omega

/-- A byte of tier 1 that no store of the strand covers and no live queue takes is read as it stands. -/
theorem loadByte_tier1 {s : State} {sid lane pa site : Nat} (hst : (s.str sid).fl.stores = []) (hpa : pa < 0x80000000)
    (hlive : s.liveByte pa = false) : s.loadByte sid (some lane) pa site = s.mem.read pa := by
  simp [State.loadByte, Strand.overCells, hst, hlive, regionOf, hpa]

theorem scratchpadAccess : ScratchpadAccess := by
  intro s sid acc l v disp n align off base hn hsp hmax halign
  let ps := pageParts off n
  have htiles : Tiles off n ps := tiles_pageParts off n
  have hrange : s.windowRange (s.str sid).team 1 off n = true := by
    have : off + n ≤ (s.grid (s.team (s.str sid).team).grid).kd.spSize := hsp
    simp [State.windowRange, teamRange, this]
  have hacc : s.laneAccess sid acc .team l v disp n align =
      ⟨l, off, off, s.windowParts (s.str sid).team 1 off n, none, false⟩ := by
    simp only [State.laneAccess, Bool.not_eq_true']
    rw [if_neg (by rw [hrange]; simp), if_neg (not_not.2 halign)]
  rw [hacc]
  refine ⟨rfl, rfl, ?_, fun bs hb => windowParts_scratch (by omega) bs hb, fun hst htier hlive => ?_⟩
  · rw [LaneAcc.done, State.windowParts, List.map_map]
    exact sum_tiles htiles
  · have hread (p : Nat × Nat) (hp : p ∈ ps) :
        (if regionOf (s.windowPhys (s.str sid).team 1 p.1) = .control then
            s.physBytes (s.windowPhys (s.str sid).team 1 p.1) p.2
          else s.loadParts sid (some l) 0x8200000 [⟨p.1, s.windowPhys (s.str sid).team 1 p.1, p.2, default⟩]) =
        (List.range p.2).map fun i => s.mem.read (base + (p.1 + i)) := by
      have hin := mem_tiles htiles hp
      have hphys : s.windowPhys (s.str sid).team 1 p.1 = base + p.1 := by
        simp only [State.windowPhys, Team.phys, if_pos, show p.1 < 0x800000 by omega]
        rfl
      have hreg : regionOf (base + p.1) ≠ .control := by simp [regionOf, show base + p.1 < 0x80000000 by omega]
      rw [hphys, if_neg hreg]
      simp only [State.loadParts, List.flatMap_cons, List.flatMap_nil, List.append_nil]
      refine List.map_congr_left fun i hi => ?_
      have hi := List.mem_range.1 hi
      have hbyte := hlive (p.1 + i - off) (by omega)
      rw [show base + off + (p.1 + i - off) = base + p.1 + i by omega] at hbyte
      rw [loadByte_tier1 hst (by omega) hbyte, Nat.add_assoc]
    calc s.accBytes sid ⟨l, off, off, s.windowParts (s.str sid).team 1 off n, none, false⟩
      _ = ps.flatMap fun p => (List.range p.2).map fun i => s.mem.read (base + (p.1 + i)) := by
        rw [State.accBytes, State.windowParts, List.flatMap_map]
        exact List.flatMap_congr hread
      _ = (List.range n).map fun k => s.mem.read (base + off + k) := by
        rw [flatMap_tiles htiles fun x => s.mem.read (base + x)]
        simp only [Nat.add_assoc]

/-! The windows (R37, R38). -/

/-- The stride of the cluster window is the least power of two from the scratchpad's size and 64 KiB on. -/
theorem cluStride_bounds (sp : Nat) : max sp 0x10000 ≤ cluStride sp ∧ cluStride sp < 2 * max sp 0x10000 := by
  have hm : ¬max sp 0x10000 ≤ 1 := by omega
  have hlow : 2 ^ (max sp 0x10000 - 1).log2 ≤ max sp 0x10000 - 1 := Nat.log2_self_le (by omega)
  have hhigh : max sp 0x10000 - 1 < 2 ^ ((max sp 0x10000 - 1).log2 + 1) := Nat.lt_log2_self
  rw [cluStride, clog2, if_neg hm]
  omega

/-- It is a multiple of 64 KiB, so that a part of a range lies in one team's share. -/
theorem dvd_cluStride (sp : Nat) : 65536 ∣ cluStride sp := by
  have h : 2 ^ 16 ≤ 2 ^ clog2 (max sp 0x10000) := by
    have := (cluStride_bounds sp).1
    rw [cluStride] at this
    omega
  exact Nat.pow_dvd_pow 2 ((Nat.pow_le_pow_iff_right (by omega)).1 h)

/-- A byte of the column store. -/
def inColumns (kd : KDesc) (x : Nat) : Prop := 0x800000 ≤ x ∧ x < 0xA00000 ∧ kd.csLo ≤ x % 0x4000 ∧ x % 0x4000 < kd.csHi

theorem teamByte_iff (kd : KDesc) (x : Nat) : teamByte kd x = true ↔ x < kd.spSize ∨ inColumns kd x := by
  simp [teamByte, inColumns, and_assoc]

/-- A range of the team window is checked in full. -/
theorem teamRange_iff {kd : KDesc} {off n : Nat} (hn : 0 < n) (hsp : kd.spSize ≤ 0x600000) (hcs : kd.csHi ≤ 0x4000) :
    teamRange kd off n = true ↔ ∀ i < n, off + i < kd.spSize ∨ inColumns kd (off + i) := by
  have hdef : teamRange kd off n = true ↔ off + n ≤ kd.spSize ∨ ((off < kd.spSize ∨ inColumns kd off) ∧
      (off + n - 1 < kd.spSize ∨ inColumns kd (off + n - 1)) ∧ 0x800000 ≤ off ∧
      (off / 0x4000 = (off + n - 1) / 0x4000 ∨ (kd.csLo = 0 ∧ kd.csHi = 0x4000))) := by
    simp only [teamRange, Bool.or_eq_true, Bool.and_eq_true, teamByte_iff, beq_iff_eq, decide_eq_true_eq, and_assoc,
      Nat.pos_iff_ne_zero.1 hn, false_or]
  rw [hdef]
  constructor
  · rintro (h | ⟨hfirst, hlast, hoff, hcol⟩) i hi
    · exact .inl (by omega)
    · right
      have hfirst := hfirst.resolve_left (by omega)
      have hlast := hlast.resolve_left (by omega)
      simp only [inColumns] at hfirst hlast ⊢
      omega
  · intro hall
    by_cases hoff : off < kd.spSize
    · left
      by_contra hlong
      have := hall (kd.spSize - off) (by omega)
      simp only [inColumns] at this
      omega
    · right
      have hfirst := hall 0 hn
      have hlast := hall (n - 1) (by omega)
      rw [show off + (n - 1) = off + n - 1 by omega] at hlast
      refine ⟨hfirst, hlast, ?_, ?_⟩
      · have := hfirst.resolve_left (by omega)
        exact this.1
      · by_cases hsame : off / 0x4000 = (off + n - 1) / 0x4000
        · exact .inl hsame
        · right
          have hedge := hall ((off / 0x4000 + 1) * 0x4000 - off) (by omega)
          have hbefore := hall ((off / 0x4000 + 1) * 0x4000 - 1 - off) (by omega)
          rw [show off + ((off / 0x4000 + 1) * 0x4000 - off) = (off / 0x4000 + 1) * 0x4000 by omega] at hedge
          rw [show off + ((off / 0x4000 + 1) * 0x4000 - 1 - off) = (off / 0x4000 + 1) * 0x4000 - 1 by omega] at hbefore
          simp only [inColumns] at hedge hbefore hfirst
          omega

/-- The bytes of a part that lies in one page stand in one share of the cluster window. -/
theorem share_of_part {S x j len : Nat} (hS : 65536 ∣ S) (hpage : x % 65536 + len ≤ 65536) (hj : j < len) :
    (x + j) / S = x / S ∧ (x + j) % S = x % S + j := by
  obtain ⟨m, rfl⟩ := hS
  rcases Nat.eq_zero_or_pos m with rfl | hm
  · simp
  · have hmod : x % (65536 * m) = x % 65536 + 65536 * (x / 65536 % m) := Nat.mod_mul
    have hlt : x / 65536 % m < m := Nat.mod_lt _ hm
    have hfit : x % (65536 * m) + j < 65536 * m := by
      have : 65536 * (x / 65536 % m + 1) ≤ 65536 * m := Nat.mul_le_mul_left _ hlt
      omega
    have hx := Nat.div_add_mod x (65536 * m)
    constructor
    · rw [← hx, Nat.add_assoc, Nat.mul_add_div (by omega), Nat.mul_add_div (by omega), Nat.div_eq_of_lt hfit,
        Nat.div_eq_of_lt (Nat.mod_lt x (by omega : 65536 * m > 0))]
    · conv_lhs => rw [← hx, Nat.add_assoc, Nat.mul_add_mod]
      exact Nat.mod_eq_of_lt hfit

/-- A byte of a team's scratchpad in the cluster window. -/
def inCluster (s : State) (tid x : Nat) : Prop :=
  let sp := (s.grid (s.team tid).grid).kd.spSize
  x / cluStride sp < (s.team tid).cluster.length ∧ x % cluStride sp < sp

/-- A range of the cluster window is checked in full. -/
theorem clusterRange_iff (s : State) (tid off n : Nat) :
    s.windowRange tid 2 off n = true ↔ ∀ i < n, inCluster s tid (off + i) := by
  rw [← forall_bytes_iff (tiles_pageParts off n) (inCluster s tid)]
  simp only [State.windowRange, if_neg (by decide : ¬(2 : Nat) = 1), List.all_eq_true]
  refine forall₂_congr fun p hp => ?_
  obtain ⟨-, hpos, -, hpage⟩ := mem_tiles (tiles_pageParts off n) hp
  have hshare (j : Nat) (hj : j < p.2) := share_of_part (dvd_cluStride (s.grid (s.team tid).grid).kd.spSize) hpage hj
  simp only [State.cluster, inCluster]
  constructor
  · intro h j hj
    rw [(hshare j hj).1, (hshare j hj).2]
    split at h
    · next c o hc =>
      split at hc
      · next mate hm =>
        split at hc
        · cases hc
          exact ⟨(List.getElem?_eq_some_iff.1 hm).1, by have := of_decide_eq_true h; omega⟩
        · cases hc
      · cases hc
    · cases h
  · intro h
    obtain ⟨hlen, hmod⟩ := h 0 hpos
    have hlast := (h (p.2 - 1) (by omega)).2
    rw [(hshare (p.2 - 1) (by omega)).2] at hlast
    rw [Nat.add_zero] at hlen hmod
    simp only [List.getElem?_eq_getElem hlen, hmod, if_true, decide_eq_true_eq]
    omega

/-- The column store lies behind the scratchpad of its core. -/
theorem windowParts_columns {s : State} {tid off n : Nat} (h : 0x800000 ≤ off) (bs : List Byte) (hb : bs.length = n) :
    partCells (s.windowParts tid 1 off n) bs = cellsAt ((s.team tid).core * 0x800000 + 0x600000 + (off - 0x800000)) bs := by
  refine partCells_tiles (f := s.windowPhys tid 1) (tiles_pageParts off n) (fun p hp => ?_) bs hb
  have := mem_tiles (tiles_pageParts off n) hp
  simp only [State.windowPhys, Team.phys, if_true, if_neg (by omega : ¬p.1 < 0x800000)]
  omega

/-- A team's share of the cluster window is its scratchpad. -/
theorem windowParts_cluster {s : State} {tid n c o mate : Nat} (hmate : (s.team tid).cluster[c]? = some mate)
    (ho : o + n ≤ (s.grid (s.team tid).grid).kd.spSize) (hsp : (s.grid (s.team tid).grid).kd.spSize ≤ 0x600000)
    (bs : List Byte) (hb : bs.length = n) :
    partCells (s.windowParts tid 2 (c * cluStride (s.grid (s.team tid).grid).kd.spSize + o) n) bs =
      cellsAt ((s.team mate).spBase + o) bs := by
  refine partCells_tiles (f := s.windowPhys tid 2) (tiles_pageParts _ n) (fun p hp => ?_) bs hb
  have hin := mem_tiles (tiles_pageParts _ n) hp
  have hS := (cluStride_bounds (s.grid (s.team tid).grid).kd.spSize).1
  generalize hk : cluStride (s.grid (s.team tid).grid).kd.spSize = S at *
  obtain ⟨d, hd⟩ := Nat.exists_eq_add_of_le hin.1
  have hlt : o + d < (s.grid (s.team tid).grid).kd.spSize := by omega
  have hx : p.1 = o + d + S * c := by rw [hd, Nat.mul_comm c S]; omega
  have hdiv : p.1 / S = c := by rw [hx, Nat.add_mul_div_left _ _ (by omega), Nat.div_eq_of_lt (by omega), Nat.zero_add]
  have hmod : p.1 % S = o + d := by rw [hx, Nat.add_mul_mod_self_left, Nat.mod_eq_of_lt (by omega)]
  have hclu : s.cluster tid p.1 = some (mate, o + d) := by
    simp only [State.cluster, hk, hdiv, hmod, hmate, hlt, if_true]
  simp only [State.windowPhys, if_neg (by decide : ¬(2 : Nat) = 1), hclu, Team.phys, if_pos (by omega : o + d < 0x800000)]
  rw [hd]
  omega

theorem windowsMap : WindowsMap := by
  intro s tid off n hn t kd S
  refine ⟨⟨⟨_, rfl⟩, cluStride_bounds kd.spSize⟩, fun hsp hcs => teamRange_iff hn hsp hcs, clusterRange_iff s tid off n,
    fun bs hb => ⟨fun col k hcol hk hoff => ?_, fun c o mate hmate ho hsp hoff => ?_⟩⟩
  · have haddr : (s.team tid).core * 0x800000 + 0x600000 + (off - 0x800000) =
        0x800000 * (s.team tid).core + 0x600000 + 0x4000 * col + k := by
      rw [Nat.mul_comm (s.team tid).core]
      omega
    rw [windowParts_columns (by omega) bs hb, haddr]
    rfl
  · rw [hoff]
    exact windowParts_cluster hmate ho hsp bs hb

/-- Settles O26: the checks from the definition of an access, the bytes from the parts of a range. -/
theorem accessAndScratchpad : Obligations.AccessAndScratchpad := ⟨accessChecks, scratchpadAccess, windowsMap⟩

end Sys2Proof.Machine
end

section
/-! PROOFS. What the operand phase and the writing of a result leave of the rest of the machine (R139 steps 1 to 4). -/

namespace Sys2Proof.Machine

open Sys2Proof.Claim

/-! Changes of one strand. -/

theorem nset_nset {α : Type} (m : NMap α) (i : Nat) (x y : α) : nset (nset m i x) i y = nset m i y := by
  induction m with
  | nil => simp [nset]
  | cons c m ih =>
    obtain ⟨k, v⟩ := c
    simp only [nset]
    split
    · simp [nset]
    · split
      · simp [nset]
      · next hlt hne => simp [nset, hlt, hne, ih]

theorem nmod_nmod {α : Type} (m : NMap α) (i : Nat) (f g : α → α) : nmod (nmod m i f) i g = nmod m i fun x => g (f x) := by
  simp only [nmod]
  cases h : nget m i with
  | none => simp only [h]
  | some v => simp only [nget_nset_same, nset_nset]

theorem modStr_modStr (s : State) (i : Nat) (f g : Strand → Strand) : (s.modStr i f).modStr i g = s.modStr i fun st => g (f st) := by
  simp [State.modStr, nmod_nmod]

/-- A change of a strand is what it makes of that strand. -/
theorem modStr_congr {s : State} {i : Nat} {f g : Strand → Strand} (h : f (s.str i) = g (s.str i)) : s.modStr i f = s.modStr i g := by
  simp only [State.modStr, nmod]
  simp only [State.str] at h
  cases hn : nget s.strands i with
  | none => rfl
  | some v =>
    rw [hn] at h
    exact congrArg (fun x => { s with strands := nset s.strands i x }) h

theorem team_modTeam (s : State) (i k : Nat) (f : Team → Team) :
    (s.modTeam i f).team k = if k = i ∧ (nget s.teams i).isSome = true then f (s.team i) else s.team k := by
  simp only [State.team, State.modTeam_teams, nget_nmod]
  by_cases h : k = i
  · subst h
    cases hn : nget s.teams k <;> simp
  · simp [h]

@[simp] theorem modCore_str (s : State) (i j : Nat) (f : Core → Core) : (s.modCore i f).str j = s.str j := rfl
@[simp] theorem modTeam_str (s : State) (i j : Nat) (f : Team → Team) : (s.modTeam i f).str j = s.str j := rfl

/-! The operand phase. -/

/-- What an operand phase may change: queues that it pops, registers of frames that a matrix operation uses, and what the
operation's token says of them. -/
structure Touched (s t : State) : Prop where
  rest : t = { s with strands := t.strands, teams := t.teams, cores := t.cores }
  has : ∀ j, nhas t.strands j = nhas s.strands j
  str : ∀ j, t.str j = { s.str j with frames := (t.str j).frames }
  team : ∀ j, t.team j = { s.team j with queues := (t.team j).queues }
  core : ∀ j, t.core j = { s.core j with mx := (t.core j).mx }

namespace Touched

theorem refl (s : State) : Touched s s := ⟨rfl, fun _ => rfl, fun _ => rfl, fun _ => rfl, fun _ => rfl⟩

theorem trans {s t u : State} (h : Touched s t) (h' : Touched t u) : Touched s u where
  rest := by rw [h'.rest, h.rest]
  has j := (h'.has j).trans (h.has j)
  str j := by rw [h'.str j, h.str j]
  team j := by rw [h'.team j, h.team j]
  core j := by rw [h'.core j, h.core j]

theorem foldl {α : Type} {f : State → α → State} (h : ∀ s x, Touched s (f s x)) (xs : List α) (s : State) :
    Touched s (xs.foldl f s) := by
  induction xs generalizing s with
  | nil => exact refl s
  | cons x xs ih => exact (h s x).trans (ih _)

variable {s t : State} (h : Touched s t) (sid : Nat)
include h

theorem teamOf_eq : t.teamOf sid = { s.teamOf sid with queues := (t.teamOf sid).queues } := by
  have hteam : (t.str sid).team = (s.str sid).team := by rw [h.str sid]
  simp only [State.teamOf, hteam]
  exact h.team _

theorem gridOf : t.gridOf sid = s.gridOf sid := by
  have hgrid : (t.teamOf sid).grid = (s.teamOf sid).grid := by rw [h.teamOf_eq sid]
  have hgrids : t.grids = s.grids := by rw [h.rest]
  simp only [State.gridOf, hgrid, State.grid, hgrids]

theorem ctxOf : t.ctxOf sid = s.ctxOf sid := by
  have hctxs : t.ctxs = s.ctxs := by rw [h.rest]
  simp only [State.ctxOf, h.gridOf sid, State.ctx, hctxs]

theorem fl : (t.str sid).fl = (s.str sid).fl := by rw [h.str sid]
theorem waits : (t.str sid).waits = (s.str sid).waits := by rw [h.str sid]
theorem runs : t.runs = s.runs := by rw [h.rest]

end Touched

theorem touched_scramble (s : State) (sid uid r : Nat) : Touched s (s.scramble sid uid r) := by
  have heng (st : Strand) (ls : List Nat) (v : Nat → Word) :
      ls.foldl (fun st l => st.engPoke uid r l (v l)) st =
        { st with frames := (ls.foldl (fun st l => st.engPoke uid r l (v l)) st).frames } := by
    induction ls generalizing st with
    | nil => rfl
    | cons l ls ih =>
      rw [List.foldl_cons, ih]
      rfl
  refine ⟨rfl, fun j => by simp [State.scramble], fun j => ?_, fun _ => rfl, fun _ => rfl⟩
  rw [State.scramble, str_modStr]
  split
  · next hj =>
    rw [hj.1]
    exact heng _ _ _
  · rfl

theorem touched_modMxs (s : State) (i : Nat) (f : NMap MxTok → NMap MxTok) : Touched s (s.modCore i fun c => { c with mx := f c.mx }) := by
  refine ⟨rfl, fun _ => rfl, fun _ => rfl, fun _ => rfl, fun j => ?_⟩
  rw [core_modCore]
  split
  · next hj => rw [hj]
  · rfl

theorem touched_mxTouch (s : State) (sid : Nat) (locs : List RegLoc) : Touched s (s.mxTouch sid locs) := by
  rw [State.mxTouch]
  split
  · exact Touched.refl s
  · refine Touched.foldl (fun s r => ?_) locs s
    dsimp only
    split
    · exact (touched_scramble s sid r.frame r.reg).trans (touched_modMxs _ _ _)
    · exact Touched.refl s

theorem touched_touchSrcs (s : State) (sid : Nat) (lanes : List Nat) (srcs : List Opd) : Touched s (s.touchSrcs sid lanes srcs) := by
  rw [State.touchSrcs]
  split
  · exact Touched.refl s
  · exact touched_mxTouch s sid _

theorem touched_popQ (s : State) (tid desc : Nat) (lanes : List Nat) : Touched s (s.popQ tid desc lanes).2 := by
  rw [State.popQ]
  split
  · exact Touched.refl s
  · refine ⟨rfl, fun _ => rfl, fun _ => rfl, fun j => ?_, fun _ => rfl⟩
    simp only [State.modQ, team_modTeam]
    split
    · next hj => rw [hj.1]
    · rfl

theorem touched_makePops (sid : Nat) (lanes pops : List Nat) (s : State) : Touched s (s.makePops sid lanes pops).2 := by
  induction pops generalizing s with
  | nil => exact Touched.refl s
  | cons p ps ih => exact (touched_popQ s _ _ lanes).trans (ih _)

/-- An operand phase that passes leaves the path where it is, but for the pops it notes, and touches no more than that. -/
theorem touched_ready {s t : State} {sid : Nat} {p q : RunPath} {srcs dsts : List Opd} {vals : NMap (List Word64)}
    (h : ready s sid p srcs dsts = some (q, t, vals)) : q = { p with undo := q.undo } ∧ Touched s t := by
  simp only [ready] at h
  split at h
  · cases h
  · split at h
    · cases h
      exact ⟨rfl, touched_touchSrcs s sid p.lanes srcs⟩
    · split at h
      · cases h
        exact ⟨rfl, (touched_makePops sid p.lanes _ s).trans (touched_touchSrcs _ sid p.lanes srcs)⟩
      · cases h

/-- A form that may wait makes its operand phase once. -/
theorem operandsOnce_ready {s t : State} {sid : Nat} {p q : RunPath} {srcs dsts : List Opd} {vals : NMap (List Word64)}
    {k : RunPath → State → NMap (List Word64) → State} (h : ready s sid p srcs dsts = some (q, t, vals)) (hgot : p.got = none) :
    s.operandsOnce sid p srcs dsts k = k (kept q vals) t vals := by
  rw [State.operandsOnce, hgot]
  exact operands_ready _ h

/-! Writing a result (R137). -/

/-- What the writing of a result may change: registers and latches of strands, pending loads that a register's write ends, and
what the tokens of matrix operations say of registers. -/
structure Wrote (s t : State) : Prop where
  rest : t = { s with strands := t.strands, cores := t.cores }
  has : ∀ j, nhas t.strands j = nhas s.strands j
  str : ∀ j, ∃ loads, t.str j = { s.str j with
    frames := (t.str j).frames, lanes := (t.str j).lanes, ports := (t.str j).ports, softRegs := (t.str j).softRegs
    fl := { (s.str j).fl with loads := loads } }
  core : ∀ j, t.core j = { s.core j with mx := (t.core j).mx }

namespace Wrote

theorem refl (s : State) : Wrote s s := ⟨rfl, fun _ => rfl, fun j => ⟨(s.str j).fl.loads, rfl⟩, fun _ => rfl⟩

theorem trans {s t u : State} (h : Wrote s t) (h' : Wrote t u) : Wrote s u where
  rest := by rw [h'.rest, h.rest]
  has j := (h'.has j).trans (h.has j)
  str j := by
    obtain ⟨x, hx⟩ := h.str j
    obtain ⟨y, hy⟩ := h'.str j
    exact ⟨y, by rw [hy, hx]⟩
  core j := by rw [h'.core j, h.core j]

variable {s t : State} (h : Wrote s t) (sid : Nat)
include h

theorem teamOf : t.teamOf sid = s.teamOf sid := by
  obtain ⟨_, hstr⟩ := h.str sid
  have hteam : (t.str sid).team = (s.str sid).team := by rw [hstr]
  have hteams : t.teams = s.teams := by rw [h.rest]
  simp only [State.teamOf, hteam, State.team, hteams]

theorem gridOf : t.gridOf sid = s.gridOf sid := by
  have hgrids : t.grids = s.grids := by rw [h.rest]
  simp only [State.gridOf, h.teamOf sid, State.grid, hgrids]

theorem ctxOf : t.ctxOf sid = s.ctxOf sid := by
  have hctxs : t.ctxs = s.ctxs := by rw [h.rest]
  simp only [State.ctxOf, h.gridOf sid, State.ctx, hctxs]

end Wrote

theorem wrote_mxTouch (s : State) (sid : Nat) (locs : List RegLoc) : Wrote s (s.mxTouch sid locs) := by
  have h := touched_mxTouch s sid locs
  have hteams : (s.mxTouch sid locs).teams = s.teams := by
    rw [State.mxTouch]
    split
    · rfl
    · generalize s = u
      induction locs generalizing u with
      | nil => rfl
      | cons r rs ih =>
        rw [List.foldl_cons, ih (touched_mxTouch _ _ _)]
        dsimp only
        split <;> rfl
  exact ⟨by rw [h.rest, hteams], h.has, fun j => ⟨(s.str j).fl.loads, by rw [h.str j]⟩, h.core⟩

theorem poke_eq (st : Strand) (r : RegLoc) (v : Word) :
    st.poke r v = { st with frames := (st.poke r v).frames, lanes := (st.poke r v).lanes, softRegs := (st.poke r v).softRegs } := by
  simp only [Strand.poke]
  split <;> split <;> rfl

theorem wrote_modStr {s : State} {sid : Nat} {f : Strand → Strand} (h : ∀ st, ∃ loads, f st = { st with
    frames := (f st).frames, lanes := (f st).lanes, ports := (f st).ports, softRegs := (f st).softRegs
    fl := { st.fl with loads := loads } }) : Wrote s (s.modStr sid f) := by
  refine ⟨rfl, fun j => by simp, fun j => ?_, fun _ => rfl⟩
  rw [str_modStr]
  split
  · next hj =>
    rw [hj.1]
    exact h _
  · exact ⟨_, rfl⟩

theorem wrote_regWrite (s : State) (sid : Nat) (r : RegLoc) (v : Word) (site : Nat) : Wrote s (s.regWrite sid r v site) := by
  refine wrote_modStr fun st => ?_
  rw [poke_eq st r v]
  dsimp only
  split
  · exact ⟨st.fl.loads, rfl⟩
  · split
    · exact ⟨st.fl.loads, rfl⟩
    · exact ⟨_, rfl⟩

theorem wrote_regWrites (sid : Nat) (ws : List (RegLoc × Word)) (s : State) : Wrote s (s.regWrites sid ws) := by
  induction ws generalizing s with
  | nil => exact Wrote.refl s
  | cons w ws ih => exact (wrote_regWrite s sid w.1 w.2 _).trans (ih _)

theorem wrote_regPuts (s : State) (sid : Nat) (ws : List (RegLoc × Word)) : Wrote s (s.regPuts sid ws) :=
  (wrote_regWrites sid ws s).trans (wrote_mxTouch _ sid _)

theorem wrote_writeDst (s : State) (sid : Nat) (d : Opd) (res : NMap Word64) : Wrote s (s.writeDst sid d res) := by
  simp only [State.writeDst]
  split
  · split
    · exact Wrote.refl s
    · exact wrote_modStr fun st => ⟨st.fl.loads, rfl⟩
  · exact wrote_regPuts s sid _

end Sys2Proof.Machine
end

section
/-! PROOFS. Reads and writes of the control and status registers (R32, R33, R271, R272). -/

namespace Sys2Proof.Machine

open Sys2Proof.Claim

/-! Halves of a 64-bit register. -/

theorem setWidth_eq_loHalf (x : Word64) : x.setWidth 32 = loHalf x := by
  apply BitVec.eq_of_toNat_eq
  simp [loHalf]

theorem shift_eq_hiHalf (x : Word64) : (x >>> 32).setWidth 32 = hiHalf x := by
  apply BitVec.eq_of_toNat_eq
  simp [hiHalf, Nat.shiftRight_eq_div_pow]

theorem append_eq_joined (hi lo : Word) : (hi ++ lo : Word64) = joined hi lo := by
  have := hi.isLt
  have := lo.isLt
  apply BitVec.eq_of_toNat_eq
  rw [BitVec.toNat_append, Nat.shiftLeft_eq, Nat.mul_comm, ← Nat.two_pow_add_eq_or_of_lt lo.isLt]
  simp only [joined, BitVec.toNat_ofNat]
  omega

theorem setHalf_low (x : Word64) (v : Word) : setHalf x false v = joined (hiHalf x) v := by
  rw [setHalf, if_neg (by simp), shift_eq_hiHalf, append_eq_joined]

theorem setHalf_high (x : Word64) (v : Word) : setHalf x true v = joined v (loHalf x) := by
  rw [setHalf, if_pos rfl, setWidth_eq_loHalf, append_eq_joined]

/-! Reads. -/

/-- The table of the 64-bit registers. -/
theorem csrPair_iff {s : State} {sid n : Nat} {v : Word64} : s.csrPair sid n = some v ↔ (n, v) ∈ csr64 s sid := by
  unfold State.csrPair
  split <;> simp_all [csr64, eq_comm]

theorem csrPair_none {s : State} {sid n : Nat} (h : n ∉ [0x02, 0x04, 0x09, 0x0B, 0x11, 0x13, 0x18, 0x1A, 0x20]) :
    s.csrPair sid n = none := by
  unfold State.csrPair
  split <;> simp_all

theorem ssw_eq (s : State) (sid : Nat) : s.ssw sid = oneIf (s.str sid).csr.dzt + 4 * oneIf (s.str sid).csr.sstep +
    8 * oneIf (s.str sid).csr.dgon + 16 * oneIf (s.ctxOf sid).sys + 32 * oneIf ((s.str sid).role == 4) +
    65536 * (s.str sid).frames.length := by
  have h : ∀ b, natOf b = oneIf b := fun _ => rfl
  simp only [State.ssw, h, Strand.isLead]
  omega

/-- What a half of a 64-bit register reads as. -/
theorem csrValue_low {s : State} {sid n : Nat} {v : Word64} (h : s.csrPair sid n = some v) : s.csrValue sid n = loHalf v := by
  simp only [State.csrValue, h, setWidth_eq_loHalf]

theorem csrValue_high {s : State} {sid n : Nat} {v : Word64} (h : s.csrPair sid (n + 1) = none) (hv : s.csrPair sid n = some v) :
    s.csrValue sid (n + 1) = hiHalf v := by
  simp only [State.csrValue, h, Nat.add_sub_cancel, hv, shift_eq_hiHalf]

/-- A number next to a 64-bit register's is none of another. -/
theorem csrPair_succ {s : State} {sid n : Nat} {v : Word64} (h : (n, v) ∈ csr64 s sid) : s.csrPair sid (n + 1) = none := by
  apply csrPair_none
  simp only [csr64, List.mem_cons, Prod.ext_iff, List.not_mem_nil, or_false] at h
  simp only [List.mem_cons, List.not_mem_nil, or_false]
  omega

/-- A 32-bit register is no half of a 64-bit one, and reads as the table says. -/
theorem csrValue_single {s : State} {sid n : Nat} {v : Word} (h : (n, v) ∈ csr32 s sid) :
    s.csrPair sid n = none ∧ s.csrValue sid n = v := by
  simp only [csr32, List.mem_cons, Prod.ext_iff, List.not_mem_nil, or_false] at h
  rcases h with ⟨rfl, rfl⟩ | ⟨rfl, rfl⟩ | ⟨rfl, rfl⟩ | ⟨rfl, rfl⟩ | ⟨rfl, rfl⟩ | ⟨rfl, rfl⟩ | ⟨rfl, rfl⟩ | ⟨rfl, rfl⟩ | ⟨rfl, rfl⟩
  case inl => exact ⟨rfl, congrArg (BitVec.ofNat 32) (ssw_eq s sid)⟩
  all_goals exact ⟨rfl, rfl⟩

/-- Lane detail (R348). -/
theorem csrValue_detail {s : State} {sid n : Nat} (h : 0x40 ≤ n) (hn : n < 0x80) :
    s.csrPair sid n = none ∧ s.csrValue sid n =
      if n < 0x60 then loHalf (bankDetail s sid (n - 0x40)) else hiHalf (bankDetail s sid (n - 0x60)) := by
  have hone : s.csrPair sid n = none := csrPair_none (by simp; omega)
  have htwo : s.csrPair sid (n - 1) = none := csrPair_none (by simp; omega)
  refine ⟨hone, ?_⟩
  have hval : s.csrValue sid n =
      let d : Word64 := (nget (s.str sid).csr.detailBank.detail (n % 32)).getD 0
      if 0x60 ≤ n then (d >>> 32).setWidth 32 else if 0x40 ≤ n then d.setWidth 32 else 0 := by
    simp only [State.csrValue, hone, htwo]
    split
    case h_10 => rfl
    all_goals omega
  rw [hval]
  dsimp only
  rw [shift_eq_hiHalf, setWidth_eq_loHalf, if_pos h]
  by_cases hlow : n < 0x60
  · rw [if_neg (by omega), if_pos hlow, show n % 32 = n - 0x40 by omega]
    rfl
  · rw [if_pos (by omega), if_neg hlow, show n % 32 = n - 0x60 by omega]
    rfl

/-- What `csr.rd` gives: the half latched by the word before, if it names this number, else the register. -/
def csrRead (s : State) (sid : Nat) (p : RunPath) (n : Nat) : Word :=
  match p.hi with
  | some (k, w) => if k = n then w else s.csrValue sid n
  | none => s.csrValue sid n

theorem csrRead_of_none {s : State} {sid : Nat} {p : RunPath} {n : Nat} (h : p.hi = none) :
    csrRead s sid p n = s.csrValue sid n := by rw [csrRead, h]

theorem csrRd_ready {s t : State} {sid : Nat} {p q : RunPath} {rest : List Run} {vals : NMap (List Word64)} {d : Sel} {n : BitVec 7}
    (hi : issues s sid p rest) (hr : ready (begun s rest) sid p [] [(d, 1)] = some (q, t, vals)) :
    exec (.csrRd d n) s = .next ((giveW t sid q d (csrRead t sid q n.toNat)).advanceHi sid q
      ((t.csrPair sid n.toNat).map fun x => (n.toNat + 1, hiHalf x))) := by
  have hexec : exec (.csrRd d n) s = execCsrRd d n s := rfl
  rw [hexec, execCsrRd, onPath_issues hi]
  refine congrArg Host.Outcome.next ?_
  rw [State.operands, operands_ready _ hr]
  simp only [shift_eq_hiHalf]
  rfl

/-- A read of a register without a high half. -/
theorem csrRd_gives {d : Sel} {n : BitVec 7} {ok : State → Nat → RunPath → NMap (List Word64) → Prop}
    {v : State → Nat → RunPath → Word}
    (h : ∀ s sid p x, ok s sid p x → s.csrPair sid n.toNat = none ∧ csrRead s sid p n.toNat = v s sid p) :
    does (.csrRd d n) [] [(d, 1)] ok (fun s sid p _ => (giveW s sid p d (v s sid p)).advance sid p) := by
  intro s sid p rest q t vals hi _ hr hok
  obtain ⟨hnone, hv⟩ := h t sid q vals hok
  rw [csrRd_ready hi hr, hnone, hv]
  rfl

theorem csrRd_word (d : Sel) (n : BitVec 7) (v : Word) :
    does (.csrRd d n) [] [(d, 1)] (fun s sid p _ => p.hi = none ∧ (n.toNat, v) ∈ csr32 s sid)
      (fun s sid p _ => (giveW s sid p d v).advance sid p) :=
  csrRd_gives fun _ _ _ _ ⟨hhi, hv⟩ => ⟨(csrValue_single hv).1, (csrRead_of_none hhi).trans (csrValue_single hv).2⟩

theorem csrRd_low (d : Sel) (n : BitVec 7) (v : Word64) :
    does (.csrRd d n) [] [(d, 1)] (fun s sid p _ => p.hi = none ∧ (n.toNat, v) ∈ csr64 s sid)
      (fun s sid p _ => (giveW s sid p d (loHalf v)).advanceHi sid p (some (n.toNat + 1, hiHalf v))) := by
  intro s sid p rest q t vals hi _ hr ⟨hhi, hv⟩
  have hpair := csrPair_iff.2 hv
  rw [csrRd_ready hi hr, csrRead_of_none hhi, csrValue_low hpair, hpair]
  rfl

theorem csrRd_high (d : Sel) (n : BitVec 7) (v : Word64) :
    does (.csrRd d n) [] [(d, 1)] (fun s sid p _ => p.hi = none ∧ 0 < n.toNat ∧ (n.toNat - 1, v) ∈ csr64 s sid)
      (fun s sid p _ => (giveW s sid p d (hiHalf v)).advance sid p) :=
  csrRd_gives fun s sid p _ ⟨hhi, hpos, hv⟩ => by
    obtain ⟨m, hm⟩ : ∃ m, n.toNat = m + 1 := ⟨n.toNat - 1, by omega⟩
    rw [hm, Nat.add_sub_cancel] at hv
    rw [csrRead_of_none hhi, hm]
    exact ⟨csrPair_succ hv, csrValue_high (csrPair_succ hv) (csrPair_iff.2 hv)⟩

theorem csrRd_latched (d : Sel) (n : BitVec 7) (w : Word) :
    does (.csrRd d n) [] [(d, 1)] (fun s sid p _ => p.hi = some (n.toNat, w) ∧ ∀ v, (n.toNat, v) ∉ csr64 s sid)
      (fun s sid p _ => (giveW s sid p d w).advance sid p) :=
  csrRd_gives fun s sid p _ ⟨hhi, hnone⟩ =>
    ⟨Option.eq_none_iff_forall_ne_some.2 fun v hv => hnone v (csrPair_iff.1 hv), by simp [csrRead, hhi]⟩

theorem csrRd_detail (d : Sel) (n : BitVec 7) :
    does (.csrRd d n) [] [(d, 1)] (fun _ _ p _ => p.hi = none ∧ 0x40 ≤ n.toNat)
      (fun s sid p _ => (giveW s sid p d (if n.toNat < 0x60 then loHalf (bankDetail s sid (n.toNat - 0x40))
        else hiHalf (bankDetail s sid (n.toNat - 0x60)))).advance sid p) :=
  csrRd_gives (v := fun s sid _ => if n.toNat < 0x60 then loHalf (bankDetail s sid (n.toNat - 0x40))
    else hiHalf (bankDetail s sid (n.toNat - 0x60))) fun _ _ _ _ ⟨hhi, hn⟩ =>
    ⟨(csrValue_detail hn n.isLt).1, (csrRead_of_none hhi).trans (csrValue_detail hn n.isLt).2⟩

/-! Writes. -/

theorem csrWr_ready {s t : State} {sid : Nat} {p q : RunPath} {rest : List Run} {vals : NMap (List Word64)} {a : Sel} {n : BitVec 7}
    (hi : issues s sid p rest) (hr : ready (begun s rest) sid p [(a, 1)] [] = some (q, t, vals)) :
    exec (.csrWr a n) s = .next (
      let v := x32 vals (q.lanes.headD 0) 0
      if (t.str sid).csr.tlevel < csrLevel n.toNat ∧ !(t.ctxOf sid).sys then t.trapPath sid q 0x04 0 q.wordPc
      else if (n.toNat = 2 ∧ v.toNat % 128 ≠ 0) ∨ (n.toNat = 4 ∧ v.toNat % 512 ≠ 0) then t.trapPath sid q 0x01 0 q.wordPc
      else (t.csrWrite sid n.toNat v).advance sid q) := by
  have hexec : exec (.csrWr a n) s = execCsrWr a n s := rfl
  rw [hexec, execCsrWr, onPath_issues hi]
  refine congrArg Host.Outcome.next ?_
  rw [State.operands, operands_ready _ hr]
  rfl

/-- The trap level that a user context needs, as the table of R32 lists it. -/
theorem csrLevel_eq (n : Nat) : csrLevel n =
    if n ∈ [2, 3, 4, 5, 8, 9, 10, 11, 12, 13] then 1 else if n ∈ [0x10, 0x11, 0x12, 0x13, 0x14, 0x15] then 2 else 0 := by
  have hone : n ∈ [2, 3, 4, 5, 8, 9, 10, 11, 12, 13] ↔ (2 ≤ n ∧ n ≤ 5) ∨ (8 ≤ n ∧ n ≤ 13) := by simp; omega
  have htwo : n ∈ [0x10, 0x11, 0x12, 0x13, 0x14, 0x15] ↔ 16 ≤ n ∧ n ≤ 21 := by simp; omega
  simp only [csrLevel, hone, htwo]
  by_cases h : 2 ≤ n ∧ n ≤ 5 <;> simp [h]

/-- A trap bank's register takes its word, the others stay. -/
theorem bank_write_eq (b : Bank) (k : Nat) (x : Word) (h : k ≤ 5) : b.write k x =
    if k = 0 then { b with cause := x }
    else if k = 1 then { b with epc := joined (hiHalf b.epc) x, epcWritten := true }
    else if k = 2 then { b with epc := joined x (loHalf b.epc), epcWritten := true }
    else if k = 3 then { b with addr := joined (hiHalf b.addr) x }
    else if k = 4 then { b with addr := joined x (loHalf b.addr) }
    else { b with lanes := x } := by
  obtain rfl | rfl | rfl | rfl | rfl | rfl : k = 0 ∨ k = 1 ∨ k = 2 ∨ k = 3 ∨ k = 4 ∨ k = 5 := by omega
  all_goals simp [Bank.write, setHalf_low, setHalf_high]

end Sys2Proof.Machine

open Sys2Proof Sys2Proof.Machine Sys2Proof.Claim

/-- Settles O43: a read by the table its number stands in, a write by the checks and then by the register it names. -/
theorem Sys2Proof.Machine.statusRegisterForms : Obligations.StatusRegisterForms := by
  intro d a n
  refine ⟨csrRd_word d n, csrRd_low d n, csrRd_high d n, csrRd_latched d n, csrRd_detail d n, ?_⟩
  have hlt := n.isLt
  have hn (k : Nat) (hk : k < 128) : n = BitVec.ofNat 7 k ↔ n.toNat = k := by
    constructor
    · rintro rfl
      simp [Nat.mod_eq_of_lt hk]
    · intro h
      rw [← h, BitVec.ofNat_toNat, BitVec.setWidth_eq]
  have hn0 : n = 0 ↔ n.toNat = 0 := hn 0 (by decide)
  have hn2 : n = 2 ↔ n.toNat = 2 := hn 2 (by decide)
  have hn3 : n = 3 ↔ n.toNat = 3 := hn 3 (by decide)
  have hn4 : n = 4 ↔ n.toNat = 4 := hn 4 (by decide)
  have hn5 : n = 5 ↔ n.toNat = 5 := hn 5 (by decide)
  intro level v allowed
  have hlevel : level = csrLevel n.toNat := (csrLevel_eq n.toNat).symm
  have hallowed (s : State) (sid : Nat) : allowed s sid ↔ ¬((s.str sid).csr.tlevel < csrLevel n.toNat ∧ (!(s.ctxOf sid).sys) = true) := by
    simp only [allowed, hlevel, not_and, Bool.not_eq_true', Bool.not_eq_false]
    by_cases hs : (s.ctxOf sid).sys <;> simp [hs]
  refine ⟨?_, ?_, ?_⟩
  · intro s sid p rest q t vals hi _ hr hno
    rw [csrWr_ready hi hr]
    exact congrArg Host.Outcome.next (if_pos (not_not.1 (mt (hallowed t sid).2 hno)))
  · intro s sid p rest q t vals hi _ hr ⟨hyes, hlow⟩
    rw [csrWr_ready hi hr]
    refine congrArg Host.Outcome.next ((if_neg ((hallowed t sid).1 hyes)).trans (if_pos ?_))
    exact hlow.imp (fun h => ⟨hn2.1 h.1, h.2⟩) fun h => ⟨hn4.1 h.1, h.2⟩
  · intro s sid p rest q t vals hi _ hr ⟨hyes, htb, hts⟩
    rw [csrWr_ready hi hr]
    refine congrArg Host.Outcome.next ((if_neg ((hallowed t sid).1 hyes)).trans ((if_neg ?_).trans ?_))
    · rintro (⟨h, hne⟩ | ⟨h, hne⟩)
      · exact hne (htb (hn2.2 h))
      · exact hne (hts (hn4.2 h))
    · refine congrArg (State.advance · sid q) ?_
      show t.csrWrite sid n.toNat (v q vals) = _
      generalize v q vals = x
      simp only [State.csrWrite, hn0, hn2, hn3, hn4, hn5]
      by_cases h0 : n.toNat = 0
      · simp only [h0, if_true]
        rfl
      by_cases h2 : n.toNat = 2
      · simp [h2, setHalf_low]
      by_cases h3 : n.toNat = 3
      · simp [h3, setHalf_high]
      by_cases h4 : n.toNat = 4
      · simp [h4, setHalf_low, setCsr, State.modCsr]
      by_cases h5 : n.toNat = 5
      · simp [h5, setHalf_high, setCsr, State.modCsr]
      simp only [h0, h2, h3, h4, h5, or_self, if_false]
      by_cases hA : 8 ≤ n.toNat ∧ n.toNat ≤ 13
      · simp only [hA, and_self, if_true, bank_write_eq _ (n.toNat - 8) _ (by omega)]
        rfl
      by_cases hB : 16 ≤ n.toNat ∧ n.toNat ≤ 21
      · simp only [hA, hB, and_self, if_true, if_false, bank_write_eq _ (n.toNat - 16) _ (by omega)]
        rfl
      simp only [hA, hB, if_false]
end

section
/-! PROOFS. The digest forms, and what a fold adds to the digest (R32, R268 to R270, R345, R421). -/

namespace Sys2Proof.Machine

open Sys2Proof.Claim

/-! A change that leaves a strand as it is (it may only put it in order among the strands). -/

/-- The strand is written back as it stands. -/
def State.rewritten (s : State) (sid : Nat) : State := s.modStr sid fun st => st

theorem modStr_unchanged {s : State} {sid : Nat} {f : Strand → Strand} (h : f (s.str sid) = s.str sid) :
    s.modStr sid f = s.rewritten sid := modStr_congr (g := fun st => st) h

section
variable (s : State) (sid : Nat)

@[simp] theorem rewritten_str (j : Nat) : (s.rewritten sid).str j = s.str j := by
  rw [State.rewritten, str_modStr]
  split
  · next h => rw [h.1]
  · rfl

@[simp] theorem rewritten_teamOf : (s.rewritten sid).teamOf sid = s.teamOf sid := by
  simp only [State.teamOf, rewritten_str]
  rfl

@[simp] theorem rewritten_gridOf : (s.rewritten sid).gridOf sid = s.gridOf sid := by
  simp only [State.gridOf, rewritten_teamOf]
  rfl

@[simp] theorem rewritten_ctxOf : (s.rewritten sid).ctxOf sid = s.ctxOf sid := by
  simp only [State.ctxOf, rewritten_gridOf]
  rfl

theorem rewritten_modStr (f : Strand → Strand) : (s.rewritten sid).modStr sid f = s.modStr sid f := modStr_modStr s sid _ f

theorem modStr_rewritten (f : Strand → Strand) : (s.modStr sid f).rewritten sid = s.modStr sid f := modStr_modStr s sid f _

theorem rewritten_regWrites (ws : List (RegLoc × Word)) :
    (s.rewritten sid).regWrites sid ws = (s.regWrites sid ws).rewritten sid := by
  induction ws generalizing s with
  | nil => rfl
  | cons w ws ih =>
    have hhead (u : State) (site : Nat) : (u.rewritten sid).regWrite sid w.1 w.2 site = (u.regWrite sid w.1 w.2 site).rewritten sid :=
      (rewritten_modStr u sid _).trans (modStr_rewritten u sid _).symm
    rw [State.regWrites, State.regWrites, hhead, ih]

theorem rewritten_mxTouch (locs : List RegLoc) : (s.rewritten sid).mxTouch sid locs = (s.mxTouch sid locs).rewritten sid := by
  have hscramble (u : State) (uid r : Nat) : (u.rewritten sid).scramble sid uid r = (u.scramble sid uid r).rewritten sid :=
    (rewritten_modStr u sid _).trans (modStr_rewritten u sid _).symm
  have hmodCore (u : State) (f : Core → Core) : (u.rewritten sid).modCoreOf sid f = (u.modCoreOf sid f).rewritten sid := by
    simp only [State.modCoreOf, rewritten_str]
    rfl
  have hcoreOf (u : State) : (u.rewritten sid).coreOf sid = u.coreOf sid := by
    simp only [State.coreOf, rewritten_str]
    rfl
  simp only [State.mxTouch, hcoreOf, rewritten_str]
  split
  · rfl
  · clear * - hscramble hmodCore hcoreOf
    generalize s = u
    induction locs generalizing u with
    | nil => rfl
    | cons r rs ih =>
      simp only [List.foldl_cons]
      rw [← ih]
      refine congrArg (List.foldl _ · rs) ?_
      simp only [hcoreOf, rewritten_str, hscramble, hmodCore]
      split <;> rfl

theorem rewritten_writeDst (d : Opd) (res : NMap Word64) :
    (s.rewritten sid).writeDst sid d res = (s.writeDst sid d res).rewritten sid := by
  have hliveQ (i j : Nat) : (s.rewritten sid).liveQ i j = s.liveQ i j := rfl
  simp only [State.writeDst, rewritten_str, hliveQ]
  split
  · split
    · rfl
    · exact (rewritten_modStr s sid _).trans (modStr_rewritten s sid _).symm
  · simp only [State.regPuts, rewritten_regWrites, rewritten_mxTouch]

end

/-! The record that a lead strand's check posts (R421). -/

theorem gridOf_modTeamOf (s : State) (sid : Nat) (f : Team → Team) (h : ∀ t, (f t).grid = t.grid) :
    (s.modTeamOf sid f).gridOf sid = s.gridOf sid := by
  have hgrid : ((s.modTeamOf sid f).teamOf sid).grid = (s.teamOf sid).grid := by
    simp only [State.teamOf, State.modTeamOf, modTeam_str, team_modTeam]
    split
    · exact h _
    · rfl
  simp only [State.gridOf, hgrid]
  rfl

theorem reached_str (s : State) (level j : Nat) : (s.reached level).str j = s.str j := by
  simp only [State.reached]
  split <;> rfl

theorem reached_loop (s : State) (level : Nat) : (s.reached level).loop = s.loop := by
  simp only [State.reached]
  split <;> rfl

/-- A post in a context that is not replayed, while the loop is not lost (R258). -/
theorem makePost_eq {s : State} {sid : Nat} (p : RunPath) (h ty arg len : Nat) (payload : List Byte) (hlive : live s sid)
    (hloop : s.loop.st ≠ .down) : s.makePost sid p h ty arg len payload =
      ((s.reached 6).modStr sid fun st => { st with fl := { st.fl with
        posts := nset st.fl.posts h ⟨none, arg % 2 ^ 24, if ty = 1 then len else if ty = 2 then 8 else 0, p.lanes⟩ } }).modLoop
          fun l => { l with postq := l.postq ++
            [⟨⟨ty, arg, 0, s.pkgid, len, (payload ++ leBytes 48 0).take 48⟩, .strand sid h, (s.gridOf sid).ctx⟩] } := by
  have hreplay : (s.ctx (s.gridOf sid).ctx).ck.replay = none := hlive
  have hst : ((s.reached 6).modStr sid fun st => { st with fl := { st.fl with
      posts := nset st.fl.posts h ⟨none, arg % 2 ^ 24, if ty = 1 then len else if ty = 2 then 8 else 0, p.lanes⟩ } }).loop.st ≠ .down := by
    rw [show ∀ f, ((s.reached 6).modStr sid f).loop = (s.reached 6).loop from fun _ => rfl, reached_loop]
    exact hloop
  have hpkgid : ∀ f, ((s.reached 6).modStr sid f).pkgid = s.pkgid := fun f => by
    simp only [State.reached]
    split <;> rfl
  simp only [State.makePost, hreplay, State.post, if_neg hst, hpkgid]

/-- Of a strand whose gate is not closed, in a context that is not replayed, while the loop is not lost. -/
theorem digestPost_eq {s : State} {sid : Nat} {p : RunPath} {k : Word64} (hlive : live s sid) (hloop : s.loop.st ≠ .down)
    (hgate : (s.str sid).fl.gate = false) : s.digestPost sid p k = digestPosted s sid p k := by
  have hgrid : (s.modTeamOf sid fun t => { t with dgstep := t.dgstep + 1 }).gridOf sid = s.gridOf sid :=
    gridOf_modTeamOf s sid _ fun _ => rfl
  have hlive' : live (s.modTeamOf sid fun t => { t with dgstep := t.dgstep + 1 }) sid := by
    simp only [live, State.ctxOf, hgrid]
    exact hlive
  simp only [State.digestPost, digestPosted, makePost_eq p _ _ _ _ _ hlive' hloop, hgrid]
  refine congrArg (State.modLoop · _) (modStr_congr ?_)
  have hstr : ((s.modTeamOf sid fun t => { t with dgstep := t.dgstep + 1 }).reached 6).str sid = s.str sid := reached_str _ _ _
  rw [hstr, ← hgate]
  rfl

/-- The same after K has been given. -/
theorem digestPost_giveP {s : State} {sid : Nat} (p : RunPath) (d : Sel) (k : Word64) (hlive : live s sid) (hloop : s.loop.st ≠ .down)
    (hgate : (s.str sid).fl.gate = false) : (giveP s sid p d k).digestPost sid p k = digestPosted (giveP s sid p d k) sid p k := by
  have hwrote := wrote_writeDst s sid (d, 2) (p.lanes.map fun l => (l, k))
  have hlive' : live (giveP s sid p d k) sid := by
    simp only [live, giveP, hwrote.ctxOf]
    exact hlive
  have hloop' : (giveP s sid p d k).loop = s.loop := by rw [giveP, hwrote.rest]
  obtain ⟨loads, hstr⟩ := hwrote.str sid
  have hgate' : ((giveP s sid p d k).str sid).fl.gate = (s.str sid).fl.gate := by rw [giveP, hstr]
  exact digestPost_eq hlive' (hloop' ▸ hloop) (hgate'.trans hgate)

theorem digestPosted_rewritten (s : State) (sid : Nat) (p : RunPath) (k : Word64) :
    digestPosted (s.rewritten sid) sid p k = digestPosted s sid p k := by
  have hreached (u : State) : (u.rewritten sid).reached 6 = (u.reached 6).rewritten sid := by
    have hdbg : (u.rewritten sid).dbg = u.dbg := rfl
    simp only [State.reached, hdbg]
    split <;> rfl
  have hmod (f : Team → Team) : ((s.rewritten sid).modTeamOf sid f).reached 6 = ((s.modTeamOf sid f).reached 6).rewritten sid := by
    rw [← hreached, State.modTeamOf, rewritten_str]
    rfl
  simp only [digestPosted, rewritten_teamOf, rewritten_gridOf, hmod, rewritten_modStr]
  rfl

/-! Folds (R269). -/

theorem foldl_add_term (xs : List DgItem) (a : Word64) : xs.foldl (fun a x => a + x.term) a = a + (xs.map DgItem.term).sum := by
  induction xs generalizing a with
  | nil => simp
  | cons x xs ih => rw [List.foldl_cons, ih, List.map_cons, List.sum_cons, BitVec.add_assoc]

theorem fold_dgcnt (t : Team) (xs : List DgItem) : (t.fold xs).dgcnt.toNat = min (t.dgcnt.toNat + xs.length) 0xFFFFFFFF := by
  simp only [Team.fold, BitVec.toNat_ofNat]
  omega

theorem fold_perm (t : Team) {xs ys : List DgItem} (h : xs.Perm ys) : t.fold xs = t.fold ys := by
  simp only [Team.fold, foldl_add_term, h.length_eq, (h.map DgItem.term).sum_eq]

theorem hostAtom_of_not_inHost {on : Wait} (h : on.inHost = false) : on.hostAtom = false := by
  cases on with
  | host => cases h
  | _ => rfl

/-! A strand with nothing in flight after its operand phase. -/

section
variable {s t : State} {sid : Nat} {p q : RunPath} {srcs dsts : List Opd} {vals : NMap (List Word64)}

theorem quiet_ready (hq : quiet s sid p) (hr : ready s sid p srcs dsts = some (q, t, vals)) : quiet t sid q := by
  obtain ⟨hpath, htouched⟩ := touched_ready hr
  have hposts (x : PostSt) : t.postDone sid x = s.postDone sid x := by
    have hloop : t.loop = s.loop := by rw [htouched.rest]
    have happlied : t.appliedLsn sid = s.appliedLsn sid := by simp only [State.appliedLsn, htouched.ctxOf, hloop]
    simp only [State.postDone, happlied]
  have hheld : t.heldPosts sid = s.heldPosts sid := by simp only [State.heldPosts, htouched.waits, htouched.runs]
  simp only [quiet, htouched.fl, htouched.waits, hheld, hposts]
  rw [hpath]
  exact hq

/-- It has released everything at every scope. -/
theorem released_quiet (hq : quiet s sid p) (scope : Nat) : (s.str sid).released scope = true := by
  obtain ⟨-, -, -, -, hstores, hfabs, -, -, -, -, -, -, -, hwaits⟩ := hq
  have hhost : (s.str sid).hostOrdered = false := by
    simp only [Strand.hostOrdered, List.any_eq_false]
    intro w hw
    simp [hostAtom_of_not_inHost (hwaits w hw).2.1]
  simp [Strand.released, hstores, hfabs, hhost]

/-- A post of it passes its gate, and finds room where it may be made. -/
theorem postGate_quiet (hq : quiet s sid p) (hresume : q.resume = none) (hpost : postable s sid) (k : RunPath → State → State) :
    s.postGate sid q k = k q (if 2 ≤ q.order then s.rewritten sid else s) := by
  have hreleased := released_quiet hq 4
  obtain ⟨-, -, -, hloads, -, -, -, -, -, hlost, hfails, hgate, hheld, -⟩ := hq
  have hopen (n : Nat) (gated : Bool) : s.gateOpen sid n q.lanes gated = true := by
    simp [State.gateOpen, hheld, Strand.unreadLocket, hloads, hreleased]
  have hdue : (s.str sid).due q.lanes false true true = [] := by simp [Strand.due, hlost, hfails]
  have hfits : s.postFits sid = true := by simp [State.postFits, hpost.2.2]
  have hfits' : (s.rewritten sid).postFits sid = true := by
    have hloop : (s.rewritten sid).loop = s.loop := rfl
    simp [State.postFits, hloop, hpost.2.2]
  have hclear : (s.modStr sid fun st => { st with fl := { st.fl with gate := false } }) = s.rewritten sid :=
    modStr_unchanged (by rw [← hgate])
  simp only [State.postGate, hresume, hgate, hopen, Bool.not_true, Bool.false_eq_true, if_false, Bool.false_or, decide_eq_true_eq,
    State.raiseDue, hdue, List.isEmpty_nil, if_true, hclear, hfits, hfits', reduceCtorEq]
  split <;> rfl

end

/-! The forms (R268, R270). -/

theorem keyed_eq (s : State) (sid : Nat) : (s.teamOf sid).keyed = keyOf s sid := by
  rw [Team.keyed, keyOf, BitVec.ofNat_mul]
  rfl

theorem dgOn_does (clear : Bool) : plainly (.dgOn clear) (fun _ _ _ => True) (fun s sid p =>
    let u := setCsr s sid fun c => { c with dgon := true }
    (if clear then u.modTeamOf sid fun t => { t with dgval := 0, dgcnt := 0 } else u).advance sid p) := by
  intro s sid p rest hi _ _
  have hexec : exec (.dgOn clear) s = execDgOn clear s := rfl
  rw [hexec, execDgOn, onPath_issues hi]
  rfl

theorem dgOff_does : plainly .dgOff (fun _ _ _ => True)
    (fun s sid p => (setCsr s sid fun c => { c with dgon := false }).advance sid p) := by
  intro s sid p rest hi _ _
  have hexec : exec .dgOff s = execDgOff s := rfl
  rw [hexec, execDgOff, onPath_issues hi]
  rfl

theorem dgFold_does (d a : Sel) : does (.dgFold d a) [(d, 2), (a, 2)] [(d, 2)] (fun _ _ _ _ => True) (fun s sid p v =>
    (giveP s sid p d (mix64 (x64 v (p.lanes.headD 0) 0 ^^^ x64 v (p.lanes.headD 0) 1))).advance sid p) := by
  intro s sid p rest q t vals hi _ hr _
  have hexec : exec (.dgFold d a) s = execDgFold d a s := rfl
  have hval (i : Nat) : BitVec.ofNat 64 (val64 q vals i) = x64 vals (q.lanes.headD 0) i := BitVec.ofNat_toNat ..
  rw [hexec, execDgFold, onPath_issues hi]
  refine congrArg Host.Outcome.next ?_
  rw [State.operands, operands_ready _ hr]
  simp only [hval]
  rfl

/-- A check whose comparison fails in lanes whose trap is held. -/
def checkHeld (cmp : Bool) (expected : Word64) (lanes : List Nat) (s : State) (sid : Nat) : Bool :=
  cmp && keyOf s sid != expected && lanes.all (s.str sid).holds

/-- What a check of some lanes does once their strand has nothing in flight. -/
def checkEnds (d : Sel) (cmp : Bool) (expected : Word64) (lanes : List Nat) (sid : Nat) (p : RunPath) (post : Bool) (s : State) : State :=
  if checkHeld cmp expected lanes s sid then s.trapPath sid p 0xA0 0 (keyOf s sid)
  else
    let u := if post then (giveP s sid p d (keyOf s sid)).digestPost sid p (keyOf s sid) else giveP s sid p d (keyOf s sid)
    if cmp ∧ keyOf s sid ≠ expected then
      match (u.gridOf sid).ck with
      | some i =>
        if (u.ctx (u.gridOf sid).ctx).dbg.reexec ∧ !(u.gridOf sid).serial then u.reexecute sid i (keyOf s sid) (expected)
        else u.trapPath sid p 0xA0 0 (keyOf s sid)
      | none => u.trapPath sid p 0xA0 0 (keyOf s sid)
    else u.advance sid p

theorem dgChk_ready {d a : Sel} {cmp : Bool} {s t : State} {sid : Nat} {p q : RunPath} {rest : List Run} {vals : NMap (List Word64)}
    (hi : issues s sid p rest) (hq : quiet (begun s rest) sid p)
    (hr : ready (begun s rest) sid p [(a, 2)] [(d, 2)] = some (q, t, vals)) (hcp : (t.coreOf sid).cp = []) :
    exec (.dgChk d a cmp) s = .next (
      if !checkHeld cmp (x64 vals (q.lanes.headD 0) 0) q.lanes t sid ∧ (t.ctxOf sid).dbg.dgx ∧ (t.str sid).isLead then
        t.postGate sid (kept q vals) fun p s => checkEnds d cmp (x64 vals (q.lanes.headD 0) 0) q.lanes sid p true s
      else checkEnds d cmp (x64 vals (q.lanes.headD 0) 0) q.lanes sid (kept q vals) false t) := by
  have hexec : exec (.dgChk d a cmp) s = execDgChk d a cmp s := rfl
  obtain ⟨-, -, -, -, hstores, -⟩ := quiet_ready hq hr
  have hcopies : t.cpHeld sid = [] := by simp [State.cpHeld, hcp]
  rw [hexec, execDgChk, onPath_issues hi]
  refine congrArg Host.Outcome.next ?_
  rw [operandsOnce_ready hr hq.2.1]
  simp only [hstores, hcopies, keyed_eq, State.waitFor, List.isEmpty_nil, List.all_nil, Bool.and_self, Bool.or_true, if_true]
  rfl

/-- A check that compares nothing, or that finds what it expects, gives K and goes on. -/
theorem checkEnds_equal {d : Sel} {cmp : Bool} {expected : Word64} {s : State} {sid : Nat} (lanes : List Nat) (p : RunPath) (post : Bool)
    (h : cmp = true → expected = keyOf s sid) : checkHeld cmp expected lanes s sid = false ∧
      checkEnds d cmp expected lanes sid p post s =
        (if post then (giveP s sid p d (keyOf s sid)).digestPost sid p (keyOf s sid) else giveP s sid p d (keyOf s sid)).advance sid p := by
  have hheld : checkHeld cmp expected lanes s sid = false := by
    cases cmp with
    | false => rfl
    | true => simp [checkHeld, h rfl]
  have hpass : ¬(cmp = true ∧ keyOf s sid ≠ expected) := fun hne => hne.2 (h hne.1).symm
  exact ⟨hheld, by simp only [checkEnds, hheld, hpass, Bool.false_eq_true, if_false]⟩

theorem dgChk_gives (d a : Sel) (cmp : Bool) :
    does (.dgChk d a cmp) [(a, 2)] [(d, 2)] (fun s sid p v => (s.coreOf sid).cp = [] ∧ (s.ctxOf sid).dbg.dgx = false ∧
        (cmp = true → x64 v (p.lanes.headD 0) 0 = keyOf s sid))
      (fun s sid p v => (giveP s sid p d (keyOf s sid)).advance sid (kept p v)) := by
  intro s sid p rest q t vals hi hq hr ⟨hcp, hdgx, hkey⟩
  rw [dgChk_ready hi hq hr hcp, hdgx, (checkEnds_equal _ _ _ hkey).2]
  simp only [Bool.false_eq_true, false_and, and_false, if_false]
  rfl

theorem dgChk_posts (d a : Sel) (cmp : Bool) :
    does (.dgChk d a cmp) [(a, 2)] [(d, 2)] (fun s sid p v => (s.coreOf sid).cp = [] ∧ (s.ctxOf sid).dbg.dgx = true ∧
        (s.str sid).role = 4 ∧ postable s sid ∧ (cmp = true → x64 v (p.lanes.headD 0) 0 = keyOf s sid))
      (fun s sid p v => (digestPosted (giveP s sid p d (keyOf s sid)) sid p (keyOf s sid)).advance sid (kept p v)) := by
  intro s sid p rest q t vals hi hq hr ⟨hcp, hdgx, hrole, hpost, hkey⟩
  have hquiet := quiet_ready hq hr
  have hlead : (t.str sid).isLead = true := by simp [Strand.isLead, hrole]
  have hkey' : keyOf (t.rewritten sid) sid = keyOf t sid := by simp only [keyOf, rewritten_teamOf]
  have hends (u : State) (hu : u = t.rewritten sid ∨ u = t) :
      checkEnds d cmp (x64 vals (q.lanes.headD 0) 0) q.lanes sid (kept q vals) true u =
        (digestPosted (giveP t sid q d (keyOf t sid)) sid q (keyOf t sid)).advance sid (kept q vals) := by
    have hgate : (t.str sid).fl.gate = false := by
      obtain ⟨-, -, -, -, -, -, -, -, -, -, -, hgate, -⟩ := hquiet
      exact hgate
    have hlive : live t sid := hpost.1
    rcases hu with rfl | rfl
    · have hgive : giveP (t.rewritten sid) sid (kept q vals) d (keyOf t sid) = (giveP t sid q d (keyOf t sid)).rewritten sid :=
        rewritten_writeDst t sid _ _
      have hlive' : live (t.rewritten sid) sid := by rwa [live, rewritten_ctxOf]
      rw [(checkEnds_equal _ _ _ (hkey'.symm ▸ hkey)).2, hkey', if_pos rfl,
        digestPost_giveP _ d _ hlive' hpost.2.1 (by rw [rewritten_str, hgate]), hgive, digestPosted_rewritten]
      rfl
    · rw [(checkEnds_equal _ _ _ hkey).2, if_pos rfl, digestPost_giveP _ d _ hlive hpost.2.1 hgate]
      rfl
  rw [dgChk_ready hi hq hr hcp, (checkEnds_equal (d := d) _ (kept q vals) true hkey).1, hdgx, hlead]
  simp only [Bool.not_false, and_self, if_true]
  rw [postGate_quiet hquiet (q := kept q vals) hquiet.1 hpost]
  refine congrArg Host.Outcome.next (hends _ ?_)
  split
  · exact .inl rfl
  · exact .inr rfl

theorem dgChk_held (d a : Sel) :
    does (.dgChk d a true) [(a, 2)] [(d, 2)] (fun s sid p v => (s.coreOf sid).cp = [] ∧ p.lanes.all (s.str sid).holds = true ∧
        x64 v (p.lanes.headD 0) 0 ≠ keyOf s sid)
      (fun s sid p _ => s.trapPath sid p 0xA0 0 (keyOf s sid)) := by
  intro s sid p rest q t vals hi hq hr ⟨hcp, hholds, hkey⟩
  have hheld : checkHeld true (x64 vals (q.lanes.headD 0) 0) q.lanes t sid = true := by
    rw [checkHeld, hholds]
    simpa using hkey.symm
  rw [dgChk_ready hi hq hr hcp]
  simp only [hheld, checkEnds, Bool.not_true, Bool.false_eq_true, false_and, if_false, if_true]
  rfl

theorem dgChk_traps (d a : Sel) :
    does (.dgChk d a true) [(a, 2)] [(d, 2)] (fun s sid p v => (s.coreOf sid).cp = [] ∧ p.lanes.all (s.str sid).holds = false ∧
        (s.ctxOf sid).dbg.dgx = false ∧ (s.gridOf sid).ck = none ∧ x64 v (p.lanes.headD 0) 0 ≠ keyOf s sid)
      (fun s sid p v => (giveP s sid p d (keyOf s sid)).trapPath sid (kept p v) 0xA0 0 (keyOf s sid)) := by
  intro s sid p rest q t vals hi hq hr ⟨hcp, hholds, hdgx, hck, hkey⟩
  have hheld : checkHeld true (x64 vals (q.lanes.headD 0) 0) q.lanes t sid = false := by simp [checkHeld, hholds]
  have hck' : ((giveP t sid (kept q vals) d (keyOf t sid)).gridOf sid).ck = none := by
    rw [giveP, (wrote_writeDst t sid _ _).gridOf, hck]
  rw [dgChk_ready hi hq hr hcp]
  simp only [hheld, hdgx, checkEnds, Bool.false_eq_true, false_and, and_false, if_false, true_and, hkey.symm, ne_eq, not_false_eq_true,
    if_true, hck']
  rfl

end Sys2Proof.Machine
end

open Sys2Proof Sys2Proof.Machine Sys2Proof.Claim

/-- Settles O42: each form after its operand phase, a check by whether it compares, posts and traps; a fold as a sum of terms. -/
theorem Sys2Proof.Machine.digestFormsAndFolds : Obligations.DigestFormsAndFolds := by
  refine ⟨fun d a clear cmp => ⟨dgOn_does clear, dgOff_does, dgFold_does d a, dgChk_gives d a cmp, dgChk_posts d a cmp, dgChk_held d a,
    dgChk_traps d a⟩, fun t xs => ⟨foldl_add_term xs t.dgval, fold_dgcnt t xs⟩, fun t xs ys h => fold_perm t h⟩

section
/-! PROOFS. The turn that comes first in a clock (R383, R384, R388). -/

namespace Sys2Proof.Machine

open Sys2Proof.Claim

/-- What the loop's counts of circulations bring has its turn before an event that the outside gives. -/
theorem turnOf_dueFirst {s : State} {d : Due} {ds : List Due} (hround : s.round = []) (h : s.clock.schedClock.dueFirst = d :: ds) :
    turnOf s = some (.event d.1 d.2) := by
  rw [turnOf, opened_of_over hround]
  simp only [State.newRound, h, List.cons_append, List.map_cons, State.nextTurn]

/-- The master of a running loop that has seen four circulations without a grant, when the outside reads a control register. -/
def masterWithoutGrant : State :=
  { State.reset with
    inputs := [(.kickdropRead, [])]
    fw := { State.reset.fw with st := .run }
    loop := { State.reset.loop with st := .run, master := true, noGrant := 4, idleAt := 10 } }

theorem dueFirst_masterWithoutGrant : masterWithoutGrant.clock.schedClock.dueFirst = [(.grantRegeneration, [])] := by
  rw [clock_frame]
  rfl

end Sys2Proof.Machine

open Sys2Proof Sys2Proof.Machine Sys2Proof.Claim

/-- Refutes O46: where the loop's master has seen four circulations without a grant, the grant's regeneration has its turn before the
event that the outside gives. -/
theorem Sys2Proof.Machine.not_stepElsewhere : ¬ Obligations.StepElsewhere := by
  rintro ⟨⟨-, hfirst, -⟩, -⟩
  have hturn := (hfirst masterWithoutGrant .kickdropRead [] [] rfl rfl (by decide) (by decide)).1
  rw [turnOf_dueFirst rfl dueFirst_masterWithoutGrant] at hturn
  exact absurd hturn (by decide)
end

section
/-! PROOFS. Ends of threads, reconvergence, register scopes and safe points (R10, R23, R24, R170, R173, R174, R178, R179). -/

namespace Sys2Proof.Machine

open Sys2Proof.Claim

/-! Lists by number. -/

theorem mem_of_nget {α : Type} {m : NMap α} {i : Nat} {x : α} (h : nget m i = some x) : (i, x) ∈ m := by
  induction m with
  | nil => cases h
  | cons c m ih =>
    obtain ⟨k, v⟩ := c
    simp only [nget] at h
    split at h
    · next hk =>
      cases h
      rw [hk]
      exact List.mem_cons_self
    · exact List.mem_cons_of_mem _ (ih h)

/-- Writing back what stands at a number adds and removes nothing. -/
theorem mem_nset_of_nget {α : Type} {m : NMap α} {i : Nat} {x : α} (h : nget m i = some x) (y : Nat × α) : y ∈ nset m i x ↔ y ∈ m := by
  induction m with
  | nil => cases h
  | cons c m ih =>
    obtain ⟨k, v⟩ := c
    have hmem := mem_of_nget h
    simp only [nget] at h
    simp only [nset]
    split
    · simp only [List.mem_cons (a := y) (b := (i, x)), or_iff_right_iff_imp]
      rintro rfl
      exact hmem
    · split
      · next hk =>
        rw [if_pos hk.symm] at h
        cases h
        rw [hk]
      · next hk =>
        rw [if_neg (Ne.symm hk)] at h
        simp only [List.mem_cons, ih h]

theorem mem_nmod_id {α : Type} (m : NMap α) (i : Nat) (y : Nat × α) : y ∈ nmod m i (fun x => x) ↔ y ∈ m := by
  rw [nmod]
  split
  · next v h => exact mem_nset_of_nget h y
  · rfl

theorem mem_rewritten (s : State) (sid : Nat) (y : Nat × Strand) : y ∈ (s.rewritten sid).strands ↔ y ∈ s.strands := mem_nmod_id _ _ y

/-! Ends of threads (R10, R170). -/

/-- A strand that has threads and is in no trap level has nothing to settle. -/
theorem settleStrand_unfinished {s : State} {sid : Nat} (hlevel : (s.str sid).csr.tlevel = 0) (hlive : (s.str sid).finished = false) :
    s.settleStrand sid = s := by
  have hlevels : s.settleLevels sid = s := by simp [State.settleLevels, hlevel]
  simp only [State.settleStrand, hlevels, hlive]
  split <;> rfl

theorem finished_of_live {st : Strand} {l : Nat} {t : Thread} (h : nget st.lanes l = some t) (hlive : t.live = true) :
    st.finished = false := by
  have hmem : l ∈ st.liveLanes := List.mem_map.2 ⟨(l, t), List.mem_filter.2 ⟨mem_of_nget h, hlive⟩, rfl⟩
  cases hfin : st.finished with
  | false => rfl
  | true =>
    rw [Strand.finished, List.isEmpty_iff] at hfin
    simp [hfin] at hmem

theorem th_modThs_mem {st : Strand} {ls : List Nat} {l : Nat} (f : Nat → Thread → Thread) (hl : l ∈ ls) (hn : nhas st.lanes l = true) :
    (st.modThs ls f).th l = f l (st.th l) := by
  obtain ⟨t, ht⟩ := Option.isSome_iff_exists.1 hn
  simp [Strand.th, nget_modThs, hl, ht]

theorem th_modThs_not_mem {st : Strand} {ls : List Nat} {l : Nat} (f : Nat → Thread → Thread) (hl : l ∉ ls) :
    (st.modThs ls f).th l = st.th l := by
  simp [Strand.th, nget_modThs, hl]

/-! Scope words (R23, R174). -/

theorem unionNat_nil {ls : List Nat} (h : ls.Pairwise (· < ·)) : unionNat ls [] = ls := by
  induction ls with
  | nil => rfl
  | cons l ls ih =>
    obtain ⟨hl, hls⟩ := List.pairwise_cons.1 h
    have htail : ls.foldr insertNat [] = ls := ih hls
    rw [unionNat, List.foldr_cons, htail]
    cases ls with
    | nil => rfl
    | cons y ys => rw [insertNat, if_pos (hl y List.mem_cons_self)]

/-- A path that holds every thread a scope word is executed with executes it. -/
theorem scopeWord_gathered {on : Wait} {f : Nat → RunPath → State → State} {s : State} {sid : Nat} {p : RunPath} {rest : List Run}
    (hi : issues s sid p rest) (hgroup : (s.str sid).group (lowest p.lanes) = 0) (hwaits : (s.str sid).waits = []) (hlanes : lanesOk p)
    (hall : ((s.str sid).scopeLanes.all fun l => p.lanes.contains l) = true) :
    scopeWord on f s = .next (f sid p ((begun s rest).rewritten sid)) := by
  have hgathered : (s.str sid).gathered p = [] := by simp [Strand.gathered, hwaits]
  have hall' : (s.str sid).allGathered p = true := by
    rw [Strand.allGathered, List.all_eq_true]
    intro l hl
    simp only [List.all_eq_true.1 hall l hl, Bool.true_or]
  have hlanes' : unionNat p.lanes [] = p.lanes := unionNat_nil hlanes.2.1
  have hstr : (begun s rest).str sid = s.str sid := rfl
  have hmod : ((begun s rest).modStr sid fun st => { st with waits := st.waits.filter fun w => !(w.on.atScope && w.path.hdrAddr == p.hdrAddr) }) =
      (begun s rest).rewritten sid := modStr_unchanged (by rw [hstr, hwaits, List.filter_nil, ← hwaits])
  rw [scopeWord, onPath_issues hi]
  refine congrArg Host.Outcome.next ?_
  simp only [hstr, hgroup, hall', hgathered, hlanes', hmod, ne_eq, not_true, if_false, if_true]

section
variable (s : State) (sid core part : Nat)

theorem mem_blocks_rewritten (b : Nat × Nat) : b ∈ (s.rewritten sid).blocks core part ↔ b ∈ s.blocks core part := by
  have hcore : (s.rewritten sid).core core = s.core core := rfl
  simp only [State.blocks, hcore, List.mem_append, List.mem_flatMap, mem_rewritten]

theorem findBlock_rewritten (n : Nat) : (s.rewritten sid).findBlock core part n = s.findBlock core part n := by
  have hall (f : Nat × Nat → Bool) : ((s.rewritten sid).blocks core part).all f = (s.blocks core part).all f := by
    rw [Bool.eq_iff_iff, List.all_eq_true, List.all_eq_true]
    simp only [mem_blocks_rewritten]
  simp only [State.findBlock, hall]

theorem mem_openRequests_rewritten (x : Nat) : x ∈ (s.rewritten sid).openRequests core part ↔ x ∈ s.openRequests core part := by
  simp only [State.openRequests, List.mem_flatMap, mem_rewritten]

end

theorem th_nall {st : Strand} {f : Nat → Thread → Thread} {l : Nat} (h : nhas st.lanes l = true) :
    ({ st with lanes := nall st.lanes f } : Strand).th l = f l (st.th l) := by
  obtain ⟨t, ht⟩ := Option.isSome_iff_exists.1 h
  simp [Strand.th, nget_nall, ht]

/-! The words. -/

section
variable {s : State} {sid : Nat} {p : RunPath} {rest : List Run} (hi : issues s sid p rest)
include hi

theorem exit_ends : ∃ t, exec .exit s = .next t ∧
    ((s.str sid).csr.tlevel = 0 → (∃ l th, l ∉ p.lanes ∧ nget (s.str sid).lanes l = some th ∧ th.live = true) →
      nsorted (s.str sid).lanes = true →
      (∀ l ∈ p.lanes, nhas (s.str sid).lanes l = true → ((t.str sid).th l).st = .exited ∧ ((t.str sid).th l).loops = []) ∧
      (∀ l, l ∉ p.lanes → (t.str sid).th l = (s.str sid).th l) ∧ t.runs = rest ∧ t.mem = s.mem ∧ t.teams = s.teams) := by
  have hexec : exec .exit s = execExit s := rfl
  rw [hexec, execExit, onPath_issues hi]
  refine ⟨_, rfl, fun hlevel ⟨l, th, hl, hth, hlive⟩ _ => ?_⟩
  have hstr : ((begun s rest).modStr sid fun st => st.modThs p.lanes fun _ t => { t with st := .exited, loops := [] }).str sid =
      (s.str sid).modThs p.lanes fun _ t => { t with st := .exited, loops := [] } := str_modStr_same hi.2 _
  have hlane : nget ((s.str sid).modThs p.lanes fun _ t => { t with st := .exited, loops := [] }).lanes l = some th := by
    rw [nget_modThs, if_neg (by simpa using hl), hth]
  rw [settleStrand_unfinished (by rw [hstr]; exact hlevel) (by rw [hstr]; exact finished_of_live hlane hlive), hstr]
  refine ⟨fun l hl hn => ?_, fun l hl => th_modThs_not_mem _ hl, rfl, rfl, rfl⟩
  rw [th_modThs_mem _ hl hn]
  exact ⟨rfl, rfl⟩

theorem rbar_waits (h : p.resume = none) :
    exec .rbar s = .next ((begun s rest).modStr sid fun st => { st with waits := st.waits ++ [⟨p, .rbar⟩] }) := by
  have hexec : exec .rbar s = execRbar s := rfl
  rw [hexec, execRbar, onPath_issues hi]
  simp only [h]
  rfl

theorem rbar_released (h : p.resume = some .released) : exec .rbar s = .next ((begun s rest).advance sid p) := by
  have hexec : exec .rbar s = execRbar s := rfl
  rw [hexec, execRbar, onPath_issues hi]
  simp only [h]

theorem scopeOpen_opens (n : BitVec 21) (base : Nat) (hgroup : (s.str sid).group (lowest p.lanes) = 0) (hwaits : (s.str sid).waits = [])
    (hlanes : lanesOk p) (hresume : p.resume = none) (hall : ((s.str sid).scopeLanes.all fun l => p.lanes.contains l) = true)
    (hbudget : ((s.str sid).frames.map (·.size)).sum + n.toNat ≤ ((s.gridOf sid).kd.role (s.str sid).role).budget)
    (hfew : (s.str sid).frames.length < 16) (hfirst : ∀ x ∈ s.openRequests (s.str sid).core (s.str sid).part, s.cycle ≤ x)
    (hblock : (begun s rest).findBlock (s.str sid).core (s.str sid).part n.toNat = some base) :
    ∃ t : State, exec (.scopeOpen n) s = .next (t.advance sid p) ∧
      (t.str sid).frames = openedFrame s sid n.toNat base :: (s.str sid).frames ∧
      (∀ l, nhas (s.str sid).lanes l = true → ((t.str sid).th l).wb = 0) ∧ t.mem = s.mem := by
  have hexec : exec (.scopeOpen n) s = execScopeOpen n s := rfl
  have hstr : ((begun s rest).rewritten sid).str sid = s.str sid := rewritten_str _ sid sid
  have hgrid : ((begun s rest).rewritten sid).gridOf sid = s.gridOf sid := rewritten_gridOf _ sid
  have hroom : ¬(((s.gridOf sid).kd.role (s.str sid).role).budget < ((s.str sid).frames.map (·.size)).sum + n.toNat ∨
      16 ≤ (s.str sid).frames.length) := by omega
  have hsince : p.since ((begun s rest).rewritten sid).cycle = s.cycle := by
    rw [RunPath.since, hresume]
    rfl
  have hturn : (((begun s rest).rewritten sid).openRequests (s.str sid).core (s.str sid).part).any (· < s.cycle) = false := by
    rw [List.any_eq_false]
    intro x hx
    have := hfirst x ((mem_openRequests_rewritten (begun s rest) sid _ _ x).1 hx)
    simpa using this
  rw [hexec, execScopeOpen, scopeWord_gathered hi hgroup hwaits hlanes hall]
  simp only [hstr, hgrid, hroom, if_false, hsince, hturn, findBlock_rewritten, hblock, Bool.false_eq_true]
  have hhas : nhas (((begun s rest).rewritten sid).takeUid.2).strands sid = true := by
    have := nhas_modStr (begun s rest) sid sid fun st => st
    exact this.trans hi.2
  have hstr' : ((begun s rest).rewritten sid).takeUid.2.str sid = s.str sid := hstr
  refine ⟨_, rfl, ?_, fun l hl => ?_, rfl⟩
  · rw [str_modStr_same hhas, hstr']
    rfl
  · rw [str_modStr_same hhas, hstr']
    exact congrArg Thread.wb (th_nall (st := s.str sid) hl)

theorem scopeClose_closes (hgroup : (s.str sid).group (lowest p.lanes) = 0) (hwaits : (s.str sid).waits = []) (hlanes : lanesOk p)
    (hall : ((s.str sid).scopeLanes.all fun l => p.lanes.contains l) = true) (hopen : 1 < (s.str sid).frames.length)
    (hnamed : s.frameNamed (s.str sid).core (s.str sid).frame.uid = false) :
    ∃ t : State, exec .scopeClose s = .next (t.advance sid p) ∧ (t.str sid).frames = (s.str sid).frames.tail ∧
      (∀ l, nhas (s.str sid).lanes l = true → ((t.str sid).th l).wb = (nget (s.str sid).frame.wbs l).getD 0) := by
  have hexec : exec .scopeClose s = execScopeClose s := rfl
  have hstr : ((begun s rest).rewritten sid).str sid = s.str sid := rewritten_str _ sid sid
  have hhas : nhas ((begun s rest).rewritten sid).strands sid = true := (nhas_modStr (begun s rest) sid sid fun st => st).trans hi.2
  have hnamed' : ((begun s rest).rewritten sid).frameNamed (s.str sid).core (s.str sid).frame.uid = false := hnamed
  rw [hexec, execScopeClose, scopeWord_gathered hi hgroup hwaits hlanes hall]
  simp only [hstr, hnamed', Nat.not_le.2 hopen, if_false, Bool.false_eq_true]
  refine ⟨_, rfl, ?_, fun l hl => ?_⟩
  · rw [str_modStr_same hhas, hstr, List.drop_one]
  · rw [str_modStr_same hhas, hstr]
    exact congrArg Thread.wb (th_nall (st := s.str sid) hl)

theorem wbase_moves (k : BitVec 21) :
    (8 * k.toNat < (s.str sid).frameSize → exec (.wbase k) s = .next (((begun s rest).modStr sid fun st =>
      st.modThs p.lanes fun _ t => { t with wb := 8 * k.toNat }).advance sid p)) ∧
    ((s.str sid).frameSize ≤ 8 * k.toNat → exec (.wbase k) s = .next ((begun s rest).trapPath sid p 0x32 0 0)) := by
  have hexec : exec (.wbase k) s = execWbase k s := rfl
  rw [hexec, execWbase, onPath_issues hi]
  exact ⟨fun h => congrArg Host.Outcome.next (if_neg (Nat.not_le.2 h)), fun h => congrArg Host.Outcome.next (if_pos h)⟩

theorem safept_notes (n : BitVec 21) (hstop : (s.str sid).stopping = false) :
    exec (.safept n) s = .next (((begun s rest).modStr sid fun st => atSafept st p n.toNat).advance sid p) := by
  have hexec : exec (.safept n) s = execSafept n s := rfl
  have hwidth : BitVec.ofNat 32 n.toNat = n.setWidth 32 := BitVec.ofNat_toNat ..
  rw [hexec, execSafept, onPath_issues hi]
  refine congrArg Host.Outcome.next ?_
  have hstop' : (((begun s rest).modStr sid fun st => atSafept st p n.toNat).str sid).stopping = false := by
    rw [str_modStr_same (s := begun s rest) hi.2]
    exact hstop
  have hmod : ((begun s rest).modStr sid fun st =>
      { st.modThs p.lanes (fun _ t => { t with anchorOrd := n.setWidth 32, anchorPc := p.wordPc }) with
        csr := { st.csr with safept := n.setWidth 32, wdog := 0 } }) = (begun s rest).modStr sid fun st => atSafept st p n.toNat := by
    simp only [atSafept, hwidth]
    rfl
  simp only [hmod, hstop', Bool.false_and, Bool.false_eq_true, if_false]

end

end Sys2Proof.Machine

open Sys2Proof Sys2Proof.Machine Sys2Proof.Claim

/-- Settles O18, word by word. -/
theorem Sys2Proof.Machine.exitReconvergeScope : Obligations.ExitReconvergeScope :=
  ⟨fun _ _ _ _ hi => ⟨exit_ends hi, rbar_waits hi, rbar_released hi⟩,
   fun _ _ _ _ hi => ⟨scopeOpen_opens hi, scopeClose_closes hi, wbase_moves hi, safept_notes hi⟩⟩
end

section
/-! PROOFS. `reform` and `spawn`, and the bins that take what they file (R14, R15, R18, R175, R176, R322). -/

namespace Sys2Proof.Machine

open Sys2Proof.Claim

/-! `reform` in its order (R175). -/

/-- What `reform` does once nothing of its strand is under way: report a fault, or file the path's threads. -/
def State.reformEnds (s : State) (n : BitVec 7) (sid : Nat) (p : RunPath) : State :=
  match s.reformFault sid with
  | some f => f p
  | none =>
    let live := (nget (s.gridOf sid).kd.liveMaps n.toNat).getD []
    let t := s.mxTouch sid (p.lanes.flatMap fun l => live.filterMap ((s.str sid).winLoc l))
    t.fileOn sid p (p.lanes.map (t.filing sid live p.nxt)) true t.cycle

section
variable {n : BitVec 7} {s : State} {sid : Nat} {p : RunPath} {rest : List Run} (hi : issues s sid p rest) (hresume : p.resume = none)
include hi hresume

/-- Lanes in a sub-strand, or an open frame beside the strand's first, trap. -/
theorem reform_parked (h : (s.str sid).group (lowest p.lanes) ≠ 0 ∨ 1 < (s.str sid).frames.length) :
    exec (.reform n) s = .next ((begun s rest).trapPath sid p 0x32 0 0) := by
  have hexec : exec (.reform n) s = execReform n s := rfl
  rw [hexec, execReform, onPath_issues hi]
  simp only [hresume]
  exact congrArg Host.Outcome.next (if_pos h)

section
variable (hgroup : (s.str sid).group (lowest p.lanes) = 0) (hframes : (s.str sid).frames.length ≤ 1)
include hgroup hframes

theorem reform_ports {port : Nat} {b : Port} {more : NMap Port} (h : (s.str sid).ports = (port, b) :: more) :
    exec (.reform n) s = .next ((begun s rest).trapPath sid p 0x61 port (BitVec.ofNat 64 0)) := by
  have hexec : exec (.reform n) s = execReform n s := rfl
  have hstr : (begun s rest).str sid = s.str sid := rfl
  rw [hexec, execReform, onPath_issues hi]
  simp only [hresume, hstr, hgroup, h, ne_eq, not_true, false_or, Nat.not_lt.2 hframes, if_false]
  rfl

theorem reform_past_ports (hports : (s.str sid).ports = []) : exec (.reform n) s = .next
    (if (begun s rest).reformReady sid then (begun s rest).reformEnds n sid p else (begun s rest).await sid p .reformWait) := by
  have hexec : exec (.reform n) s = execReform n s := rfl
  have hstr : (begun s rest).str sid = s.str sid := rfl
  rw [hexec, execReform, onPath_issues hi]
  simp only [hresume, hstr, hgroup, hports, ne_eq, not_true, false_or, Nat.not_lt.2 hframes, if_false]
  rfl

end

theorem reform_orders :
    let st := s.str sid
    let stopped (k : Nat) (t : MxTok) : Prop := ((begun s rest).mxHeld sid).find? (fun t => t.2.st == .stopped && !t.2.reported) = some (k, t)
    (st.group (lowest p.lanes) ≠ 0 ∨ 1 < st.frames.length → exec (.reform n) s = .next ((begun s rest).trapPath sid p 0x32 0 0)) ∧
    (st.group (lowest p.lanes) = 0 → st.frames.length ≤ 1 →
      (∀ port b more, st.ports = (port, b) :: more → exec (.reform n) s = .next ((begun s rest).trapPath sid p 0x61 port (BitVec.ofNat 64 0))) ∧
      (st.ports = [] → st.pending = true ∨ (∃ t ∈ (begun s rest).mxHeld sid, t.2.st.busy = true) ∨ (∃ t ∈ (begun s rest).cpHeld sid, t.2.st = .busy) →
        exec (.reform n) s = .next ((begun s rest).await sid p .reformWait)) ∧
      (st.ports = [] → (begun s rest).reformReady sid = true → (∀ l ∈ p.lanes, st.holds l = false) →
        (∀ k t, stopped k t → exec (.reform n) s = .next (((begun s rest).modMx st.core k fun t => { t with reported := true }).trapPopped
          sid p 0x52 t.dcause (BitVec.ofNat 64 t.faultAddr))) ∧
        (∀ k t, (∀ j u, ¬stopped j u) → ((begun s rest).cpHeld sid).find? (fun t => t.2.st == .stopped && !t.2.reported) = some (k, t) →
          exec (.reform n) s = .next (((begun s rest).modCp st.core k fun t => { t with reported := true }).trapPopped
            sid p 0x53 t.cause (BitVec.ofNat 64 t.faultAddr))))) := by
  intro st stopped
  refine ⟨reform_parked hi hresume, fun hgroup hframes => ⟨fun _ _ _ => reform_ports hi hresume hgroup hframes, fun hports hbusy => ?_,
    fun hports hready hholds => ?_⟩⟩
  · have hwait : (begun s rest).reformReady sid = false := by
      rcases hbusy with h | ⟨t, ht, hb⟩ | ⟨t, ht, hb⟩
      · have hpending : ((begun s rest).str sid).pending = true := h
        simp [State.reformReady, hpending]
      · have hall : ((begun s rest).mxHeld sid).all (fun t => !t.2.st.busy) = false := List.all_eq_false.2 ⟨t, ht, by simp [hb]⟩
        simp [State.reformReady, hall]
      · have hall : ((begun s rest).cpHeld sid).all (fun t => t.2.st != .busy) = false := List.all_eq_false.2 ⟨t, ht, by simp [hb]⟩
        simp [State.reformReady, hall]
    rw [reform_past_ports hi hresume hgroup hframes hports, hwait]
    rfl
  · have hheld : p.lanes.any ((begun s rest).str sid).holds = false := by
      rw [List.any_eq_false]
      exact fun l hl => Bool.not_eq_true _ ▸ hholds l hl
    have hends := reform_past_ports (n := n) hi hresume hgroup hframes hports
    rw [hready, if_pos rfl] at hends
    refine ⟨fun k t h => ?_, fun k t hno h => ?_⟩
    · rw [hends]
      simp only [stopped] at h
      simp only [State.reformEnds, State.reformFault, h, State.mxReport, hheld]
      rfl
    · have hnone : ((begun s rest).mxHeld sid).find? (fun t => t.2.st == .stopped && !t.2.reported) = none :=
        Option.eq_none_iff_forall_ne_some.2 fun x hx => hno x.1 x.2 hx
      rw [hends]
      simp only [State.reformEnds, State.reformFault, hnone, h, State.cpReport, hheld]
      rfl

end

/-! What `reform` files (R15). -/

/-- A strand with one frame reads its window from that. -/
theorem peek_winLoc {st : Strand} (hframes : st.frames.length ≤ 1) (l r : Nat) :
    (st.winLoc l r).map (fun x => (r, st.peek x)) =
      if (st.th l).wb + r < st.frameSize then some (r, st.frame.cell ((st.th l).wb + r) l) else none := by
  simp only [Strand.winLoc]
  split
  · next hin =>
    have huid : st.frame.uid ≠ 0 := by
      intro h
      rw [Strand.frameSize, if_pos h] at hin
      omega
    have hframe : st.frameOf st.frame.uid = some st.frame := by
      match hst : st.frames with
      | [] => simp [Strand.frame, hst] at huid; exact absurd rfl huid
      | [f] => simp [Strand.frameOf, Strand.frame, hst]
      | _ :: _ :: _ => simp [hst] at hframes
    simp only [Option.map_some, Strand.peek, if_neg huid, hframe]
  · rfl

theorem filing_eq_filed {s : State} {sid : Nat} (hframes : (s.str sid).frames.length ≤ 1) (live : List Nat) (key : Word64) (l : Nat) :
    s.filing sid live key l = filed key ((s.str sid).th l) l (live.filterMap fun r =>
      let at' := ((s.str sid).th l).wb + r
      if at' < (s.str sid).frameSize then some (r, (s.str sid).frame.cell at' l) else none) := by
  simp only [State.filing, filed, peek_winLoc hframes]

theorem reform_files (n : BitVec 7) (s : State) (sid : Nat) (p : RunPath) (rest : List Run) (u : State)
    (hi : issues s sid p rest) (hresume : p.resume = none) (hgroup : (s.str sid).group (lowest p.lanes) = 0)
    (hframes : (s.str sid).frames.length ≤ 1) (hports : (s.str sid).ports = []) (hpending : (s.str sid).pending = false)
    (hstores : (s.str sid).fl.stores = []) (hatoms : (s.str sid).hostAtoms = false) (hunread : (s.str sid).unread = [])
    (hmx : (s.coreOf sid).mx = []) (hcp : (s.coreOf sid).cp = []) :
    let live := (nget (s.gridOf sid).kd.liveMaps n.toNat).getD []
    let todo := p.lanes.map fun l => filed p.nxt ((s.str sid).th l) l (live.filterMap fun r =>
      let at' := ((s.str sid).th l).wb + r
      if at' < (s.str sid).frameSize then some (r, (s.str sid).frame.cell at' l) else none)
    ((begun s rest).modStr sid fun st => { st with reformed := true }).fileSome sid true s.cycle todo = ([], u) →
    exec (.reform n) s = .next (u.settleStrand sid) := by
  intro live todo hfile
  have hmxHeld : (begun s rest).mxHeld sid = [] := by
    have h : ((begun s rest).coreOf sid).mx = [] := hmx
    simp [State.mxHeld, h]
  have hcpHeld : (begun s rest).cpHeld sid = [] := by
    have h : ((begun s rest).coreOf sid).cp = [] := hcp
    simp [State.cpHeld, h]
  have hready : (begun s rest).reformReady sid = true := by
    have hstr : (begun s rest).str sid = s.str sid := rfl
    simp [State.reformReady, hstr, hpending, hmxHeld, hcpHeld, hstores, hatoms]
  have htodo : p.lanes.map ((begun s rest).filing sid live p.nxt) = todo :=
    List.map_congr_left fun l _ => filing_eq_filed (s := begun s rest) hframes live p.nxt l
  have hlive : (nget ((begun s rest).gridOf sid).kd.liveMaps n.toNat).getD [] = live := rfl
  have hcycle : (begun s rest).cycle = s.cycle := rfl
  rw [reform_past_ports hi hresume hgroup hframes hports, hready, if_pos rfl]
  simp only [State.reformEnds, State.reformFault, hmxHeld, hcpHeld, List.find?_nil, mxTouch_idle (s := begun s rest) hmx hunread, hlive,
    htodo, hcycle, State.fileOn, if_true, hfile, List.isEmpty_nil, Bool.not_true, Bool.false_eq_true, if_false]

/-! `spawn` (R176). -/

theorem keepEnt_strands (s : State) (core : Nat) (e : TlbEnt) : (s.keepEnt core e).strands = s.strands := by
  simp only [State.keepEnt]
  split
  · rfl
  · split <;> rfl

theorem keepXlat_strands (s : State) (ctx core va : Nat) (x : Xlat) : (s.keepXlat ctx core va x).strands = s.strands := by
  simp only [State.keepXlat, keepEnt_strands]
  split
  · exact keepEnt_strands _ _ _
  · rfl

theorem useXlat_strands (s : State) (ctx core va : Nat) (x : Xlat) (need : Need) : (s.useXlat ctx core va x need).strands = s.strands := by
  simp only [State.useXlat, keepXlat_strands]
  split <;> split <;> rfl

theorem nhas_useXlatOf (s : State) (sid va j : Nat) (x : Xlat) (need : Need) :
    nhas (s.useXlatOf sid va x need).strands j = nhas s.strands j := by
  simp only [State.useXlatOf]
  split
  · rw [useXlat_strands]
  · rw [nhas_modStr, useXlat_strands]

theorem nhas_fetchLine (s : State) (sid va j : Nat) : nhas (s.fetchLine sid va).2.strands j = nhas s.strands j := by
  simp only [State.fetchLine]
  split
  · rfl
  · split
    · rfl
    · rfl
    · exact nhas_useXlatOf s sid va j _ _

theorem nhas_target (s : State) (sid j : Nat) (tgt : Word64) (tmap : Bool) : nhas (s.target sid tgt tmap).2.strands j = nhas s.strands j := by
  simp only [State.target]
  split
  · rfl
  · split
    · rfl
    · next q _ =>
      have h := nhas_fetchLine s sid (tgt.toNat / 128 * 128) j
      split <;> next hf => rw [hf] at h; exact h

theorem nhas_checkTargets (sid j : Nat) (tmap : Bool) (want : List (Nat × Word64)) (s : State) :
    nhas (s.checkTargets sid tmap want).2.2.strands j = nhas s.strands j := by
  induction want generalizing s with
  | nil => rfl
  | cons x want ih =>
    have h := nhas_target s sid j x.2 tmap
    simp only [State.checkTargets]
    split <;> next ht => rw [ht] at h; exact (ih _).trans h

theorem lessNat_nil (ls : List Nat) : lessNat ls [] = ls := by simp [lessNat]

theorem spawn_files (c : BitVec 3) (a b : Sel) (s : State) (sid : Nat) (p : RunPath) (rest : List Run) (q : RunPath) (t t' u : State)
    (vals : NMap (List Word64)) (hi : issues s sid p rest) (hresume : p.resume = none) (hlanes : p.lanes ≠ [])
    (hr : ready (begun s rest) sid p [(a, 2), (b, c.toNat)] [] = some (q, t, vals)) :
    let want := p.lanes.map fun l => (l, x64 vals l 0)
    t.checkTargets sid true want = (want, [], t') →
    let todo := p.lanes.map fun l => spawned (x64 vals l 0) l ((t'.srcRun sid l b c.toNat 8 ++ List.replicate 8 0).take 8)
    t'.fileSome sid false t'.cycle todo = ([], u) →
    exec (.spawn c a b) s = .next (u.advance sid q) := by
  intro want hcheck todo hfile
  have hexec : exec (.spawn c a b) s = execSpawn c a b s := rfl
  obtain ⟨hq, htouched⟩ := touched_ready hr
  have hqlanes : q.lanes = p.lanes := by rw [hq]
  have hhas : nhas t'.strands sid = true := by
    have h := nhas_checkTargets sid sid true want t
    rw [hcheck, htouched.has] at h
    exact h.trans hi.2
  have hcheck' : t.checkTargets sid true (p.lanes.map fun l => (l, arg ((nget vals l).getD []) 0)) = (want, [], t') := hcheck
  have htodo : want.map (fun x => (⟨x.1, x.2,
      { st := .ready, pc := x.2, wb := 0, o := (t'.srcRun sid x.1 b c.toNat 8 ++ List.replicate 8 0).take 8, lr := 0, loops := [],
        arrival := none, resumeWait := false, anchorOrd := 0xFFFFFFFF, anchorPc := x.2, starve := 0, safeOrd := 0xFFFFFFFF, chk := none,
        pass := none }, [], true⟩ : Filing)) = todo := List.map_map
  rw [hexec, execSpawn, onPath_issues hi]
  simp only [hresume]
  rw [State.operands, operands_ready _ hr]
  simp only [hqlanes, hcheck', htodo, List.map_nil, lessNat_nil, State.trapAt, trap_none, hhas, List.isEmpty_iff, hlanes,
    Bool.not_true, Bool.or_false, Bool.false_eq_true, if_false, State.fileOn, hfile, List.isEmpty_nil]
  rw [← hqlanes]

/-! Bins (R14, R322). -/

/-- Noting when a bin became due changes nothing else of it. -/
theorem nget_settleBins {s : State} {core k : Nat} {b : Bin} (h : nget (s.core core).bins k = some b) :
    ∃ due, nget ((s.settleBins core).core core).bins k = some { b with readyAt := due } := by
  simp only [State.settleBins]
  split
  · exact ⟨b.readyAt, h⟩
  · simp only [core_modCore, if_true, nget_nall, h, Option.map_some]
    split
    · exact ⟨_, rfl⟩
    · exact ⟨_, rfl⟩

theorem settleBins_frame (s : State) (core : Nat) : s.settleBins core = { s with cores := (s.settleBins core).cores } := by
  simp only [State.settleBins]
  split <;> rfl

/-- A bin takes the place of a number. -/
def State.putBin (s : State) (core k : Nat) (b : Bin) : State :=
  (s.modCore core fun c => { c with bins := nset c.bins k b }).settleBins core

theorem nget_putBin (s : State) (core k : Nat) (b : Bin) :
    ∃ due, nget ((s.putBin core k b).core core).bins k = some { b with readyAt := due } := by
  apply nget_settleBins
  rw [core_modCore, if_pos rfl]
  exact nget_nset_same _ _ _

theorem putBin_strands (s : State) (core k : Nat) (b : Bin) : (s.putBin core k b).strands = s.strands := by
  rw [State.putBin, settleBins_frame]
  rfl

theorem putBin_mem (s : State) (core k : Nat) (b : Bin) : (s.putBin core k b).mem = s.mem := by
  rw [State.putBin, settleBins_frame]
  rfl

section
variable (i : Nat)

/-- A frame's cells with the registers of lane i in them. -/
def putLane (cells : NMap Word) (regs : List (Nat × Word)) : NMap Word := regs.foldl (fun m x => nset m (32 * x.1 + i) x.2) cells

theorem nget_putLane_other {cells : NMap Word} {regs : List (Nat × Word)} {r : Nat} (h : ∀ x ∈ regs, x.1 ≠ r) :
    nget (putLane i cells regs) (32 * r + i) = nget cells (32 * r + i) := by
  induction regs generalizing cells with
  | nil => rfl
  | cons x regs ih =>
    have hx : 32 * r + i ≠ 32 * x.1 + i := by
      have := h x List.mem_cons_self
      omega
    rw [putLane, List.foldl_cons]
    exact (ih fun y hy => h y (List.mem_cons_of_mem _ hy)).trans (nget_nset_other _ _ _ _ hx)

theorem nget_putLane {cells : NMap Word} {regs : List (Nat × Word)} {r : Nat} {v : Word} (h : nget regs r = some v)
    (hkeys : regs.Pairwise fun y z => y.1 ≠ z.1) : nget (putLane i cells regs) (32 * r + i) = some v := by
  induction regs generalizing cells with
  | nil => cases h
  | cons x regs ih =>
    obtain ⟨k, w⟩ := x
    obtain ⟨hk, hkeys⟩ := List.pairwise_cons.1 hkeys
    simp only [nget] at h
    rw [putLane, List.foldl_cons]
    split at h
    · next hkr =>
      cases h
      rw [← hkr]
      exact (nget_putLane_other i fun y hy => (hk y hy).symm).trans (nget_nset_same _ _ _)
    · exact ih h hkeys

/-- A thread filed finds the registers it takes along in its lane of the bin's frame (R15). -/
theorem cell_takeThread (f : Frame) {x : Filing} {r : Nat} {v : Word} (h : nget x.regs r = some v)
    (hkeys : x.regs.Pairwise fun y z => y.1 ≠ z.1) : (f.takeThread i x).cell r i = v := by
  have hcell : nget (f.takeThread i x).cells (32 * r + i) = some v := by
    simp only [Frame.takeThread, List.foldl_append]
    exact nget_putLane i h hkeys
  rw [Frame.cell, hcell]

end

theorem filingJoinsBin : Sys2Proof.Claim.FilingJoinsBin := by
  intro s sid since k x b hsaving hbin hone hteam hrole hkey hroom
  have hmem := mem_of_nget hbin
  have hfind : (s.core (s.str sid).core).bins.find? (fun b => b.2.team == (s.str sid).team && b.2.role == (s.str sid).role &&
      b.2.pc == x.key && decide (b.2.threads.length < 32)) = some (k, b) := by
    cases hf : (s.core (s.str sid).core).bins.find? (fun b => b.2.team == (s.str sid).team && b.2.role == (s.str sid).role &&
        b.2.pc == x.key && decide (b.2.threads.length < 32)) with
    | none =>
      have := List.find?_eq_none.1 hf _ hmem
      simp [hteam, hrole, hkey, hroom] at this
    | some y =>
      have hy := List.find?_some hf
      simp only [Bool.and_eq_true, beq_iff_eq] at hy
      obtain ⟨⟨⟨hyteam, hyrole⟩, hykey⟩, -⟩ := hy
      rw [hone y (List.mem_of_find?_eq_some hf) (hyteam.trans hteam.symm) (hyrole.trans hrole.symm) (hykey.trans hkey.symm)]
  simp only [State.fileOne, hsaving, hfind, Bool.false_eq_true, if_false]
  obtain ⟨due, hset⟩ := nget_putBin s (s.str sid).core k
    { b with frame := b.frame.takeThread b.threads.length x, threads := b.threads ++ [x] }
  exact ⟨_, _, rfl, hset, rfl, fun r v hv hkeys => .inl (cell_takeThread _ b.frame hv hkeys), putBin_strands s _ _ _, putBin_mem s _ _ _⟩

/-! A new bin (R322). -/

/-- Past n numbers that are taken stands the first that is free, if there is one within the fuel. -/
theorem nfree_eq {α : Type} {m : NMap α} {n fuel : Nat} (i : Nat) (htaken : ∀ j, i ≤ j → j < i + n → nhas m j = true) (hn : n ≤ fuel)
    (hfree : n < fuel → nhas m (i + n) = false) : nfree m i fuel = i + n := by
  induction fuel generalizing i n with
  | zero =>
    obtain rfl : n = 0 := by omega
    rfl
  | succ fuel ih =>
    rw [nfree]
    cases n with
    | zero =>
      have hi : nhas m i = false := hfree (by omega)
      rw [hi]
      rfl
    | succ n =>
      rw [htaken i (by omega) (by omega), if_pos rfl, ih (n := n) (i + 1) (fun j hj hjn => htaken j (by omega) (by omega)) (by omega)
        (fun h => by rw [← hfree (by omega)]; congr 1; omega)]
      omega

/-- The partition a bin opens in has the most free units, and no lower one has as many. -/
theorem binPart_spec (s : State) (core : Nat) : s.binPart core < 4 ∧ ∀ q < 4, s.freeUnits core q < s.freeUnits core (s.binPart core) ∨
    (s.freeUnits core q = s.freeUnits core (s.binPart core) ∧ s.binPart core ≤ q) := by
  obtain ⟨hmem, hbest⟩ := foldl_best (s.freeUnits core) id [1, 2, 3] 0 (by decide)
  have hbin : ∀ q, q ∈ [0, 1, 2, 3] ↔ q < 4 := by
    intro q
    simp only [List.mem_cons, List.not_mem_nil, or_false]
    omega
  refine ⟨(hbin _).1 hmem, fun q hq => ?_⟩
  obtain ⟨hle, hlow⟩ := hbest q ((hbin q).2 hq)
  rcases Nat.lt_or_eq_of_le hle with h | h
  · exact .inl h
  · exact .inr ⟨h, hlow h⟩

/-- Where no bin takes it, a thread is filed into a new one, if there is a number and a block. -/
theorem fileOne_new {s : State} {sid since : Nat} {x : Filing} (hsaving : (s.team (s.str sid).team).saving = false)
    (hfull : ∀ y ∈ (s.core (s.str sid).core).bins, y.2.team = (s.str sid).team → y.2.role = (s.str sid).role → y.2.pc = x.key →
      32 ≤ y.2.threads.length) :
    s.fileOne sid x since =
      let core := (s.str sid).core
      let k := nfree (s.core core).bins 0 16
      let part := s.binPart core
      let size := ((s.gridOf sid).kd.role (s.str sid).role).frame
      if 16 ≤ k ∨ !(s.openRequests core part).isEmpty ∨ (s.fileRequests core).any (· < since) then none
      else (s.findBlock core part size).map fun base =>
        s.takeUid.2.putBin core k
          ⟨(s.str sid).team, (s.str sid).role, x.key, [x], (newFrame s.takeUid.1 size part base true []).takeThread 0 x, 0, false, none⟩ := by
  have hfind : (s.core (s.str sid).core).bins.find? (fun b => b.2.team == (s.str sid).team && b.2.role == (s.str sid).role &&
      b.2.pc == x.key && decide (b.2.threads.length < 32)) = none := by
    refine List.find?_eq_none.2 fun y hy hmatch => ?_
    simp only [Bool.and_eq_true, beq_iff_eq, decide_eq_true_eq] at hmatch
    obtain ⟨⟨⟨hteam, hrole⟩, hkey⟩, hroom⟩ := hmatch
    have := hfull y hy hteam hrole hkey
    omega
  simp only [State.fileOne, hsaving, hfind, Bool.false_eq_true, if_false]
  split
  · rfl
  · split <;> next hblock => rw [hblock]; rfl

theorem filingOpensBin : Sys2Proof.Claim.FilingOpensBin := by
  intro s sid since x hsaving core bins part size hfull
  obtain ⟨hpart, hmost⟩ := binPart_spec s core
  have hnew := fileOne_new (since := since) hsaving hfull
  refine ⟨hpart, hmost, fun hall => ?_, fun hnone => ?_, fun k base hk htaken hfree hopen hfirst hblock => ?_⟩
  · have hk : nfree bins 0 16 = 0 + 16 := nfree_eq 0 (fun j _ hj => hall j (by omega)) (by omega) (by omega)
    exact hnew.trans (if_pos (.inl (Nat.le_of_eq hk.symm)))
  · have hnone' : s.findBlock (s.str sid).core (s.binPart (s.str sid).core) ((s.gridOf sid).kd.role (s.str sid).role).frame = none := hnone
    rw [hnew]
    simp only [hnone', Option.map_none, ite_self]
  · have hk' : nfree bins 0 16 = 0 + k := nfree_eq 0 (fun j _ hj => htaken j (by omega)) (by omega)
      fun _ => by rw [Nat.zero_add, nhas, hfree]; rfl
    have hrequests : (s.fileRequests core).any (· < since) = false := by
      rw [List.any_eq_false]
      exact fun y hy => by simpa using hfirst y hy
    have hplace : ¬(16 ≤ nfree bins 0 16 ∨ (!(s.openRequests core part).isEmpty) = true ∨ (s.fileRequests core).any (· < since) = true) := by
      simp only [hk', hopen, hrequests]
      simpa using hk
    have hfile := (hnew.trans (if_neg hplace)).trans (congrArg (Option.map _) hblock)
    rw [show nfree (s.core (s.str sid).core).bins 0 16 = k from hk'.trans (Nat.zero_add k)] at hfile
    obtain ⟨due, hset⟩ := nget_putBin s.takeUid.2 core k ⟨(s.str sid).team, (s.str sid).role, x.key, [x],
      (newFrame s.takeUid.1 size part base true []).takeThread 0 x, 0, false, none⟩
    exact ⟨_, _, hfile, hset, rfl, rfl, rfl, rfl, rfl, rfl, rfl, rfl,
      putBin_strands s.takeUid.2 _ _ _, putBin_mem s.takeUid.2 _ _ _⟩

end Sys2Proof.Machine

open Sys2Proof Sys2Proof.Machine Sys2Proof.Claim

/-- Settles O47: `reform` in the order of its checks, the filing of each thread, and the bin that takes it. -/
theorem Sys2Proof.Machine.reformSpawnFiling : Obligations.ReformSpawnFiling :=
  ⟨fun _ _ _ _ _ hi hresume => reform_orders hi hresume, ⟨reform_files, spawn_files⟩, filingJoinsBin, filingOpensBin⟩
end

section
/-! PROOFS. Bins age and launch, and the compactor moves frames (R16, R25, R34, R320 to R322). -/

namespace Sys2Proof.Machine

open Sys2Proof.Claim

/-! The age timer (R16). -/

theorem binAge_due {s : State} {core k : Nat} {b : Bin} (hargs : s.args = [core, k]) (hbin : nget (s.core core).bins k = some b)
    (hage : (if (s.grid (s.team b.team).grid).kd.age = 0 then 2000 else (s.grid (s.team b.team).grid).kd.age) ≤ b.age) :
    ∃ u, exec .binAgeTimerExpiry s = .next u ∧ ((nget (u.core core).bins k).map (·.fired)) = some true ∧
      ((nget (u.core core).bins k).map fun x => (x.threads, x.frame, x.pc)) = some (b.threads, b.frame, b.pc) ∧
      u.strands = s.strands ∧ u.mem = s.mem := by
  have hexec : exec .binAgeTimerExpiry s = .next (s.binAge (s.arg 0) (s.arg 1)) := rfl
  have hnmod : nget (nmod (s.core core).bins k fun b => { b with fired := true }) k = some { b with fired := true } := by
    rw [nget_nmod, if_pos rfl, hbin]
    rfl
  obtain ⟨due, hset⟩ := nget_settleBins (s := s.modCore core fun c => { c with bins := nmod c.bins k fun b => { b with fired := true } })
    (core := core) (k := k) (b := { b with fired := true }) (by rw [core_modCore, if_pos rfl, hnmod])
  refine ⟨_, hexec.trans (congrArg Host.Outcome.next ?_), by rw [hset]; rfl, by rw [hset]; rfl, ?_, ?_⟩
  · simp only [State.binAge, State.arg, hargs, List.getD_cons_zero, List.getD_cons_succ, hbin, if_pos hage]
  · rw [settleBins_frame]
    rfl
  · rw [settleBins_frame]
    rfl

theorem binAge_early {s : State} {core k : Nat} {b : Bin} (hargs : s.args = [core, k]) (hbin : nget (s.core core).bins k = some b)
    (hage : b.age < (if (s.grid (s.team b.team).grid).kd.age = 0 then 2000 else (s.grid (s.team b.team).grid).kd.age)) :
    exec .binAgeTimerExpiry s = .next s := by
  have hexec : exec .binAgeTimerExpiry s = .next (s.binAge (s.arg 0) (s.arg 1)) := rfl
  rw [hexec]
  simp only [State.binAge, State.arg, hargs, List.getD_cons_zero, List.getD_cons_succ, hbin, if_neg (Nat.not_le.2 hage)]

/-! Launch (R16, R34). -/

/-- The lowest strand number that is not taken. -/
theorem find?_lowest {n m : Nat} {busy : List Nat} (hn : n < m) (hlow : ∀ j < n, j ∈ busy) (hfree : n ∉ busy) :
    (List.range m).find? (fun i => !busy.contains i) = some n := by
  rw [List.find?_range_eq_some]
  refine ⟨by simpa using hfree, List.mem_range.2 hn, fun j hj => by simpa using hlow j hj⟩

theorem binLaunch_launches {s : State} {core k n : Nat} {b : Bin} (hargs : s.args = [core, k]) (hsorted : nsorted (s.core core).bins = true)
    (hbin : nget (s.core core).bins k = some b) (hready : b.readyAt.isSome = true)
    (hone : ∀ x ∈ (s.core core).bins, x.1 ≠ k → ¬(x.2.team = b.team ∧ x.2.role = b.role))
    (hhalted : (s.ctx (s.grid (s.team b.team).grid).ctx).dbg.halted = false) (hpto : (s.team b.team).ptoHalted = false)
    (hslots : s.slotsFull core b.frame.part = false) (hn : n < ((s.grid (s.team b.team).grid).kd.role b.role).strands)
    (hlow : ∀ j, j < n → ∃ x ∈ s.teamStrands b.team, x.2.role = b.role ∧ x.2.finished = false ∧ x.2.strandid = j)
    (hfree : ∀ x ∈ s.teamStrands b.team, x.2.role = b.role → x.2.finished = false → x.2.strandid ≠ n) :
    ∃ (u : State) (st : Strand), exec .binLaunch s = .next u ∧ nget (u.core core).bins k = none ∧
      nget u.strands s.ids.sid = some st ∧ (∀ j, j ≠ s.ids.sid → nget u.strands j = nget s.strands j) ∧
      st.team = b.team ∧ st.core = core ∧ st.part = b.frame.part ∧ st.role = b.role ∧ st.strandid = n ∧ st.frames = [b.frame] ∧
      st.lanes = (b.threads.zipIdx.map fun x => (x.2, { x.1.thread with st := .ready, pc := b.pc })) ∧ u.mem = s.mem := by
  have hexec : exec .binLaunch s = .next (s.binLaunch (s.arg 0) (s.arg 1)) := rfl
  have hnumber : (List.range ((s.grid (s.team b.team).grid).kd.role b.role).strands).find? (fun i =>
      !(((s.teamStrands b.team).filter fun x => x.2.role == b.role && !x.2.finished).map (·.2.strandid)).contains i) = some n := by
    refine find?_lowest hn (fun j hj => ?_) fun hmem => ?_
    · obtain ⟨x, hx, hrole, hlive, hid⟩ := hlow j hj
      exact List.mem_map.2 ⟨x, List.mem_filter.2 ⟨hx, by simp [hrole, hlive]⟩, hid⟩
    · obtain ⟨x, hx, hid⟩ := List.mem_map.1 hmem
      obtain ⟨hx, hmatch⟩ := List.mem_filter.1 hx
      simp only [Bool.and_eq_true, beq_iff_eq, Bool.not_eq_true'] at hmatch
      exact hfree x hx hmatch.1 hmatch.2 hid
  rw [hexec]
  simp only [State.binLaunch, State.arg, hargs, List.getD_cons_zero, List.getD_cons_succ, hbin]
  rw [if_neg]
  · simp only [hnumber]
    refine ⟨_, _, rfl, ?_, nget_nset_same _ _ _, fun j hj => nget_nset_other _ _ _ _ hj, rfl, rfl, rfl, rfl, rfl, rfl, rfl, rfl⟩
    rw [core_modCore, if_pos rfl]
    exact (nget_ndel _ _ _ hsorted).trans (if_pos rfl)
  · have hwaits : b.readyAt.isNone = false := by simpa using hready
    simp only [hwaits, hslots, hhalted, hpto, Bool.or_false, Bool.false_or, Bool.not_eq_true, List.any_eq_false, Bool.and_eq_true,
      beq_iff_eq, bne_iff_ne]
    rintro x hx ⟨⟨⟨hteam, hrole⟩, hk⟩, -⟩
    exact hone x hx hk ⟨hteam, hrole⟩

/-! The compactor (R320, R321). -/

/-- All that a search can find is what one element gives. -/
theorem findSome?_only {α β : Type} {f : α → Option β} {l : List α} {x : α} {b : β} (hx : x ∈ l) (hb : f x = some b)
    (honly : ∀ y ∈ l, ∀ c, f y = some c → c = b) : l.findSome? f = some b := by
  cases h : l.findSome? f with
  | none => rw [List.findSome?_eq_none_iff.1 h x hx] at hb; cases hb
  | some c =>
    obtain ⟨y, hy, hc⟩ := List.exists_of_findSome?_eq_some h
    rw [honly y hy c hc]

theorem compactorMove_moves {s : State} {core part uid n sid base : Nat} {f : Frame} (hargs : s.args = [core, part, uid])
    (hn : n ∈ s.frameRequests core part) (hunits : frameUnits n ≤ s.freeUnits core part) (hnone : s.findBlock core part n = none)
    (hfirst : ∀ m, (s.frameRequests core part).head? = some m → s.findBlock core part m = none) (hacc : s.frameAcc core uid = false)
    (hstr : nget s.strands sid = some (s.str sid)) (hcore : (s.str sid).core = core) (hsaving : (s.teamOf sid).saving = false)
    (hframe : (s.str sid).frames.find? (fun g => g.uid == uid && g.part == part) = some f)
    (hone : ∀ x ∈ s.strands, x.1 ≠ sid → ∀ g ∈ x.2.frames, g.uid ≠ uid) (hsorted : nsorted s.strands = true)
    (hblock : s.findBlock core part f.size = some base) (hbase : base < f.base) :
    exec .compactorMove s = .next (s.modStr sid fun st => { st with frames := st.frames.map fun g =>
      if g.uid = uid then { g with base := base } else g }) := by
  have hexec : exec .compactorMove s = .next (s.compact (s.arg 0) (s.arg 1) (s.arg 2) (s.frameRequests (s.arg 0) (s.arg 1))) := rfl
  have hcompacting : s.compacting core part (s.frameRequests core part) = true := by
    rw [State.compacting, Bool.and_eq_true]
    refine ⟨List.any_eq_true.2 ⟨n, hn, by simp [hunits, hnone]⟩, ?_⟩
    cases hhead : (s.frameRequests core part).head? with
    | none => rfl
    | some m => simp [hfirst m hhead]
  have hholder : (s.strands.findSome? fun x => if x.2.core = core ∧ !(s.team x.2.team).saving then
      (x.2.frames.find? fun f => f.uid == uid && f.part == part).map fun f => (x.1, f) else none) = some (sid, f) := by
    refine findSome?_only (mem_of_nget hstr) ?_ fun y hy c hc => ?_
    · have hteam : (s.team (s.str sid).team).saving = false := hsaving
      simp only [hcore, hteam, hframe, Option.map_some]
      rfl
    · split at hc
      · obtain ⟨g, hg, rfl⟩ := Option.map_eq_some_iff.1 hc
        have huid := List.find?_some hg
        simp only [Bool.and_eq_true, beq_iff_eq] at huid
        by_cases hy1 : y.1 = sid
        · have hy2 := (mem_iff_nget s.strands y hsorted).1 hy
          rw [hy1, hstr] at hy2
          rw [← Option.some.inj hy2, hframe] at hg
          cases hg
          rw [hy1]
        · exact absurd huid.1 (hone y hy hy1 g (List.mem_of_find?_eq_some hg))
      · cases hc
  rw [hexec]
  simp only [State.arg, hargs, List.getD_cons_zero, List.getD_cons_succ, State.compact, hcompacting, hacc, hholder, hblock,
    if_neg (Nat.not_le.2 hbase)]
  rfl

end Sys2Proof.Machine
end

section
/-! PROOFS. What writes, slots, checkpoints leave of the teams, and of what the engines and bins hold of them (R215, R305, R310, R417). -/

namespace Sys2Proof.Machine

open Sys2Proof.Claim

/-! Nothing of another team comes in. -/

/-- Every team named in a list is named in another. -/
def Under {α : Type} (team : α → Nat) (l l' : NMap α) : Prop := ∀ x ∈ l', ∃ y ∈ l, team y.2 = team x.2

namespace Under
section
variable {α : Type} {team : α → Nat}

theorem refl (l : NMap α) : Under team l l := fun x hx => ⟨x, hx, rfl⟩

theorem trans {l m n : NMap α} (h : Under team l m) (h' : Under team m n) : Under team l n := fun x hx =>
  let ⟨y, hy, hyx⟩ := h' x hx
  let ⟨z, hz, hzy⟩ := h y hy
  ⟨z, hz, hzy.trans hyx⟩

theorem nmod (l : NMap α) (i : Nat) {f : α → α} (h : ∀ v, team (f v) = team v) : Under team l (nmod l i f) := by
  intro x hx
  rw [Machine.nmod] at hx
  split at hx
  · next v hv =>
    have hmem : x = (i, f v) ∨ x ∈ l := by
      clear hv
      induction l with
      | nil => simpa [nset] using hx
      | cons c l ih =>
        obtain ⟨k, w⟩ := c
        simp only [nset] at hx
        split at hx
        · simpa using hx
        · split at hx
          · exact (List.mem_cons.1 hx).imp_right (List.mem_cons_of_mem _)
          · rcases List.mem_cons.1 hx with rfl | hx
            · exact .inr List.mem_cons_self
            · exact (ih hx).imp_right (List.mem_cons_of_mem _)
    rcases hmem with rfl | hx
    · exact ⟨(i, v), mem_of_nget hv, (h v).symm⟩
    · exact ⟨x, hx, rfl⟩
  · exact ⟨x, hx, rfl⟩

theorem nall (l : NMap α) {f : Nat → α → α} (h : ∀ k v, team (f k v) = team v) : Under team l (nall l f) := by
  intro x hx
  obtain ⟨y, hy, rfl⟩ := List.mem_map.1 hx
  exact ⟨y, hy, (h _ _).symm⟩

end
end Under

structure CoreUnder (c d : Core) : Prop where
  bins : Under Bin.team c.bins d.bins
  mx : Under MxTok.team c.mx d.mx
  cp : Under CpTok.team c.cp d.cp
  drn : Under DrnSlot.team c.drn d.drn

theorem CoreUnder.refl (c : Core) : CoreUnder c c := ⟨.refl _, .refl _, .refl _, .refl _⟩

theorem CoreUnder.trans {c d e : Core} (h : CoreUnder c d) (h' : CoreUnder d e) : CoreUnder c e :=
  ⟨h.bins.trans h'.bins, h.mx.trans h'.mx, h.cp.trans h'.cp, h.drn.trans h'.drn⟩

/-- A change that keeps the grids, which teams there are and what they are teams of, and brings nothing of another team in. -/
structure Steady (s t : State) : Prop where
  grids : t.grids = s.grids
  has : ∀ i, nhas t.teams i = nhas s.teams i
  grid : ∀ i, (t.team i).grid = (s.team i).grid
  teamid : ∀ i, (t.team i).teamid = (s.team i).teamid
  home : ∀ i, (t.team i).core = (s.team i).core
  strands : Under Strand.team s.strands t.strands
  core : ∀ i, CoreUnder (s.core i) (t.core i)

namespace Steady

theorem refl (s : State) : Steady s s := ⟨rfl, fun _ => rfl, fun _ => rfl, fun _ => rfl, fun _ => rfl, .refl _, fun _ => .refl _⟩

theorem trans {s t u : State} (h : Steady s t) (h' : Steady t u) : Steady s u :=
  ⟨h'.grids.trans h.grids, fun i => (h'.has i).trans (h.has i), fun i => (h'.grid i).trans (h.grid i),
   fun i => (h'.teamid i).trans (h.teamid i), fun i => (h'.home i).trans (h.home i), h.strands.trans h'.strands, fun i => (h.core i).trans (h'.core i)⟩

theorem foldl {α : Type} {f : State → α → State} (h : ∀ s x, Steady s (f s x)) (xs : List α) (s : State) : Steady s (xs.foldl f s) := by
  induction xs generalizing s with
  | nil => exact refl s
  | cons x xs ih => exact (h s x).trans (ih _)

/-- Of one of two changes. -/
theorem ite {c : Prop} [Decidable c] {s t u : State} (h : Steady s t) (h' : Steady s u) : Steady s (if c then t else u) := by
  split
  · exact h
  · exact h'

/-- A change of other parts of the machine. -/
theorem elsewhere {s t : State} (hgrids : t.grids = s.grids) (hteams : t.teams = s.teams) (hstrands : t.strands = s.strands)
    (hcores : t.cores = s.cores) : Steady s t := by
  have hteam (i : Nat) : t.team i = s.team i := by simp only [State.team, hteams]
  refine ⟨hgrids, fun i => by rw [hteams], fun i => by rw [hteam], fun i => by rw [hteam], fun i => by rw [hteam],
    by rw [hstrands]; exact .refl _, fun i => ?_⟩
  · simp only [State.core, hcores]
    exact .refl _

theorem then_elsewhere {s t u : State} (h : Steady s t) (hgrids : u.grids = t.grids) (hteams : u.teams = t.teams)
    (hstrands : u.strands = t.strands) (hcores : u.cores = t.cores) : Steady s u := h.trans (elsewhere hgrids hteams hstrands hcores)

theorem after {s t u : State} (h : Steady t u) (hgrids : t.grids = s.grids) (hteams : t.teams = s.teams)
    (hstrands : t.strands = s.strands) (hcores : t.cores = s.cores) : Steady s u := (elsewhere hgrids hteams hstrands hcores).trans h

theorem modStr (s : State) (i : Nat) {f : Strand → Strand} (h : ∀ st, (f st).team = st.team) : Steady s (s.modStr i f) :=
  ⟨rfl, fun _ => rfl, fun _ => rfl, fun _ => rfl, fun _ => rfl, Under.nmod _ _ h, fun _ => .refl _⟩

theorem modTeam (s : State) (i : Nat) {f : Team → Team} (hgrid : ∀ t, (f t).grid = t.grid) (hid : ∀ t, (f t).teamid = t.teamid)
    (hcore : ∀ t, (f t).core = t.core) : Steady s (s.modTeam i f) := by
  have hteam {α : Type} (g : Team → α) (h : ∀ t, g (f t) = g t) (j : Nat) : g ((s.modTeam i f).team j) = g (s.team j) := by
    rw [team_modTeam]
    split
    · next hj => rw [h, hj.1]
    · rfl
  exact ⟨rfl, fun j => by simp, hteam _ hgrid, hteam _ hid, hteam _ hcore, .refl _, fun _ => .refl _⟩

theorem modCore (s : State) (i : Nat) {f : Core → Core} (h : ∀ c, CoreUnder c (f c)) : Steady s (s.modCore i f) := by
  refine ⟨rfl, fun _ => rfl, fun _ => rfl, fun _ => rfl, fun _ => rfl, .refl _, fun j => ?_⟩
  rw [core_modCore]
  split
  · next hj =>
    rw [hj]
    exact h _
  · exact .refl _

theorem nallCores (s : State) {f : Nat → Core → Core} (h : ∀ k c, CoreUnder c (f k c)) : Steady s { s with cores := nall s.cores f } := by
  refine ⟨rfl, fun _ => rfl, fun _ => rfl, fun _ => rfl, fun _ => rfl, .refl _, fun j => ?_⟩
  simp only [State.core, nget_nall]
  cases nget s.cores j with
  | none => exact .refl _
  | some c => exact h j c

end Steady

/-! Writes. -/

theorem steady_scramble (s : State) (sid uid r : Nat) : Steady s (s.scramble sid uid r) := by
  refine Steady.modStr s sid fun st => ?_
  generalize List.range 32 = ls
  induction ls generalizing st with
  | nil => rfl
  | cons l ls ih => exact ih _

theorem steady_scrambleAcc (s : State) (t : MxTok) : Steady s (s.scrambleAcc t) := by
  rw [State.scrambleAcc]
  exact Steady.foldl (fun s x => Steady.foldl (fun s r => steady_scramble s x.strand x.frame r) x.regs s) t.acc s

theorem coreUnder_modMx (c : Core) (k : Nat) {f : MxTok → MxTok} (h : ∀ t, (f t).team = t.team) :
    CoreUnder c { c with mx := nmod c.mx k f } := ⟨.refl _, Under.nmod _ _ h, .refl _, .refl _⟩

theorem steady_mxRace (s : State) (cells : List Host.Cell) : Steady s (s.mxRace cells) := by
  rw [State.mxRace]
  refine Steady.foldl (fun s x => ?_) s.cores s
  refine Steady.foldl (fun s y => ?_) _ s
  exact Steady.ite ((steady_scrambleAcc s y.2).trans (Steady.modCore _ x.1 fun c => coreUnder_modMx c y.1 fun _ => rfl)) (.refl s)

theorem steady_putCells (s : State) (cells : List Host.Cell) : Steady s (s.putCells cells) := by
  have hrace (cells cells' : List Host.Cell) : Steady s ((s.setMem (s.mem.writeCells cells)).mxRace cells') :=
    (steady_mxRace _ cells').after rfl rfl rfl rfl
  simp only [State.putCells]
  exact Steady.ite (hrace _ _) ((hrace _ _).then_elsewhere rfl rfl rfl rfl)

theorem steady_dropLines (s : State) (core : Nat) (cells : List Host.Cell) : Steady s (s.dropLines core cells) :=
  Steady.ite (.refl s) (Steady.modCore s core fun _ => ⟨.refl _, .refl _, .refl _, .refl _⟩)

theorem steady_drainStores (s : State) (core : Nat) (t : MxTok) (xs : List (List Host.Cell × List (Nat × Nat × Nat))) :
    Steady s (s.drainStores core t xs) := by
  have hcells : Steady s (s.engineCells core (xs.flatMap (·.1))) := (steady_putCells s _).trans (steady_dropLines _ core _)
  exact Steady.ite (hcells.trans (Steady.modTeam _ _ (fun _ => rfl) (fun _ => rfl) fun _ => rfl)) hcells

theorem steady_endUnits (s : State) (tid : Nat) : Steady s (s.endUnits tid) := by
  rw [State.endUnits]
  refine Steady.foldl (fun s u => ?_) _ s
  exact steady_drainStores s _ _ _

theorem steady_writeBack (s : State) (tid desc : Nat) (q : LiveQ) : Steady s (s.writeBack tid desc q) :=
  ⟨rfl, fun _ => rfl, fun _ => rfl, fun _ => rfl, fun _ => rfl, by
    simp only [State.writeBack]
    exact Under.nall s.strands fun _ _ => rfl, fun _ => .refl _⟩

theorem steady_writeBackAll (s : State) (tid : Nat) : Steady s (s.writeBackAll tid) := by
  have hback := Steady.foldl (f := fun s (x : Nat × LiveQ) => s.writeBack tid x.1 x.2) (fun s x => steady_writeBack s tid x.1 x.2)
    (s.team tid).queues s
  exact hback.trans (Steady.modTeam (f := fun t => { t with queues := [] }) _ tid (fun _ => rfl) (fun _ => rfl) fun _ => rfl)

theorem steady_freePool (s : State) (ctx off size : Nat) : Steady s (s.freePool ctx off size) := .elsewhere rfl rfl rfl rfl

/-! Queues and slots come to rest (R305, R310, R311). -/

theorem steady_settleBins (s : State) (core : Nat) : Steady s (s.settleBins core) := by
  simp only [State.settleBins]
  refine Steady.ite (.refl s) (Steady.modCore s core fun c => ⟨?_, .refl _, .refl _, .refl _⟩)
  dsimp only
  refine Under.nall c.bins fun _ b => ?_
  split <;> rfl

theorem steady_requestSave (s : State) (tid : Nat) : Steady s (s.requestSave tid) := by
  simp only [State.requestSave]
  refine .ite (.refl s) (Steady.trans ?_ (steady_settleBins _ _))
  refine Steady.trans (t := { s.modTeam tid fun t => { t with saving := true, stopReq := s.cycle, stopAt := none } with
    strands := nall s.strands fun _ st => if st.team = tid then { st with stopping := true } else st }) ?_ ?_
  · have hteam := Steady.modTeam (f := fun t => { t with saving := true, stopReq := s.cycle, stopAt := none }) s tid (fun _ => rfl)
      (fun _ => rfl) fun _ => rfl
    have hstrands : Under Strand.team s.strands (nall s.strands fun _ st => if st.team = tid then { st with stopping := true } else st) := by
      refine Under.nall s.strands fun _ st => ?_
      split <;> rfl
    exact ⟨hteam.grids, hteam.has, hteam.grid, hteam.teamid, hteam.home, hstrands, hteam.core⟩
  · refine Steady.modCore _ _ fun c => ⟨?_, .refl _, .refl _, .refl _⟩
    dsimp only
    refine Under.nall c.bins fun _ b => ?_
    split <;> rfl

theorem steady_endSlice (s : State) (k : Nat) : Steady s (s.endSlice k) := by
  simp only [State.endSlice]
  split
  · exact .refl s
  · exact .elsewhere rfl rfl rfl rfl

theorem steady_beginSaving (s : State) (k : Nat) : Steady s (s.beginSaving k) := by
  simp only [State.beginSaving]
  split
  · exact .refl s
  · refine Steady.trans ?_ (Steady.foldl steady_requestSave _ _)
    exact (steady_endSlice s k).then_elsewhere rfl rfl rfl rfl

theorem steady_freeSlot (s : State) (k : Nat) : Steady s (s.freeSlot k) := by
  simp only [State.freeSlot]
  split
  · exact .refl s
  · exact .elsewhere rfl rfl rfl rfl

theorem steady_mapQueue (s : State) (k q : Nat) : Steady s (s.mapQueue k q) := .elsewhere rfl rfl rfl rfl

theorem steady_mapPending (fuel : Nat) (s : State) : Steady s (s.mapPending fuel) := by
  induction fuel generalizing s with
  | zero => exact .refl s
  | succ fuel ih =>
    simp only [State.mapPending]
    split
    · exact .refl s
    · split
      · exact (steady_mapQueue s _ _).trans (ih _)
      · split
        · next k _ => exact (((steady_endSlice s k).trans (steady_freeSlot _ k)).trans (steady_mapQueue _ _ _)).trans (ih _)
        · exact .refl s

theorem steady_settleSlot (s : State) (k : Nat) : Steady s (s.settleSlot k) := by
  simp only [State.settleSlot]
  split
  · exact .refl s
  · split
    · exact .ite (.elsewhere rfl rfl rfl rfl) (.refl s)
    · exact .ite (.refl s) (.elsewhere rfl rfl rfl rfl)
    · exact .ite (steady_freeSlot s k) (.refl s)
    · exact .refl s

theorem steady_dropSaved (s : State) (t : Nat) : Steady s (s.dropSaved t) := by
  simp only [State.dropSaved]
  split
  · exact .refl s
  · have hcores := Steady.nallCores s (f := fun _ c => { c with resvs := c.resvs.filter fun r => r.team != t })
      fun _ _ => ⟨.refl _, .refl _, .refl _, .refl _⟩
    exact hcores.then_elsewhere rfl rfl rfl rfl

theorem steady_settleDereg (s : State) (q : Nat) : Steady s (s.settleDereg q) :=
  .ite ((Steady.foldl steady_dropSaved (s.uq q).saved s).then_elsewhere rfl rfl rfl rfl) (.refl s)

theorem steady_displace (pending : List (Nat × Uq)) (s : State) : Steady s (s.displace pending) := by
  induction pending generalizing s with
  | nil => exact .refl s
  | cons x pending ih =>
    simp only [State.displace]
    split
    · exact .refl s
    · exact .ite ((steady_beginSaving s _).trans (ih _)) (.refl s)

theorem steady_endReserve (s : State) (gid : Nat) : Steady s (s.endReserve gid) := by
  rw [State.endReserve]
  refine Steady.after (Steady.foldl (fun s k => ?_) _ _) rfl rfl rfl rfl
  exact Steady.modCore s k fun _ => ⟨.refl _, .refl _, .refl _, .refl _⟩

theorem steady_settleReserved (s : State) : Steady s s.settleReserved := by
  rw [State.settleReserved]
  refine Steady.foldl (fun s r => ?_) _ s
  exact .ite (.refl s) (steady_endReserve s r.1)

theorem steady_settleSlots (s : State) : Steady s s.settleSlots := by
  have hdereg := Steady.foldl steady_settleDereg (nkeys s.sched.queues) s
  have hslots (u : State) := Steady.foldl steady_settleSlot (nkeys u.sched.slots) u
  exact (((((hdereg.trans (hslots _)).trans (steady_mapPending _ _)).trans (steady_displace _ _)).trans (hslots _)).trans
    (steady_mapPending _ _)).trans (steady_settleReserved _)

/-! Checkpoints (R417). -/

theorem steady_debugRecord (s : State) (kind core slot ctx : Nat) (body : List Byte) : Steady s (s.debugRecord kind core slot ctx body) :=
  .ite (.elsewhere rfl rfl rfl rfl) (.elsewhere rfl rfl rfl rfl)

theorem steady_invalidate (s : State) (ctx size va : Nat) : Steady s (s.invalidate ctx size va) :=
  (Steady.nallCores s (f := fun _ c => { c with tlb := c.tlb.filter fun e => !e.hit ctx size va })
    fun _ _ => ⟨.refl _, .refl _, .refl _, .refl _⟩).then_elsewhere rfl rfl rfl rfl

theorem steady_clearDirty (s : State) (ctx : Nat) (xs : List Leaf) : Steady s (s.clearDirty ctx xs) := by
  rw [State.clearDirty]
  refine Steady.trans (Steady.foldl (fun s x => ?_) xs s) (steady_invalidate _ ctx 3 0)
  exact .ite (.elsewhere rfl rfl rfl rfl) (.refl s)

theorem steady_storeCkpt (s : State) (ctx : Nat) (teams : List Saved) : Steady s (s.storeCkpt ctx teams).2 := by
  rw [State.storeCkpt, apply_ite Prod.snd]
  refine .ite (.refl s) ?_
  dsimp only
  rw [apply_ite Prod.snd]
  refine .ite ((steady_debugRecord _ _ _ _ _ _).after rfl rfl rfl rfl) ?_
  exact ((steady_putCells s _).trans (steady_clearDirty _ ctx _)).then_elsewhere rfl rfl rfl rfl

theorem steady_ckRecord (s : State) (ctx i : Nat) : Steady s (s.ckRecord ctx i) := by
  simp only [State.ckRecord]
  split
  · exact .refl s
  · exact steady_debugRecord s _ _ _ _ _

theorem steady_settleCkpt (s : State) (ctx : Nat) : Steady s (s.settleCkpt ctx) := by
  rw [State.settleCkpt]
  refine .ite (.refl s) ?_
  dsimp only
  split
  · refine Steady.trans ?_ (steady_ckRecord _ ctx _)
    exact (steady_storeCkpt s ctx _).then_elsewhere rfl rfl rfl rfl
  · exact (steady_storeCkpt s ctx _).then_elsewhere rfl rfl rfl rfl

end Sys2Proof.Machine
end

section
/-! PROOFS. The end of a team (R35, R45, R209). -/

namespace Sys2Proof.Machine

open Sys2Proof.Claim

/-- Nothing of a team is left among the strands, nor in a core. -/
structure TeamGone (tid core : Nat) (s : State) : Prop where
  strands : ∀ x ∈ s.strands, x.2.team ≠ tid
  bins : ∀ x ∈ (s.core core).bins, x.2.team ≠ tid
  mx : ∀ x ∈ (s.core core).mx, x.2.team ≠ tid
  cp : ∀ x ∈ (s.core core).cp, x.2.team ≠ tid
  drn : ∀ x ∈ (s.core core).drn, x.2.team ≠ tid

theorem Under.none {α : Type} {team : α → Nat} {l l' : NMap α} (h : Under team l l') {tid : Nat} (hl : ∀ x ∈ l, team x.2 ≠ tid) :
    ∀ x ∈ l', team x.2 ≠ tid := fun x hx =>
  let ⟨y, hy, hyx⟩ := h x hx
  hyx ▸ hl y hy

theorem TeamGone.steady {tid core : Nat} {s t : State} (h : TeamGone tid core s) (hst : Steady s t) : TeamGone tid core t :=
  ⟨hst.strands.none h.strands, (hst.core core).bins.none h.bins, (hst.core core).mx.none h.mx, (hst.core core).cp.none h.cp,
   (hst.core core).drn.none h.drn⟩

theorem not_mem_filter_team {α : Type} {team : α → Nat} {tid : Nat} {l : NMap α} :
    ∀ x ∈ l.filter (fun x => team x.2 != tid), team x.2 ≠ tid := fun x hx => by
  simpa using (List.mem_filter.1 hx).2

/-- What removing a team leaves. -/
theorem removeTeam_gone (s : State) (tid : Nat) : TeamGone tid (s.team tid).core (s.removeTeam tid) := by
  have hcore : ((s.removeTeam tid).core (s.team tid).core) = { ((s.endUnits tid).core (s.team tid).core).dropTeam tid with
      regs := { ((s.endUnits tid).core (s.team tid).core).regs with idleSince := (s.endUnits tid).cycle } } := by
    simp only [State.removeTeam, State.core, State.modCore, nget_nset_same, Option.getD_some]
  refine ⟨not_mem_filter_team, ?_, ?_, ?_, ?_⟩
  all_goals
    rw [hcore]
    exact not_mem_filter_team

theorem removeTeam_grids (s : State) (tid : Nat) : (s.removeTeam tid).grids = s.grids := by
  have hunits : (s.removeTeam tid).grids = (s.endUnits tid).grids := rfl
  rw [hunits, (steady_endUnits s tid).grids]

theorem mem_insertNat (x : Nat) (l : List Nat) : x ∈ insertNat x l := by
  induction l with
  | nil => exact List.mem_singleton.2 rfl
  | cons y ys ih =>
    simp only [insertNat]
    split
    · exact List.mem_cons_self
    · split
      · next h => rw [h]; exact List.mem_cons_self
      · exact List.mem_cons_of_mem _ ih

/-- A grid once its team has ended: the team is noted, and its tickets have passed on (R35, R209). -/
def endedGrid (g : Grid) (teamid : Nat) : Grid :=
  let h := { g with ended := insertNat teamid g.ended }
  { h with tickets := nall h.tickets fun _ k => if k.value = teamid then h.passed k else k }

/-- A team's queues are written back, its end is noted, its tickets pass on. -/
def State.ticketsPassed (s : State) (tid : Nat) : State :=
  let t := s.team tid
  let u := (s.writeBackAll tid).modGrid t.grid fun g => { g with ended := insertNat t.teamid g.ended }
  let v := u.modGrid t.grid fun g => { g with tickets := nall g.tickets fun _ k => if k.value = t.teamid then g.passed k else k }
  v.freePool (s.grid t.grid).ctx t.saveOff t.saveRes

/-- What it holds is gone, but for its place among the teams. -/
def State.endBegun (s : State) (tid : Nat) : State :=
  { (s.ticketsPassed tid).removeTeam tid with teams := (s.ticketsPassed tid).teams }

theorem endTeam_eq {s : State} {tid : Nat} (h : s.lastOfShare tid = none) : s.endTeam tid =
    let t := s.team tid
    let s' := s.endBegun tid
    let all := t.cluster.all fun k => !nhas s'.teams k || s'.hasEnded k
    (((if all then { s' with teams := s'.teams.filter fun x => !t.cluster.contains x.1 } else s').settleGrid t.grid).settleSlots).settleCkpt
      (s.grid t.grid).ctx := by
  simp only [State.endTeam, h]
  rfl

section
variable (s : State) (tid : Nat)

theorem ticketsPassed_team (i : Nat) : (s.ticketsPassed tid).team i = (s.writeBackAll tid).team i := rfl

theorem ticketsPassed_grids : (s.ticketsPassed tid).grids =
    nmod (nmod s.grids (s.team tid).grid fun g => { g with ended := insertNat (s.team tid).teamid g.ended }) (s.team tid).grid fun g =>
      { g with tickets := nall g.tickets fun _ k => if k.value = (s.team tid).teamid then g.passed k else k } := by
  rw [← (steady_writeBackAll s tid).grids]
  rfl

theorem endBegun_gone : TeamGone tid (s.team tid).core (s.endBegun tid) := by
  have h := removeTeam_gone (s.ticketsPassed tid) tid
  rw [ticketsPassed_team, (steady_writeBackAll s tid).home] at h
  exact ⟨h.strands, h.bins, h.mx, h.cp, h.drn⟩

variable {s tid} (hgrid : nhas s.grids (s.team tid).grid = true)
include hgrid

theorem endBegun_grid : (s.endBegun tid).grid (s.team tid).grid = endedGrid (s.grid (s.team tid).grid) (s.team tid).teamid := by
  have hend : (s.endBegun tid).grids = (s.ticketsPassed tid).grids := removeTeam_grids _ tid
  obtain ⟨g, hg⟩ := Option.isSome_iff_exists.1 hgrid
  simp only [State.grid, hend, ticketsPassed_grids, nget_nmod, if_true, hg, Option.map_some, Option.getD_some]
  rfl

theorem endBegun_hasEnded : (s.endBegun tid).hasEnded tid = true := by
  have hteam : (s.endBegun tid).team tid = (s.writeBackAll tid).team tid := rfl
  rw [State.hasEnded, hteam, (steady_writeBackAll s tid).grid, (steady_writeBackAll s tid).teamid, endBegun_grid hgrid]
  exact List.contains_iff_mem.2 (mem_insertNat _ _)

end

/-- Only the copy of TBASE is affected. -/
theorem settleGrid_grid (s : State) (i : Nat) :
    ((s.settleGrid i).grid i).ended = (s.grid i).ended ∧ ((s.settleGrid i).grid i).tickets = (s.grid i).tickets := by
  simp only [State.settleGrid]
  split
  · exact ⟨rfl, rfl⟩
  · simp only [State.grid, State.modGrid, nget_nmod, if_true]
    cases nget s.grids i <;> exact ⟨rfl, rfl⟩

theorem settleGrid_frame (s : State) (i : Nat) : s.settleGrid i = { s with grids := (s.settleGrid i).grids } := by
  simp only [State.settleGrid]
  split <;> rfl

theorem nhas_filter_not {α : Type} (m : NMap α) (i : Nat) : nhas (m.filter fun x => !([i].contains x.1)) i = false := by
  cases h : nget (m.filter fun x => !([i].contains x.1)) i with
  | none => rw [nhas, h]; rfl
  | some v =>
    have := (List.mem_filter.1 (mem_of_nget h)).2
    simp at this

theorem exec_teamEnd {s : State} {tid : Nat} (hargs : s.args = [tid]) : exec .teamEnd s = .next (s.teamEnd tid) := by
  have hexec : exec .teamEnd s = .next (s.teamEnd (s.arg 0)) := rfl
  rw [hexec, State.arg, hargs]
  rfl

theorem teamEnd_not_done {s : State} {tid : Nat} (h : s.teamDone tid = false) : s.teamEnd tid = s := by
  simp only [State.teamEnd, h, Bool.not_false, if_true]

theorem teamEnd_done {s : State} {tid : Nat} (h : s.teamDone tid = true)
    (hroom : ∀ k x, s.lastOfShare tid = some (k, x) → x.doneOff = none32 ∨ s.loop.postq.length < 1024 ∨ s.loop.st = .down) :
    s.teamEnd tid = s.endTeam tid := by
  simp only [State.teamEnd, h, Bool.not_true, Bool.false_eq_true, if_false]
  split
  · next k x hlast =>
    rw [if_neg]
    rintro ⟨hoff, hfull, hst⟩
    rcases hroom k x hlast with h | h | h
    · exact hoff h
    · omega
    · exact hst h
  · rfl

/-- What the end of a team that does not end a share leaves. -/
theorem endTeam_leaves {s : State} {tid : Nat} (hshare : s.lastOfShare tid = none) : TeamGone tid (s.team tid).core (s.endTeam tid) ∧
    (nhas s.grids (s.team tid).grid = true →
      ((s.endTeam tid).grid (s.team tid).grid).ended = insertNat (s.team tid).teamid (s.grid (s.team tid).grid).ended ∧
      ((s.endTeam tid).grid (s.team tid).grid).tickets = (endedGrid (s.grid (s.team tid).grid) (s.team tid).teamid).tickets ∧
      ((s.team tid).cluster = [tid] → nhas (s.endTeam tid).teams tid = false)) := by
  have heq := endTeam_eq hshare
  dsimp only at heq
  generalize hleft : (if ((s.team tid).cluster.all fun k => !nhas (s.endBegun tid).teams k || (s.endBegun tid).hasEnded k) = true then
    { s.endBegun tid with teams := (s.endBegun tid).teams.filter fun x => !(s.team tid).cluster.contains x.1 } else s.endBegun tid) = u at heq
  have hframe : u = { s.endBegun tid with teams := u.teams } := by
    rw [← hleft]
    split <;> rfl
  have hgone : TeamGone tid (s.team tid).core (u.settleGrid (s.team tid).grid) := by
    have h := endBegun_gone s tid
    rw [settleGrid_frame, hframe]
    exact ⟨h.strands, h.bins, h.mx, h.cp, h.drn⟩
  have hsteady : Steady (u.settleGrid (s.team tid).grid) (s.endTeam tid) := by
    rw [heq]
    exact (steady_settleSlots _).trans (steady_settleCkpt _ _)
  refine ⟨hgone.steady hsteady, fun hgrid => ?_⟩
  have hsettled := settleGrid_grid u (s.team tid).grid
  have hu : u.grid (s.team tid).grid = endedGrid (s.grid (s.team tid).grid) (s.team tid).teamid := by
    rw [← endBegun_grid hgrid, hframe]
    rfl
  have hend : (s.endTeam tid).grid (s.team tid).grid = (u.settleGrid (s.team tid).grid).grid (s.team tid).grid := by
    simp only [State.grid, hsteady.grids]
  rw [hend, hsettled.1, hsettled.2, hu]
  refine ⟨rfl, rfl, fun hcluster => ?_⟩
  have hteams : (u.settleGrid (s.team tid).grid).teams = u.teams := by rw [settleGrid_frame]
  rw [hsteady.has, hteams, ← hleft]
  simp only [hcluster, List.all_cons, List.all_nil, endBegun_hasEnded hgrid, Bool.or_true, Bool.and_true, if_true]
  exact nhas_filter_not _ tid

theorem teamEnd_ends (s : State) (tid : Nat) (hargs : s.args = [tid]) :
    (s.teamDone tid = false → exec .teamEnd s = .next s) ∧
    (s.teamDone tid = true →
      (∀ k x, s.lastOfShare tid = some (k, x) → x.doneOff = none32 ∨ s.loop.postq.length < 1024 ∨ s.loop.st = .down) →
      exec .teamEnd s = .next (s.endTeam tid)) ∧
    (s.teamDone tid = true → s.lastOfShare tid = none →
      let t := s.team tid
      let g := s.grid t.grid
      let c := s.ctx g.ctx
      ∃ u, exec .teamEnd s = .next u ∧
        (∀ x ∈ u.strands, x.2.team ≠ tid) ∧ (∀ x ∈ (u.core t.core).bins, x.2.team ≠ tid) ∧ (∀ x ∈ (u.core t.core).mx, x.2.team ≠ tid) ∧
        (∀ x ∈ (u.core t.core).cp, x.2.team ≠ tid) ∧ (∀ x ∈ (u.core t.core).drn, x.2.team ≠ tid) ∧
        (c.ck.taking = false → nhas s.grids t.grid = true → t.teamid ∈ (u.grid t.grid).ended ∧
          (∀ n k, nget g.tickets n = some k → nget (u.grid t.grid).tickets n =
            some (if k.value = t.teamid then { g with ended := insertNat t.teamid g.ended }.passed k else k)) ∧
          (t.cluster = [tid] → nhas u.teams tid = false))) := by
  rw [exec_teamEnd hargs]
  refine ⟨fun h => congrArg Host.Outcome.next (teamEnd_not_done h), fun h hroom => congrArg Host.Outcome.next (teamEnd_done h hroom),
    fun h hshare => ?_⟩
  intro t g c
  obtain ⟨hgone, hgrid⟩ := endTeam_leaves hshare
  refine ⟨_, congrArg Host.Outcome.next (teamEnd_done h fun k x hx => by rw [hshare] at hx; cases hx), hgone.strands, hgone.bins, hgone.mx,
    hgone.cp, hgone.drn, fun _ hhas => ?_⟩
  obtain ⟨hended, htickets, hcluster⟩ := hgrid hhas
  refine ⟨hended ▸ mem_insertNat _ _, fun n k hk => ?_, hcluster⟩
  rw [htickets]
  simp only [endedGrid, nget_nall]
  exact congrArg (Option.map _) hk

end Sys2Proof.Machine

open Sys2Proof Sys2Proof.Machine Sys2Proof.Claim

/-- Settles O48: the age timer, the launch, the compactor and the end of a team in turn. -/
theorem Sys2Proof.Machine.binsAndTeamsEnd : Obligations.BinsAndTeamsEnd :=
  ⟨fun _ _ _ _ hargs hbin => ⟨binAge_due hargs hbin, binAge_early hargs hbin⟩,
   fun _ _ _ _ _ hargs hsorted hbin hready hone hhalted hpto hslots hn hlow hfree =>
     binLaunch_launches hargs hsorted hbin hready hone hhalted hpto hslots hn hlow hfree,
   fun _ _ _ _ _ _ _ _ hargs hn hunits hnone hfirst hacc hstr hcore hsaving hframe hone hsorted hblock hbase =>
     compactorMove_moves hargs hn hunits hnone hfirst hacc hstr hcore hsaving hframe hone hsorted hblock hbase,
   teamEnd_ends⟩
end

section
/-! PROOFS. A clause that issues at a PC between two words, with a breakpoint four bytes on (R105, R413). -/

namespace Sys2Proof.Machine

open Sys2Proof.Claim

/-- A strand of one thread that is ready one byte after the header of its line's clause, and a breakpoint four bytes on, which lies one
byte after the clause's first word. -/
def betweenWords : State :=
  { (State.reset.lone 0).modStr 0 fun st => { st with lanes := [(0, { loneThread with st := .ready, pc := 0x20005 })] } with
    args := [0, 0]
    runs := []
    dbg := { State.reset.dbg with bps := [(0, { ord := loneThread.anchorOrd, off := 5, ctx := 0, en := true })] } }

/-- What the fetch of its clause's line gives. -/
def fetchedBetween : Except FetchErr (List Word) × State := (underWay betweenWords 0 [0] []).fetchLine 0 0x20000

/-- The line: its first word marks the clause of one word at word 1. -/
def lineBetween : List Word := [0x0101, loneHeader] ++ List.replicate 30 0

/-- The path at the clause's first word. -/
def pathBetween : RunPath := atFirst [0] 0x20000 lineBetween 1 1 false

theorem fetchedBetween_eq : fetchedBetween = (.ok lineBetween, fetchedBetween.2) := by
  have hline : fetchedBetween.1.toOption = some lineBetween := by decide +kernel
  rcases h : fetchedBetween with ⟨_ | line, t⟩
  · simp [h, Except.toOption] at hline
  · have : line = lineBetween := by simpa [h, Except.toOption] using hline
    rw [this]

/-- The strand may begin a clause there, and no breakpoint stands at the PC itself. -/
theorem betweenWords_mayIssue : betweenWords.mayIssue 0 false = true ∧
    (betweenWords.str 0).offer false (!(betweenWords.issuing 0).isEmpty) = some (0x20005, [0]) ∧
    betweenWords.bpMatch 0 [0] 0x20005 = none ∧ (betweenWords.str 0).bindErr = none := by
  decide +kernel

/-- The clause passes every check, none stands at its first word, and its header waits for nothing. -/
theorem fetchedBetween_passes : let t := fetchedBetween.2
    ((t.str 0).th 0).chk = none ∧ t.bpMatch 0 [0] pathBetween.wordPc = none ∧
    headerFails (t.str 0).isLead pathBetween.hdr.toNat = false ∧
    clauseFails (t.issueCtx 0) pathBetween.hdr.toNat (pathBetween.words.map BitVec.toNat) = none ∧
    t.maskHolds 0 0 = true ∧ (t.str 0).due [0] false false false = [] := by
  decide +kernel

/-- The breakpoint is looked for four bytes after the PC, and found: no path issues. -/
theorem clauseIssue_betweenWords : (betweenWords.clauseIssue 0 false []).runs.length = 0 := by
  decide +kernel

end Sys2Proof.Machine

open Sys2Proof Sys2Proof.Machine Sys2Proof.Claim

/-- Refutes O45: at a PC that is no multiple of four the breakpoint before a clause is looked for four bytes after the PC, and not at the
clause's first word, where the statement asks for none: one that stands there halts the context and the clause is not begun. -/
theorem Sys2Proof.Machine.not_waitsAndClauses : ¬ Obligations.WaitsAndClauses := by
  rintro ⟨-, hissue⟩
  obtain ⟨hmay, hoffer, hbp, hbind⟩ := betweenWords_mayIssue
  obtain ⟨hchk, hword, hhdr, hchecks, hmask, hdue⟩ := fetchedBetween_passes
  have hwaits : noMasks (betweenWords.str 0) := fun w hw => absurd hw List.not_mem_nil
  obtain ⟨-, hclause⟩ := (hissue betweenWords 0 false [] 0x20005 [0] rfl).2.2 hmay hoffer hbp hbind hwaits
  obtain ⟨hstart, -⟩ := hclause lineBetween fetchedBetween.2 1 fetchedBetween_eq (by decide +kernel) (by decide +kernel) (by decide)
    ⟨0, rfl, by decide +kernel⟩ (by simpa using hchk) hword hhdr hchecks
  obtain ⟨u, hu, hruns, -⟩ := hstart hmask hdue
  obtain rfl : betweenWords.clauseIssue 0 false [] = u := by injection hu
  exact absurd clauseIssue_betweenWords (by simp [hruns])
end

section
/-! PROOFS. What the codes of a binary format stand for, and which code a magnitude rounds to (R46, R56, R60). -/

namespace Sys2Proof.Machine

open Sys2Proof.Claim

/-! Exact values. -/

/-- The sign of a value as a factor. -/
def sg (s : Bool) : ℚ := if s then -1 else 1

@[simp] theorem sg_false : sg false = 1 := rfl
@[simp] theorem sg_true : sg true = -1 := rfl
theorem sg_mul_self (s : Bool) : sg s * sg s = 1 := by cases s <;> norm_num
theorem sg_bne (s t : Bool) : sg (s != t) = sg s * sg t := by cases s <;> cases t <;> norm_num
theorem abs_sg_mul (s : Bool) (x : ℚ) : |sg s * x| = |x| := by cases s <;> simp

@[simp] theorem num_fin (s : Bool) (n d : Nat) : num (.fin s n d) = some (sg s * (n / d)) := by
  simp only [num, sg, mul_div_assoc]
@[simp] theorem num_nan : num .nan = none := rfl
@[simp] theorem num_inf (s : Bool) : num (.inf s) = none := rfl

theorem num_eq_some {x : Ext} {v : ℚ} (h : num x = some v) : ∃ s n d, x = .fin s n d ∧ v = sg s * (n / d) := by
  cases x with
  | nan => simp at h
  | inf s => simp at h
  | fin s n d => exact ⟨s, n, d, rfl, by simpa using h.symm⟩

theorem num_scaled (s : Bool) (m : Nat) (e : Int) : num (scaled s m e) = some (sg s * (m * 2 ^ e)) := by
  unfold scaled
  split
  · next h =>
    obtain ⟨k, rfl⟩ := Int.eq_negSucc_of_lt_zero h
    simp [zpow_negSucc, div_eq_mul_inv]
  · next h =>
    obtain ⟨k, rfl⟩ := Int.eq_ofNat_of_zero_le (not_lt.1 h)
    simp

theorem scaled_eq_fin (s : Bool) (m : Nat) (e : Int) : ∃ n d, scaled s m e = .fin s n d ∧ 0 < d := by
  unfold scaled
  split
  · exact ⟨_, _, rfl, by positivity⟩
  · exact ⟨_, _, rfl, by positivity⟩

/-! Powers of two around a fraction. -/

theorem two_zpow_toNat {e : Int} (h : 0 ≤ e) : ((2 ^ e.natAbs : Nat) : ℚ) = 2 ^ e := by
  obtain ⟨k, rfl⟩ := Int.eq_ofNat_of_zero_le h
  simp

theorem two_zpow_neg {e : Int} (h : e < 0) : ((2 ^ e.natAbs : Nat) : ℚ) = (2 ^ e)⁻¹ := by
  obtain ⟨k, rfl⟩ := Int.eq_negSucc_of_lt_zero h
  simp [zpow_negSucc]

theorem log2_bounds {n : Nat} (h : 0 < n) : (2 : ℚ) ^ (Nat.log2 n : Int) ≤ n ∧ (n : ℚ) < 2 ^ ((Nat.log2 n : Int) + 1) := by
  have hlo : 2 ^ Nat.log2 n ≤ n := Nat.log2_self_le h.ne'
  have hhi : n < 2 ^ (Nat.log2 n + 1) := Nat.lt_log2_self
  constructor
  · rw [zpow_natCast]; exact_mod_cast hlo
  · have : ((Nat.log2 n : Int) + 1) = ((Nat.log2 n + 1 : Nat) : Int) := by push_cast; ring
    rw [this, zpow_natCast]; exact_mod_cast hhi

/-- `log2Frac` compares the fraction with 2^e for the difference e of the logarithms. -/
theorem log2Frac_eq (n d : Nat) (hd : 0 < d) : let e : Int := (Nat.log2 n : Int) - Nat.log2 d
    log2Frac n d = if (n / d : ℚ) < 2 ^ e then e - 1 else e := by
  intro e
  have hd' : (0 : ℚ) < d := by exact_mod_cast hd
  have hcond : (if e < 0 then n * 2 ^ e.natAbs < d else n < d * 2 ^ e.natAbs) ↔ (n / d : ℚ) < 2 ^ e := by
    have hpow : (0 : ℚ) < 2 ^ e := by positivity
    split
    · next h =>
      rw [← Nat.cast_lt (α := ℚ), Nat.cast_mul, two_zpow_neg h, ← div_eq_mul_inv, div_lt_iff₀ hpow, div_lt_iff₀ hd', mul_comm]
    · next h =>
      rw [← Nat.cast_lt (α := ℚ), Nat.cast_mul, two_zpow_toNat (not_lt.1 h), div_lt_iff₀ hd', mul_comm]
  unfold log2Frac
  by_cases h : e < 0
  · simp only [h, if_true] at hcond
    simp only [e] at h hcond
    simp [e, h, hcond]
  · simp only [h, if_false] at hcond
    simp only [e] at h hcond
    simp [e, h, hcond]

/-- `log2Frac` is the exponent of the binade of n / d. -/
theorem log2Frac_bounds {n d : Nat} (hn : 0 < n) (hd : 0 < d) :
    (2 : ℚ) ^ log2Frac n d ≤ n / d ∧ (n / d : ℚ) < 2 ^ (log2Frac n d + 1) := by
  obtain ⟨hnlo, hnhi⟩ := log2_bounds hn
  obtain ⟨hdlo, hdhi⟩ := log2_bounds hd
  have hd' : (0 : ℚ) < d := by exact_mod_cast hd
  have h2 : (2 : ℚ) ≠ 0 := by norm_num
  rw [log2Frac_eq n d hd]
  set a : Int := (Nat.log2 n : Int)
  set b : Int := (Nat.log2 d : Int)
  split
  · next h =>
    refine ⟨?_, by simpa using h⟩
    rw [le_div_iff₀ hd']
    calc (2 : ℚ) ^ (a - b - 1) * d ≤ 2 ^ (a - b - 1) * 2 ^ (b + 1) := by gcongr
      _ = 2 ^ a := by rw [← zpow_add₀ h2]; congr 1; ring
      _ ≤ n := hnlo
  · next h =>
    refine ⟨not_lt.1 h, ?_⟩
    rw [div_lt_iff₀ hd']
    calc (n : ℚ) < 2 ^ (a + 1) := hnhi
      _ = 2 ^ (a - b + 1) * 2 ^ b := by rw [← zpow_add₀ h2]; congr 1; ring
      _ ≤ 2 ^ (a - b + 1) * d := by gcongr

/-- The binade of a number is one. -/
theorem binade_unique {x : ℚ} {i j : Int} (hi : 2 ^ i ≤ x) (hi' : x < 2 ^ (i + 1)) (hj : 2 ^ j ≤ x) (hj' : x < 2 ^ (j + 1)) : i = j := by
  have h1 : i < j + 1 := (zpow_lt_zpow_iff_right₀ one_lt_two).1 (hi.trans_lt hj')
  have h2 : j < i + 1 := (zpow_lt_zpow_iff_right₀ one_lt_two).1 (hj.trans_lt hi')
  omega

/-- Quotient and remainder of n / d by 2^q. -/
theorem quantum_spec (n d : Nat) (q : Int) (hd : 0 < d) : let r := quantum n d q
    0 < r.2.2 ∧ r.2.1 < r.2.2 ∧ (n / d : ℚ) = (r.1 + r.2.1 / r.2.2) * 2 ^ q := by
  have split_div (a b : Nat) (hb : 0 < b) : (a / b : ℚ) = (a / b : Nat) + (a % b : Nat) / b := by
    have hb' : (b : ℚ) ≠ 0 := by positivity
    have h : (a : ℚ) = b * (a / b : Nat) + (a % b : Nat) := by exact_mod_cast (Nat.div_add_mod a b).symm
    field_simp
    linarith
  have hpow : (2 : ℚ) ^ q ≠ 0 := by positivity
  have hd' : (d : ℚ) ≠ 0 := by positivity
  unfold quantum
  by_cases h : q < 0
  · simp only [h, if_true]
    refine ⟨hd, Nat.mod_lt _ hd, ?_⟩
    rw [← split_div _ _ hd, Nat.cast_mul, two_zpow_neg h]
    field_simp
  · simp only [h, if_false]
    have hpos : 0 < d * 2 ^ q.natAbs := by positivity
    refine ⟨hpos, Nat.mod_lt _ hpos, ?_⟩
    rw [← split_div _ _ hpos, Nat.cast_mul, two_zpow_toNat (not_lt.1 h)]
    field_simp

/-! Rounding on a rising grid. -/

/-- Whether a mode steps up from the grid point below, at a fraction t of the way to the next. -/
def stepsUp (m : Rm) (neg odd : Bool) (t : ℚ) : Bool :=
  if t = 0 then false
  else match m with
    | .rne => decide (1 / 2 < t) || (decide (t = 1 / 2) && odd)
    | .rtz => false
    | .rdn => neg
    | .rup => !neg

theorem roundsUp_eq (m : Rm) (neg odd : Bool) (rem d : Nat) (hd : 0 < d) :
    roundsUp m neg odd rem d = stepsUp m neg odd (rem / d) := by
  have hd' : (0 : ℚ) < d := by exact_mod_cast hd
  have hzero : (rem / d : ℚ) = 0 ↔ rem = 0 := by simp [hd.ne']
  have hgt : (1 / 2 : ℚ) < rem / d ↔ 2 * rem > d := by
    rw [div_lt_div_iff₀ (by norm_num) hd', gt_iff_lt, ← Nat.cast_lt (α := ℚ)]; push_cast; constructor <;> intro h <;> linarith
  have heq : (rem / d : ℚ) = 1 / 2 ↔ 2 * rem = d := by
    rw [div_eq_div_iff hd'.ne' (by norm_num), ← Nat.cast_inj (R := ℚ)]; push_cast; constructor <;> intro h <;> linarith
  cases m <;> simp only [roundsUp, stepsUp, hzero, hgt, heq]

/-- A mode that takes the magnitude away from zero for a sign. -/
def Rm.away (m : Rm) (neg : Bool) : Bool :=
  match m with
  | .rdn => neg
  | .rup => !neg
  | _ => false

theorem stepsUp_directed {m : Rm} (hm : m ≠ .rne) (neg odd : Bool) (t : ℚ) :
    stepsUp m neg odd t = (decide (t ≠ 0) && m.away neg) := by
  by_cases ht : t = 0
  · simp [stepsUp, ht]
  · cases m
    · exact absurd rfl hm
    all_goals simp [stepsUp, ht, Rm.away]

section
variable {g : ℕ → ℚ} {c : ℕ} {x : ℚ}

/-- Where x lies between a grid point and the next, as a fraction. -/
def between (g : ℕ → ℚ) (c : ℕ) (x : ℚ) : ℚ := (x - g c) / (g (c + 1) - g c)

theorem between_eq_zero (hg : StrictMono g) : between g c x = 0 ↔ x = g c := by
  have hstep : g (c + 1) - g c ≠ 0 := (sub_pos.2 (hg c.lt_succ_self)).ne'
  rw [between, div_eq_zero_iff, or_iff_left hstep, sub_eq_zero]

theorem half_lt_between (hg : StrictMono g) : 1 / 2 < between g c x ↔ g c + g (c + 1) < 2 * x := by
  have hstep : 0 < g (c + 1) - g c := sub_pos.2 (hg c.lt_succ_self)
  rw [between, lt_div_iff₀ hstep]
  constructor <;> intro h <;> linarith

theorem between_eq_half (hg : StrictMono g) : between g c x = 1 / 2 ↔ 2 * x = g c + g (c + 1) := by
  have hstep : 0 < g (c + 1) - g c := sub_pos.2 (hg c.lt_succ_self)
  rw [between, div_eq_iff hstep.ne']
  constructor <;> intro h <;> linarith

/-- The grid point below x is the greatest that is not above it. -/
theorem le_floor_of_le (hg : StrictMono g) (hhi : x < g (c + 1)) {k : ℕ} (hk : g k ≤ x) : k ≤ c :=
  Nat.lt_succ_iff.1 (hg.lt_iff_lt.1 (hk.trans_lt hhi))

/-- A directed mode: the point below, or the least that is not below. -/
theorem grid_directed (hg : StrictMono g) (hlo : g c ≤ x) {m : Rm} (hm : m ≠ .rne) (neg odd : Bool) :
    let r := c + natOf (stepsUp m neg odd (between g c x))
    (m.away neg = false → r = c) ∧ (m.away neg = true → x ≤ g (c + 1) → x ≤ g r ∧ ∀ k, x ≤ g k → r ≤ k) := by
  rw [stepsUp_directed hm]
  refine ⟨fun h => by simp [h, natOf], fun h hhi => ?_⟩
  by_cases hx : x = g c
  · simp only [(between_eq_zero hg).2 hx, h]
    refine ⟨by simp [hx, natOf], fun k hk => hg.le_iff_le.1 ?_⟩
    simpa [natOf, ← hx] using hk
  · have ht : between g c x ≠ 0 := fun e => hx ((between_eq_zero hg).1 e)
    have hup : natOf (decide (between g c x ≠ 0) && m.away neg) = 1 := by simp [natOf, ht, h]
    rw [hup]
    refine ⟨hhi, fun k hk => ?_⟩
    have : g c < g k := (lt_of_le_of_ne hlo (Ne.symm hx)).trans_le hk
    exact hg.lt_iff_lt.1 this

/-- To nearest: no point is nearer, and on a tie `odd` decides. -/
theorem grid_nearest (hg : StrictMono g) (hlo : g c ≤ x) (hhi : x < g (c + 1)) (neg odd : Bool) :
    let r := c + natOf (stepsUp .rne neg odd (between g c x))
    (g c + g (c + 1) < 2 * x → r = c + 1) ∧ (2 * x < g c + g (c + 1) → r = c) ∧
    (2 * x = g c + g (c + 1) → r = if odd then c + 1 else c) := by
  have hup : stepsUp .rne neg odd (between g c x) = (decide (g c + g (c + 1) < 2 * x) || (decide (2 * x = g c + g (c + 1)) && odd)) := by
    by_cases hx : x = g c
    · have hstep : g c < g (c + 1) := hg c.lt_succ_self
      have h1 : ¬ (g c + g (c + 1) < 2 * x) := by rw [hx]; linarith
      have h2 : ¬ (2 * x = g c + g (c + 1)) := by rw [hx]; intro h; linarith
      simp [stepsUp, (between_eq_zero hg).2 hx, h1, h2]
    · have ht : between g c x ≠ 0 := fun e => hx ((between_eq_zero hg).1 e)
      simp only [stepsUp, ht, if_false, half_lt_between hg, between_eq_half hg]
  rw [hup]
  refine ⟨fun h => by simp [h, natOf], fun h => ?_, fun h => ?_⟩
  · simp [h.le, h.ne, natOf]
  · cases odd <;> simp [h, natOf]

/-- The point to nearest is as near as any, and one as near is the other of a tie. -/
theorem grid_nearest_le (hg : StrictMono g) (hlo : g c ≤ x) (hhi : x < g (c + 1)) (neg odd : Bool) :
    let r := c + natOf (stepsUp .rne neg odd (between g c x))
    ∀ k, |x - g r| ≤ |x - g k| ∧ (|x - g r| = |x - g k| → k ≠ r → 2 * x = g c + g (c + 1)) := by
  intro r k
  obtain ⟨hr1, hr2, hr3⟩ := grid_nearest hg hlo hhi neg odd
  have hbelow : |x - g c| = x - g c := abs_of_nonneg (by linarith)
  have habove : |x - g (c + 1)| = g (c + 1) - x := by rw [abs_sub_comm]; exact abs_of_pos (by linarith)
  have hside : (k ≤ c ∧ x - g c ≤ |x - g k| ∧ (x - g c = |x - g k| → k = c)) ∨
      (c + 1 ≤ k ∧ g (c + 1) - x ≤ |x - g k| ∧ (g (c + 1) - x = |x - g k| → k = c + 1)) := by
    rcases Nat.lt_or_ge c k with hk | hk
    · have hgk : g (c + 1) ≤ g k := hg.monotone hk
      have habs : |x - g k| = g k - x := by rw [abs_sub_comm]; exact abs_of_pos (by linarith)
      exact .inr ⟨hk, by linarith, fun h => (hg.injective (by linarith : g k = g (c + 1)))⟩
    · have hgk : g k ≤ g c := hg.monotone hk
      have habs : |x - g k| = x - g k := abs_of_nonneg (by linarith)
      exact .inl ⟨hk, by linarith, fun h => hg.injective (by linarith)⟩
  change |x - g r| ≤ |x - g k| ∧ (|x - g r| = |x - g k| → k ≠ r → _)
  rcases lt_trichotomy (2 * x) (g c + g (c + 1)) with h | h | h
  · have hr : r = c := hr2 h
    rw [hr, hbelow]
    rcases hside with ⟨-, hle, heq⟩ | ⟨-, hle, -⟩
    · exact ⟨hle, fun e hne => absurd (heq e) hne⟩
    · exact ⟨by linarith, fun e => by linarith⟩
  · refine ⟨?_, fun _ _ => h⟩
    have hr : |x - g r| = x - g c := by
      have : r = if odd then c + 1 else c := hr3 h
      rw [this]; cases odd
      · simpa using hbelow
      · simpa using habove.trans (by linarith)
    rcases hside with ⟨-, hle, -⟩ | ⟨-, hle, -⟩ <;> linarith
  · have hr : r = c + 1 := hr1 h
    rw [hr, habove]
    rcases hside with ⟨-, hle, -⟩ | ⟨-, hle, heq⟩
    · exact ⟨by linarith, fun e => by linarith⟩
    · exact ⟨hle, fun e hne => absurd (heq e) hne⟩

end

end Sys2Proof.Machine
end

section
namespace Sys2Proof.Machine

open Sys2Proof.Claim

/-! The magnitudes of a format (R46), in units of its smallest subnormal. -/

/-- The magnitude of a code without its sign, past the largest finite one too. -/
def Fmt.units (f : Fmt) (c : Nat) : Nat :=
  let h := 2 ^ (f.p - 1)
  if c / h = 0 then c % h else (h + c % h) * 2 ^ (c / h - 1)

def Fmt.mag (f : Fmt) (c : Nat) : ℚ := f.units c * 2 ^ f.qmin

theorem Fmt.units_lt_binade (f : Fmt) (e k : Nat) (hk : k < 2 * 2 ^ (f.p - 1)) (hn : e = 0 ∨ 2 ^ (f.p - 1) ≤ k) :
    f.units (e * 2 ^ (f.p - 1) + k) = k * 2 ^ e := by
  unfold Fmt.units
  set h := 2 ^ (f.p - 1) with hh
  have hpos : 0 < h := by positivity
  have hdiv : (e * h + k) / h = e + k / h := by rw [Nat.add_comm, Nat.add_mul_div_right _ _ hpos, Nat.add_comm]
  have hmod : (e * h + k) % h = k % h := by rw [Nat.add_comm, Nat.add_mul_mod_self_right]
  simp only [hdiv, hmod]
  rcases Nat.lt_or_ge k h with hlt | hge
  · have he : e = 0 := hn.resolve_right (by omega)
    simp [he, Nat.div_eq_of_lt hlt, Nat.mod_eq_of_lt hlt]
  · have hone : k / h = 1 := by rw [Nat.div_eq_iff hpos]; omega
    have hrest : h + k % h = k := by have := Nat.div_add_mod k h; rw [hone] at this; omega
    simp [hone, hrest]

/-- Codes of one binade, and the first of the next: k significant units of 2^e each. -/
theorem Fmt.units_binade (f : Fmt) (e k : Nat) (hk : k ≤ 2 * 2 ^ (f.p - 1)) (hn : e = 0 ∨ 2 ^ (f.p - 1) ≤ k) :
    f.units (e * 2 ^ (f.p - 1) + k) = k * 2 ^ e := by
  rcases Nat.lt_or_eq_of_le hk with hlt | rfl
  · exact f.units_lt_binade e k hlt hn
  · have hpos : 0 < 2 ^ (f.p - 1) := by positivity
    have hcode : e * 2 ^ (f.p - 1) + 2 * 2 ^ (f.p - 1) = (e + 1) * 2 ^ (f.p - 1) + 2 ^ (f.p - 1) := by ring
    rw [hcode, f.units_lt_binade (e + 1) _ (by omega) (.inr le_rfl)]
    ring

/-- Every code lies in a binade. -/
theorem Fmt.exists_binade (f : Fmt) (c : Nat) :
    ∃ e k, c = e * 2 ^ (f.p - 1) + k ∧ k < 2 * 2 ^ (f.p - 1) ∧ (e = 0 ∨ 2 ^ (f.p - 1) ≤ k) := by
  set h := 2 ^ (f.p - 1)
  have hpos : 0 < h := by positivity
  have hc : c / h * h + c % h = c := Nat.div_add_mod' c h
  have hlt : c % h < h := Nat.mod_lt _ hpos
  cases he : c / h with
  | zero => exact ⟨0, c % h, by rw [he] at hc; exact hc.symm, by omega, .inl rfl⟩
  | succ e => exact ⟨e, h + c % h, by rw [he] at hc; linarith, by omega, .inr (by omega)⟩

theorem Fmt.units_strictMono (f : Fmt) : StrictMono f.units := by
  refine strictMono_nat_of_lt_succ fun c => ?_
  obtain ⟨e, k, rfl, hk, hn⟩ := f.exists_binade c
  rw [f.units_binade e k hk.le hn, Nat.add_assoc, f.units_binade e (k + 1) hk (hn.imp_right fun h => by omega)]
  exact (Nat.mul_lt_mul_right (by positivity)).2 k.lt_succ_self

theorem Fmt.mag_strictMono (f : Fmt) : StrictMono f.mag := fun a b h => by
  have : (f.units a : ℚ) < f.units b := by exact_mod_cast f.units_strictMono h
  exact (mul_lt_mul_iff_left₀ (by positivity)).2 this

theorem Fmt.mag_zero (f : Fmt) : f.mag 0 = 0 := by simp [Fmt.mag, Fmt.units]
theorem Fmt.mag_nonneg (f : Fmt) (c : Nat) : 0 ≤ f.mag c := by unfold Fmt.mag; positivity
theorem Fmt.mag_eq_zero (f : Fmt) {c : Nat} : f.mag c = 0 ↔ c = 0 := by
  rw [← f.mag_zero, f.mag_strictMono.injective.eq_iff]

/-- The value a code has, by its magnitude. -/
theorem Fmt.value_finite (f : Fmt) {c : Nat} (h : c % 2 ^ (f.width - 1) ≤ f.maxFin) : ∃ n d, 0 < d ∧
    f.value c = .fin (bitOf c (f.width - 1)) n d ∧ (n / d : ℚ) = f.mag (c % 2 ^ (f.width - 1)) := by
  have of_scaled (m : Nat) (e : Int) (x : ℚ) (hx : (m * 2 ^ e : ℚ) = x) : ∃ n d, 0 < d ∧
      scaled (bitOf c (f.width - 1)) m e = .fin (bitOf c (f.width - 1)) n d ∧ (n / d : ℚ) = x := by
    obtain ⟨n, d, heq, hd⟩ := scaled_eq_fin (bitOf c (f.width - 1)) m e
    have hnum := num_scaled (bitOf c (f.width - 1)) m e
    rw [heq, num_fin, hx] at hnum
    refine ⟨n, d, hd, heq, mul_left_cancel₀ (a := sg (bitOf c (f.width - 1))) (fun h0 => ?_) (Option.some.inj hnum)⟩
    simpa [h0] using sg_mul_self (bitOf c (f.width - 1))
  simp only [Fmt.value, not_lt.2 h, if_false]
  set k := c % 2 ^ (f.width - 1)
  split
  · next he => exact of_scaled _ _ _ (by simp [Fmt.mag, Fmt.units, he])
  · next he =>
    refine of_scaled _ _ _ ?_
    obtain ⟨j, hj⟩ := Nat.exists_eq_succ_of_ne_zero he
    have hpow : f.qmin + ((j + 1 : Nat) : Int) - 1 = f.qmin + (j : Int) := by push_cast; ring
    simp only [Fmt.mag, Fmt.units, hj, Nat.succ_eq_add_one, Nat.add_sub_cancel, Nat.succ_ne_zero, if_false]
    rw [hpow, zpow_add₀ two_ne_zero, zpow_natCast]
    push_cast
    ring

theorem Fmt.value_special (f : Fmt) {c : Nat} (h : f.maxFin < c % 2 ^ (f.width - 1)) :
    f.value c = if f.hasInf && c % 2 ^ (f.width - 1) == f.maxFin + 1 then .inf (bitOf c (f.width - 1)) else .nan := by
  simp only [Fmt.value, gt_iff_lt, h, if_true]

/-! Codes with a sign. -/

/-- What every format of R46 and R71 satisfies: the codes past the largest finite one fit beside the sign. -/
structure Fmt.Ok (f : Fmt) : Prop where
  width : 2 ≤ f.width
  fits : f.maxFin < 2 ^ (f.width - 1)

section
variable {f : Fmt}

theorem Fmt.two_mul_half (hf : f.Ok) : 2 * 2 ^ (f.width - 1) = 2 ^ f.width := by
  rw [← Nat.pow_succ']; congr 1; have := hf.width; omega

theorem Fmt.signed_lt (hf : f.Ok) (s : Bool) {k : Nat} (hk : k < 2 ^ (f.width - 1)) : f.signed s k < 2 ^ f.width := by
  have := Fmt.two_mul_half hf
  cases s <;> simp only [Fmt.signed, natOf, if_true, Bool.false_eq_true, if_false] <;> omega

theorem Fmt.signed_mod (s : Bool) {k : Nat} (hk : k < 2 ^ (f.width - 1)) : f.signed s k % 2 ^ (f.width - 1) = k := by
  rw [Fmt.signed, Nat.add_comm, Nat.add_mul_mod_self_right, Nat.mod_eq_of_lt hk]

theorem Fmt.bitOf_signed (s : Bool) {k : Nat} (hk : k < 2 ^ (f.width - 1)) : bitOf (f.signed s k) (f.width - 1) = s := by
  have hpos : 0 < 2 ^ (f.width - 1) := by positivity
  rw [bitOf, Fmt.signed, Nat.add_comm, Nat.add_mul_div_right _ _ hpos, Nat.div_eq_of_lt hk]
  cases s <;> rfl

theorem Fmt.signed_bitOf (hf : f.Ok) {c : Nat} (hc : c < 2 ^ f.width) :
    f.signed (bitOf c (f.width - 1)) (c % 2 ^ (f.width - 1)) = c := by
  have hpos : 0 < 2 ^ (f.width - 1) := by positivity
  have hq : c / 2 ^ (f.width - 1) < 2 := by rw [Nat.div_lt_iff_lt_mul hpos, Fmt.two_mul_half hf]; exact hc
  have hbit : natOf (bitOf c (f.width - 1)) = c / 2 ^ (f.width - 1) := by
    unfold bitOf natOf
    interval_cases c / 2 ^ (f.width - 1) <;> rfl
  rw [Fmt.signed, hbit, Nat.div_add_mod']

theorem Fmt.signed_mod_two (hf : f.Ok) (s : Bool) (k : Nat) : f.signed s k % 2 = k % 2 := by
  obtain ⟨w, hw⟩ : ∃ w, f.width - 1 = w + 1 := ⟨f.width - 2, by have := hf.width; omega⟩
  rw [Fmt.signed, hw, Nat.pow_succ, ← Nat.mul_assoc, Nat.add_comm, Nat.add_mul_mod_self_right]

theorem Fmt.signed_zero (s : Bool) : f.signed s 0 = signBit f s := by
  cases s <;> simp [Fmt.signed, signBit, natOf]

theorem Fmt.signed_eq (s : Bool) (k : Nat) : f.signed s k = signBit f s + k := by
  cases s <;> simp [Fmt.signed, signBit, natOf]

/-- The value of a sign and a finite magnitude. -/
theorem Fmt.value_signed (hf : f.Ok) (s : Bool) {k : Nat} (hk : k ≤ f.maxFin) : ∃ n d, 0 < d ∧
    f.value (f.signed s k) = .fin s n d ∧ (n / d : ℚ) = f.mag k := by
  have hlt : k < 2 ^ (f.width - 1) := hk.trans_lt hf.fits
  have h := f.value_finite (c := f.signed s k) (by rw [Fmt.signed_mod s hlt]; exact hk)
  rwa [Fmt.signed_mod s hlt, Fmt.bitOf_signed s hlt] at h

theorem Fmt.num_value_signed (hf : f.Ok) (s : Bool) {k : Nat} (hk : k ≤ f.maxFin) :
    num (f.value (f.signed s k)) = some (sg s * f.mag k) := by
  obtain ⟨n, d, -, hv, hx⟩ := Fmt.value_signed hf s hk
  rw [hv, num_fin, hx]

/-- A code whose value is a number: its sign and magnitude. -/
theorem Fmt.mod_le_of_num {c : Nat} {v : ℚ} (h : num (f.value c) = some v) : c % 2 ^ (f.width - 1) ≤ f.maxFin := by
  by_contra hlt
  rw [f.value_special (not_le.1 hlt)] at h
  split at h <;> simp at h

theorem Fmt.has_iff (hf : f.Ok) (c : Nat) (v : ℚ) :
    has f c v ↔ ∃ s k, k ≤ f.maxFin ∧ c = f.signed s k ∧ v = sg s * f.mag k := by
  constructor
  · rintro ⟨hc, hv⟩
    have hk := Fmt.mod_le_of_num hv
    have hcode := Fmt.signed_bitOf hf hc
    refine ⟨_, _, hk, hcode.symm, ?_⟩
    rw [← hcode, Fmt.num_value_signed hf _ hk] at hv
    exact (Option.some.inj hv).symm
  · rintro ⟨s, k, hk, rfl, rfl⟩
    exact ⟨Fmt.signed_lt hf s (hk.trans_lt hf.fits), Fmt.num_value_signed hf s hk⟩

theorem Fmt.has_signed (hf : f.Ok) (s : Bool) {k : Nat} (hk : k ≤ f.maxFin) : has f (f.signed s k) (sg s * f.mag k) :=
  (Fmt.has_iff hf _ _).2 ⟨s, k, hk, rfl, rfl⟩

/-- A code of value zero has magnitude zero. -/
theorem Fmt.eq_zero_of_has_zero (hf : f.Ok) {s : Bool} {k : Nat} (hk : k ≤ f.maxFin) (h : has f (f.signed s k) 0) : k = 0 := by
  have h0 := h.2
  rw [Fmt.num_value_signed hf s hk, Option.some_inj, mul_eq_zero] at h0
  rcases h0 with h0 | h0
  · cases s <;> norm_num at h0
  · exact f.mag_eq_zero.1 h0

end

/-! The magnitude that a mode picks (R56). -/

/-- R56 past the largest finite magnitude. -/
def Fmt.clip (f : Fmt) (m : Rm) (neg : Bool) (c : Nat) : Option Nat :=
  if c ≤ f.maxFin then some c else if m = .rne ∨ m.away neg = true then none else some f.maxFin

/-- The magnitude code is that of the grid of magnitudes. -/
theorem Fmt.roundMag_eq (f : Fmt) (hp : 0 < f.p) (n : Nat) {d : Nat} (hd : 0 < d) : ∃ c, f.mag c ≤ n / d ∧ (n / d : ℚ) < f.mag (c + 1) ∧
    ∀ m neg, f.roundMag m neg n d =
      f.clip m neg (c + natOf (stepsUp m neg (c % 2 == 1 || c == f.maxFin) (between f.mag c (n / d)))) := by
  rcases Nat.eq_zero_or_pos n with rfl | hn
  · refine ⟨0, by simp [f.mag_zero], ?_, fun m neg => ?_⟩
    · simpa [f.mag_zero] using f.mag_strictMono Nat.zero_lt_one
    · have h0 : between f.mag 0 ((0 : Nat) / d) = 0 := by simp [between, f.mag_zero]
      rw [h0]
      simp [Fmt.roundMag, stepsUp, natOf, Fmt.clip]
  set h := 2 ^ (f.p - 1) with hh
  obtain ⟨hlo, hhi⟩ := log2Frac_bounds hn hd
  set q := max (log2Frac n d - ((f.p : Int) - 1)) f.qmin with hq
  obtain ⟨hd', hrem, hx⟩ := quantum_spec n d q hd
  set k := (quantum n d q).1 with hk
  set rem := (quantum n d q).2.1 with hr
  set d' := (quantum n d q).2.2 with hdd
  set e := (q - f.qmin).toNat with he
  have hqe : q = f.qmin + (e : Int) := by omega
  have hpow : (0 : ℚ) < 2 ^ q := by positivity
  have hd'' : (0 : ℚ) < d' := by exact_mod_cast hd'
  have hrem0 : (0 : ℚ) ≤ rem / d' := by positivity
  have hrem1 : (rem / d' : ℚ) < 1 := by rw [div_lt_one hd'']; exact_mod_cast hrem
  have hp' : ((2 * h : Nat) : ℚ) = 2 ^ (f.p : Int) := by
    rw [hh, ← Nat.pow_succ', zpow_natCast]; push_cast; congr 1; omega
  have hp'' : (h : ℚ) = 2 ^ ((f.p : Int) - 1) := by
    rw [hh]; push_cast; rw [← zpow_natCast]; congr 1; omega
  -- the quotient has no more than p bits, and p of them above the subnormal range
  have hk2 : k < 2 * h := by
    have : (k : ℚ) * 2 ^ q < 2 ^ (f.p : Int) * 2 ^ q := by
      calc (k : ℚ) * 2 ^ q ≤ (k + rem / d') * 2 ^ q := by gcongr; linarith
        _ = n / d := hx.symm
        _ < 2 ^ (log2Frac n d + 1) := hhi
        _ ≤ 2 ^ ((f.p : Int) + q) := zpow_le_zpow_right₀ one_le_two (by omega)
        _ = _ := zpow_add₀ two_ne_zero _ _
    rw [← hp'] at this
    exact_mod_cast lt_of_mul_lt_mul_right this hpow.le
  have hnorm : e = 0 ∨ h ≤ k := by
    rcases Nat.eq_zero_or_pos e with h0 | h0
    · exact .inl h0
    · refine .inr (Nat.lt_succ_iff.1 ?_)
      have hqlg : q = log2Frac n d - ((f.p : Int) - 1) := by omega
      have : (h : ℚ) * 2 ^ q < (k + 1) * 2 ^ q := by
        calc (h : ℚ) * 2 ^ q = 2 ^ log2Frac n d := by rw [hp'', ← zpow_add₀ two_ne_zero, hqlg]; congr 1; ring
          _ ≤ n / d := hlo
          _ = (k + rem / d') * 2 ^ q := hx
          _ < (k + 1) * 2 ^ q := by gcongr
      exact_mod_cast lt_of_mul_lt_mul_right this hpow.le
  have hmag (j : Nat) (hj : j ≤ 2 * h) (hn : e = 0 ∨ h ≤ j) : f.mag (e * h + j) = j * 2 ^ q := by
    rw [Fmt.mag, f.units_binade e j hj hn, hqe, zpow_add₀ two_ne_zero, zpow_natCast]; push_cast; ring
  have hmag0 := hmag k hk2.le hnorm
  have hmag1 : f.mag (e * h + k + 1) = (k + 1) * 2 ^ q := by
    rw [Nat.add_assoc, hmag (k + 1) hk2 (hnorm.imp_right fun hle => by omega)]; push_cast; ring
  have hfrac : between f.mag (e * h + k) (n / d) = rem / d' := by
    rw [between, hmag0, hmag1, hx]; field_simp; ring
  refine ⟨e * h + k, ?_, ?_, fun m neg => ?_⟩
  · rw [hmag0, hx]; gcongr; linarith
  · rw [hmag1, hx]; gcongr
  · rw [hfrac, ← roundsUp_eq _ _ _ _ _ hd']
    simp only [Fmt.roundMag, hn.ne', if_false, Fmt.clip]
    split
    · rfl
    · cases m <;> cases neg <;> simp [Rm.away]

end Sys2Proof.Machine
end

section
namespace Sys2Proof.Machine

open Sys2Proof.Claim

/-- Half way from the largest finite magnitude to the one that would follow it. -/
def Fmt.brink (f : Fmt) : ℚ := (f.mag f.maxFin + f.mag (f.maxFin + 1)) / 2

theorem Fmt.maxFin_lt_brink (f : Fmt) : f.mag f.maxFin < f.brink := by
  have := f.mag_strictMono f.maxFin.lt_succ_self
  unfold Fmt.brink; linarith

/-- No magnitude is nearer to x than r's, and where another is as near, r is even. -/
def Fmt.Nearest (f : Fmt) (x : ℚ) (r : Nat) : Prop :=
  ∀ k, |x - f.mag r| ≤ |x - f.mag k| ∧ (|x - f.mag r| = |x - f.mag k| → k ≠ r → r % 2 = 0)

theorem Fmt.roundMag_rne (f : Fmt) (hp : 0 < f.p) (neg : Bool) (n : Nat) {d : Nat} (hd : 0 < d) :
    (f.brink ≤ n / d ∧ f.roundMag .rne neg n d = none) ∨
    ((n / d : ℚ) < f.brink ∧ ∃ r ≤ f.maxFin, f.roundMag .rne neg n d = some r ∧ f.Nearest (n / d) r) := by
  obtain ⟨c, hlo, hhi, hround⟩ := f.roundMag_eq hp n hd
  rw [hround]
  set x : ℚ := n / d
  set odd := c % 2 == 1 || c == f.maxFin with hodd
  have hmono := f.mag_strictMono
  obtain ⟨hup, hdown, htie⟩ := grid_nearest hmono hlo hhi neg odd
  have hnear := grid_nearest_le hmono hlo hhi neg odd
  dsimp only at hup hdown htie hnear
  set r := c + natOf (stepsUp .rne neg odd (between f.mag c x)) with hr
  have hr_or : r = c ∨ r = c + 1 := by cases hs : stepsUp .rne neg odd (between f.mag c x) <;> simp [hr, hs, natOf]
  have hbrink : r ≤ f.maxFin ↔ x < f.brink := by
    rcases lt_trichotomy c f.maxFin with hc | hc | hc
    · have : f.mag (c + 1) ≤ f.mag f.maxFin := hmono.monotone hc
      exact iff_of_true (by omega) (by linarith [f.maxFin_lt_brink])
    · have hodd' : odd = true := by simp [hodd, hc]
      unfold Fmt.brink
      rw [← hc]
      rcases lt_trichotomy (2 * x) (f.mag c + f.mag (c + 1)) with h | h | h
      · exact iff_of_true (hdown h).le (by linarith)
      · exact iff_of_false (by rw [htie h, hodd']; simp) (by linarith)
      · exact iff_of_false (by rw [hup h]; simp) (by linarith)
    · have h1 : f.mag (f.maxFin + 1) ≤ f.mag c := hmono.monotone hc
      have h2 := hmono f.maxFin.lt_succ_self
      refine iff_of_false (by omega) ?_
      unfold Fmt.brink
      linarith
  by_cases hle : r ≤ f.maxFin
  · refine .inr ⟨hbrink.1 hle, r, hle, by simp [Fmt.clip, hle], fun k => ⟨(hnear k).1, fun he hk => ?_⟩⟩
    have h := htie ((hnear k).2 he hk)
    cases ho : odd
    · rw [ho] at h
      rw [hodd, Bool.or_eq_false_iff, beq_eq_false_iff_ne] at ho
      simp only [Bool.false_eq_true, if_false] at h
      omega
    · rw [ho] at h
      rw [hodd, Bool.or_eq_true, beq_iff_eq, beq_iff_eq] at ho
      simp only [if_true] at h
      omega
  · exact .inl ⟨not_lt.1 fun h => hle (hbrink.2 h), by simp [Fmt.clip, hle]⟩

theorem Fmt.roundMag_toward (f : Fmt) (hp : 0 < f.p) {m : Rm} {neg : Bool} (hm : m ≠ .rne) (haway : m.away neg = false)
    (n : Nat) {d : Nat} (hd : 0 < d) :
    ∃ r ≤ f.maxFin, f.roundMag m neg n d = some r ∧ f.mag r ≤ n / d ∧ ∀ k ≤ f.maxFin, f.mag k ≤ n / d → k ≤ r := by
  obtain ⟨c, hlo, hhi, hround⟩ := f.roundMag_eq hp n hd
  have hr := (grid_directed f.mag_strictMono hlo hm neg (c % 2 == 1 || c == f.maxFin)).1 haway
  rw [hround, hr]
  have hbelow {k : Nat} (hk : f.mag k ≤ n / d) : k ≤ c := le_floor_of_le f.mag_strictMono hhi hk
  by_cases hc : c ≤ f.maxFin
  · exact ⟨c, hc, by simp [Fmt.clip, hc], hlo, fun k _ hk => hbelow hk⟩
  · refine ⟨f.maxFin, le_rfl, by simp [Fmt.clip, hc, hm, haway], ?_, fun k hk _ => hk⟩
    exact (f.mag_strictMono.monotone (not_le.1 hc).le).trans hlo

theorem Fmt.roundMag_away (f : Fmt) (hp : 0 < f.p) {m : Rm} {neg : Bool} (haway : m.away neg = true)
    (n : Nat) {d : Nat} (hd : 0 < d) :
    (f.mag f.maxFin < n / d ∧ f.roundMag m neg n d = none) ∨
    ((n / d : ℚ) ≤ f.mag f.maxFin ∧ ∃ r ≤ f.maxFin, f.roundMag m neg n d = some r ∧ n / d ≤ f.mag r ∧ ∀ k, (n / d : ℚ) ≤ f.mag k → k ≥ r) := by
  have hm : m ≠ .rne := by rintro rfl; simp [Rm.away] at haway
  obtain ⟨c, hlo, hhi, hround⟩ := f.roundMag_eq hp n hd
  obtain ⟨hle, hleast⟩ := (grid_directed f.mag_strictMono hlo hm neg (c % 2 == 1 || c == f.maxFin)).2 haway hhi.le
  rw [hround]
  set r := c + natOf (stepsUp m neg (c % 2 == 1 || c == f.maxFin) (between f.mag c (n / d)))
  by_cases hr : r ≤ f.maxFin
  · exact .inr ⟨hle.trans (f.mag_strictMono.monotone hr), r, hr, by simp [Fmt.clip, hr], hle, hleast⟩
  · refine .inl ⟨not_le.1 fun h => hr (hleast _ h), by simp [Fmt.clip, hr, haway]⟩

/-! The code that a mode picks for a signed number (R56). -/

section
variable {f : Fmt} {s : Bool} {y : ℚ} {r : Nat}

/-- An exact value is its own pick. -/
theorem picks_of_eq {V : Nat → ℚ → Prop} {x : ℚ} {c : Nat} (h : V c x) (m : Rm) : picks V m x c := by
  have hbelow : below V x c := ⟨x, h, le_rfl, fun _ _ _ hle => hle⟩
  have habove : above V x c := ⟨x, h, le_rfl, fun _ _ _ hle => hle⟩
  cases m with
  | rne => exact ⟨x, h, fun c' v' _ => ⟨by simp, fun heq hne => absurd (by simpa [sub_eq_zero] using heq.symm) hne⟩⟩
  | rtz => simp only [picks]; split <;> assumption
  | rdn => exact hbelow
  | rup => exact habove

theorem Fmt.nearest_signed (hf : f.Ok) (hy : 0 ≤ y) (hr : r ≤ f.maxFin) (h : f.Nearest y r) : nearest (has f) (sg s * y) (f.signed s r) := by
  refine ⟨_, Fmt.has_signed hf s hr, fun c' v' hv => ?_⟩
  obtain ⟨s', k, -, -, rfl⟩ := (Fmt.has_iff hf c' v').1 hv
  obtain ⟨hle, htie⟩ := h k
  have hself : |sg s * y - sg s * f.mag r| = |y - f.mag r| := by rw [← mul_sub, abs_sg_mul]
  rw [hself]
  by_cases hs : s' = s
  · subst hs
    rw [← mul_sub, abs_sg_mul]
    refine ⟨hle, fun he hne => ?_⟩
    have hk : k ≠ r := fun e => hne (by rw [e])
    rw [evenCode, Fmt.signed_mod_two hf]
    exact htie he hk
  · have hopp : sg s' = -sg s := by cases s <;> cases s' <;> simp_all
    have habs : |sg s * y - sg s' * f.mag k| = y + f.mag k := by
      rw [hopp, neg_mul, sub_neg_eq_add, ← mul_add, abs_sg_mul, abs_of_nonneg (add_nonneg hy (f.mag_nonneg k))]
    have htri : |y - f.mag k| ≤ y + f.mag k := by
      rw [abs_le]; constructor <;> linarith [f.mag_nonneg k]
    rw [habs]
    refine ⟨hle.trans htri, fun he hne => ?_⟩
    rw [evenCode, Fmt.signed_mod_two hf]
    by_cases hk : k = r
    · subst hk
      have hzero : y * f.mag k = 0 := by
        rcases abs_cases (y - f.mag k) with ⟨h1, -⟩ | ⟨h1, -⟩
        · rw [h1] at he; have : f.mag k = 0 := by linarith
          rw [this, mul_zero]
        · rw [h1] at he; have : y = 0 := by linarith
          rw [this, zero_mul]
      have hmag : f.mag k = 0 := by
        rcases mul_eq_zero.1 hzero with h0 | h0
        · have := (h 0).1
          rw [f.mag_zero, h0] at this
          simpa using this
        · exact h0
      rw [f.mag_eq_zero.1 hmag]
    · exact htie (le_antisymm hle (htri.trans he.symm.le)) hk

/-- The greatest magnitude that is not above, with the sign. -/
theorem Fmt.toward_signed (hf : f.Ok) (hr : r ≤ f.maxFin) (hle : f.mag r ≤ y) (hmax : ∀ k ≤ f.maxFin, f.mag k ≤ y → k ≤ r) :
    if s then above (has f) (sg s * y) (f.signed s r) else below (has f) (sg s * y) (f.signed s r) := by
  have hv := Fmt.has_signed hf s hr
  cases s with
  | true =>
    refine ⟨_, hv, by simpa using hle, fun c' v' h hx => ?_⟩
    obtain ⟨s', k, hk, -, rfl⟩ := (Fmt.has_iff hf c' v').1 h
    cases s' with
    | true => simpa using f.mag_strictMono.monotone (hmax k hk (by simpa using hx))
    | false => simp only [sg_true, sg_false]; linarith [f.mag_nonneg k, f.mag_nonneg r]
  | false =>
    refine ⟨_, hv, by simpa using hle, fun c' v' h hx => ?_⟩
    obtain ⟨s', k, hk, -, rfl⟩ := (Fmt.has_iff hf c' v').1 h
    cases s' with
    | false => simpa using f.mag_strictMono.monotone (hmax k hk (by simpa using hx))
    | true => simp only [sg_true, sg_false]; linarith [f.mag_nonneg k, f.mag_nonneg r]

/-- The least magnitude that is not below, with the sign. -/
theorem Fmt.away_signed (hf : f.Ok) (hr : r ≤ f.maxFin) (hy : 0 ≤ y) (hle : y ≤ f.mag r) (hmin : ∀ k, y ≤ f.mag k → k ≥ r) :
    if s then below (has f) (sg s * y) (f.signed s r) else above (has f) (sg s * y) (f.signed s r) := by
  have hv := Fmt.has_signed hf s hr
  have hzero (k : Nat) (hk : f.mag k ≤ -y) : f.mag r ≤ 0 := by
    have h0 : y = 0 := le_antisymm (by linarith [f.mag_nonneg k]) hy
    have : r = 0 := Nat.le_zero.1 (hmin 0 (by rw [h0, f.mag_zero]))
    rw [this, f.mag_zero]
  cases s with
  | true =>
    refine ⟨_, hv, by simpa using hle, fun c' v' h hx => ?_⟩
    obtain ⟨s', k, hk, -, rfl⟩ := (Fmt.has_iff hf c' v').1 h
    cases s' with
    | true => simpa using f.mag_strictMono.monotone (hmin k (by simpa using hx))
    | false => simp only [sg_true, sg_false, neg_mul, one_mul] at hx ⊢; linarith [hzero k hx]
  | false =>
    refine ⟨_, hv, by simpa using hle, fun c' v' h hx => ?_⟩
    obtain ⟨s', k, hk, -, rfl⟩ := (Fmt.has_iff hf c' v').1 h
    cases s' with
    | false => simpa using f.mag_strictMono.monotone (hmin k (by simpa using hx))
    | true =>
      simp only [sg_true, sg_false, neg_mul, one_mul] at hx ⊢
      linarith [hzero k (by linarith), f.mag_nonneg k]

end

/-- R56: a mode overflows, or its magnitude with the sign is the pick. -/
theorem Fmt.roundMag_picks {f : Fmt} (hf : f.Ok) (hp : 0 < f.p) {top half : ℚ} (htop : f.mag f.maxFin = top) (hhalf : f.brink = top + half)
    (m : Rm) (s : Bool) (n : Nat) {d : Nat} (hd : 0 < d) :
    (overflows top half m (sg s * (n / d)) ∧ f.roundMag m s n d = none) ∨
    (¬overflows top half m (sg s * (n / d)) ∧ ∃ r ≤ f.maxFin, f.roundMag m s n d = some r ∧ picks (has f) m (sg s * (n / d)) (f.signed s r)) := by
  have hy : (0 : ℚ) ≤ n / d := by positivity
  have htop0 : 0 ≤ top := htop ▸ f.mag_nonneg _
  have habs : |sg s * (n / d : ℚ)| = n / d := by rw [abs_sg_mul, abs_of_nonneg hy]
  set y : ℚ := n / d
  have toward (hm : m ≠ .rne) (haway : m.away s = false) (hno : ¬overflows top half m (sg s * y))
      (hpick : ∀ c, (if s then above (has f) (sg s * y) c else below (has f) (sg s * y) c) → y ≠ 0 → picks (has f) m (sg s * y) c) :
      ∃ r ≤ f.maxFin, f.roundMag m s n d = some r ∧ picks (has f) m (sg s * y) (f.signed s r) := by
    obtain ⟨r, hr, hsome, hle, hmax⟩ := f.roundMag_toward hp hm haway n hd
    refine ⟨r, hr, hsome, ?_⟩
    by_cases h0 : y = 0
    · have hr0 : f.mag r = y := le_antisymm hle (h0 ▸ f.mag_nonneg r)
      exact picks_of_eq (hr0 ▸ Fmt.has_signed hf s hr) m
    · exact hpick _ (Fmt.toward_signed hf hr hle hmax) h0
  have away (haway : m.away s = true) (hover : overflows top half m (sg s * y) ↔ top < y)
      (hpick : ∀ c, (if s then below (has f) (sg s * y) c else above (has f) (sg s * y) c) → picks (has f) m (sg s * y) c) :
      (overflows top half m (sg s * y) ∧ f.roundMag m s n d = none) ∨
      (¬overflows top half m (sg s * y) ∧ ∃ r ≤ f.maxFin, f.roundMag m s n d = some r ∧ picks (has f) m (sg s * y) (f.signed s r)) := by
    rw [hover, ← htop]
    rcases f.roundMag_away hp haway n hd with ⟨hlt, hnone⟩ | ⟨hle, r, hr, hsome, hrle, hmin⟩
    · exact .inl ⟨hlt, hnone⟩
    · exact .inr ⟨not_lt.2 hle, r, hr, hsome, hpick _ (Fmt.away_signed hf hr hy hrle hmin)⟩
  cases m with
  | rne =>
    simp only [overflows, habs, ← hhalf]
    rcases f.roundMag_rne hp s n hd with ⟨hle, hnone⟩ | ⟨hlt, r, hr, hsome, hnear⟩
    · exact .inl ⟨hle, hnone⟩
    · exact .inr ⟨not_le.2 hlt, r, hr, hsome, Fmt.nearest_signed hf hy hr hnear⟩
  | rtz =>
    refine .inr ⟨id, toward (by decide) rfl id fun c hc h0 => ?_⟩
    have hpos : 0 < y := lt_of_le_of_ne hy (Ne.symm h0)
    cases s
    · simpa [picks, not_lt.2 hy] using hc
    · simpa [picks, hpos] using hc
  | rdn =>
    cases s with
    | true => exact away rfl (by simp [overflows]) fun c hc => hc
    | false =>
      have hno : ¬overflows top half .rdn (sg false * y) := by simp only [overflows, sg_false]; linarith
      exact .inr ⟨hno, toward (by decide) rfl hno fun c hc _ => hc⟩
  | rup =>
    cases s with
    | false => exact away rfl (by simp [overflows]) fun c hc => hc
    | true =>
      have hno : ¬overflows top half .rup (sg true * y) := by simp only [overflows, sg_true]; linarith
      exact .inr ⟨hno, toward (by decide) rfl hno fun c hc _ => hc⟩

end Sys2Proof.Machine
end

section
namespace Sys2Proof.Machine

open Sys2Proof.Claim

/-! The formats of R46 and R71. -/

/-- The largest finite magnitude of a format and half its last place. -/
theorem Fmt.mag_maxFin {f : Fmt} (e k : Nat) (hcode : f.maxFin = e * 2 ^ (f.p - 1) + k) (hk : k < 2 * 2 ^ (f.p - 1))
    (hn : 2 ^ (f.p - 1) ≤ k) : f.mag f.maxFin = k * 2 ^ (f.qmin + e) ∧ f.brink = k * 2 ^ (f.qmin + e) + 2 ^ (f.qmin + e) / 2 := by
  have hmag (j : Nat) (hj : j ≤ 2 * 2 ^ (f.p - 1)) (hnj : 2 ^ (f.p - 1) ≤ j) :
      f.mag (e * 2 ^ (f.p - 1) + j) = j * 2 ^ (f.qmin + e) := by
    rw [Fmt.mag, f.units_binade e j hj (.inr hnj), zpow_add₀ two_ne_zero, zpow_natCast]; push_cast; ring
  have h0 := hmag k hk.le hn
  have h1 := hmag (k + 1) hk (by omega)
  rw [← Nat.add_assoc, ← hcode] at h1
  rw [← hcode] at h0
  refine ⟨h0, ?_⟩
  rw [Fmt.brink, h0, h1]
  push_cast
  ring

/-- What the rounding of a format rests on: its codes fit, its largest finite value is `top`, with half an ulp of `half`. -/
structure Fmt.Rounds (f : Fmt) (top half : ℚ) : Prop where
  ok : f.Ok
  prec : 0 < f.p
  mag_top : f.mag f.maxFin = top
  brink_eq : f.brink = top + half

theorem Fmt.rounds_of {f : Fmt} {top half : ℚ} (e k : Nat) (hw : 2 ≤ f.width) (hfits : f.maxFin < 2 ^ (f.width - 1)) (hp : 0 < f.p)
    (hcode : f.maxFin = e * 2 ^ (f.p - 1) + k) (hk : k < 2 * 2 ^ (f.p - 1)) (hn : 2 ^ (f.p - 1) ≤ k)
    (htop : (k * 2 ^ (f.qmin + e) : ℚ) = top) (hhalf : (2 ^ (f.qmin + e) : ℚ) = 2 * half) : f.Rounds top half := by
  obtain ⟨h0, h1⟩ := Fmt.mag_maxFin e k hcode hk hn
  exact ⟨⟨hw, hfits⟩, hp, h0.trans htop, by rw [h1, htop, hhalf]; ring⟩

theorem Fmt.f32_rounds : Fmt.f32.Rounds ((2 ^ 24 - 1) * 2 ^ 104) (2 ^ 103) :=
  Fmt.rounds_of 253 (2 ^ 24 - 1) (by decide) (by decide) (by decide) (by decide) (by decide) (by decide)
    (by norm_num [Fmt.f32]) (by norm_num [Fmt.f32])
theorem Fmt.f16_rounds : Fmt.f16.Rounds 65504 16 :=
  Fmt.rounds_of 29 (2 ^ 11 - 1) (by decide) (by decide) (by decide) (by decide) (by decide) (by decide)
    (by norm_num [Fmt.f16]) (by norm_num [Fmt.f16])
theorem Fmt.bf16_rounds : Fmt.bf16.Rounds ((2 ^ 8 - 1) * 2 ^ 120) (2 ^ 119) :=
  Fmt.rounds_of 253 (2 ^ 8 - 1) (by decide) (by decide) (by decide) (by decide) (by decide) (by decide)
    (by norm_num [Fmt.bf16]) (by norm_num [Fmt.bf16])
theorem Fmt.e4m3_rounds : Fmt.e4m3.Rounds 448 16 :=
  Fmt.rounds_of 14 14 (by decide) (by decide) (by decide) (by decide) (by decide) (by decide)
    (by norm_num [Fmt.e4m3]) (by norm_num [Fmt.e4m3])
theorem Fmt.e5m2_rounds : Fmt.e5m2.Rounds 57344 4096 :=
  Fmt.rounds_of 29 7 (by decide) (by decide) (by decide) (by decide) (by decide) (by decide)
    (by norm_num [Fmt.e5m2]) (by norm_num [Fmt.e5m2])
theorem Fmt.e2m1_rounds : Fmt.e2m1.Rounds 6 1 :=
  Fmt.rounds_of 2 3 (by decide) (by decide) (by decide) (by decide) (by decide) (by decide)
    (by norm_num [Fmt.e2m1]) (by norm_num [Fmt.e2m1])
theorem Fmt.asum_rounds : Fmt.asum.Rounds ((2 ^ 30 - 1) * 2 ^ 482) (2 ^ 481) := by
  have hexp : Fmt.asum.qmin + ((1021 : Nat) : Int) = ((482 : Nat) : Int) := by decide
  refine Fmt.rounds_of 1021 (2 ^ 30 - 1) (by decide) (by decide) (by decide) (by decide) (by decide) (by decide) ?_ ?_
  · rw [hexp, zpow_natCast]; norm_num
  · rw [hexp, zpow_natCast, ← pow_succ']

theorem rounds_of_wide {f : Fmt} {top half : ℚ} (h : (f, top, half) ∈ wide) : f.Rounds top half := by
  simp only [wide, List.mem_cons, List.not_mem_nil, or_false] at h
  rcases h with ⟨rfl, rfl, rfl⟩ | ⟨rfl, rfl, rfl⟩ | ⟨rfl, rfl, rfl⟩ | ⟨rfl, rfl, rfl⟩
  exacts [Fmt.f32_rounds, Fmt.f16_rounds, Fmt.bf16_rounds, Fmt.asum_rounds]

/-! Rounding to nearest into a format (R60). -/

/-- The sign of a number other than zero. -/
theorem decide_sg_mul_neg (s : Bool) {y : ℚ} (hy : 0 < y) : decide (sg s * y < 0) = s := by
  cases s
  · simpa using hy.le
  · simpa using hy

section
variable {f : Fmt} {top half : ℚ} (hf : f.Rounds top half)
include hf

/-- Past the brink: the infinity of the sign; otherwise the nearest code. -/
theorem Fmt.Rounds.roundNE_cases (s : Bool) (n : Nat) {d : Nat} (hd : 0 < d) :
    (top + half ≤ n / d ∧ f.roundNE (.fin s n d) = f.signed s (f.maxFin + 1)) ∨
    ((n / d : ℚ) < top + half ∧ ∃ r ≤ f.maxFin, f.roundNE (.fin s n d) = f.signed s r ∧ f.Nearest (n / d) r) := by
  rw [← hf.brink_eq]
  rcases f.roundMag_rne hf.prec s n hd with ⟨hle, hnone⟩ | ⟨hlt, r, hr, hsome, hnear⟩
  · exact .inl ⟨hle, by simp [Fmt.roundNE, hnone]⟩
  · exact .inr ⟨hlt, r, hr, by simp [Fmt.roundNE, hsome], hnear⟩

theorem Fmt.Rounds.top_nonneg : 0 ≤ top := hf.mag_top ▸ f.mag_nonneg _

theorem Fmt.Rounds.half_pos : 0 < half := by
  have := f.maxFin_lt_brink
  rw [hf.brink_eq, hf.mag_top] at this
  linarith

theorem Fmt.Rounds.roundNE_roundsTo (s : Bool) (n : Nat) {d : Nat} (hd : 0 < d) :
    roundsTo f top half s (sg s * (n / d)) (f.roundNE (.fin s n d)) := by
  have hy : (0 : ℚ) ≤ n / d := by positivity
  have habs : |sg s * (n / d : ℚ)| = n / d := by rw [abs_sg_mul, abs_of_nonneg hy]
  unfold roundsTo
  rw [habs]
  rcases hf.roundNE_cases s n hd with ⟨hle, hcode⟩ | ⟨hlt, r, hr, hcode, hnear⟩
  · refine ⟨fun _ => ?_, fun hlt => absurd hle (not_le.2 hlt)⟩
    have hpos : (0 : ℚ) < n / d := by linarith [hf.top_nonneg, hf.half_pos]
    rw [hcode, decide_sg_mul_neg s hpos, Fmt.signed_eq]
  · refine ⟨fun hle => absurd hle (not_le.2 hlt), fun _ => ?_⟩
    rw [hcode]
    refine ⟨Fmt.nearest_signed hf.ok hy hr hnear, fun h0 => ?_⟩
    rw [Fmt.eq_zero_of_has_zero hf.ok hr h0, Fmt.signed_zero]

/-- A magnitude of the format is kept. -/
theorem Fmt.Rounds.roundNE_exact (s : Bool) {n d k : Nat} (hd : 0 < d) (hk : k ≤ f.maxFin) (h : (n / d : ℚ) = f.mag k) :
    f.roundNE (.fin s n d) = f.signed s k := by
  rcases hf.roundNE_cases s n hd with ⟨hle, -⟩ | ⟨-, r, -, hcode, hnear⟩
  · have h1 : f.mag k ≤ f.mag f.maxFin := f.mag_strictMono.monotone hk
    have h2 := f.maxFin_lt_brink
    rw [hf.brink_eq] at h2
    linarith
  · have h0 := (hnear k).1
    rw [h, sub_self, abs_zero, abs_nonpos_iff, sub_eq_zero] at h0
    rw [hcode, f.mag_strictMono.injective h0]

/-- Rounding the value of a code that is a number gives the code back. -/
theorem Fmt.Rounds.roundNE_of_num {c n d : Nat} {s : Bool} (hc : c < 2 ^ f.width) (hfin : c % 2 ^ (f.width - 1) ≤ f.maxFin)
    (hs : bitOf c (f.width - 1) = s) (hd : 0 < d) (h : (n / d : ℚ) = f.mag (c % 2 ^ (f.width - 1))) : f.roundNE (.fin s n d) = c := by
  rw [hf.roundNE_exact s hd hfin h, ← hs, Fmt.signed_bitOf hf.ok hc]

end

/-- Every code that is no NaN is what its value rounds to, where an infinity follows the finite values. -/
theorem Fmt.Rounds.roundNE_value {f : Fmt} {top half : ℚ} (hf : f.Rounds top half) {c : Nat} (hc : c < 2 ^ f.width)
    (hn : (f.value c).isNan = false) : f.roundNE (f.value c) = c := by
  by_cases hfin : c % 2 ^ (f.width - 1) ≤ f.maxFin
  · obtain ⟨n, d, hd, hv, hx⟩ := f.value_finite hfin
    rw [hv, hf.roundNE_of_num hc hfin rfl hd hx]
  · have hv := f.value_special (not_le.1 hfin)
    by_cases hinf : (f.hasInf && c % 2 ^ (f.width - 1) == f.maxFin + 1) = true
    · rw [hinf, if_pos rfl] at hv
      have hmag : c % 2 ^ (f.width - 1) = f.maxFin + 1 := by simpa using (Bool.and_eq_true_iff.1 hinf).2
      rw [hv, Fmt.roundNE, ← hmag, Fmt.signed_bitOf hf.ok hc]
    · rw [if_neg hinf] at hv
      simp [hv, Ext.isNan] at hn

end Sys2Proof.Machine
end

section
namespace Sys2Proof.Machine

open Sys2Proof.Claim

/-! FP32 registers. -/

theorem bitOf_msb (x : Word) : bitOf x.toNat 31 = x.msb := by
  rw [bitOf, BitVec.msb_eq_decide, Bool.eq_iff_iff]
  have := x.isLt
  simp only [beq_iff_eq, decide_eq_true_eq]
  omega

/-- An FP32 register holds a NaN, an infinity or a number, each with the register's sign. -/
theorem f32_cases (x : Word) : f32 x = .nan ∨ f32 x = .inf x.msb ∨ ∃ n d, 0 < d ∧ f32 x = .fin x.msb n d := by
  rw [← bitOf_msb, f32]
  by_cases hfin : x.toNat % 2 ^ (Fmt.f32.width - 1) ≤ Fmt.f32.maxFin
  · obtain ⟨n, d, hd, hv, -⟩ := Fmt.f32.value_finite hfin
    exact .inr (.inr ⟨n, d, hd, hv⟩)
  · rw [Fmt.f32.value_special (not_le.1 hfin)]
    split
    · exact .inr (.inl rfl)
    · exact .inl rfl

theorem f32_of_nanF {x : Word} (h : nanF x) : f32 x = .nan := by
  rcases f32_cases x with hx | hx | ⟨n, d, -, hx⟩
  · exact hx
  all_goals simp [nanF, hx, Ext.isNan] at h

theorem f32_of_number {x : Word} (hn : (f32 x).isNan = false) (hi : (f32 x).isInf = false) : ∃ n d, 0 < d ∧ f32 x = .fin x.msb n d := by
  rcases f32_cases x with hx | hx | hx
  · simp [hx, Ext.isNan] at hn
  · simp [hx, Ext.isInf] at hi
  · exact hx

theorem f32_of_zero {x : Word} (h : (f32 x).isZero = true) : ∃ d, f32 x = .fin x.msb 0 d := by
  rcases f32_cases x with hx | hx | ⟨n, d, -, hx⟩
  · simp [hx, Ext.isZero] at h
  · simp [hx, Ext.isZero] at h
  · obtain rfl : n = 0 := by simpa [hx, Ext.isZero] using h
    exact ⟨d, hx⟩

/-! The special values (R61 to R63). -/

@[simp] theorem Ext.nan_add (x : Ext) : Ext.nan.add x = .nan := by cases x <;> rfl
@[simp] theorem Ext.add_nan (x : Ext) : x.add .nan = .nan := by cases x <;> rfl
@[simp] theorem Ext.nan_mul (x : Ext) : Ext.nan.mul x = .nan := by cases x <;> rfl
@[simp] theorem Ext.mul_nan (x : Ext) : x.mul .nan = .nan := by cases x <;> rfl
@[simp] theorem Ext.nan_div (x : Ext) : Ext.nan.div x = .nan := by cases x <;> rfl
@[simp] theorem Ext.div_nan (x : Ext) : x.div .nan = .nan := by cases x <;> rfl

theorem Ext.add_comm (x y : Ext) : x.add y = y.add x := by
  cases x with
  | nan => simp
  | inf a =>
    cases y with
    | inf b => cases a <;> cases b <;> rfl
    | nan | fin => rfl
  | fin a n d =>
    cases y with
    | nan | inf => rfl
    | fin b m e =>
      simp only [Ext.add, Nat.mul_comm e d, eq_comm (a := b) (b := a), eq_comm (a := m * d) (b := n * e)]
      split
      · next h => rw [h, Nat.add_comm]
      · next h =>
        split
        · rfl
        · split
          · next hlt => rw [if_neg (by omega)]
          · next heq hlt => rw [if_pos (by omega)]

theorem Ext.mul_comm (x y : Ext) : x.mul y = y.mul x := by
  cases x with
  | nan => simp
  | inf a =>
    cases y with
    | nan => rfl
    | inf b => simp only [Ext.mul, bne_comm]
    | fin b m e => simp only [Ext.mul, bne_comm]
  | fin a n d =>
    cases y with
    | nan => rfl
    | inf b => simp only [Ext.mul, bne_comm]
    | fin b m e => simp only [Ext.mul, Nat.mul_comm, bne_comm]

theorem rne_nan : rne .nan = 0x7FC00000 := rfl
theorem rne_inf (s : Bool) : rne (.inf s) = if s then 0xFF800000 else 0x7F800000 := by cases s <;> rfl

theorem minmax_of_nan {f : Fmt} {a b : Nat} (h : (f.value a).isNan = true ∨ (f.value b).isNan = true) (w : Bool) :
    f.minmax w a b = f.nan := by
  rw [← Bool.or_eq_true] at h
  simp only [Fmt.minmax, h, if_true]

/-- R61, R62: a NaN operand of two. -/
theorem nan_operand (x y : Word) (h : nanF x ∨ nanF y) :
    rne ((f32 x).add (f32 y)) = 0x7FC00000 ∧ rne ((f32 x).add (f32 y).neg) = 0x7FC00000 ∧ rne ((f32 x).mul (f32 y)) = 0x7FC00000 ∧
    rne ((f32 x).div (f32 y)) = 0x7FC00000 ∧ Fmt.f32.minmax false x.toNat y.toNat = 0x7FC00000 ∧
    Fmt.f32.minmax true x.toNat y.toNat = 0x7FC00000 := by
  refine ⟨?_, ?_, ?_, ?_, minmax_of_nan h false, minmax_of_nan h true⟩
  all_goals rcases h with h | h <;> simp [f32_of_nanF h, Ext.neg, rne_nan]

/-- R61, R63: a NaN operand of one. -/
theorem nan_argument (x : Word) (h : nanF x) : rne (fsqrtExt (f32 x)) = 0x7FC00000 ∧ rne (frsqrtExt (f32 x)) = 0x7FC00000 ∧
    rne (fexp2Ext (f32 x)) = 0x7FC00000 ∧ rne (flog2Ext (f32 x)) = 0x7FC00000 ∧ rne (fsinpiExt (f32 x)) = 0x7FC00000 ∧
    rne (fcospiExt (f32 x)) = 0x7FC00000 ∧ rne (ftanhExt (f32 x)) = 0x7FC00000 := by
  rw [f32_of_nanF h]
  exact ⟨rfl, rfl, rfl, rfl, rfl, rfl, rfl⟩

/-- R63: a number over zero. -/
theorem div_by_zero (x y : Word) (hn : (f32 x).isNan = false) (hi : (f32 x).isInf = false) (hz : (f32 x).isZero = false)
    (hy : (f32 y).isZero = true) : rne ((f32 x).div (f32 y)) = if x.msb = y.msb then 0x7F800000 else 0xFF800000 := by
  obtain ⟨n, d, -, hx⟩ := f32_of_number hn hi
  obtain ⟨e, hy'⟩ := f32_of_zero hy
  have hn0 : n ≠ 0 := by simpa [hx, Ext.isZero] using hz
  have hdiv : (f32 x).div (f32 y) = .inf (x.msb != y.msb) := by simp [hx, hy', Ext.div, hn0]
  rw [hdiv, rne_inf]
  cases x.msb <;> cases y.msb <;> rfl

theorem zero_div_zero (x y : Word) (hx : (f32 x).isZero = true) (hy : (f32 y).isZero = true) : rne ((f32 x).div (f32 y)) = 0x7FC00000 := by
  obtain ⟨d, hx⟩ := f32_of_zero hx
  obtain ⟨e, hy⟩ := f32_of_zero hy
  rw [hx, hy]
  rfl

theorem inf_div_inf (x y : Word) (hx : (f32 x).isInf = true) (hy : (f32 y).isInf = true) : rne ((f32 x).div (f32 y)) = 0x7FC00000 := by
  cases hfx : f32 x with
  | inf a =>
    cases hfy : f32 y with
    | inf b => rfl
    | nan | fin => simp [hfy, Ext.isInf] at hy
  | nan | fin => simp [hfx, Ext.isInf] at hx

/-- R63: roots and logarithm of a negative operand. -/
theorem negative_argument (x : Word) (hs : x.msb = true) (hz : (f32 x).isZero = false) (hn : (f32 x).isNan = false) :
    rne (fsqrtExt (f32 x)) = 0x7FC00000 ∧ rne (frsqrtExt (f32 x)) = 0x7FC00000 ∧ rne (flog2Ext (f32 x)) = 0x7FC00000 := by
  rcases f32_cases x with hx | hx | ⟨n, d, -, hx⟩
  · simp [hx, Ext.isNan] at hn
  · rw [hx, hs]
    exact ⟨rfl, rfl, rfl⟩
  · have hn0 : n ≠ 0 := by simpa [hx, Ext.isZero] using hz
    rw [hx, hs]
    simp only [fsqrtExt, frsqrtExt, flog2Ext, hn0, if_false, if_true]
    exact ⟨rfl, rfl, rfl⟩

/-- R60 to R63: the special values. -/
theorem floatSpecialValues : FloatSpecialValues :=
  ⟨nan_operand, nan_argument, fun x y => ⟨by rw [Ext.add_comm], by rw [Ext.mul_comm]⟩, div_by_zero, zero_div_zero, inf_div_inf,
    negative_argument, by decide +kernel⟩

/-! Rounding keeps exact values (R46, R54). -/

theorem rne_f32 (x : Word) (h : ¬nanF x) : rne (f32 x) = x := by
  have hcode : Fmt.f32.roundNE (Fmt.f32.value x.toNat) = x.toNat := Fmt.f32_rounds.roundNE_value x.isLt (by simpa [nanF, f32] using h)
  rw [rne, f32, hcode, BitVec.ofNat_toNat, BitVec.setWidth_eq]

end Sys2Proof.Machine
end

section
namespace Sys2Proof.Machine

open Sys2Proof.Claim

/-! Numbers that a format holds exactly, and widening (R54). -/

/-- A number of no more than p significant bits, none below the smallest subnormal, is a magnitude. -/
theorem Fmt.exists_mag (f : Fmt) (hp : 0 < f.p) {m : Nat} {q : Int} (hm : m < 2 ^ f.p) (hq : f.qmin ≤ q) :
    ∃ c, f.mag c = m * 2 ^ q := by
  rcases Nat.eq_zero_or_pos m with rfl | hpos
  · exact ⟨0, by simp [f.mag_zero]⟩
  obtain ⟨e, rfl⟩ : ∃ e : Nat, q = f.qmin + e := ⟨(q - f.qmin).toNat, by omega⟩
  have hlog : Nat.log2 m < f.p := (Nat.log2_lt hpos.ne').2 hm
  have hlo : 2 ^ Nat.log2 m ≤ m := Nat.log2_self_le hpos.ne'
  have hhi : m < 2 ^ (Nat.log2 m + 1) := Nat.lt_log2_self
  have hpow : 2 * 2 ^ (f.p - 1) = 2 ^ f.p := by rw [← Nat.pow_succ']; congr 1; omega
  -- t places to the left, as far as the significand or the exponent allows
  set t := min e (f.p - 1 - Nat.log2 m) with ht
  have hlt : m * 2 ^ t < 2 * 2 ^ (f.p - 1) := by
    calc m * 2 ^ t < 2 ^ (Nat.log2 m + 1) * 2 ^ t := by gcongr
      _ = 2 ^ (Nat.log2 m + 1 + t) := (Nat.pow_add ..).symm
      _ ≤ 2 ^ f.p := Nat.pow_le_pow_right two_pos (by omega)
      _ = _ := hpow.symm
  have hnorm : e - t = 0 ∨ 2 ^ (f.p - 1) ≤ m * 2 ^ t := by
    rcases Nat.le_total e (f.p - 1 - Nat.log2 m) with h | h
    · exact .inl (by omega)
    · refine .inr ?_
      calc 2 ^ (f.p - 1) = 2 ^ Nat.log2 m * 2 ^ t := by rw [← Nat.pow_add]; congr 1; omega
        _ ≤ m * 2 ^ t := by gcongr
  refine ⟨(e - t) * 2 ^ (f.p - 1) + m * 2 ^ t, ?_⟩
  have hsum : t + (e - t) = e := by omega
  rw [Fmt.mag, f.units_binade _ _ hlt.le hnorm, Nat.mul_assoc, ← Nat.pow_add, hsum, zpow_add₀ two_ne_zero, zpow_natCast]
  push_cast
  ring

/-- A format whose numbers are FP32 numbers. -/
structure Fmt.Narrow (f : Fmt) (top half : ℚ) : Prop extends f.Rounds top half where
  prec_le : f.p ≤ 24
  qmin_ge : -149 ≤ f.qmin
  top_le : top ≤ (2 ^ 24 - 1) * 2 ^ 104

theorem Fmt.f16_narrow : Fmt.f16.Narrow 65504 16 :=
  { Fmt.f16_rounds with prec_le := by decide, qmin_ge := by decide, top_le := by norm_num }

theorem narrow_of_mem {f : Fmt} {top half : ℚ} {big past : Nat} (h : (f, top, half, big, past) ∈ narrow) : f.Narrow top half := by
  simp only [narrow, List.mem_cons, List.not_mem_nil, or_false] at h
  rcases h with ⟨rfl, rfl, rfl, rfl, rfl⟩ | ⟨rfl, rfl, rfl, rfl, rfl⟩ | ⟨rfl, rfl, rfl, rfl, rfl⟩ | ⟨rfl, rfl, rfl, rfl, rfl⟩ | ⟨rfl, rfl, rfl, rfl, rfl⟩
  · exact Fmt.f16_narrow
  · exact { Fmt.bf16_rounds with prec_le := by decide, qmin_ge := by decide, top_le := by norm_num }
  · exact { Fmt.e4m3_rounds with prec_le := by decide, qmin_ge := by decide, top_le := by norm_num }
  · exact { Fmt.e5m2_rounds with prec_le := by decide, qmin_ge := by decide, top_le := by norm_num }
  · exact { Fmt.e2m1_rounds with prec_le := by decide, qmin_ge := by decide, top_le := by norm_num }

/-- A magnitude of FP32 that is no more than the largest one is one of its codes. -/
theorem f32_exists_mag {m : Nat} {q : Int} (hm : m < 2 ^ 24) (hq : -149 ≤ q) (hle : (m * 2 ^ q : ℚ) ≤ (2 ^ 24 - 1) * 2 ^ 104) :
    ∃ j ≤ Fmt.f32.maxFin, Fmt.f32.mag j = m * 2 ^ q := by
  obtain ⟨j, hj⟩ := Fmt.f32.exists_mag (by decide) (m := m) (q := q) hm hq
  refine ⟨j, Fmt.f32.mag_strictMono.le_iff_le.1 ?_, hj⟩
  rw [hj, Fmt.f32_rounds.mag_top]
  exact hle

section
variable {f : Fmt} {top half : ℚ} (hf : f.Narrow top half)
include hf

theorem Fmt.Narrow.exists_f32_mag {k : Nat} (hk : k ≤ f.maxFin) : ∃ j ≤ Fmt.f32.maxFin, Fmt.f32.mag j = f.mag k := by
  obtain ⟨e, i, rfl, hi, hn⟩ := f.exists_binade k
  have hmag : f.mag (e * 2 ^ (f.p - 1) + i) = i * 2 ^ (f.qmin + e) := by
    rw [Fmt.mag, f.units_binade e i hi.le hn, zpow_add₀ two_ne_zero, zpow_natCast]; push_cast; ring
  have htop : f.mag (e * 2 ^ (f.p - 1) + i) ≤ top := hf.mag_top ▸ f.mag_strictMono.monotone hk
  have hi24 : i < 2 ^ 24 := by
    calc i < 2 * 2 ^ (f.p - 1) := hi
      _ = 2 ^ f.p := by rw [← Nat.pow_succ']; congr 1; have := hf.prec; omega
      _ ≤ 2 ^ 24 := Nat.pow_le_pow_right two_pos hf.prec_le
  rw [hmag] at htop ⊢
  exact f32_exists_mag hi24 (by have := hf.qmin_ge; omega) (htop.trans hf.top_le)

/-- Widening a number. -/
theorem Fmt.Narrow.widen_number {c : Nat} (hc : c % 2 ^ (f.width - 1) ≤ f.maxFin) : ∃ j ≤ Fmt.f32.maxFin,
    f.widen c = Fmt.f32.signed (bitOf c (f.width - 1)) j ∧ Fmt.f32.mag j = f.mag (c % 2 ^ (f.width - 1)) := by
  obtain ⟨n, d, hd, hv, hx⟩ := f.value_finite hc
  obtain ⟨j, hj, hmag⟩ := hf.exists_f32_mag hc
  exact ⟨j, hj, by rw [Fmt.widen, hv, Fmt.f32_rounds.roundNE_exact _ hd hj (hx.trans hmag.symm)], hmag⟩

/-- A format of infinities rounds a widened code back. -/
theorem Fmt.Narrow.roundNE_widen {c : Nat} (hc : c < 2 ^ f.width) (hn : (f.value c).isNan = false) :
    f.roundNE (Fmt.f32.value (f.widen c)) = c := by
  have hround := hf.roundNE_value hc hn
  by_cases hfin : c % 2 ^ (f.width - 1) ≤ f.maxFin
  · obtain ⟨j, hj, hcode, hmag⟩ := hf.widen_number hfin
    obtain ⟨n, d, hd, hv, hx⟩ := Fmt.value_signed Fmt.f32_rounds.ok (bitOf c (f.width - 1)) hj
    rw [hcode, hv]
    exact hf.roundNE_of_num hc hfin rfl hd (hx.trans hmag)
  · have hv := f.value_special (not_le.1 hfin)
    split at hv
    · have hinf (s : Bool) : Fmt.f32.value (Fmt.f32.roundNE (.inf s)) = .inf s := by cases s <;> decide
      rw [Fmt.widen, hv, hinf, ← hv, hround]
    · simp [hv, Ext.isNan] at hn

end

/-- BF16 is the upper half of FP32. -/
theorem mag_bf16 (k : Nat) : Fmt.f32.mag (k * 2 ^ 16) = Fmt.bf16.mag k := by
  obtain ⟨e, i, rfl, hi, hn⟩ := Fmt.bf16.exists_binade k
  simp only [Fmt.bf16] at hi hn
  have h0 := Fmt.bf16.units_binade e i (by simp only [Fmt.bf16]; omega) (by simp only [Fmt.bf16]; omega)
  have h1 := Fmt.f32.units_binade e (i * 2 ^ 16) (by simp only [Fmt.f32]; omega) (by simp only [Fmt.f32]; omega)
  have hcode : (e * 2 ^ (Fmt.bf16.p - 1) + i) * 2 ^ 16 = e * 2 ^ (Fmt.f32.p - 1) + i * 2 ^ 16 := by
    simp only [Fmt.bf16, Fmt.f32]; ring
  rw [hcode, Fmt.mag, Fmt.mag, h0, h1]
  have hq : (2 : ℚ) ^ Fmt.bf16.qmin = 2 ^ 16 * 2 ^ Fmt.f32.qmin := by norm_num [Fmt.bf16, Fmt.f32]
  rw [hq]
  push_cast
  ring

theorem widen_bf16 (c : Nat) (hc : c < 2 ^ 16) (hn : (Fmt.bf16.value c).isNan = false) : Fmt.bf16.widen c = c * 2 ^ 16 := by
  have hcode : Fmt.bf16.signed (bitOf c 15) (c % 2 ^ 15) = c := Fmt.signed_bitOf Fmt.bf16_rounds.ok hc
  have hsigned (s : Bool) (k : Nat) : Fmt.f32.signed s (k * 2 ^ 16) = Fmt.bf16.signed s k * 2 ^ 16 := by
    simp only [Fmt.signed, Fmt.f32, Fmt.bf16]; ring
  by_cases hfin : c % 2 ^ 15 ≤ Fmt.bf16.maxFin
  · obtain ⟨n, d, hd, hv, hx⟩ := Fmt.bf16.value_finite (c := c) hfin
    have hj : c % 2 ^ 15 * 2 ^ 16 ≤ Fmt.f32.maxFin := by simp only [Fmt.bf16, Fmt.f32] at hfin ⊢; omega
    rw [Fmt.widen, hv, Fmt.f32_rounds.roundNE_exact _ hd hj (hx.trans (mag_bf16 _).symm), hsigned]
    exact congrArg (· * 2 ^ 16) hcode
  · have hv := Fmt.bf16.value_special (c := c) (not_le.1 hfin)
    split at hv
    · next hinf =>
      have hmag : c % 2 ^ 15 = Fmt.bf16.maxFin + 1 := beq_iff_eq.1 (Bool.and_eq_true_iff.1 hinf).2
      rw [Fmt.widen, hv, Fmt.roundNE, ← hcode, hmag, Fmt.bitOf_signed _ (by decide), ← hsigned]
      rfl
    · simp [hv, Ext.isNan] at hn

/-- R46, R54: rounding the exact value of a code that is no NaN gives the code back; widening is exact. -/
theorem roundingKeepsExactValues : RoundingKeepsExactValues :=
  ⟨rne_f32, fun _ hc hn => Fmt.f16_narrow.roundNE_widen hc hn, widen_bf16⟩

end Sys2Proof.Machine

open Sys2Proof Sys2Proof.Machine Sys2Proof.Claim

/-- Settles O5: the special values case by case, the round trip from the magnitudes of a format being distinct grid points that
rounding to nearest keeps. -/
theorem Sys2Proof.Machine.floatValues : Obligations.FloatValues := ⟨floatSpecialValues, roundingKeepsExactValues⟩
end

section
/-! PROOFS. Rounding, minima, scaling and dot products by value (R46, R60 to R62, R152, R153). -/

namespace Sys2Proof.Machine

open Sys2Proof.Claim

/-! Exact sums, products and quotients (R60, R61). -/

section
variable (s t : Bool) (n m : Nat) {d e : Nat}

theorem num_add (hd : 0 < d) (he : 0 < e) : num ((Ext.fin s n d).add (.fin t m e)) = some (sg s * (n / d) + sg t * (m / e)) := by
  have hd' : (d : ℚ) ≠ 0 := by positivity
  have he' : (e : ℚ) ≠ 0 := by positivity
  have hsum : (n / d : ℚ) + m / e = (n * e + m * d) / (d * e) := by field_simp
  have hdiff : (n / d : ℚ) - m / e = (n * e - m * d) / (d * e) := by field_simp
  simp only [Ext.add]
  split
  · next h =>
    subst h
    rw [num_fin, ← mul_add, hsum]
    push_cast
    rfl
  · next h =>
    have hst : sg t = -sg s := by cases s <;> cases t <;> simp_all
    rw [hst, neg_mul, ← sub_eq_add_neg, ← mul_sub, hdiff]
    split
    · next heq =>
      have : (n * e : ℚ) = m * d := by exact_mod_cast heq
      simp [this]
    · split
      · next hlt =>
        rw [num_fin, Nat.cast_sub hlt.le]
        push_cast
        rfl
      · next hlt =>
        rw [num_fin, Nat.cast_sub (not_lt.1 hlt), hst]
        push_cast
        congr 1
        ring

theorem num_mul (d e : Nat) : num ((Ext.fin s n d).mul (.fin t m e)) = some (sg s * (n / d) * (sg t * (m / e))) := by
  simp only [Ext.mul, num_fin, sg_bne]
  push_cast
  congr 1
  rw [mul_div_mul_comm]
  ring

theorem num_div (d e : Nat) (hm : m ≠ 0) : num ((Ext.fin s n d).div (.fin t m e)) = some (sg s * (n / d) / (sg t * (m / e))) := by
  simp only [Ext.div, hm, if_false, num_fin, sg_bne]
  push_cast
  congr 1
  have hinv : (sg t)⁻¹ = sg t := inv_eq_of_mul_eq_one_left (sg_mul_self t)
  rw [mul_div_mul_comm, div_eq_mul_inv _ (sg t * _), mul_inv, hinv, inv_div]
  ring

theorem lt_iff (hd : 0 < d) (he : 0 < e) : (Ext.fin s n d).lt (.fin t m e) = true ↔ sg s * (n / d) < sg t * (m / e) := by
  have hd' : (0 : ℚ) < d := by exact_mod_cast hd
  have he' : (0 : ℚ) < e := by exact_mod_cast he
  rw [← mul_div_assoc, ← mul_div_assoc, div_lt_div_iff₀ hd' he']
  simp only [Ext.lt, decide_eq_true_eq]
  rw [← Int.cast_lt (R := ℚ)]
  cases s <;> cases t <;> simp

end

/-- Numbers whose sum and product are numbers. -/
theorem finite_fin (s : Bool) (n : Nat) {d : Nat} (hd : 0 < d) : finite (.fin s n d) := ⟨s, n, d, rfl, hd⟩

theorem finite_mul {x y : Ext} (hx : finite x) (hy : finite y) : finite (x.mul y) := by
  obtain ⟨s, n, d, rfl, hd⟩ := hx
  obtain ⟨t, m, e, rfl, he⟩ := hy
  exact finite_fin _ _ (Nat.mul_pos hd he)

theorem finite_add {x y : Ext} (hx : finite x) (hy : finite y) : finite (x.add y) := by
  obtain ⟨s, n, d, rfl, hd⟩ := hx
  obtain ⟨t, m, e, rfl, he⟩ := hy
  have hde := Nat.mul_pos hd he
  simp only [Ext.add]
  split
  · exact finite_fin _ _ hde
  · split
    · exact finite_fin _ _ hde
    · split <;> exact finite_fin _ _ hde

theorem num_of_finite {x : Ext} (hx : finite x) : num x = some ((num x).getD 0) := by
  obtain ⟨s, n, d, rfl, -⟩ := hx
  rfl

theorem num_add_eq {x y : Ext} (hx : finite x) (hy : finite y) {u v : ℚ} (hu : num x = some u) (hv : num y = some v) :
    num (x.add y) = some (u + v) := by
  obtain ⟨s, n, d, rfl, hd⟩ := hx
  obtain ⟨t, m, e, rfl, he⟩ := hy
  rw [num_add s t n m hd he]
  simp_all

theorem num_mul_eq {x y : Ext} {u v : ℚ} (hu : num x = some u) (hv : num y = some v) : num (x.mul y) = some (u * v) := by
  obtain ⟨s, n, d, rfl, rfl⟩ := num_eq_some hu
  obtain ⟨t, m, e, rfl, rfl⟩ := num_eq_some hv
  exact num_mul s t n m d e

/-! What a code stands for (R46). -/

theorem sign_factor {c w : Nat} (hc : c < 2 ^ w) (hw : 0 < w) : (if c / 2 ^ (w - 1) = 1 then (-1 : ℚ) else 1) = sg (bitOf c (w - 1)) := by
  have hq : c / 2 ^ (w - 1) < 2 := by
    rw [Nat.div_lt_iff_lt_mul (by positivity), ← Nat.pow_succ', Nat.succ_eq_add_one, Nat.sub_add_cancel hw]; exact hc
  unfold bitOf sg
  interval_cases c / 2 ^ (w - 1) <;> simp

/-- The value of a code by its fields: fraction bits, exponent and bias. -/
theorem Fmt.num_value_fields {f : Fmt} {fb : Nat} {b : ℤ} (hf : f.Ok) (hfb : f.p - 1 = fb) (hle : fb ≤ f.width - 1) (hq : f.qmin = 1 - b - fb)
    {c : Nat} (hc : c < 2 ^ f.width) (hfin : c % 2 ^ (f.width - 1) ≤ f.maxFin) :
    num (f.value c) = some ((if c / 2 ^ (f.width - 1) = 1 then (-1 : ℚ) else 1) *
      (let e := c / 2 ^ fb % 2 ^ (f.width - 1 - fb)
       if e = 0 then (c % 2 ^ fb : ℕ) / 2 ^ fb * (2 : ℚ) ^ (1 - b)
       else (1 + (c % 2 ^ fb : ℕ) / 2 ^ fb) * (2 : ℚ) ^ ((e : ℤ) - b))) := by
  obtain ⟨n, d, -, hv, hx⟩ := f.value_finite hfin
  rw [hv, num_fin, hx, sign_factor hc (by have := hf.width; omega)]
  have hsplit : 2 ^ (f.width - 1) = 2 ^ fb * 2 ^ (f.width - 1 - fb) := by rw [← Nat.pow_add]; congr 1; omega
  have hexp : c % 2 ^ (f.width - 1) / 2 ^ fb = c / 2 ^ fb % 2 ^ (f.width - 1 - fb) := by rw [hsplit, Nat.mod_mul_right_div_self]
  have hfrac : c % 2 ^ (f.width - 1) % 2 ^ fb = c % 2 ^ fb := by rw [hsplit, Nat.mod_mul_right_mod]
  have hunit (i : ℤ) : (2 : ℚ) ^ (i - b) = 2 ^ fb * 2 ^ (i - 1) * 2 ^ f.qmin := by
    rw [hq, ← zpow_natCast, ← zpow_add₀ two_ne_zero, ← zpow_add₀ two_ne_zero]; congr 1; ring
  have hpow : (2 : ℚ) ^ fb ≠ 0 := by positivity
  congr 2
  simp only [Fmt.mag, Fmt.units, hfb, hexp, hfrac]
  cases he : c / 2 ^ fb % 2 ^ (f.width - 1 - fb) with
  | zero =>
    simp only [if_true, hunit 1, sub_self, zpow_zero]
    field_simp
  | succ e =>
    simp only [Nat.succ_ne_zero, if_false, Nat.add_sub_cancel, hunit ((e + 1 : Nat) : ℤ)]
    push_cast
    rw [add_sub_cancel_right, zpow_natCast]
    field_simp

theorem value_of_layout {f : Fmt} {fb : Nat} {b : ℤ} (h : (f, fb, b) ∈ layouts) :
    f.Ok ∧ f.p - 1 = fb ∧ fb ≤ f.width - 1 ∧ f.qmin = 1 - b - fb := by
  simp only [layouts, List.mem_cons, List.not_mem_nil, or_false] at h
  rcases h with ⟨rfl, rfl, rfl⟩ | ⟨rfl, rfl, rfl⟩ | ⟨rfl, rfl, rfl⟩ | ⟨rfl, rfl, rfl⟩ | ⟨rfl, rfl, rfl⟩ | ⟨rfl, rfl, rfl⟩ | ⟨rfl, rfl, rfl⟩
  · exact ⟨Fmt.f32_rounds.ok, by decide⟩
  · exact ⟨Fmt.f16_rounds.ok, by decide⟩
  · exact ⟨Fmt.bf16_rounds.ok, by decide⟩
  · exact ⟨Fmt.e4m3_rounds.ok, by decide⟩
  · exact ⟨Fmt.e5m2_rounds.ok, by decide⟩
  · exact ⟨Fmt.e2m1_rounds.ok, by decide⟩
  · exact ⟨Fmt.asum_rounds.ok, by decide⟩

theorem factor_div (s : Bool) (n d : Nat) : (if s then -1 else 1) * (n : ℚ) / d = sg s * (n / d) := mul_div_assoc ..

/-- R46, R60, R61: values, rounding to nearest, exact operations. -/
theorem roundingValues : RoundingValues := by
  refine ⟨fun f fb b h c hc hfin => ?_, fun f top half h s n d hd => ?_, fun s t n d m e hd he => ?_⟩
  · obtain ⟨hf, hfb, hle, hq⟩ := value_of_layout h
    exact Fmt.num_value_fields hf hfb hle hq hc hfin
  · rw [factor_div]
    exact (rounds_of_wide h).roundNE_roundsTo s n hd
  · simp only [factor_div]
    exact ⟨num_add s t n m hd he, num_mul s t n m d e, num_div s t n m d e, lt_iff s t n m hd he⟩

/-! Minima and maxima (R62). -/

theorem Ext.lt_asymm {x y : Ext} (h : x.lt y = true) : y.lt x = false := by
  cases x with
  | nan => simp [Ext.lt] at h
  | inf a =>
    cases y with
    | nan => simp [Ext.lt] at h
    | inf b => cases a <;> cases b <;> simp_all [Ext.lt]
    | fin b m e => simpa [Ext.lt] using h
  | fin a n d =>
    cases y with
    | nan => simp [Ext.lt] at h
    | inf b => simpa [Ext.lt] using h
    | fin b m e =>
      simp only [Ext.lt, decide_eq_true_eq] at h
      simp only [Ext.lt, decide_eq_false_iff_not]
      omega

theorem Ext.lt_irrefl (x : Ext) : x.lt x = false := by
  by_contra h
  have hlt : x.lt x = true := by simpa using h
  simp [Ext.lt_asymm hlt] at hlt

/-- Zeros are not ordered by value. -/
theorem Ext.lt_of_isZero {x y : Ext} (hx : x.isZero = true) (hy : y.isZero = true) : x.lt y = false := by
  cases x with
  | fin a n d =>
    cases y with
    | fin b m e =>
      obtain rfl : n = 0 := by simpa [Ext.isZero] using hx
      obtain rfl : m = 0 := by simpa [Ext.isZero] using hy
      simp [Ext.lt]
    | nan | inf => simp [Ext.isZero] at hy
  | nan | inf => simp [Ext.isZero] at hx

/-- A code of value zero is a sign alone, and its value has that sign. -/
theorem Fmt.code_of_zero {f : Fmt} (hf : f.Ok) {c : Nat} (hc : c < 2 ^ f.width) (h : (f.value c).isZero = true) :
    c = if (f.value c).sign then signBit f true else 0 := by
  by_cases hfin : c % 2 ^ (f.width - 1) ≤ f.maxFin
  · obtain ⟨n, d, hd, hv, hx⟩ := f.value_finite hfin
    rw [hv] at h ⊢
    obtain rfl : n = 0 := by simpa [Ext.isZero] using h
    have hk : c % 2 ^ (f.width - 1) = 0 := f.mag_eq_zero.1 (by rw [← hx]; simp)
    have hcode := Fmt.signed_bitOf hf hc
    rw [hk, Fmt.signed_zero] at hcode
    calc c = signBit f (bitOf c (f.width - 1)) := hcode.symm
      _ = if bitOf c (f.width - 1) then signBit f true else 0 := by cases bitOf c (f.width - 1) <;> rfl
  · rw [f.value_special (not_le.1 hfin)] at h
    split at h <;> simp [Ext.isZero] at h

theorem minmax_values {f : Fmt} (hf : f.Ok) {a b : Nat} (ha : a < 2 ^ f.width) (hb : b < 2 ^ f.width) (hna : (f.value a).isNan = false)
    (hnb : (f.value b).isNan = false) (w : Bool) : let r := f.minmax w a b
      (r = a ∨ r = b) ∧
      (if w then (f.value r).lt (f.value a) = false ∧ (f.value r).lt (f.value b) = false
       else (f.value a).lt (f.value r) = false ∧ (f.value b).lt (f.value r) = false) ∧
      ((f.value a).isZero = true → (f.value b).isZero = true →
        r = if w then (if a = 0 ∨ b = 0 then 0 else signBit f true) else (if a = 0 ∧ b = 0 then 0 else signBit f true)) := by
  set x := f.value a with hx
  set y := f.value b with hy
  have hnonzero : signBit f true ≠ 0 := by simp [signBit]
  -- the first comes first exactly where its value is less, or both are zeros and it is -0
  set first := x.lt y || (x.isZero && y.isZero && x.sign) with hfirst
  have hr : f.minmax w a b = if first = w then b else a := by
    simp only [Fmt.minmax, ← hx, ← hy, hna, hnb, Bool.or_false, Bool.false_eq_true, if_false, beq_iff_eq, hfirst]
  have hnot : first = false → x.lt y = false := fun h => (Bool.or_eq_false_iff.1 h).1
  have hyes : first = true → y.lt x = false := fun h => by
    rcases Bool.or_eq_true_iff.1 h with h | h
    · exact Ext.lt_asymm h
    · simp only [Bool.and_eq_true] at h
      exact Ext.lt_of_isZero h.1.2 h.1.1
  dsimp only
  rw [hr]
  refine ⟨by split <;> simp, ?_, fun hza hzb => ?_⟩
  · cases hw : w <;> cases hfv : first <;>
      simp only [if_true, Bool.false_eq_true, if_false, Bool.true_eq_false, ← hx, ← hy, Ext.lt_irrefl, true_and, and_true]
    exacts [hnot hfv, hyes hfv, hnot hfv, hyes hfv]
  · have hfs : first = x.sign := by rw [hfirst, Ext.lt_of_isZero hza hzb, hza, hzb]; simp
    have ha0 : a = if x.sign then signBit f true else 0 := Fmt.code_of_zero hf ha hza
    have hb0 : b = if y.sign then signBit f true else 0 := Fmt.code_of_zero hf hb hzb
    rw [hfs]
    cases hxs : x.sign <;> cases hys : y.sign <;> simp only [hxs, hys, if_true, Bool.false_eq_true, if_false] at ha0 hb0 <;>
      cases w <;> simp [ha0, hb0, hnonzero]

end Sys2Proof.Machine
end

section
namespace Sys2Proof.Machine

open Sys2Proof.Claim

/-! Scaling (R152). -/

/-- An FP32 register that holds a number: its sign and magnitude. -/
theorem f32_number {v : Word} {x : ℚ} (h : num (f32 v) = some x) : ∃ n d k, 0 < d ∧ f32 v = .fin v.msb n d ∧
    k ≤ Fmt.f32.maxFin ∧ (n / d : ℚ) = Fmt.f32.mag k ∧ v.toNat = Fmt.f32.signed v.msb k ∧ x = sg v.msb * (n / d) := by
  have hk := Fmt.mod_le_of_num h
  obtain ⟨n, d, hd, hv, hx⟩ := Fmt.f32.value_finite hk
  have hs : bitOf v.toNat (Fmt.f32.width - 1) = v.msb := bitOf_msb v
  rw [hs] at hv
  have hnum := h
  rw [f32, hv, num_fin, Option.some_inj] at hnum
  have hcode := Fmt.signed_bitOf Fmt.f32_rounds.ok v.isLt
  rw [hs] at hcode
  exact ⟨n, d, _, hd, hv, hk, hx, hcode.symm, hnum.symm⟩

/-- A magnitude below half the smallest subnormal is nearest zero. -/
theorem Fmt.nearest_zero (f : Fmt) {y : ℚ} (hy : 0 ≤ y) (h : 2 * y ≤ f.mag 1) : f.Nearest y 0 := by
  refine fun k => ⟨?_, fun _ _ => rfl⟩
  rw [f.mag_zero, sub_zero, abs_of_nonneg hy]
  rcases Nat.eq_zero_or_pos k with rfl | hk
  · simp [f.mag_zero, abs_of_nonneg hy]
  · have : f.mag 1 ≤ f.mag k := f.mag_strictMono.monotone hk
    rw [abs_sub_comm, abs_of_nonneg (by linarith)]
    linarith

theorem Fmt.Rounds.roundNE_small {f : Fmt} {top half : ℚ} (hf : f.Rounds top half) (hpos : f.mag 1 ≤ top) (s : Bool) {n d : Nat} (hd : 0 < d)
    (h : 2 * (n / d : ℚ) < f.mag 1) : f.roundNE (.fin s n d) = f.signed s 0 := by
  have hy : (0 : ℚ) ≤ n / d := by positivity
  rcases hf.roundNE_cases s n hd with ⟨hle, -⟩ | ⟨-, r, -, hcode, hnear⟩
  · linarith [hf.half_pos]
  · have h0 := (hnear 0).1
    rw [f.mag_zero, sub_zero, abs_of_nonneg hy] at h0
    have hlt : f.mag r < f.mag 1 := by linarith [neg_abs_le (n / d - f.mag r : ℚ)]
    rw [hcode, Nat.lt_one_iff.1 (f.mag_strictMono.lt_iff_lt.1 hlt)]

theorem f32_mag_one : Fmt.f32.mag 1 = 2 ^ (-149 : ℤ) := by
  have hunits : Fmt.f32.units 1 = 1 := by decide
  rw [Fmt.mag, hunits, Nat.cast_one, one_mul]
  rfl

/-- Rounding agrees for two numbers of a sign that are both past the largest finite one, or both far below the smallest subnormal. -/
theorem f32_roundsTo_far {s : Bool} {n d : Nat} (hd : 0 < d) {y : ℚ}
    (h : ((2 ^ 24 - 1) * 2 ^ 104 + 2 ^ 103 ≤ (n / d : ℚ) ∧ (2 ^ 24 - 1) * 2 ^ 104 + 2 ^ 103 ≤ y) ∨
      (0 ≤ y ∧ 2 * y < 2 ^ (-149 : ℤ) ∧ 2 * (n / d : ℚ) < 2 ^ (-149 : ℤ))) :
    roundsTo Fmt.f32 ((2 ^ 24 - 1) * 2 ^ 104) (2 ^ 103) s (sg s * y) (Fmt.f32.roundNE (.fin s n d)) := by
  unfold roundsTo
  rcases h with ⟨hx, hy⟩ | ⟨hy0, hy, hx⟩
  · have hpos : 0 < y := lt_of_lt_of_le (by norm_num) hy
    rw [abs_sg_mul, abs_of_pos hpos]
    refine ⟨fun _ => ?_, fun hlt => absurd hy (not_le.2 hlt)⟩
    rcases Fmt.f32_rounds.roundNE_cases s n hd with ⟨-, hcode⟩ | ⟨hlt, -⟩
    · rw [hcode, decide_sg_mul_neg s hpos, Fmt.signed_eq]
    · exact absurd hx (not_le.2 hlt)
  · rw [abs_sg_mul, abs_of_nonneg hy0]
    have hsmall : (2 : ℚ) ^ (-149 : ℤ) ≤ (2 ^ 24 - 1) * 2 ^ 104 := by norm_num
    have hcode := Fmt.f32_rounds.roundNE_small (f32_mag_one ▸ hsmall) s hd (f32_mag_one ▸ hx)
    refine ⟨fun hle => ?_, fun _ => ?_⟩
    · have : (0 : ℚ) < 2 ^ 103 := by positivity
      linarith
    · rw [hcode]
      exact ⟨Fmt.nearest_signed Fmt.f32_rounds.ok hy0 (Nat.zero_le _) (Fmt.f32.nearest_zero hy0 (f32_mag_one ▸ hy.le)),
        fun _ => Fmt.signed_zero s⟩

/-- The exponent of `fscl` is held between -1,000 and 1,000. -/
theorem fsclCode_number {a n d : Nat} {s : Bool} (h : Fmt.f32.value a = .fin s n d) (hd : 0 < d) (b : ℤ) :
    ∃ n' d', 0 < d' ∧ fsclCode a b = Fmt.f32.roundNE (.fin s n' d') ∧ (n' / d' : ℚ) = n / d * 2 ^ max (-1000) (min 1000 b) := by
  simp only [fsclCode, h]
  set e : ℤ := max (-1000) (min 1000 b)
  split
  · next he =>
    refine ⟨n, d * 2 ^ e.natAbs, by positivity, rfl, ?_⟩
    rw [Nat.cast_mul, two_zpow_neg he]
    field_simp
  · next he =>
    refine ⟨n * 2 ^ e.natAbs, d, hd, rfl, ?_⟩
    rw [Nat.cast_mul, two_zpow_toNat (not_lt.1 he)]
    ring

theorem fscl_number {v : Word} {x : ℚ} (b : ℤ) (h : num (f32 v) = some x) :
    roundsTo Fmt.f32 ((2 ^ 24 - 1) * 2 ^ 104) (2 ^ 103) v.msb (x * (2 : ℚ) ^ b) (fsclCode v.toNat b) := by
  obtain ⟨n, d, k, hd, hv, hk, hmag, -, rfl⟩ := f32_number h
  obtain ⟨n', d', hd', hcode, hx⟩ := fsclCode_number hv hd b
  rw [hcode, mul_assoc]
  have hexact (hb : (n / d * 2 ^ b : ℚ) = n' / d') :
      roundsTo Fmt.f32 ((2 ^ 24 - 1) * 2 ^ 104) (2 ^ 103) v.msb (sg v.msb * (n / d * 2 ^ b)) (Fmt.f32.roundNE (.fin v.msb n' d')) := by
    rw [hb]; exact Fmt.f32_rounds.roundNE_roundsTo v.msb n' hd'
  rcases Nat.eq_zero_or_pos k with rfl | hk0
  · rw [Fmt.mag_zero] at hmag
    exact hexact (by rw [hx, hmag, zero_mul, zero_mul])
  have hlo : (2 : ℚ) ^ (-149 : ℤ) ≤ n / d := by rw [hmag, ← f32_mag_one]; exact Fmt.f32.mag_strictMono.monotone hk0
  have hhi : (n / d : ℚ) ≤ 2 ^ (128 : ℤ) := by
    have : Fmt.f32.mag k ≤ (2 ^ 24 - 1) * 2 ^ 104 := Fmt.f32_rounds.mag_top ▸ Fmt.f32.mag_strictMono.monotone hk
    rw [hmag]
    exact this.trans (by norm_num)
  by_cases hbig : 1000 < b
  · refine f32_roundsTo_far hd' (.inl ?_)
    have hover (i : ℤ) (hi : 1000 ≤ i) : (2 ^ 24 - 1) * 2 ^ 104 + 2 ^ 103 ≤ (n / d * 2 ^ i : ℚ) := by
      calc ((2 ^ 24 - 1) * 2 ^ 104 + 2 ^ 103 : ℚ) ≤ 2 ^ (128 : ℤ) := by norm_num
        _ ≤ 2 ^ (-149 + i) := zpow_le_zpow_right₀ one_le_two (by omega)
        _ = 2 ^ (-149 : ℤ) * 2 ^ i := zpow_add₀ two_ne_zero _ _
        _ ≤ n / d * 2 ^ i := by gcongr
    rw [hx]
    exact ⟨hover _ (by omega), hover b (by omega)⟩
  · by_cases hsmall : b < -1000
    · refine f32_roundsTo_far hd' (.inr ?_)
      have hunder (i : ℤ) (hi : i ≤ -1000) : 2 * (n / d * 2 ^ i : ℚ) < 2 ^ (-149 : ℤ) := by
        calc 2 * (n / d * 2 ^ i : ℚ) ≤ 2 * (2 ^ (128 : ℤ) * 2 ^ i) := by gcongr
          _ = 2 ^ (129 + i) := by rw [← zpow_add₀ two_ne_zero, ← zpow_one_add₀ two_ne_zero]; congr 1; ring
          _ < 2 ^ (-149 : ℤ) := zpow_lt_zpow_right₀ one_lt_two (by omega)
      rw [hx]
      exact ⟨by positivity, hunder b (by omega), hunder _ (by omega)⟩
    · have : max (-1000) (min 1000 b) = b := by omega
      exact hexact (by rw [hx, this])

theorem f32_inf_code {v : Word} {s : Bool} (h : f32 v = .inf s) : v.toNat = Fmt.f32.roundNE (.inf s) := by
  have hn : (Fmt.f32.value v.toNat).isNan = false := by rw [← f32, h]; rfl
  rw [← h, f32, Fmt.f32_rounds.roundNE_value v.isLt hn]

/-- R152: `fscl` by value. -/
theorem fscl_values (v b : Word) : (nanF v → fsclCode v.toNat (sInt b) = 0x7FC00000) ∧
    (∀ s, f32 v = .inf s → fsclCode v.toNat (sInt b) = v.toNat) ∧
    (∀ x, num (f32 v) = some x →
      roundsTo Fmt.f32 ((2 ^ 24 - 1) * 2 ^ 104) (2 ^ 103) v.msb (x * (2 : ℚ) ^ sInt b) (fsclCode v.toNat (sInt b))) := by
  refine ⟨fun hn => ?_, fun s hs => ?_, fun x hx => fscl_number _ hx⟩
  · have : Fmt.f32.value v.toNat = .nan := f32_of_nanF hn
    simp only [fsclCode, this]
    rfl
  · have : Fmt.f32.value v.toNat = .inf s := hs
    simp only [fsclCode, this]
    exact (f32_inf_code hs).symm

/-! The dot product (R153). -/

/-- An exact zero with a sign; any other value as it is. -/
def Ext.zeroSigned (neg : Bool) : Ext → Ext
  | .fin _ 0 e => .fin neg 0 e
  | t => t

theorem Ext.zeroSigned_of_ne (neg s : Bool) {n : Nat} (h : n ≠ 0) (d : Nat) : Ext.zeroSigned neg (.fin s n d) = .fin s n d := by
  cases n with
  | zero => exact absurd rfl h
  | succ n => rfl

/-- The products of the lower and the upper halves, and whether every term of the sum is a negative zero. -/
theorem fdot2Code_eq (a b z : Word) : let x := (Fmt.bf16.value (lo16 a)).mul (Fmt.bf16.value (lo16 b))
    let y := (Fmt.bf16.value (hi16 a)).mul (Fmt.bf16.value (hi16 b))
    fdot2Code a.toNat b.toNat z.toNat = Fmt.f32.roundNE (((x.add y).add (f32 z)).zeroSigned
      ((x.isZero && x.sign) && (y.isZero && y.sign) && ((f32 z).isZero && (f32 z).sign))) := by
  have hhi (w : Word) : w.toNat / 65536 % 65536 = hi16 w := Nat.mod_eq_of_lt (by have := w.isLt; omega)
  have hlo (w : Word) : w.toNat % 65536 = lo16 w := rfl
  have hz : Fmt.f32.value z.toNat = f32 z := rfl
  simp only [fdot2Code, hhi, hlo, hz, List.all_cons, List.all_nil, Bool.and_true, ← Bool.and_assoc]
  congr 1

theorem bf16_number {c : Nat} {x : ℚ} (hv : num (Fmt.bf16.value c) = some x) :
    ∃ n d, 0 < d ∧ Fmt.bf16.value c = .fin (bitOf c 15) n d ∧ x = sg (bitOf c 15) * (n / d) := by
  obtain ⟨n, d, hd, heq, -⟩ := Fmt.bf16.value_finite (Fmt.mod_le_of_num hv)
  have h15 : Fmt.bf16.width - 1 = 15 := rfl
  rw [h15] at heq
  rw [heq, num_fin, Option.some_inj] at hv
  exact ⟨n, d, hd, heq, hv.symm⟩

theorem bitOf_lo16 (a : Word) : bitOf (lo16 a) 15 = a.getLsbD 15 := by
  rw [bitOf, lo16, BitVec.getLsbD, Nat.testBit_eq_decide_div_mod_eq, Bool.eq_iff_iff, beq_iff_eq, decide_eq_true_eq]
  omega

theorem bitOf_hi16 (a : Word) : bitOf (hi16 a) 15 = a.msb := by
  rw [← bitOf_msb, bitOf, bitOf, hi16, Nat.div_div_eq_div_mul, ← Nat.pow_add]

theorem sg_div_eq_zero (s : Bool) (n : Nat) {d : Nat} (hd : 0 < d) : sg s * (n / d : ℚ) = 0 ↔ n = 0 := by
  cases s <;> simp [hd.ne']

/-- A product of numbers that is a negative zero. -/
theorem negZero_mul (s t : Bool) (n m : Nat) {d e : Nat} (hd : 0 < d) (he : 0 < e) :
    let p := (Ext.fin s n d).mul (.fin t m e)
    (p.isZero && p.sign) = (decide (sg s * (n / d : ℚ) * (sg t * (m / e)) = 0) && (s != t)) := by
  simp only [Ext.mul, Ext.isZero, Ext.sign, mul_eq_zero (a := sg s * (n / d : ℚ)), sg_div_eq_zero s n hd, sg_div_eq_zero t m he]
  congr 1
  rw [Bool.eq_iff_iff]
  simp

theorem negZero_f32 (z : Word) : ((f32 z).isZero && (f32 z).sign) = decide (z = 0x80000000) := by
  rw [Bool.eq_iff_iff, Bool.and_eq_true, decide_eq_true_eq]
  constructor
  · rintro ⟨hz, hs⟩
    have hcode := Fmt.code_of_zero Fmt.f32_rounds.ok z.isLt hz
    rw [← f32, hs, if_pos rfl] at hcode
    exact BitVec.eq_of_toNat_eq (hcode.trans rfl)
  · rintro rfl
    decide

theorem fdot2_number (a b z : Word) (x₀ y₀ x₁ y₁ w : ℚ)
    (hx₀ : num (Fmt.bf16.value (lo16 a)) = some x₀) (hy₀ : num (Fmt.bf16.value (lo16 b)) = some y₀)
    (hx₁ : num (Fmt.bf16.value (hi16 a)) = some x₁) (hy₁ : num (Fmt.bf16.value (hi16 b)) = some y₁) (hw : num (f32 z) = some w) :
    let x := w + x₀ * y₀ + x₁ * y₁
    roundsTo Fmt.f32 ((2 ^ 24 - 1) * 2 ^ 104) (2 ^ 103)
      (if x = 0 then decide (z = 0x80000000 ∧ x₀ * y₀ = 0 ∧ x₁ * y₁ = 0) && (a.getLsbD 15 != b.getLsbD 15) && (a.msb != b.msb)
       else decide (x < 0)) x (fdot2Code a.toNat b.toNat z.toNat) := by
  intro x
  obtain ⟨n₀, d₀, hd₀, ha₀, rfl⟩ := bf16_number hx₀
  obtain ⟨m₀, e₀, he₀, hb₀, rfl⟩ := bf16_number hy₀
  obtain ⟨n₁, d₁, hd₁, ha₁, rfl⟩ := bf16_number hx₁
  obtain ⟨m₁, e₁, he₁, hb₁, rfl⟩ := bf16_number hy₁
  obtain ⟨n, d, -, hd, hz, -, -, -, rfl⟩ := f32_number hw
  have hneg₀ := negZero_mul (bitOf (lo16 a) 15) (bitOf (lo16 b) 15) n₀ m₀ hd₀ he₀
  have hneg₁ := negZero_mul (bitOf (hi16 a) 15) (bitOf (hi16 b) 15) n₁ m₁ hd₁ he₁
  have hprod₀ := num_mul_eq hx₀ hy₀
  have hprod₁ := num_mul_eq hx₁ hy₁
  have hfin₀ : finite ((Fmt.bf16.value (lo16 a)).mul (Fmt.bf16.value (lo16 b))) := by
    rw [ha₀, hb₀]; exact finite_mul (finite_fin _ _ hd₀) (finite_fin _ _ he₀)
  have hfin₁ : finite ((Fmt.bf16.value (hi16 a)).mul (Fmt.bf16.value (hi16 b))) := by
    rw [ha₁, hb₁]; exact finite_mul (finite_fin _ _ hd₁) (finite_fin _ _ he₁)
  have hfin : finite (f32 z) := hz ▸ finite_fin _ _ hd
  have hvalue := num_add_eq (finite_add hfin₀ hfin₁) hfin (num_add_eq hfin₀ hfin₁ hprod₀ hprod₁) hw
  obtain ⟨s, N, D, hsum, hD⟩ := finite_add (finite_add hfin₀ hfin₁) hfin
  rw [hsum, num_fin, Option.some_inj] at hvalue
  have hx : x = sg s * (N / D) := by rw [hvalue]; ring
  rw [fdot2Code_eq, hsum]
  by_cases hN : N = 0
  · subst hN
    have hx0 : x = 0 := by rw [hx]; simp
    rw [if_pos hx0, ha₀, hb₀, ha₁, hb₁, hneg₀, hneg₁, negZero_f32, bitOf_lo16, bitOf_lo16, bitOf_hi16, bitOf_hi16]
    have hround (t : Bool) : roundsTo Fmt.f32 ((2 ^ 24 - 1) * 2 ^ 104) (2 ^ 103) t x (Fmt.f32.roundNE ((Ext.fin s 0 D).zeroSigned t)) := by
      have := Fmt.f32_rounds.roundNE_roundsTo t 0 hD
      rwa [show sg t * ((0 : Nat) / D : ℚ) = x by rw [hx0]; simp] at this
    convert hround _ using 2
    simp only [Bool.decide_and]
    ac_rfl
  · have hy : (0 : ℚ) < N / D := by positivity
    have hx0 : x ≠ 0 := by rw [hx, Ne, sg_div_eq_zero s N hD]; exact hN
    rw [if_neg hx0, Ext.zeroSigned_of_ne _ s hN, hx, decide_sg_mul_neg s hy]
    exact Fmt.f32_rounds.roundNE_roundsTo s N hD

theorem fdot2_nan (a b z : Word) (h : nanF z ∨ (Fmt.bf16.value (lo16 a)).isNan = true ∨ (Fmt.bf16.value (hi16 a)).isNan = true ∨
    (Fmt.bf16.value (lo16 b)).isNan = true ∨ (Fmt.bf16.value (hi16 b)).isNan = true) : fdot2Code a.toNat b.toNat z.toNat = 0x7FC00000 := by
  have of_isNan {x : Ext} (hx : x.isNan = true) : x = .nan := by cases x <;> simp_all [Ext.isNan]
  rw [fdot2Code_eq]
  rcases h with h | h | h | h | h
  · rw [f32_of_nanF h, Ext.add_nan]; rfl
  all_goals rw [of_isNan h]; simp only [Ext.nan_mul, Ext.mul_nan, Ext.nan_add, Ext.add_nan]; rfl

/-- R62, R152, R153: minima and maxima, scaling and the dot product by value. -/
theorem minMaxScaleDotValues : MinMaxScaleDotValues := by
  refine ⟨fun f hf a b ha hb => ?_, fscl_values, fdot2_number, fdot2_nan⟩
  have hok : f.Ok := by
    simp only [List.mem_cons, List.not_mem_nil, or_false] at hf
    rcases hf with rfl | rfl | rfl
    exacts [Fmt.f32_rounds.ok, Fmt.f16_rounds.ok, Fmt.bf16_rounds.ok]
  exact ⟨fun h w => minmax_of_nan h w, fun hna hnb w => minmax_values hok ha hb hna hnb w⟩

end Sys2Proof.Machine
end

section
/-! PROOFS. Conversions between FP32, the narrower formats and the integers, by value (R54, R56, R57, R156, R161). -/

namespace Sys2Proof.Machine

open Sys2Proof.Claim

/-! Narrowing (R56, R57). -/

/-- E2M1 keeps no sign of a zero (R57). -/
def Fmt.unescaped (f : Fmt) (r : Nat) : Nat := if f.width = 4 ∧ r % 8 = 0 then 0 else r

theorem narrow_overflow {f : Fmt} {top half : ℚ} {big past : Nat} (h : (f, top, half, big, past) ∈ narrow) (s sat : Bool) :
    f.unescaped (f.overflow s sat) = signBit f s + if sat then big else past := by
  simp only [narrow, List.mem_cons, List.not_mem_nil, or_false] at h
  rcases h with ⟨rfl, -, -, rfl, rfl⟩ | ⟨rfl, -, -, rfl, rfl⟩ | ⟨rfl, -, -, rfl, rfl⟩ | ⟨rfl, -, -, rfl, rfl⟩ | ⟨rfl, -, -, rfl, rfl⟩ <;>
    cases s <;> cases sat <;> rfl

theorem narrow_nan {f : Fmt} {top half : ℚ} {big past : Nat} (h : (f, top, half, big, past) ∈ narrow) : f.unescaped f.nan = f.nan := by
  simp only [narrow, List.mem_cons, List.not_mem_nil, or_false] at h
  rcases h with ⟨rfl, -⟩ | ⟨rfl, -⟩ | ⟨rfl, -⟩ | ⟨rfl, -⟩ | ⟨rfl, -⟩ <;> rfl

theorem narrow_width {f : Fmt} {top half : ℚ} {big past : Nat} (h : (f, top, half, big, past) ∈ narrow) (hw : f.width = 4) : f = Fmt.e2m1 := by
  simp only [narrow, List.mem_cons, List.not_mem_nil, or_false] at h
  rcases h with ⟨rfl, -⟩ | ⟨rfl, -⟩ | ⟨rfl, -⟩ | ⟨rfl, -⟩ | ⟨rfl, -⟩
  all_goals first | rfl | exact absurd hw (by decide)

theorem convert_nan {f : Fmt} {m : Rm} {sat : Bool} {v : Nat} (h : Fmt.f32.value v = .nan) : f.convert m sat v = f.unescaped f.nan := by
  simp only [Fmt.convert, h, Fmt.unescaped]

theorem convert_inf {f : Fmt} {m : Rm} {sat s : Bool} {v : Nat} (h : Fmt.f32.value v = .inf s) :
    f.convert m sat v = f.unescaped (f.overflow s sat) := by
  simp only [Fmt.convert, h, Fmt.unescaped]

theorem convert_fin {f : Fmt} {m : Rm} {sat s : Bool} {v n d : Nat} (h : Fmt.f32.value v = .fin s n d) :
    f.convert m sat v = f.unescaped (((f.roundMag m s n d).map (f.signed s)).getD (f.overflow s sat)) := by
  simp only [Fmt.convert, h, Fmt.unescaped]
  cases f.roundMag m s n d <;> rfl

theorem overflows_pos {top half : ℚ} (htop : 0 ≤ top) (hhalf : 0 < half) {m : Rm} {s : Bool} {y : ℚ} (hy : 0 ≤ y)
    (h : overflows top half m (sg s * y)) : 0 < y := by
  refine lt_of_le_of_ne hy fun h0 => ?_
  rw [← h0, mul_zero] at h
  cases m <;> simp only [overflows, abs_zero] at h
  all_goals linarith

/-- A pick rests on a code's value and on its being even. -/
theorem picks_congr {V : Nat → ℚ → Prop} {m : Rm} {x : ℚ} {c c' : Nat} (h : picks V m x c) (hv : ∀ v, V c v → V c' v)
    (he : evenCode c → evenCode c') : picks V m x c' := by
  have hbelow : below V x c → below V x c' := fun ⟨v, hc, hle, hmax⟩ => ⟨v, hv v hc, hle, hmax⟩
  have habove : above V x c → above V x c' := fun ⟨v, hc, hle, hmin⟩ => ⟨v, hv v hc, hle, hmin⟩
  cases m with
  | rne =>
    obtain ⟨v, hc, hnear⟩ := h
    exact ⟨v, hv v hc, fun d u hd => ⟨(hnear d u hd).1, fun heq hne => he ((hnear d u hd).2 heq hne)⟩⟩
  | rtz =>
    simp only [picks] at h ⊢
    split at h
    · next hx => rw [if_pos hx]; exact habove h
    · next hx => rw [if_neg hx]; exact hbelow h
  | rdn => exact hbelow h
  | rup => exact habove h

/-- The code of a sign and a magnitude, its zero without a sign in E2M1. -/
theorem unescaped_signed {f : Fmt} (hok : f.Ok) (hw : f.width = 4 → f = Fmt.e2m1) (s : Bool) {k : Nat} (hk : k ≤ f.maxFin) :
    (∀ v, has f (f.signed s k) v → has f (f.unescaped (f.signed s k)) v) ∧
    (evenCode (f.signed s k) → evenCode (f.unescaped (f.signed s k))) ∧
    (has f (f.unescaped (f.signed s k)) 0 → f.unescaped (f.signed s k) = if f.width = 4 then 0 else signBit f s) := by
  by_cases h4 : f.width = 4
  · obtain rfl := hw h4
    have hmod : Fmt.e2m1.signed s k % 8 = k := Fmt.signed_mod (f := Fmt.e2m1) s (hk.trans_lt hok.fits)
    by_cases h0 : k = 0
    · subst h0
      have hcode : Fmt.e2m1.unescaped (Fmt.e2m1.signed s 0) = Fmt.e2m1.signed false 0 := by cases s <;> rfl
      rw [hcode]
      refine ⟨fun v hv => ?_, fun _ => rfl, fun _ => rfl⟩
      have hz : v = 0 := by
        have := hv.2
        rw [Fmt.num_value_signed hok s hk, Fmt.mag_zero, mul_zero, Option.some_inj] at this
        exact this.symm
      have := Fmt.has_signed hok false hk
      rwa [Fmt.mag_zero, mul_zero, ← hz] at this
    · have hcode : Fmt.e2m1.unescaped (Fmt.e2m1.signed s k) = Fmt.e2m1.signed s k := by simp [Fmt.unescaped, hmod, h0]
      rw [hcode]
      exact ⟨fun _ h => h, id, fun h => absurd (Fmt.eq_zero_of_has_zero hok hk h) h0⟩
  · have hcode : f.unescaped (f.signed s k) = f.signed s k := by simp [Fmt.unescaped, h4]
    rw [hcode, if_neg h4]
    exact ⟨fun _ h => h, id, fun h => by rw [Fmt.eq_zero_of_has_zero hok hk h, Fmt.signed_zero]⟩

/-- R56, R57: conversion of an FP32 register. -/
theorem convert_values {f : Fmt} {top half : ℚ} {big past : Nat} (h : (f, top, half, big, past) ∈ narrow) (m : Rm) (sat : Bool) (v : Word) :
    let r := f.convert m sat v.toNat
    (nanF v → r = f.nan) ∧
    (∀ s, f32 v = .inf s → r = signBit f s + if sat then big else past) ∧
    (∀ x, num (f32 v) = some x →
      (overflows top half m x → r = signBit f (decide (x < 0)) + if sat then big else past) ∧
      (¬overflows top half m x → picks (has f) m x r ∧ (has f r 0 → r = if f.width = 4 then 0 else signBit f v.msb))) := by
  have hf := narrow_of_mem h
  refine ⟨fun hn => (convert_nan (f32_of_nanF hn)).trans (narrow_nan h), fun s hs => (convert_inf hs).trans (narrow_overflow h s sat),
    fun x hx => ?_⟩
  obtain ⟨n, d, -, hd, hv, -, -, -, rfl⟩ := f32_number hx
  have hy : (0 : ℚ) ≤ n / d := by positivity
  rw [convert_fin hv]
  rcases Fmt.roundMag_picks hf.ok hf.prec hf.mag_top hf.brink_eq m v.msb n hd with ⟨hover, hnone⟩ | ⟨hno, r, hr, hsome, hpick⟩
  · refine ⟨fun _ => ?_, fun hno => absurd hover hno⟩
    have hpos := overflows_pos hf.top_nonneg hf.half_pos hy hover
    rw [hnone, decide_sg_mul_neg _ hpos]
    exact narrow_overflow h v.msb sat
  · refine ⟨fun hover => absurd hover hno, fun _ => ?_⟩
    obtain ⟨hvalue, heven, hzero⟩ := unescaped_signed hf.ok (narrow_width h) v.msb hr
    rw [hsome]
    exact ⟨picks_congr hpick hvalue heven, hzero⟩

/-! Widening (R54). -/

theorem f32_ofNat {c : Nat} (hc : c < 2 ^ 32) : f32 (BitVec.ofNat 32 c) = Fmt.f32.value c := by
  rw [f32, BitVec.toNat_ofNat, Nat.mod_eq_of_lt hc]

/-- An FP32 register of a sign and a finite magnitude. -/
theorem f32_ofNat_signed (s : Bool) {j : Nat} (hj : j ≤ Fmt.f32.maxFin) : let w := BitVec.ofNat 32 (Fmt.f32.signed s j)
    num (f32 w) = some (sg s * Fmt.f32.mag j) ∧ w.msb = s := by
  have hlt := hj.trans_lt Fmt.f32_rounds.ok.fits
  have hcode : Fmt.f32.signed s j < 2 ^ 32 := Fmt.signed_lt Fmt.f32_rounds.ok s hlt
  refine ⟨by rw [f32_ofNat hcode, Fmt.num_value_signed Fmt.f32_rounds.ok s hj], ?_⟩
  rw [← bitOf_msb, BitVec.toNat_ofNat, Nat.mod_eq_of_lt hcode]
  exact Fmt.bitOf_signed s hlt

theorem bitOf_top {c w : Nat} (hw : 0 < w) (hc : c < 2 ^ w) : bitOf c (w - 1) = decide (2 ^ (w - 1) ≤ c) := by
  have hpos : 0 < 2 ^ (w - 1) := by positivity
  have htwo : 2 * 2 ^ (w - 1) = 2 ^ w := by rw [← Nat.pow_succ', Nat.succ_eq_add_one, Nat.sub_add_cancel hw]
  rw [bitOf, Bool.eq_iff_iff, beq_iff_eq, decide_eq_true_eq]
  rcases Nat.lt_or_ge c (2 ^ (w - 1)) with h | h
  · rw [Nat.div_eq_of_lt h]; exact iff_of_false (by decide) (by omega)
  · have : c / 2 ^ (w - 1) = 1 := by rw [Nat.div_eq_iff hpos]; omega
    rw [this]
    exact iff_of_true rfl h

theorem widen_values {f : Fmt} {top half : ℚ} {big past : Nat} (h : (f, top, half, big, past) ∈ narrow) (c : Nat) (hc : c < 2 ^ f.width) :
    let w := BitVec.ofNat 32 (f.widen c)
    (∀ x, num (f.value c) = some x → num (f32 w) = some x ∧ w.msb = decide (2 ^ (f.width - 1) ≤ c)) ∧
    (∀ s, f.value c = .inf s → w = if s then 0xFF800000 else 0x7F800000) ∧ ((f.value c).isNan = true → w = 0x7FC00000) := by
  have hf := narrow_of_mem h
  refine ⟨fun x hx => ?_, fun s hs => ?_, fun hn => ?_⟩
  · have hfin := Fmt.mod_le_of_num hx
    obtain ⟨j, hj, hcode, hmag⟩ := hf.widen_number hfin
    obtain ⟨n, d, -, hv, hnd⟩ := f.value_finite hfin
    rw [hv, num_fin, hnd, Option.some_inj] at hx
    obtain ⟨hnum, hmsb⟩ := f32_ofNat_signed (bitOf c (f.width - 1)) hj
    rw [hcode, hnum, hmsb, hmag, hx]
    exact ⟨rfl, bitOf_top (by have := hf.ok.width; omega) hc⟩
  · rw [Fmt.widen, hs]
    cases s <;> rfl
  · have : f.value c = .nan := by cases hv : f.value c <;> simp_all [Ext.isNan]
    rw [Fmt.widen, this]
    rfl

/-! Integers (R156, R161). -/

theorem intToF32_values (m : Rm) (x : ℤ) (hx : |x| ≤ 2 ^ 32) : picks (has Fmt.f32) m x (intToF32 m x) ∧ (x = 0 → intToF32 m x = 0) := by
  refine ⟨?_, by rintro rfl; cases m <;> rfl⟩
  have hvalue : sg (decide (x < 0)) * ((x.natAbs : ℚ) / (1 : Nat)) = x := by
    rw [Nat.cast_one, div_one, Nat.cast_natAbs]
    by_cases h : x < 0
    · simp [h, abs_of_neg h]
    · simp [h, abs_of_nonneg (not_lt.1 h)]
  have hle : |(x : ℚ)| ≤ 2 ^ 32 := by exact_mod_cast hx
  have hf := Fmt.f32_rounds
  rcases Fmt.roundMag_picks hf.ok hf.prec hf.mag_top hf.brink_eq m (decide (x < 0)) x.natAbs Nat.one_pos with ⟨hover, -⟩ | ⟨-, r, -, hsome, hpick⟩
  · rw [hvalue] at hover
    rw [abs_le] at hle
    cases m <;> simp only [overflows] at hover
    · rw [le_abs] at hover
      rcases hover with h | h <;> linarith
    all_goals linarith
  · rw [hvalue] at hpick
    simpa only [intToF32, hsome] using hpick

/-- The magnitude rounded to an integer lies on the grid of the integers. -/
theorem roundInt_eq (m : Rm) (s : Bool) (n : Nat) {d : Nat} (hd : 0 < d) : ∃ c : Nat, (c : ℚ) ≤ n / d ∧ (n / d : ℚ) < (c + 1 : Nat) ∧
    roundInt m s n d = c + natOf (stepsUp m s (c % 2 == 1) (between (Nat.cast : Nat → ℚ) c (n / d))) := by
  have hd' : (0 : ℚ) < d := by exact_mod_cast hd
  have hsplit : (n : ℚ) = d * (n / d : Nat) + (n % d : Nat) := by exact_mod_cast (Nat.div_add_mod n d).symm
  have hlt : ((n % d : Nat) : ℚ) < d := by exact_mod_cast Nat.mod_lt n hd
  have hfrac : between (Nat.cast : Nat → ℚ) (n / d) (n / d) = (n % d : Nat) / d := by
    rw [between]; push_cast; rw [add_sub_cancel_left, div_one]; field_simp; linarith
  refine ⟨n / d, ?_, ?_, ?_⟩
  · rw [le_div_iff₀ hd', mul_comm]; linarith [Nat.cast_nonneg (α := ℚ) (n % d)]
  · rw [div_lt_iff₀ hd', hsplit]; push_cast; linarith
  · rw [hfrac, ← roundsUp_eq _ _ _ _ _ hd]; rfl

/-- An integer is kept. -/
theorem roundInt_of_eq {m : Rm} {s : Bool} {n d k : Nat} (hd : 0 < d) (h : (n / d : ℚ) = k) : roundInt m s n d = k := by
  obtain ⟨c, hlo, hhi, hround⟩ := roundInt_eq m s n hd
  rw [h] at hlo hhi hround
  have hck : c = k := by
    have h1 : c ≤ k := by exact_mod_cast hlo
    have h2 : k < c + 1 := by exact_mod_cast hhi
    omega
  subst hck
  have : between (Nat.cast : Nat → ℚ) c c = 0 := by simp [between]
  rw [hround, this]
  rfl

theorem roundInt_le (m : Rm) (s : Bool) (n : Nat) {d : Nat} (hd : 0 < d) : (roundInt m s n d : ℚ) ≤ n / d + 1 := by
  obtain ⟨c, hlo, -, hround⟩ := roundInt_eq m s n hd
  rw [hround]
  cases stepsUp m s (c % 2 == 1) (between (Nat.cast : Nat → ℚ) c (n / d)) <;> simp only [natOf] <;> push_cast <;> simp <;> linarith

theorem integral_intCast (m : Rm) (k : ℤ) : integral m k = k := by
  cases m <;> simp [integral]

/-- R156, R161: the integer with its sign is RoundToIntegral. -/
theorem integral_eq (m : Rm) (s : Bool) (n : Nat) {d : Nat} (hd : 0 < d) :
    integral m (sg s * (n / d)) = if s then -(roundInt m s n d : ℤ) else roundInt m s n d := by
  obtain ⟨c, hlo, hhi, hround⟩ := roundInt_eq m s n hd
  have hy : (0 : ℚ) ≤ n / d := by positivity
  by_cases hyc : (n / d : ℚ) = c
  · rw [roundInt_of_eq hd hyc, hyc]
    cases s
    · simpa using integral_intCast m c
    · simpa using integral_intCast m (-c)
  rw [hround]
  set y : ℚ := n / d
  have hg : StrictMono (Nat.cast : Nat → ℚ) := Nat.strictMono_cast
  have hpos : 0 < y := lt_of_lt_of_le (lt_of_le_of_ne hy fun h => hyc ?_) le_rfl
  swap
  · have : c = 0 := by have : (c : ℚ) ≤ 0 := h ▸ hlo; exact_mod_cast le_antisymm this (by positivity)
    rw [← h, this, Nat.cast_zero]
  have hfloor : ⌊y⌋ = c := Int.floor_eq_iff.2 ⟨by exact_mod_cast hlo, by exact_mod_cast hhi⟩
  have hceil : ⌈y⌉ = c + 1 := by
    have := lt_of_le_of_ne hlo (Ne.symm hyc)
    exact Int.ceil_eq_iff.2 ⟨by push_cast; linarith, by exact_mod_cast hhi.le⟩
  have hfloor' : ⌊-y⌋ = -(c + 1) := by rw [Int.floor_neg, hceil]
  have hceil' : ⌈-y⌉ = -c := by rw [Int.ceil_neg, hfloor]
  have hne : between (Nat.cast : Nat → ℚ) c y ≠ 0 := fun h => hyc ((between_eq_zero hg).1 h)
  have hup : stepsUp .rne s (c % 2 == 1) (between (Nat.cast : Nat → ℚ) c y) =
      (decide (c + (c + 1 : Nat) < 2 * y) || (decide (2 * y = c + (c + 1 : Nat)) && c % 2 == 1)) := by
    simp only [stepsUp, hne, if_false, half_lt_between hg, between_eq_half hg]
  cases m with
  | rtz =>
    rw [stepsUp_directed (by decide)]
    cases s
    · simp [integral, Rm.away, natOf, hfloor, not_lt.2 hy]
    · simp [integral, Rm.away, natOf, hceil', hpos]
  | rdn =>
    rw [stepsUp_directed (by decide)]
    cases s
    · simp [integral, Rm.away, natOf, hfloor]
    · simp [integral, Rm.away, natOf, hfloor', hne]
  | rup =>
    rw [stepsUp_directed (by decide)]
    cases s
    · simp [integral, Rm.away, natOf, hceil, hne]
    · simp [integral, Rm.away, natOf, hceil']
  | rne =>
    rw [hup]
    push_cast
    cases s with
    | false =>
      simp only [integral, sg_false, one_mul, hfloor, Bool.false_eq_true, if_false, Int.cast_natCast]
      rcases lt_trichotomy (2 * y) (c + (c + 1)) with h | h | h
      · rw [if_pos (.inl (by linarith))]
        simp [natOf, h.not_gt, h.ne]
      · have h2 : 2 * (y - c) = 1 := by linarith
        simp only [h2, h, natOf, lt_irrefl, false_or, true_and, decide_false, decide_true, Bool.false_or, Bool.true_and, beq_iff_eq]
        split <;> split <;> omega
      · rw [if_neg (by rintro (h1 | ⟨h1, -⟩) <;> linarith)]
        simp [natOf, h]
    | true =>
      simp only [integral, sg_true, neg_mul, one_mul, hfloor', if_true, Int.cast_neg, Int.cast_add, Int.cast_one, Int.cast_natCast]
      rcases lt_trichotomy (2 * y) (c + (c + 1)) with h | h | h
      · rw [if_neg (by rintro (h1 | ⟨h1, -⟩) <;> linarith)]
        simp [natOf, h.not_gt, h.ne]
      · have h2 : 2 * (-y - -((c : ℚ) + 1)) = 1 := by linarith
        simp only [h2, h, natOf, lt_irrefl, false_or, true_and, decide_false, decide_true, Bool.false_or, Bool.true_and, beq_iff_eq]
        split <;> split <;> push_cast <;> omega
      · rw [if_pos (.inl (by linarith))]
        simp [natOf, h]

/-- R156: an FP32 register to an integer of a range. -/
theorem f32ToInt_values (lo hi : ℤ) (indef : Word) : toInteger (fun m sat a => f32ToInt m sat lo hi indef.toNat 32 a) lo hi indef := by
  have hwrap (k : ℤ) : BitVec.ofNat 32 (k % 2 ^ 32).toNat = BitVec.ofInt 32 k := by
    apply BitVec.eq_of_toNat_eq
    rw [BitVec.toNat_ofNat, BitVec.toNat_ofInt]
    omega
  have hindef : BitVec.ofNat 32 indef.toNat = indef := by simp
  intro m sat v
  refine ⟨fun hn => ?_, fun s hs => ?_, fun x hx => ?_⟩
  · have hv : Fmt.f32.value v.toNat = .nan := f32_of_nanF hn
    simp only [f32ToInt, hv]
    cases sat
    · exact hindef
    · rfl
  · have hv : Fmt.f32.value v.toNat = .inf s := hs
    simp only [f32ToInt, hv]
    cases sat
    · exact hindef
    · exact hwrap _
  · obtain ⟨n, d, -, hd, hv, -, -, -, rfl⟩ := f32_number hx
    have hv' : Fmt.f32.value v.toNat = .fin v.msb n d := hv
    rw [integral_eq m v.msb n hd]
    simp only [f32ToInt, hv', inRange]
    set k : ℤ := if v.msb then -(roundInt m v.msb n d : ℤ) else roundInt m v.msb n d
    split
    · exact hwrap _
    · split
      · exact hwrap _
      · exact hindef

/-- Rounding an FP32 number to an integer gives an FP32 number. -/
theorem f32_roundInt (m : Rm) (s : Bool) {n d k : Nat} (hd : 0 < d) (hk : k ≤ Fmt.f32.maxFin) (h : (n / d : ℚ) = Fmt.f32.mag k) :
    ∃ j ≤ Fmt.f32.maxFin, Fmt.f32.mag j = roundInt m s n d := by
  obtain ⟨e, i, rfl, hi, hn⟩ := Fmt.f32.exists_binade k
  have hmag : Fmt.f32.mag (e * 2 ^ (Fmt.f32.p - 1) + i) = i * 2 ^ (-149 + (e : ℤ)) := by
    rw [Fmt.mag, Fmt.f32.units_binade e i hi.le hn, zpow_add₀ two_ne_zero, zpow_natCast]; push_cast; rw [mul_assoc, mul_comm (2 ^ e)]; rfl
  rcases le_or_gt 0 (-149 + (e : ℤ)) with he | he
  · obtain ⟨q, hq⟩ := Int.eq_ofNat_of_zero_le he
    have hint : (n / d : ℚ) = (i * 2 ^ q : Nat) := by rw [h, hmag, hq]; push_cast; rw [zpow_natCast]
    exact ⟨_, hk, by rw [roundInt_of_eq hd hint, ← hint, h]⟩
  · have hi24 : (i : ℚ) ≤ 2 ^ 24 := by exact_mod_cast (show i ≤ 2 ^ 24 from hi.le)
    have hpow : (2 : ℚ) ^ (-149 + (e : ℤ)) ≤ 2 ^ (-1 : ℤ) := zpow_le_zpow_right₀ one_le_two (by omega)
    have hy : (n / d : ℚ) ≤ 2 ^ 23 := by
      calc (n / d : ℚ) = i * 2 ^ (-149 + (e : ℤ)) := h.trans hmag
        _ ≤ 2 ^ 24 * 2 ^ (-1 : ℤ) := by gcongr
        _ = 2 ^ 23 := by norm_num
    have hle := roundInt_le m s n hd
    have hlt : roundInt m s n d < 2 ^ 24 := by
      have : (roundInt m s n d : ℚ) < 2 ^ 24 := by linarith
      exact_mod_cast this
    have := f32_exists_mag (q := 0) hlt (by norm_num) (by rw [zpow_zero, mul_one]; linarith)
    simpa using this

theorem frint_values (m : Rm) (v : Word) : let r := BitVec.ofNat 32 (frintCode m v.toNat)
    (nanF v → r = 0x7FC00000) ∧ (∀ s, f32 v = .inf s → r = v) ∧
    (∀ x, num (f32 v) = some x → num (f32 r) = some (integral m x : ℚ) ∧ r.msb = v.msb) := by
  refine ⟨fun hn => ?_, fun s hs => ?_, fun x hx => ?_⟩
  · have hv : Fmt.f32.value v.toNat = .nan := f32_of_nanF hn
    simp only [frintCode, hv]
    rfl
  · have hv : Fmt.f32.value v.toNat = .inf s := hs
    simp only [frintCode, hv, ← f32_inf_code hs]
    simp
  · obtain ⟨n, d, k, hd, hv, hk, hmag, -, rfl⟩ := f32_number hx
    have hv' : Fmt.f32.value v.toNat = .fin v.msb n d := hv
    obtain ⟨j, hj, hjmag⟩ := f32_roundInt m v.msb hd hk hmag
    have hcode : frintCode m v.toNat = Fmt.f32.signed v.msb j := by
      simp only [frintCode, hv']
      exact Fmt.f32_rounds.roundNE_exact v.msb Nat.one_pos hj (by rw [hjmag, Nat.cast_one, div_one])
    obtain ⟨hnum, hmsb⟩ := f32_ofNat_signed v.msb hj
    rw [hcode, hnum, hmsb, hjmag, integral_eq m v.msb n hd]
    exact ⟨by cases v.msb <;> simp, rfl⟩

/-- R54, R56, R57, R156, R161: conversions by value. -/
theorem conversionValues : ConversionValues :=
  ⟨fun _ _ _ _ _ h => convert_values h, fun _ _ _ _ _ h => widen_values h, intToF32_values,
    f32ToInt_values (-2147483648) 2147483647 0x80000000, f32ToInt_values 0 4294967295 0xFFFFFFFF, frint_values⟩

end Sys2Proof.Machine
end

section
/-! PROOFS. Facet-8 and E8M0 by value (R52, R55, R58, R160). -/

namespace Sys2Proof.Machine

open Sys2Proof.Claim

/-! The values of Facet-8 (R52). -/

/-- The magnitude of a payload with bias 0, in units of 1 / 64,000. -/
def f8dUnits (pay : Nat) : Nat :=
  if pay = 0 then 0
  else
    let z := 6 - Nat.log2 pay
    (2 ^ (6 - z) + 9 * (pay - 2 ^ (6 - z))) * 20 ^ z

def f8dMag (bias : ℤ) (pay : Nat) : ℚ := f8dUnits pay * (10 ^ bias / 64000)

theorem ten_zpow (e : ℤ) : ((if e < 0 then 1 / (10 ^ e.natAbs : Nat) else ((10 ^ e.natAbs : Nat) : ℚ)) : ℚ) = 10 ^ e := by
  split
  · next h =>
    obtain ⟨k, rfl⟩ := Int.eq_negSucc_of_lt_zero h
    simp [zpow_negSucc]
  · next h =>
    obtain ⟨k, rfl⟩ := Int.eq_ofNat_of_zero_le (not_lt.1 h)
    simp

/-- A code of a payload other than 0. -/
theorem f8dValue_payload (bias : ℤ) {c : Nat} (hc : c % 128 ≠ 0) : let z := 6 - Nat.log2 (c % 128)
    ∃ n d, 0 < d ∧ f8dValue bias c = .fin (bitOf c 7) n d ∧
      (n / d : ℚ) = (1 + 9 * (c % 128 - 2 ^ (6 - z) : ℕ) / 2 ^ (6 - z)) * (10 : ℚ) ^ ((z : ℤ) - 3 + bias) := by
  intro z
  have hvalue : f8dValue bias c = if (z : ℤ) - 3 + bias < 0 then .fin (bitOf c 7) (2 ^ (6 - z) + 9 * (c % 128 - 2 ^ (6 - z)))
      (2 ^ (6 - z) * 10 ^ ((z : ℤ) - 3 + bias).natAbs)
    else .fin (bitOf c 7) ((2 ^ (6 - z) + 9 * (c % 128 - 2 ^ (6 - z))) * 10 ^ ((z : ℤ) - 3 + bias).natAbs) (2 ^ (6 - z)) := by
    simp only [f8dValue, hc, if_false, z]
  have hten := ten_zpow ((z : ℤ) - 3 + bias)
  rw [hvalue, ← hten]
  set w := 2 ^ (6 - z) with hw
  have hw' : (w : ℚ) = 2 ^ (6 - z) := by rw [hw]; push_cast; rfl
  have hpos : (0 : ℚ) < 2 ^ (6 - z) := by positivity
  split
  · refine ⟨_, _, by positivity, rfl, ?_⟩
    rw [Nat.cast_mul, Nat.cast_add, Nat.cast_mul, hw']
    field_simp
    push_cast
    ring
  · refine ⟨_, _, by positivity, rfl, ?_⟩
    rw [Nat.cast_mul, Nat.cast_add, Nat.cast_mul, hw']
    field_simp
    push_cast
    ring

theorem f8dMag_payload (bias : ℤ) {pay : Nat} (h0 : pay ≠ 0) : let z := 6 - Nat.log2 pay
    (1 + 9 * (pay - 2 ^ (6 - z) : ℕ) / 2 ^ (6 - z)) * (10 : ℚ) ^ ((z : ℤ) - 3 + bias) = f8dMag bias pay := by
  intro z
  have hz : z ≤ 6 := Nat.sub_le _ _
  have hsplit : (64 : ℚ) = 2 ^ (6 - z) * 2 ^ z := by rw [← pow_add, Nat.sub_add_cancel hz]; norm_num
  have hten : (10 : ℚ) ^ ((z : ℤ) - 3 + bias) = 10 ^ z * 10 ^ bias / 1000 := by
    rw [zpow_add₀ (by norm_num), zpow_sub₀ (by norm_num), zpow_natCast]; norm_num; ring
  have htwenty : (20 : ℚ) ^ z = 2 ^ z * 10 ^ z := by rw [← mul_pow]; norm_num
  have h64 : (64000 : ℚ) = 2 ^ (6 - z) * 2 ^ z * 1000 := by rw [← hsplit]; norm_num
  simp only [f8dMag, f8dUnits, h0, if_false]
  change _ = ((((2 ^ (6 - z) + 9 * (pay - 2 ^ (6 - z))) * 20 ^ z : ℕ)) : ℚ) * _
  rw [hten, h64, Nat.cast_mul, Nat.cast_add, Nat.cast_mul, Nat.cast_pow, Nat.cast_pow]
  push_cast
  rw [htwenty]
  field_simp

/-- The value of a code that is no NaN. -/
theorem f8dValue_number (bias : ℤ) {c : Nat} (hc : c < 2 ^ 8) (hn : c ≠ 0x80) :
    ∃ n d, 0 < d ∧ f8dValue bias c = .fin (bitOf c 7) n d ∧ (n / d : ℚ) = f8dMag bias (c % 128) := by
  by_cases h0 : c % 128 = 0
  · obtain rfl : c = 0 := by omega
    exact ⟨0, 1, one_pos, rfl, by simp [f8dMag, f8dUnits]⟩
  · obtain ⟨n, d, hd, hv, hx⟩ := f8dValue_payload bias h0
    exact ⟨n, d, hd, hv, hx.trans (f8dMag_payload bias h0)⟩

theorem f8dValue_nan (bias : ℤ) : f8dValue bias 0x80 = .nan := rfl

theorem hasF8d_iff (bias : ℤ) (c : Nat) (v : ℚ) :
    hasF8d bias c v ↔ c < 2 ^ 8 ∧ c ≠ 0x80 ∧ v = sg (bitOf c 7) * f8dMag bias (c % 128) := by
  constructor
  · rintro ⟨hc, hv⟩
    have hn : c ≠ 0x80 := by rintro rfl; simp [f8dValue_nan] at hv
    obtain ⟨n, d, -, heq, hx⟩ := f8dValue_number bias hc hn
    rw [heq, num_fin, hx, Option.some_inj] at hv
    exact ⟨hc, hn, hv.symm⟩
  · rintro ⟨hc, hn, rfl⟩
    obtain ⟨n, d, -, heq, hx⟩ := f8dValue_number bias hc hn
    exact ⟨hc, by rw [heq, num_fin, hx]⟩

/-! The order of the payloads (R53, R58). -/

theorem f8dMag_lt {bias : ℤ} {p q : Nat} : f8dMag bias p < f8dMag bias q ↔ f8dUnits p < f8dUnits q := by
  rw [f8dMag, f8dMag, mul_lt_mul_iff_left₀ (by positivity), Nat.cast_lt]

theorem f8dMag_nonneg (bias : ℤ) (p : Nat) : 0 ≤ f8dMag bias p := by unfold f8dMag; positivity

theorem f8dMag_zero (bias : ℤ) : f8dMag bias 0 = 0 := by simp [f8dMag, f8dUnits]

/-- The payload that follows in magnitude: within a decade the next code, after its last one the first of the next decade. -/
def f8dNext (pay : Nat) : Nat := if pay + 1 = 2 ^ (Nat.log2 pay + 1) then (pay + 1) / 4 else pay + 1

/-- Two payloads of one evenness, the lower one not zero, are not neighbours. -/
theorem f8dNext_between : ∀ p < 128, ∀ q < 128, p ≠ 0 ∧ f8dUnits p < f8dUnits q ∧ f8dEven p = f8dEven q →
    f8dNext p < 128 ∧ f8dUnits p < f8dUnits (f8dNext p) ∧ f8dUnits (f8dNext p) < f8dUnits q := by
  decide +kernel

theorem f8dUnits_pos : ∀ p < 128, p ≠ 0 → 0 < f8dUnits p := by decide +kernel

/-- Payload 1 is the greatest. -/
theorem f8dUnits_max : ∀ p < 128, f8dUnits 1 ≤ f8dUnits p → p = 1 := by decide +kernel

theorem f8dMag_one (bias : ℤ) : f8dMag bias 1 = 1000 * 10 ^ bias := by
  have : f8dUnits 1 = 64000000 := by decide
  rw [f8dMag, this]
  push_cast
  ring

/-! The nearest payload (R58). -/

/-- The distance of a number from a payload's magnitude. -/
def f8dAway (bias : ℤ) (y : ℚ) (pay : Nat) : ℚ := |y - f8dMag bias pay|

theorem f8dDist_eq (bias : ℤ) (n : Nat) {d pay : Nat} (hd : 0 < d) (hp : pay < 128) : 0 < (f8dDist bias n d pay).2 ∧
    ((f8dDist bias n d pay).1 / (f8dDist bias n d pay).2 : ℚ) = f8dAway bias (n / d) pay := by
  obtain ⟨m, e, he, hv, hx⟩ := f8dValue_number bias (c := pay) (by omega) (by omega)
  have hd' : (0 : ℚ) < d := by exact_mod_cast hd
  have he' : (0 : ℚ) < e := by exact_mod_cast he
  rw [Nat.mod_eq_of_lt hp] at hx
  simp only [f8dDist, hv]
  refine ⟨Nat.mul_pos hd he, ?_⟩
  rw [f8dAway, ← hx, div_sub_div _ _ hd'.ne' he'.ne', abs_div, abs_of_pos (mul_pos hd' he'), Nat.cast_mul, Nat.cast_natAbs]
  push_cast
  rw [mul_comm (m : ℚ)]

/-- One step of the search keeps the nearer payload, and of two as near an even one. -/
def f8dBetter (bias : ℤ) (y : ℚ) (best pay : Nat) : Nat :=
  if f8dAway bias y pay < f8dAway bias y best then pay
  else if f8dAway bias y pay = f8dAway bias y best ∧ f8dEven pay = true ∧ f8dEven best = false then pay
  else best

theorem f8dNearest_eq (bias : ℤ) (n : Nat) {d : Nat} (hd : 0 < d) :
    f8dNearest bias n d = (List.range 128).foldl (f8dBetter bias (n / d)) 0 := by
  have step (best pay : Nat) (hb : best < 128) (hp : pay < 128) :
      (let (x, dx) := f8dDist bias n d pay
       let (y, dy) := f8dDist bias n d best
       if x * dy < y * dx then pay else if x * dy = y * dx ∧ f8dEven pay ∧ ¬ f8dEven best then pay else best) =
      f8dBetter bias (n / d) best pay := by
    obtain ⟨hpos, hx⟩ := f8dDist_eq bias n hd hp
    obtain ⟨hpos', hy⟩ := f8dDist_eq bias n hd hb
    have hpos : (0 : ℚ) < (f8dDist bias n d pay).2 := by exact_mod_cast hpos
    have hpos' : (0 : ℚ) < (f8dDist bias n d best).2 := by exact_mod_cast hpos'
    simp only [f8dBetter, ← hx, ← hy, div_lt_div_iff₀ hpos hpos', div_eq_div_iff hpos.ne' hpos'.ne', ← Nat.cast_mul, Nat.cast_lt,
      Nat.cast_inj, Bool.not_eq_true]
  have along (l : List Nat) (hl : ∀ p ∈ l, p < 128) : ∀ best < 128, l.foldl (fun best pay =>
      let (x, dx) := f8dDist bias n d pay
      let (y, dy) := f8dDist bias n d best
      if x * dy < y * dx then pay else if x * dy = y * dx ∧ f8dEven pay ∧ ¬ f8dEven best then pay else best) best =
      l.foldl (f8dBetter bias (n / d)) best := by
    induction l with
    | nil => exact fun _ _ => rfl
    | cons p l ih =>
      intro best hb
      obtain ⟨hp, hl⟩ := List.forall_mem_cons.1 hl
      rw [List.foldl_cons, List.foldl_cons, step best p hb hp]
      refine ih hl _ ?_
      unfold f8dBetter
      split
      · exact hp
      · split <;> assumption
  exact along _ (fun p hp => List.mem_range.1 hp) 0 (by norm_num)

/-- What the search has found: no payload seen is nearer, one as near is even only if the one found is, and zero gives way to nearer ones only. -/
theorem f8dBest_spec (bias : ℤ) (y : ℚ) (k : Nat) (hk : k ≤ 128) : let b := (List.range k).foldl (f8dBetter bias y) 0
    b < 128 ∧ (∀ p < k, f8dAway bias y b ≤ f8dAway bias y p ∧
      (f8dAway bias y b = f8dAway bias y p → f8dEven p = true → f8dEven b = true)) ∧
    (b = 0 ∨ f8dAway bias y b < f8dAway bias y 0) := by
  induction k with
  | zero => exact ⟨by norm_num, fun p hp => absurd hp (Nat.not_lt_zero p), .inl rfl⟩
  | succ k ih =>
    obtain ⟨hlt, hbest, hzero⟩ := ih (by omega)
    rw [List.range_succ, List.foldl_append, List.foldl_cons, List.foldl_nil]
    set b := (List.range k).foldl (f8dBetter bias y) 0
    have hseen (p : Nat) (hp : p < k + 1) : p < k ∨ p = k := by omega
    unfold f8dBetter
    split
    · next h =>
      refine ⟨by omega, fun p hp => ?_, ?_⟩
      · rcases hseen p hp with hp | rfl
        · have := (hbest p hp).1
          exact ⟨by linarith, fun he => by linarith⟩
        · exact ⟨le_rfl, fun _ he => he⟩
      · rcases hzero with h0 | h0
        · exact .inr (h0 ▸ h)
        · exact .inr (h.trans h0)
    · next h =>
      split
      · next htie =>
        obtain ⟨heq, heven, hodd⟩ := htie
        refine ⟨by omega, fun p hp => ?_, ?_⟩
        · rcases hseen p hp with hp | rfl
          · exact ⟨heq.trans_le (hbest p hp).1, fun _ _ => heven⟩
          · exact ⟨le_rfl, fun _ he => he⟩
        · rcases hzero with h0 | h0
          · rw [h0] at hodd
            exact absurd hodd (by decide)
          · exact .inr (heq.trans_lt h0)
      · next htie =>
        refine ⟨hlt, fun p hp => ?_, hzero⟩
        rcases hseen p hp with hp | rfl
        · exact hbest p hp
        · refine ⟨not_lt.1 h, fun heq heven => ?_⟩
          by_contra hodd
          exact htie ⟨heq.symm, heven, by simpa using hodd⟩

/-- Two payloads as near to a number as any, of different magnitudes, are neighbours: nothing lies between. -/
theorem f8dAway_tie {bias : ℤ} {y : ℚ} {p q r : Nat} (hp : f8dAway bias y p ≤ f8dAway bias y r) (htie : f8dAway bias y p = f8dAway bias y q)
    (hpr : f8dUnits p < f8dUnits r) (hrq : f8dUnits r < f8dUnits q) : False := by
  have h1 : f8dMag bias p < f8dMag bias r := f8dMag_lt.2 hpr
  have h2 : f8dMag bias r < f8dMag bias q := f8dMag_lt.2 hrq
  unfold f8dAway at hp htie
  -- the one in between is nearer than one of the two
  rcases le_or_gt y (f8dMag bias r) with hy | hy
  · have hq : |y - f8dMag bias q| = f8dMag bias q - y := by rw [abs_sub_comm]; exact abs_of_pos (by linarith)
    have hr : |y - f8dMag bias r| = f8dMag bias r - y := by rw [abs_sub_comm]; exact abs_of_nonneg (by linarith)
    linarith
  · have hp' : |y - f8dMag bias p| = y - f8dMag bias p := abs_of_pos (by linarith)
    have hr : |y - f8dMag bias r| = y - f8dMag bias r := abs_of_pos (by linarith)
    linarith

/-- R58: the payload found is the nearest; of two as near it is an even one, and of two even ones the smaller. -/
theorem f8dNearest_spec (bias : ℤ) (n : Nat) {d : Nat} (hd : 0 < d) : let b := f8dNearest bias n d
    b < 128 ∧ (b = 0 ∨ f8dAway bias (n / d) b < f8dAway bias (n / d) 0) ∧
    ∀ p < 128, f8dAway bias (n / d) b ≤ f8dAway bias (n / d) p ∧
      (f8dAway bias (n / d) b = f8dAway bias (n / d) p → f8dMag bias b ≠ f8dMag bias p →
        f8dEven b = true ∧ (f8dEven p = true → f8dMag bias b ≤ f8dMag bias p)) := by
  intro b
  obtain ⟨hlt, hbest, hzero⟩ := f8dBest_spec bias (n / d) 128 le_rfl
  rw [← f8dNearest_eq bias n hd] at hlt hbest hzero
  refine ⟨hlt, hzero, fun p hp => ⟨(hbest p hp).1, fun htie hne => ?_⟩⟩
  -- neighbours differ in evenness, but for zero and the smallest payload
  have hparity : f8dEven b = f8dEven p → b = 0 ∨ p = 0 := by
    intro heq
    by_contra hnz
    rw [not_or] at hnz
    rcases lt_or_gt_of_ne hne with h | h
    · obtain ⟨hr, h1, h2⟩ := f8dNext_between b hlt p hp ⟨hnz.1, f8dMag_lt.1 h, heq⟩
      exact f8dAway_tie (hbest _ hr).1 htie h1 h2
    · obtain ⟨hr, h1, h2⟩ := f8dNext_between p hp b hlt ⟨hnz.2, f8dMag_lt.1 h, heq.symm⟩
      exact f8dAway_tie (htie ▸ (hbest _ hr).1) htie.symm h1 h2
  have hb0 : p = 0 → b = 0 := fun h0 => hzero.resolve_right (by rw [← h0, htie]; exact lt_irrefl _)
  have heven : f8dEven b = true := by
    cases hpe : f8dEven p with
    | true => exact (hbest p hp).2 htie hpe
    | false =>
      by_contra hbo
      rcases hparity ((by simpa using hbo : f8dEven b = false).trans hpe.symm) with h0 | h0
      · rw [h0] at hbo; exact hbo (by decide)
      · rw [h0] at hpe; exact absurd hpe (by decide)
  refine ⟨heven, fun hpe => ?_⟩
  rcases hparity (heven.trans hpe.symm) with h0 | h0
  · rw [h0, f8dMag_zero]; exact f8dMag_nonneg bias p
  · rw [hb0 h0, f8dMag_zero]; exact f8dMag_nonneg bias p

end Sys2Proof.Machine
end

section
namespace Sys2Proof.Machine

open Sys2Proof.Claim

/-! FP32 and Facet-8 (R55, R58). -/

theorem evenF8d_code {c : Nat} : evenF8d c ↔ f8dEven (c % 128) = true := by
  simp only [evenF8d, f8dEven, Bool.or_eq_true, beq_iff_eq]
  omega

/-- The code of a sign and a payload, which has no negative zero. -/
def f8dCode (s : Bool) (p : Nat) : Nat := if p = 0 then 0 else natOf s * 128 + p

theorem f8dCode_fields (s : Bool) {p : Nat} (hp : p < 128) : f8dCode s p < 2 ^ 8 ∧ f8dCode s p ≠ 0x80 ∧ f8dCode s p % 128 = p ∧
    (p ≠ 0 → bitOf (f8dCode s p) 7 = s) := by
  by_cases h0 : p = 0
  · simp [f8dCode, h0]
  · have hbit : bitOf (natOf s * 128 + p) 7 = s := by
      have : (natOf s * 128 + p) / 2 ^ 7 = natOf s := by cases s <;> simp only [natOf] <;> omega
      rw [bitOf, this]
      cases s <;> rfl
    have hs : natOf s = 0 ∨ natOf s = 1 := by cases s <;> simp [natOf]
    simp only [f8dCode, h0, if_false]
    exact ⟨by omega, by omega, by omega, fun _ => hbit⟩

theorem f8dCode_value (bias : ℤ) (s : Bool) {p : Nat} (hp : p < 128) : hasF8d bias (f8dCode s p) (sg s * f8dMag bias p) := by
  obtain ⟨hlt, hn, hmod, hbit⟩ := f8dCode_fields s hp
  refine (hasF8d_iff bias _ _).2 ⟨hlt, hn, ?_⟩
  rw [hmod]
  by_cases h0 : p = 0
  · rw [h0, f8dMag_zero, mul_zero, mul_zero]
  · rw [hbit h0]

theorem f8dOfF32_number {v : Word} {n d : Nat} (h : f32 v = .fin v.msb n d) (bias : ℤ) :
    f8dOfF32 bias v.toNat = f8dCode v.msb (f8dNearest bias n d) := by
  have hv : Fmt.f32.value v.toNat = .fin v.msb n d := h
  simp only [f8dOfF32, hv, f8dCode]

/-- R58: the nearest code with its tie rule. -/
theorem f8dCode_nearest (bias : ℤ) (s : Bool) (n : Nat) {d : Nat} (hd : 0 < d) : let r := f8dCode s (f8dNearest bias n d)
    ∃ u, hasF8d bias r u ∧ (u = 0 → r = 0) ∧ ∀ c' u', hasF8d bias c' u' → |sg s * (n / d) - u| ≤ |sg s * (n / d) - u'| ∧
      (|sg s * (n / d) - u| = |sg s * (n / d) - u'| → u ≠ u' → evenF8d r ∧ (evenF8d c' → |u| ≤ |u'|)) := by
  have hy : (0 : ℚ) ≤ n / d := by positivity
  have hspec := f8dNearest_spec bias n hd
  dsimp only at hspec ⊢
  generalize f8dNearest bias n d = b at hspec ⊢
  generalize (n / d : ℚ) = y at hspec hy ⊢
  obtain ⟨hlt, hzero, hbest⟩ := hspec
  obtain ⟨-, -, hmod, -⟩ := f8dCode_fields s hlt
  have habs (p : Nat) (t : Bool) : |sg t * f8dMag bias p| = f8dMag bias p := by rw [abs_sg_mul, abs_of_nonneg (f8dMag_nonneg bias p)]
  have hself (p : Nat) : |sg s * y - sg s * f8dMag bias p| = f8dAway bias y p := by rw [← mul_sub, abs_sg_mul, f8dAway]
  refine ⟨sg s * f8dMag bias b, f8dCode_value bias s hlt, fun h0 => ?_, fun c' u' hc' => ?_⟩
  · have hm : f8dMag bias b = 0 := by
      rcases mul_eq_zero.1 h0 with h | h
      · cases s <;> norm_num at h
      · exact h
    have hb : b = 0 := by
      by_contra hne
      have hunits : f8dUnits 0 < f8dUnits b := f8dUnits_pos b hlt hne
      have := f8dMag_lt (bias := bias).2 hunits
      rw [f8dMag_zero, hm] at this
      exact lt_irrefl _ this
    simp [f8dCode, hb]
  · obtain ⟨-, -, rfl⟩ := (hasF8d_iff bias c' u').1 hc'
    have hp : c' % 128 < 128 := Nat.mod_lt _ (by norm_num)
    obtain ⟨hle, htie⟩ := hbest _ hp
    rw [hself, habs, habs]
    by_cases ht : bitOf c' 7 = s
    · rw [ht, hself]
      refine ⟨hle, fun he hne => ?_⟩
      obtain ⟨heven, hless⟩ := htie he fun e => hne (by rw [e])
      exact ⟨evenF8d_code.2 (by rw [hmod]; exact heven), fun h => hless (evenF8d_code.1 h)⟩
    · have hopp : sg (bitOf c' 7) = -sg s := by cases s <;> cases h : bitOf c' 7 <;> simp_all
      have hfar : |sg s * y - sg (bitOf c' 7) * f8dMag bias (c' % 128)| = y + f8dMag bias (c' % 128) := by
        rw [hopp, neg_mul, sub_neg_eq_add, ← mul_add, abs_sg_mul, abs_of_nonneg (add_nonneg hy (f8dMag_nonneg bias _))]
      have h0 : f8dAway bias y 0 = y := by rw [f8dAway, f8dMag_zero, sub_zero, abs_of_nonneg hy]
      have hb0 : f8dAway bias y b ≤ y := (hbest 0 (by norm_num)).1.trans_eq h0
      rw [hfar]
      refine ⟨hb0.trans (by linarith [f8dMag_nonneg bias (c' % 128)]), fun he hne => absurd ?_ hne⟩
      -- as far as zero: the other code is zero, and so is the one found
      have hm : f8dMag bias (c' % 128) = 0 := le_antisymm (by linarith) (f8dMag_nonneg bias _)
      have hb : b = 0 := hzero.resolve_right (by rw [h0, he, hm, add_zero]; exact lt_irrefl _)
      rw [hb, hm, f8dMag_zero, mul_zero, mul_zero]

/-- R58: past the greatest magnitude. -/
theorem f8dCode_large (bias : ℤ) (s : Bool) (n : Nat) {d : Nat} (hd : 0 < d) (h : 1000 * (10 : ℚ) ^ bias < n / d) :
    f8dCode s (f8dNearest bias n d) = if s then 0x81 else 0x01 := by
  obtain ⟨hlt, -, hbest⟩ := f8dNearest_spec bias n hd
  have h1 := (hbest 1 (by norm_num)).1
  rw [← f8dMag_one] at h
  have hone : f8dNearest bias n d = 1 := by
    refine f8dUnits_max _ hlt (not_lt.1 fun hless => ?_)
    have := f8dMag_lt (bias := bias).2 hless
    rw [f8dAway, f8dAway, abs_of_pos (by linarith), abs_of_pos (by linarith)] at h1
    linarith
  rw [hone]
  cases s <;> rfl

theorem f8dOfF32_values (bias : ℤ) (v : Word) : let r := f8dOfF32 bias v.toNat
    (nanF v → r = 0x80) ∧ (∀ s, f32 v = .inf s → r = if s then 0x81 else 0x01) ∧
    (∀ x, num (f32 v) = some x →
      (∃ u, hasF8d bias r u ∧ (u = 0 → r = 0) ∧
        ∀ c' u', hasF8d bias c' u' → |x - u| ≤ |x - u'| ∧
          (|x - u| = |x - u'| → u ≠ u' → evenF8d r ∧ (evenF8d c' → |u| ≤ |u'|))) ∧
      (1000 * (10 : ℚ) ^ bias < |x| → r = if v.msb then 0x81 else 0x01)) := by
  refine ⟨fun hn => ?_, fun s hs => ?_, fun x hx => ?_⟩
  · have hv : Fmt.f32.value v.toNat = .nan := f32_of_nanF hn
    simp only [f8dOfF32, hv]
  · have hv : Fmt.f32.value v.toNat = .inf s := hs
    simp only [f8dOfF32, hv]
    cases s <;> rfl
  · obtain ⟨n, d, -, hd, hv, -, -, -, rfl⟩ := f32_number hx
    rw [f8dOfF32_number hv, abs_sg_mul, abs_of_nonneg (by positivity)]
    exact ⟨f8dCode_nearest bias v.msb n hd, f8dCode_large bias v.msb n hd⟩

theorem f32OfF8d_values (bias : ℤ) (c : Nat) (x : ℚ) (h : hasF8d bias c x) :
    roundsTo Fmt.f32 ((2 ^ 24 - 1) * 2 ^ 104) (2 ^ 103) (decide (128 ≤ c)) x (f32OfF8d bias c) := by
  obtain ⟨hc, hn, rfl⟩ := (hasF8d_iff bias c x).1 h
  obtain ⟨n, d, hd, hv, hx⟩ := f8dValue_number bias hc hn
  have hs : bitOf c 7 = decide (128 ≤ c) := bitOf_top (w := 8) (by norm_num) hc
  rw [f32OfF8d, hv, ← hx, ← hs]
  exact Fmt.f32_rounds.roundNE_roundsTo _ n hd

theorem facet8_values (bias : ℤ) :
    (f8dValue bias 0x80).isNan = true ∧ num (f8dValue bias 0) = some 0 ∧
    (∀ c < 2 ^ 8, c % 128 ≠ 0 → let z : ℕ := 6 - (c % 128).log2
      let j : ℕ := c % 128 - 2 ^ (6 - z)
      num (f8dValue bias c) = some ((if 128 ≤ c then (-1 : ℚ) else 1) * (1 + 9 * (j : ℚ) / 2 ^ (6 - z)) * (10 : ℚ) ^ ((z : ℤ) - 3 + bias))) ∧
    (∀ c < 2 ^ 8, (f8dValue bias c).isNan = true → f32OfF8d bias c = 0x7FC00000) := by
  refine ⟨rfl, ?_, fun c hc h0 => ?_, fun c _ hn => ?_⟩
  · have : f8dValue bias 0 = .fin false 0 1 := rfl
    rw [this, num_fin]
    simp
  · obtain ⟨n, d, -, hv, hx⟩ := f8dValue_payload bias h0
    intro z j
    have hsign : (if 128 ≤ c then (-1 : ℚ) else 1) = sg (bitOf c 7) := by
      have hs : bitOf c 7 = decide (128 ≤ c) := bitOf_top (w := 8) (by norm_num) hc
      simp [hs, sg]
    rw [hsign, hv, num_fin, hx, mul_assoc]
  · have : f8dValue bias c = .nan := by cases hv : f8dValue bias c <;> simp_all [Ext.isNan]
    rw [f32OfF8d, this]
    rfl

/-! E8M0 (R48, R160). -/

/-- The value of code c, past the last one too. -/
def e8m0Mag (c : Nat) : ℚ := 2 ^ ((c : ℤ) - 127)

theorem e8m0Mag_strictMono : StrictMono e8m0Mag := fun a b h => zpow_lt_zpow_right₀ one_lt_two (by omega)

theorem e8m0Mag_succ (c : Nat) : e8m0Mag (c + 1) = 2 * e8m0Mag c := by
  have : ((c + 1 : Nat) : ℤ) - 127 = 1 + ((c : ℤ) - 127) := by push_cast; ring
  rw [e8m0Mag, e8m0Mag, this, zpow_one_add₀ two_ne_zero]

theorem hasE8m0_iff (c : Nat) (v : ℚ) : hasE8m0 c v ↔ c ≤ 0xFE ∧ v = e8m0Mag c := by
  rw [hasE8m0, Nat.lt_succ_iff]; rfl

/-- A number of at least the smallest power steps on the grid of the powers. -/
theorem e8m0_steps (m : Rm) (n : Nat) {d : Nat} (hd : 0 < d) (h : (2 : ℚ) ^ (-127 : ℤ) ≤ n / d) (sat : Bool) {v : Nat}
    (hv : Fmt.f32.value v = .fin false n d) : ∃ c, e8m0Mag c ≤ n / d ∧ (n / d : ℚ) < e8m0Mag (c + 1) ∧
      let r := c + natOf (stepsUp m false (c % 2 == 1) (between e8m0Mag c (n / d)))
      e8m0OfF32 m sat v = if r ≤ 0xFE then r else if sat then 0xFE else 0xFF := by
  have hd' : (0 : ℚ) < d := by exact_mod_cast hd
  have hn : 0 < n := by
    rcases Nat.eq_zero_or_pos n with rfl | hn
    · have : (0 : ℚ) < 2 ^ (-127 : ℤ) := by positivity
      simp at h
      linarith
    · exact hn
  obtain ⟨hlo, hhi⟩ := log2Frac_bounds hn hd
  set k := log2Frac n d with hk
  have hk127 : -127 ≤ k := by
    have := (zpow_lt_zpow_iff_right₀ (one_lt_two (α := ℚ))).1 (h.trans_lt hhi)
    omega
  obtain ⟨c, hc⟩ : ∃ c : Nat, k + 127 = c := Int.eq_ofNat_of_zero_le (by omega)
  have hkc : k = (c : ℤ) - 127 := by omega
  have hg : (2 : ℚ) ^ k = e8m0Mag c := by rw [hkc]; rfl
  have hg1 : (2 : ℚ) ^ (k + 1) = e8m0Mag (c + 1) := by rw [e8m0Mag]; congr 1; push_cast; omega
  rw [hg] at hlo
  rw [hg1] at hhi
  refine ⟨c, hlo, hhi, ?_⟩
  obtain ⟨hpos, hrem, hx⟩ := quantum_spec n d k hd
  have hpos' : (0 : ℚ) < (quantum n d k).2.2 := by exact_mod_cast hpos
  have hrem0 : (0 : ℚ) ≤ (quantum n d k).2.1 / (quantum n d k).2.2 := by positivity
  have hrem1 : ((quantum n d k).2.1 / (quantum n d k).2.2 : ℚ) < 1 := by rw [div_lt_one hpos']; exact_mod_cast hrem
  have hc0 : 0 < e8m0Mag c := by unfold e8m0Mag; positivity
  rw [hg] at hx
  have hone : (quantum n d k).1 = 1 := by
    have h1 : e8m0Mag c * 1 ≤ e8m0Mag c * ((quantum n d k).1 + (quantum n d k).2.1 / (quantum n d k).2.2) := by
      rw [mul_one, mul_comm, ← hx]; exact hlo
    have h2 : e8m0Mag c * ((quantum n d k).1 + (quantum n d k).2.1 / (quantum n d k).2.2) < e8m0Mag c * 2 := by
      rw [mul_comm, ← hx, mul_comm, ← e8m0Mag_succ]; exact hhi
    have h1 := le_of_mul_le_mul_left h1 hc0
    have h2 := lt_of_mul_lt_mul_left h2 hc0.le
    have h3 : (0 : ℚ) < (quantum n d k).1 := by linarith
    have h4 : ((quantum n d k).1 : ℚ) < 2 := by linarith
    have h3 : 0 < (quantum n d k).1 := by exact_mod_cast h3
    have h4 : (quantum n d k).1 < 2 := by exact_mod_cast h4
    omega
  have hfrac : between e8m0Mag c (n / d) = (quantum n d k).2.1 / (quantum n d k).2.2 := by
    rw [between, hx, hone, e8m0Mag_succ]
    field_simp
    push_cast
    ring
  have hklt : ¬ k < -127 := by omega
  have hcode : (k + 127).toNat = c := by omega
  simp only [e8m0OfF32, hv, hn.ne', if_false, Bool.false_eq_true, ← hk, hklt, hone, Nat.sub_self, Nat.add_zero, hcode,
    roundsUp_eq _ _ _ _ _ hpos, hfrac]

/-- Between the smallest and the largest power: the code that the mode picks. -/
theorem e8m0_picks (m : Rm) {c : Nat} {x : ℚ} (hlo : e8m0Mag c ≤ x) (hhi : x < e8m0Mag (c + 1)) (hmax : x ≤ e8m0Mag 0xFE) :
    let r := c + natOf (stepsUp m false (c % 2 == 1) (between e8m0Mag c x))
    r ≤ 0xFE ∧ picks hasE8m0 m x r := by
  intro r
  have hg := e8m0Mag_strictMono
  have hr : r ≤ c + 1 := by cases h : stepsUp m false (c % 2 == 1) (between e8m0Mag c x) <;> simp [r, h, natOf]
  have hc : c ≤ 0xFE := hg.le_iff_le.1 (hlo.trans hmax)
  by_cases hx : x = e8m0Mag c
  · have hrc : r = c := by simp [r, (between_eq_zero hg).2 hx, stepsUp, natOf]
    rw [hrc]
    exact ⟨hc, picks_of_eq ((hasE8m0_iff c x).2 ⟨hc, hx⟩) m⟩
  have hclt : c < 0xFE := hg.lt_iff_lt.1 ((lt_of_le_of_ne hlo (Ne.symm hx)).trans_le hmax)
  have hr254 : r ≤ 0xFE := hr.trans hclt
  have hpos : 0 < x := lt_of_lt_of_le (by unfold e8m0Mag; positivity) hlo
  refine ⟨hr254, ?_⟩
  have toward (hm : m ≠ .rne) (haway : m.away false = false) : below hasE8m0 x r := by
    rw [show r = c from (grid_directed hg hlo hm false _).1 haway]
    refine ⟨_, (hasE8m0_iff _ _).2 ⟨hc, rfl⟩, hlo, fun c' v' hv hle => ?_⟩
    obtain ⟨-, rfl⟩ := (hasE8m0_iff c' v').1 hv
    exact hg.monotone (le_floor_of_le hg hhi hle)
  cases m with
  | rne =>
    refine ⟨_, (hasE8m0_iff _ _).2 ⟨hr254, rfl⟩, fun c' v' hv => ?_⟩
    obtain ⟨-, rfl⟩ := (hasE8m0_iff c' v').1 hv
    obtain ⟨hle, htie⟩ := grid_nearest_le hg hlo hhi false (c % 2 == 1) c'
    refine ⟨hle, fun he hne => ?_⟩
    have h := (grid_nearest hg hlo hhi false (c % 2 == 1)).2.2 (htie he fun e => hne (by rw [e]))
    change r = _ at h
    simp only [beq_iff_eq] at h
    unfold evenCode
    split at h <;> omega
  | rtz =>
    simp only [picks, if_neg (not_lt.2 hpos.le)]
    exact toward (by decide) rfl
  | rdn => exact toward (by decide) rfl
  | rup =>
    obtain ⟨hle, hmin⟩ := (grid_directed hg hlo (m := .rup) (by decide) false (c % 2 == 1)).2 rfl hhi.le
    refine ⟨_, (hasE8m0_iff _ _).2 ⟨hr254, rfl⟩, hle, fun c' v' hv hx' => ?_⟩
    obtain ⟨-, rfl⟩ := (hasE8m0_iff c' v').1 hv
    exact hg.monotone (hmin c' hx')

theorem e8m0_values (m : Rm) (sat : Bool) (v : Word) : let r := e8m0OfF32 m sat v.toNat
    (nanF v → r = 0xFF) ∧ (∀ s, f32 v = .inf s → r = if s = false ∧ sat = true then 0xFE else 0xFF) ∧
    (∀ x, num (f32 v) = some x →
      (x < 0 → r = 0xFF) ∧ (0 ≤ x → x < 2 ^ (-127 : ℤ) → r = 0) ∧
      (2 ^ (-127 : ℤ) ≤ x → x ≤ 2 ^ 127 → picks hasE8m0 m x r) ∧
      (2 ^ 127 < x → m = .rtz ∨ m = .rdn → r = 0xFE) ∧ (2 ^ 127 < x → m = .rup → r = if sat then 0xFE else 0xFF) ∧
      (2 ^ 127 < x → m = .rne → (x < 3 * 2 ^ 126 → r = 0xFE) ∧ (3 * 2 ^ 126 < x → r = if sat then 0xFE else 0xFF))) := by
  refine ⟨fun hn => ?_, fun s hs => ?_, fun x hx => ?_⟩
  · have hv : Fmt.f32.value v.toNat = .nan := f32_of_nanF hn
    simp only [e8m0OfF32, hv]
  · have hv : Fmt.f32.value v.toNat = .inf s := hs
    simp only [e8m0OfF32, hv]
    cases s <;> simp
  obtain ⟨n, d, k, hd, hv, hk, hmag, -, rfl⟩ := f32_number hx
  have hv' : Fmt.f32.value v.toNat = .fin v.msb n d := hv
  have hy : (0 : ℚ) ≤ n / d := by positivity
  have hlast : e8m0Mag 0xFE = 2 ^ 127 := by norm_num [e8m0Mag]
  have hnext : e8m0Mag (0xFE + 1) = 2 * 2 ^ 127 := by rw [e8m0Mag_succ, hlast]
  have hfirst : (0 : ℚ) < 2 ^ (-127 : ℤ) := by positivity
  cases hs : v.msb with
  | true =>
    rw [hs] at hv'
    simp only [sg_true, neg_mul, one_mul]
    refine ⟨fun hneg => ?_, fun hpos _ => ?_, fun h => ?_, fun h => ?_, fun h => ?_, fun h => ?_⟩
    · have hn : n ≠ 0 := by rintro rfl; simp at hneg
      simp only [e8m0OfF32, hv', hn, if_false, if_true]
    · have hn : n = 0 := by
        have : (n / d : ℚ) = 0 := by linarith
        simpa [hd.ne'] using this
      simp only [e8m0OfF32, hv', hn, if_true]
    all_goals
      have : (0 : ℚ) < 2 ^ 127 := by positivity
      linarith
  | false =>
    rw [hs] at hv'
    simp only [sg_false, one_mul]
    refine ⟨fun hneg => absurd hneg (not_lt.2 hy), fun _ hlt => ?_, fun hge hle => ?_, ?_⟩
    · by_cases hn : n = 0
      · simp only [e8m0OfF32, hv', hn, if_true]
      · have hlog := (log2Frac_bounds (Nat.pos_of_ne_zero hn) hd).1
        have hlt' : log2Frac n d < -127 := (zpow_lt_zpow_iff_right₀ (one_lt_two (α := ℚ))).1 (hlog.trans_lt hlt)
        simp only [e8m0OfF32, hv', hn, if_false, Bool.false_eq_true, hlt', if_true]
    · obtain ⟨c, hlo, hhi, hcode⟩ := e8m0_steps m n hd hge sat hv'
      obtain ⟨hr, hpick⟩ := e8m0_picks m hlo hhi (hlast ▸ hle)
      rw [hcode, if_pos hr]
      exact hpick
    · -- past the last power, and below the one that would follow
      have hge (h : (2 : ℚ) ^ 127 < n / d) : (2 : ℚ) ^ (-127 : ℤ) ≤ n / d := by
        have : (2 : ℚ) ^ (-127 : ℤ) ≤ 2 ^ 127 := by norm_num
        linarith
      have hover : (n / d : ℚ) < e8m0Mag (0xFE + 1) := by
        have h1 : Fmt.f32.mag k ≤ (2 ^ 24 - 1) * 2 ^ 104 := Fmt.f32_rounds.mag_top ▸ Fmt.f32.mag_strictMono.monotone hk
        rw [hmag, hnext]
        exact h1.trans_lt (by norm_num)
      have hg := e8m0Mag_strictMono
      have hsteps (h : (2 : ℚ) ^ 127 < n / d) : let r := 0xFE + natOf (stepsUp m false false (between e8m0Mag 0xFE (n / d)))
          e8m0OfF32 m sat v.toNat = if r ≤ 0xFE then r else if sat then 0xFE else 0xFF := by
        obtain ⟨c, hlo, hhi, hcode⟩ := e8m0_steps m n hd (hge h) sat hv'
        have hc : c = 0xFE := by
          have h1 := hg.lt_iff_lt.1 (hlo.trans_lt hover)
          have h2 := hg.lt_iff_lt.1 ((hlast.trans_lt h).trans hhi)
          omega
        subst hc
        exact hcode
      have hlo (h : (2 : ℚ) ^ 127 < n / d) : e8m0Mag 0xFE ≤ n / d := hlast.trans_le h.le
      refine ⟨fun h hm => ?_, fun h hm => ?_, fun h hm => ⟨fun hlt => ?_, fun hgt => ?_⟩⟩
      · have hr := (grid_directed hg (hlo h) (m := m) (by rcases hm with rfl | rfl <;> decide) false false).1 (by rcases hm with rfl | rfl <;> rfl)
        rw [hsteps h, hr, if_pos le_rfl]
      · subst hm
        obtain ⟨hle, -⟩ := (grid_directed hg (hlo h) (m := .rup) (by decide) false false).2 rfl hover.le
        rw [hsteps h, if_neg]
        intro hr
        have := hle.trans (hg.monotone hr)
        rw [hlast] at this
        exact absurd h (not_lt.2 this)
      · subst hm
        have hr := (grid_nearest hg (hlo h) hover false false).2.1 (by rw [hnext, hlast]; linarith)
        rw [hsteps h, hr, if_pos le_rfl]
      · subst hm
        have hr := (grid_nearest hg (hlo h) hover false false).1 (by rw [hnext, hlast]; linarith)
        rw [hsteps h, hr, if_neg (by norm_num)]

/-- R52, R55, R58, R160: Facet-8 and E8M0 by value. -/
theorem decimalAndScaleValues : DecimalAndScaleValues := by
  refine ⟨fun bias _ _ => ?_, e8m0_values⟩
  obtain ⟨hnan, hzero, hpayload, hwiden⟩ := facet8_values bias
  exact ⟨hnan, hzero, hpayload, f8dOfF32_values bias, hwiden, f32OfF8d_values bias⟩

end Sys2Proof.Machine

open Sys2Proof Sys2Proof.Machine Sys2Proof.Claim

/-- Settles O8: the magnitudes of a format, the integers, the payloads of Facet-8 and the powers of E8M0 are rising grids, and every
rounding picks the grid point that its mode names. -/
theorem Sys2Proof.Machine.roundedValues : Obligations.RoundedValues :=
  ⟨roundingValues, minMaxScaleDotValues, conversionValues, decimalAndScaleValues⟩
end

section
/-! PROOFS. What a wavefront adds, by value (R50, R51, R68 to R75). -/

namespace Sys2Proof.Machine

open Sys2Proof.Claim

/-! Products (R50, R51, R68). -/

theorem num_e8m0Value {c : Nat} (h : c < 255) : num (e8m0Value c) = some (2 ^ ((c : ℤ) - 127)) := by
  rw [e8m0Value, if_neg (by omega), num_scaled]
  simp

theorem Ext.eq_nan {x : Ext} (h : x.isNan = true) : x = .nan := by cases x <;> simp_all [Ext.isNan]

theorem isEscape_iff (i : ColIn) (k : Nat) : i.isEscape k = true ↔ i.f / 2 ^ 17 % 2 = 1 ∧ elemCode 2 i.a k = 8 := by
  simp [ColIn.isEscape, aesc, bitOf]

section
variable (i : ColIn) (k : Nat)

/-- The element of B with its scale. -/
def ColIn.scaledB : Ext :=
  (elemValue (bfmt i.f) (i.f / 4096 % 16) (elemCode (bfmt i.f) i.b k)).mul (e8m0Value (scaleOf (bfmt i.f) i.bscales k))

theorem prod_escape (h : i.isEscape k = true) : i.prod k =
    ⟨(if scaleOf (afmt i.f) i.ascales k = 255 then .nan else (outlier i.asides k).getD (.fin false 0 1)).mul (i.scaledB k), true,
      (scaleOf (afmt i.f) i.ascales k : ℤ) - 127 + ((scaleOf (bfmt i.f) i.bscales k : ℤ) - 127)⟩ := by
  simp only [ColIn.prod, h, if_true]
  rfl

theorem prod_plain (h : i.isEscape k = false) : i.prod k =
    ⟨((elemValue (afmt i.f) (i.f / 256 % 16) (elemCode (afmt i.f) i.a k)).mul (e8m0Value (scaleOf (afmt i.f) i.ascales k))).mul (i.scaledB k),
      false, (scaleOf (afmt i.f) i.ascales k : ℤ) - 127 + ((scaleOf (bfmt i.f) i.bscales k : ℤ) - 127)⟩ := by
  simp only [ColIn.prod, h, Bool.false_eq_true, if_false]
  rfl

theorem scaledB_nan (h : scaleOf (bfmt i.f) i.bscales k = 255 ∨
    (elemValue (bfmt i.f) (i.f / 4096 % 16) (elemCode (bfmt i.f) i.b k)).isNan = true) : i.scaledB k = .nan := by
  unfold ColIn.scaledB
  rcases h with h | h
  · rw [h]; exact Ext.mul_nan _
  · rw [Ext.eq_nan h]; exact Ext.nan_mul _

theorem num_scaledB (h : scaleOf (bfmt i.f) i.bscales k < 255) {y : ℚ}
    (hy : num (elemValue (bfmt i.f) (i.f / 4096 % 16) (elemCode (bfmt i.f) i.b k)) = some y) :
    num (i.scaledB k) = some (y * 2 ^ ((scaleOf (bfmt i.f) i.bscales k : ℤ) - 127)) := num_mul_eq hy (num_e8m0Value h)

/-- R50, R51, R68: a product by value. -/
theorem prod_values :
    let a := elemValue (afmt i.f) (i.f / 256 % 16) (elemCode (afmt i.f) i.a k)
    let b := elemValue (bfmt i.f) (i.f / 4096 % 16) (elemCode (bfmt i.f) i.b k)
    let sa := if fmtScaled (afmt i.f) then (i.ascales.getD (k / 32) 0).toNat else 127
    let sb := if fmtScaled (bfmt i.f) then (i.bscales.getD (k / 32) 0).toNat else 127
    let escape : Prop := i.f / 2 ^ 17 % 2 = 1 ∧ elemCode 2 i.a k = 8
    let p := i.prod k
    (p.escape = true ↔ escape) ∧
    (sb < 255 → sa < 255 → p.xsum = (sa : ℤ) - 127 + ((sb : ℤ) - 127)) ∧
    (sa = 255 ∨ sb = 255 ∨ b.isNan = true ∨ (¬escape ∧ a.isNan = true) → p.val.isNan = true) ∧
    (¬escape → sa < 255 → sb < 255 → ∀ x y, num a = some x → num b = some y →
      num p.val = some (x * y * (2 : ℚ) ^ ((sa : ℤ) - 127 + ((sb : ℤ) - 127)))) ∧
    (escape → sa < 255 → sb < 255 → ∀ o, outlier i.asides k = some o →
      (o.isNan = true → p.val.isNan = true) ∧
      (∀ z y, num o = some z → num b = some y → num p.val = some (z * y * (2 : ℚ) ^ ((sb : ℤ) - 127)))) ∧
    (escape → sa < 255 → sb < 255 → outlier i.asides k = none → ∀ y, num b = some y → num p.val = some 0) := by
  intro a b sa sb escape p
  have hesc : i.isEscape k = true ↔ escape := isEscape_iff i k
  have hsa : scaleOf (afmt i.f) i.ascales k = sa := rfl
  have hsb : scaleOf (bfmt i.f) i.bscales k = sb := rfl
  have hnanB (h : sb = 255 ∨ b.isNan = true) : i.scaledB k = .nan := scaledB_nan i k h
  by_cases he : i.isEscape k = true
  · have hp : p = ⟨(if sa = 255 then .nan else (outlier i.asides k).getD (.fin false 0 1)).mul (i.scaledB k), true, (sa : ℤ) - 127 + ((sb : ℤ) - 127)⟩ :=
      prod_escape i k he
    have hes := hesc.1 he
    rw [hp]
    refine ⟨iff_of_true rfl hes, fun _ _ => rfl, ?_, fun h => absurd hes h, fun _ hlt hltb o ho => ⟨fun hn => ?_, fun z y hz hy => ?_⟩,
      fun _ hlt hltb ho y hy => ?_⟩
    · rintro (h | h | h | ⟨h, -⟩)
      · simp [h, Ext.isNan]
      · simp [hnanB (.inl h), Ext.isNan]
      · simp [hnanB (.inr h), Ext.isNan]
      · exact absurd hes h
    · simp [hlt.ne, ho, Ext.eq_nan hn, Ext.isNan]
    · have := num_mul_eq hz (num_scaledB i k hltb hy)
      rw [← mul_assoc, hsb] at this
      simpa only [if_neg hlt.ne, ho, Option.getD_some] using this
    · have hzero : num (Ext.fin false 0 1) = some 0 := by simp
      have := num_mul_eq hzero (num_scaledB i k hltb hy)
      rw [zero_mul] at this
      simpa only [if_neg hlt.ne, ho, Option.getD_none] using this
  · have hp : p = ⟨(a.mul (e8m0Value sa)).mul (i.scaledB k), false, (sa : ℤ) - 127 + ((sb : ℤ) - 127)⟩ :=
      prod_plain i k (by simpa using he)
    have hes : ¬escape := fun h => he (hesc.2 h)
    rw [hp]
    refine ⟨iff_of_false (by simp) hes, fun _ _ => rfl, ?_, fun _ hlt hltb x y hx hy => ?_, fun h => absurd h hes, fun h => absurd h hes⟩
    · rintro (h | h | h | ⟨-, h⟩)
      · simp [h, e8m0Value, Ext.isNan]
      · simp [hnanB (.inl h), Ext.isNan]
      · simp [hnanB (.inr h), Ext.isNan]
      · simp [Ext.eq_nan h, Ext.isNan]
    · have := num_mul_eq (num_mul_eq hx (num_e8m0Value hlt)) (num_scaledB i k hltb hy)
      rw [this, hsb, zpow_add₀ two_ne_zero]
      congr 1
      ring

end

/-! The column word (R69, R70). -/

theorem maxInt_eq_some {l : List Int} {x : Int} (hmem : x ∈ l) (hmax : ∀ y ∈ l, y ≤ x) : maxInt l = some x := by
  induction l with
  | nil => exact absurd hmem List.not_mem_nil
  | cons y l ih =>
    obtain ⟨hy, hl⟩ := List.forall_mem_cons.1 hmax
    have hle (z : Int) (hz : maxInt l = some z) : z ∈ l := by
      clear ih hmax hmem hy hl
      induction l generalizing z with
      | nil => simp [maxInt] at hz
      | cons w l ih =>
        simp only [maxInt] at hz
        split at hz
        · simp only [Option.some_inj] at hz
          simp [hz]
        · next v hv =>
          simp only [Option.some_inj] at hz
          rcases max_choice w v with h | h
          · simp [← hz, h]
          · simp [← hz, h, ih v hv]
    simp only [maxInt]
    rcases List.mem_cons.1 hmem with rfl | hmem
    · split
      · rfl
      · next z hz => rw [max_eq_left (hl z (hle z hz))]
    · rw [ih hmem hl]
      simp only [max_eq_right hy]

theorem truncTo_eq (l : ℤ) (n : Nat) {d : Nat} (hd : 0 < d) : (truncTo l n d : ℤ) = ⌊(n / d : ℚ) / 2 ^ l⌋ := by
  obtain ⟨hpos, hrem, hx⟩ := quantum_spec n d l hd
  have hpos' : (0 : ℚ) < (quantum n d l).2.2 := by exact_mod_cast hpos
  have hrem0 : (0 : ℚ) ≤ (quantum n d l).2.1 / (quantum n d l).2.2 := by positivity
  have hrem1 : ((quantum n d l).2.1 / (quantum n d l).2.2 : ℚ) < 1 := by rw [div_lt_one hpos']; exact_mod_cast hrem
  have hpow : (2 : ℚ) ^ l ≠ 0 := by positivity
  symm
  rw [Int.floor_eq_iff, hx, mul_div_assoc, div_self hpow, mul_one, truncTo]
  constructor
  · push_cast; linarith
  · push_cast; linarith

theorem cut_eq (l : ℤ) (s : Bool) (n : Nat) {d : Nat} (hd : 0 < d) : cut l (sg s * (n / d)) = sg s * truncTo l n d * 2 ^ l := by
  have hy : (0 : ℚ) ≤ n / d := by positivity
  have htrunc : (truncTo l n d : ℚ) = ((⌊(n / d : ℚ) / 2 ^ l⌋ : ℤ) : ℚ) := by rw [← truncTo_eq l n hd]; push_cast; rfl
  rw [cut, abs_sg_mul, abs_of_nonneg hy, htrunc]
  rcases eq_or_lt_of_le hy with h0 | hpos
  · simp [← h0]
  · have hfactor : (if sg s * (n / d : ℚ) < 0 then (-1 : ℚ) else 1) = sg s := by
      have := decide_sg_mul_neg s hpos
      cases s <;> simp_all
    rw [hfactor]

section
variable {ps : List Prod} (hfin : ∀ p ∈ ps, finite p.val)
include hfin

theorem sumFinite_spec : finite (sumFinite (ps.map (·.val))) ∧ num (sumFinite (ps.map (·.val))) = some (ps.map valueOf).sum := by
  have along (l : List Prod) (hl : ∀ p ∈ l, finite p.val) : ∀ (a : Ext) (v : ℚ), finite a → num a = some v → ∀ g : Ext → Ext → Ext,
      (∀ a s n d, g a (.fin s n d) = a.add (.fin s n d)) →
      finite ((l.map (·.val)).foldl g a) ∧ num ((l.map (·.val)).foldl g a) = some (v + (l.map valueOf).sum) := by
    induction l with
    | nil => intro a v ha hv g _; exact ⟨ha, by simpa using hv⟩
    | cons p l ih =>
      intro a v ha hv g hg
      obtain ⟨hp, hl⟩ := List.forall_mem_cons.1 hl
      have hval := num_of_finite hp
      obtain ⟨s, n, d, hpv, hd⟩ := hp
      have hstep : g a p.val = a.add p.val := by rw [hpv, hg]
      rw [List.map_cons, List.foldl_cons, hstep, List.map_cons, List.sum_cons, ← add_assoc]
      have hp : finite p.val := ⟨s, n, d, hpv, hd⟩
      exact ih hl _ _ (finite_add ha hp) (num_add_eq ha hp hv hval) g hg
  have := along ps hfin (.fin false 0 1) 0 (finite_fin _ _ one_pos) (by simp) (fun a p => match p with
    | .fin _ _ _ => a.add p
    | _ => a) (fun _ _ _ _ => rfl)
  rwa [zero_add] at this

/-- The sum of the products in units of 2^l, each cut toward zero. -/
theorem truncated_sum (l : ℤ) {g : ℤ → Prod → ℤ}
    (hg : ∀ a p s n d, p.val = .fin s n d → g a p = if s then a - truncTo l n d else a + truncTo l n d) (w : ℤ) :
    ((ps.foldl g w : ℤ) : ℚ) * 2 ^ l = w * 2 ^ l + ((ps.map valueOf).map (cut l)).sum := by
  induction ps generalizing w with
  | nil => simp
  | cons p ps ih =>
    obtain ⟨⟨s, n, d, hp, hd⟩, hps⟩ := List.forall_mem_cons.1 hfin
    have hval : valueOf p = sg s * (n / d) := by rw [valueOf, hp, num_fin]; rfl
    rw [List.foldl_cons, hg w p s n d hp, ih hps, List.map_cons, List.map_cons, List.sum_cons, hval, cut_eq l s n hd]
    cases s <;> simp [sg] <;> ring

end

theorem num_scaled_int (w l : ℤ) : num (scaled (decide (w < 0)) w.natAbs l) = some ((w : ℚ) * 2 ^ l) := by
  rw [num_scaled, ← mul_assoc, Nat.cast_natAbs]
  by_cases h : w < 0
  · simp [h, abs_of_neg h]
  · simp [h, abs_of_nonneg (not_lt.1 h)]

theorem fmtM_eq (c : Nat) : fmtM c = boundM c := rfl

/-- The binary exponents of the products other than zero. -/
def exponents (ps : List Prod) : List ℤ := ps.filterMap fun p =>
  match p.val with
  | .fin _ n d => if n = 0 then none else some (log2Frac n d)
  | _ => none

theorem mem_exponents {ps : List Prod} {k : ℤ} :
    k ∈ exponents ps ↔ ∃ p ∈ ps, ∃ s n d, p.val = .fin s n d ∧ n ≠ 0 ∧ log2Frac n d = k := by
  rw [exponents, List.mem_filterMap]
  refine exists_congr fun p => and_congr_right fun _ => ?_
  cases p.val with
  | fin s n d =>
    by_cases hn : n = 0
    · simp [hn]
    · simp [hn]
  | nan | inf => simp

/-- The exponent of R69 and R70 that the truncation is measured from. -/
def columnTop (f : Nat) (ps : List Prod) : Option ℤ :=
  if fmtGroup (afmt f) = 3 then (maxInt (exponents (ps.filter fun p => !p.escape))).map (· + 1)
  else (maxInt (ps.map (·.xsum))).map (· + fmtM (afmt f) + fmtM (bfmt f))

section
variable {f : Nat} {ps : List Prod}

theorem columnWord_zero (hg : fmtGroup (afmt f) ≠ 1) (ht : columnTop f ps = none) : num (columnWord f ps) = some 0 := by
  unfold columnWord
  simp only [hg, if_false]
  split
  · simp
  · next t h =>
    have h : columnTop f ps = some t := h
    rw [ht] at h
    cases h

/-- The column word is the sum of the products cut at the anchor. -/
theorem columnWord_cut (hfin : ∀ p ∈ ps.filter fun p => !p.escape, finite p.val) (hg : fmtGroup (afmt f) ≠ 1) {t : ℤ} (ht : columnTop f ps = some t) :
    num (columnWord f ps) =
      some (((ps.filter fun p => !p.escape).map valueOf).map (cut (t + (Nat.log2 (kstep f) : ℤ) - 63))).sum := by
  unfold columnWord
  simp only [hg, if_false]
  split
  · next h =>
    have h : columnTop f ps = none := h
    rw [ht] at h
    cases h
  · next t' h =>
    have h : columnTop f ps = some t' := h
    rw [ht, Option.some_inj] at h
    subst h
    rw [num_scaled_int, truncated_sum hfin _ (fun a p s n d hp => by simp only [hp])]
    simp

theorem columnTop_of_bound (hg : fmtGroup (afmt f) = 0) {x : ℤ} (hmax : ∀ p ∈ ps, p.xsum ≤ x) (hmem : ∃ p ∈ ps, p.xsum = x) :
    columnTop f ps = some (boundM (afmt f) + boundM (bfmt f) + x) := by
  have h3 : fmtGroup (afmt f) ≠ 3 := by rw [hg]; norm_num
  have hx : maxInt (ps.map (·.xsum)) = some x := maxInt_eq_some (List.mem_map.2 hmem) (by simpa using hmax)
  rw [columnTop, if_neg h3, hx, Option.map_some, fmtM_eq, fmtM_eq]
  congr 1
  ring

theorem columnTop_none (hg : fmtGroup (afmt f) = 3)
    (hzero : ∀ v ∈ (ps.filter fun p => !p.escape).map valueOf, v = 0) (hfin : ∀ p ∈ ps.filter fun p => !p.escape, finite p.val) :
    columnTop f ps = none := by
  have hnil : exponents (ps.filter fun p => !p.escape) = [] := by
    rw [List.eq_nil_iff_forall_not_mem]
    intro k hk
    obtain ⟨p, hp, s, n, d, hv, hn, -⟩ := mem_exponents.1 hk
    obtain ⟨s', n', d', hv', hd⟩ := hfin p hp
    rw [hv, Ext.fin.injEq] at hv'
    obtain ⟨rfl, rfl, rfl⟩ := hv'
    have h0 := hzero _ (List.mem_map_of_mem hp)
    rw [valueOf, hv, num_fin, Option.getD_some, sg_div_eq_zero s n hd] at h0
    exact hn h0
  rw [columnTop, if_pos hg, hnil]
  rfl

/-- For 16-bit floats the anchor is the binade above the greatest product. -/
theorem columnTop_of_binade (hg : fmtGroup (afmt f) = 3) (hfin : ∀ p ∈ ps.filter fun p => !p.escape, finite p.val) {t : ℤ}
    (hlt : ∀ v ∈ (ps.filter fun p => !p.escape).map valueOf, |v| < 2 ^ t)
    (hge : ∃ v ∈ (ps.filter fun p => !p.escape).map valueOf, 2 ^ (t - 1) ≤ |v|) : columnTop f ps = some t := by
  have habs {p : Prod} {s : Bool} {n d : Nat} (hv : p.val = .fin s n d) : |valueOf p| = n / d := by
    rw [valueOf, hv, num_fin, Option.getD_some, abs_sg_mul, abs_of_nonneg (by positivity)]
  have hmax : maxInt (exponents (ps.filter fun p => !p.escape)) = some (t - 1) := by
    refine maxInt_eq_some ?_ fun k hk => ?_
    · obtain ⟨v, hv, hle⟩ := hge
      obtain ⟨p, hp, rfl⟩ := List.mem_map.1 hv
      have hless := hlt _ hv
      obtain ⟨s, n, d, hval, hd⟩ := hfin p hp
      rw [habs hval] at hle hless
      have hn : n ≠ 0 := by
        rintro rfl
        have : (0 : ℚ) < 2 ^ (t - 1) := by positivity
        simp at hle
        linarith
      obtain ⟨hlo, hhi⟩ := log2Frac_bounds (Nat.pos_of_ne_zero hn) hd
      exact mem_exponents.2 ⟨p, hp, s, n, d, hval, hn, binade_unique hlo hhi hle (by rwa [sub_add_cancel])⟩
    · obtain ⟨p, hp, s, n, d, hval, hn, rfl⟩ := mem_exponents.1 hk
      obtain ⟨s', n', d', hval', hd⟩ := hfin p hp
      rw [hval, Ext.fin.injEq] at hval'
      obtain ⟨rfl, rfl, rfl⟩ := hval'
      have hless := hlt _ (List.mem_map_of_mem hp)
      rw [habs hval] at hless
      have := (zpow_lt_zpow_iff_right₀ (one_lt_two (α := ℚ))).1 ((log2Frac_bounds (Nat.pos_of_ne_zero hn) hd).1.trans_lt hless)
      omega
  rw [columnTop, if_pos hg, hmax, Option.map_some, sub_add_cancel]

/-- R69, R70: the column word is a number, the one the spec says. -/
theorem columnWord_isColumn (hfin : ∀ p ∈ ps, p.escape = false → finite p.val) :
    ∃ q, num (columnWord f ps) = some q ∧ isColumn f ps q := by
  have hmain : ∀ p ∈ ps.filter fun p => !p.escape, finite p.val := fun p hp => by
    obtain ⟨hp, he⟩ := List.mem_filter.1 hp
    exact hfin p hp (by simpa using he)
  by_cases hg : fmtGroup (afmt f) = 1
  · have hword : columnWord f ps = sumFinite ((ps.filter fun p => !p.escape).map (·.val)) := by simp only [columnWord, hg, if_true]
    refine ⟨_, by rw [hword, (sumFinite_spec hmain).2], fun _ => rfl, fun h => ?_, fun h => ?_, fun h => ?_⟩
    all_goals rw [hg] at h; exact absurd h (by norm_num)
  cases ht : columnTop f ps with
  | none =>
    refine ⟨0, columnWord_zero hg ht, fun h => absurd h hg, fun h x hmax hmem => ?_, fun _ _ => rfl, fun h t hlt hge => ?_⟩
    · rw [columnTop_of_bound h hmax hmem] at ht
      cases ht
    · rw [columnTop_of_binade h hmain hlt hge] at ht
      cases ht
  | some t =>
    refine ⟨_, columnWord_cut hmain hg ht, fun h => absurd h hg, fun h x hmax hmem => ?_, fun h hzero => ?_, fun h t' hlt hge => ?_⟩
    · rw [columnTop_of_bound h hmax hmem, Option.some_inj] at ht
      rw [ht]
    · rw [columnTop_none h hzero hmain] at ht
      cases ht
    · rw [columnTop_of_binade h hmain hlt hge, Option.some_inj] at ht
      rw [ht]

end

end Sys2Proof.Machine
end

section
namespace Sys2Proof.Machine

open Sys2Proof.Claim

/-! The running sum after a wavefront (R72, R74). -/

/-- One addition into the running sum. -/
def asumAdd (a : Nat) (x : Ext) : Nat := Fmt.asum.roundNE ((Fmt.asum.value a).add x)

/-- The signs of the infinite products of the column. -/
def infinities (ps : List Prod) : List Bool := (ps.filter fun p => !p.escape).filterMap fun p =>
  match p.val with
  | .inf s => some s
  | _ => none

theorem mem_infinities {ps : List Prod} {s : Bool} : s ∈ infinities ps ↔ ∃ p ∈ ps, p.escape = false ∧ p.val = .inf s := by
  rw [infinities, List.mem_filterMap]
  constructor
  · rintro ⟨p, hp, h⟩
    obtain ⟨hmem, he⟩ := List.mem_filter.1 hp
    refine ⟨p, hmem, by simpa using he, ?_⟩
    cases hv : p.val <;> simp_all
  · rintro ⟨p, hp, he, hv⟩
    exact ⟨p, List.mem_filter.2 ⟨hp, by simp [he]⟩, by simp [hv]⟩

section
variable {f sum : Nat} {ps : List Prod}

theorem asumStep_nan (h : ∃ p ∈ ps, p.val.isNan = true) : asumStep f sum ps = Fmt.asum.nan := by
  have : (ps.any fun p => p.val.isNan) = true := by simpa using h
  simp only [asumStep, this, if_true]

/-- Without a NaN: the column word or its infinity is added, then the escapes in their order. -/
theorem asumStep_eq (h : ∀ p ∈ ps, p.val.isNan = false) : asumStep f sum ps =
    ((ps.filter (·.escape)).map (·.val)).foldl asumAdd
      (match infinities ps with
       | [] => asumAdd sum (Fmt.asum.value (Fmt.asum.roundNE (columnWord f ps)))
       | s :: rest => if rest.any (· != s) then Fmt.asum.nan else asumAdd sum (.inf s)) := by
  have : (ps.any fun p => p.val.isNan) = false := by simpa using h
  simp only [asumStep, this, Bool.false_eq_true, if_false, List.foldl_map]
  rfl

end

theorem asum_nan_value : Fmt.asum.value Fmt.asum.nan = .nan := by decide
theorem asum_inf_value (s : Bool) : Fmt.asum.value (Fmt.asum.roundNE (.inf s)) = .inf s := by cases s <;> decide

theorem asumAdd_nan {a : Nat} {x : Ext} (h : Fmt.asum.value a = .nan ∨ x = .nan) : Fmt.asum.value (asumAdd a x) = .nan := by
  have : (Fmt.asum.value a).add x = .nan := by rcases h with h | h <;> simp [h]
  rw [asumAdd, this]
  exact asum_nan_value

theorem asumAdd_inf {a : Nat} {x : Ext} {s : Bool} (h : (Fmt.asum.value a).add x = .inf s) : Fmt.asum.value (asumAdd a x) = .inf s := by
  rw [asumAdd, h, asum_inf_value]

theorem Ext.inf_add {s : Bool} {x : Ext} (hn : x.isNan = false) : (Ext.inf s).add x = if x = .inf (!s) then .nan else .inf s := by
  cases x with
  | nan => simp [Ext.isNan] at hn
  | inf t => cases s <;> cases t <;> simp [Ext.add]
  | fin => simp [Ext.add]

/-- A NaN stays. -/
theorem foldl_asumAdd_nan {a : Nat} (h : Fmt.asum.value a = .nan) (xs : List Ext) : Fmt.asum.value (xs.foldl asumAdd a) = .nan := by
  induction xs generalizing a with
  | nil => exact h
  | cons x xs ih => exact ih (asumAdd_nan (.inl h))

/-- An infinity stays where nothing opposes it. -/
theorem foldl_asumAdd_inf {a : Nat} {s : Bool} (h : Fmt.asum.value a = .inf s) {xs : List Ext}
    (hxs : ∀ x ∈ xs, x.isNan = false ∧ x ≠ .inf (!s)) : Fmt.asum.value (xs.foldl asumAdd a) = .inf s := by
  induction xs generalizing a with
  | nil => exact h
  | cons x xs ih =>
    obtain ⟨⟨hn, hne⟩, hxs⟩ := List.forall_mem_cons.1 hxs
    exact ih (asumAdd_inf (by rw [h, Ext.inf_add hn, if_neg hne])) hxs

/-- An infinity and its opposite give a NaN. -/
theorem foldl_asumAdd_opposed {a : Nat} {s : Bool} (h : Fmt.asum.value a = .inf s) {xs : List Ext} (hn : ∀ x ∈ xs, x.isNan = false)
    (hmem : Ext.inf (!s) ∈ xs) : Fmt.asum.value (xs.foldl asumAdd a) = .nan := by
  induction xs generalizing a with
  | nil => exact absurd hmem List.not_mem_nil
  | cons x xs ih =>
    obtain ⟨hx, hn⟩ := List.forall_mem_cons.1 hn
    by_cases hop : x = .inf (!s)
    · refine foldl_asumAdd_nan ?_ xs
      rw [asumAdd, h, Ext.inf_add hx, if_pos hop]
      exact asum_nan_value
    · exact ih (asumAdd_inf (by rw [h, Ext.inf_add hx, if_neg hop])) hn ((List.mem_cons.1 hmem).resolve_left (Ne.symm hop))

section
variable (f sum : Nat) (ps : List Prod)

/-- R72: finite products of the column. -/
theorem asumStep_finite (hfin : ∀ p ∈ ps, p.escape = false → finite p.val) (hn : ∀ p ∈ ps, p.val.isNan = false) :
    ∃ (w : Ext) (q : ℚ), num w = some q ∧ isColumn f ps q ∧
      let add (c : Nat) (x : Ext) : Nat := Fmt.asum.roundNE ((Fmt.asum.value c).add x)
      asumStep f sum ps = ((ps.filter (·.escape)).map (·.val)).foldl add (add sum (Fmt.asum.value (Fmt.asum.roundNE w))) := by
  obtain ⟨q, hq, hcol⟩ := columnWord_isColumn (f := f) hfin
  have hinf : infinities ps = [] := by
    rw [List.eq_nil_iff_forall_not_mem]
    intro s hs
    obtain ⟨p, hp, he, hv⟩ := mem_infinities.1 hs
    obtain ⟨_, _, _, hv', -⟩ := hfin p hp he
    rw [hv] at hv'
    cases hv'
  refine ⟨columnWord f ps, q, hq, hcol, ?_⟩
  rw [asumStep_eq hn, hinf]
  rfl

/-- The escapes' values. -/
theorem escape_values_of {P : Ext → Prop} (h : ∀ p ∈ ps, P p.val) : ∀ x ∈ (ps.filter (·.escape)).map (·.val), P x := by
  intro x hx
  obtain ⟨p, hp, rfl⟩ := List.mem_map.1 hx
  exact h p (List.mem_filter.1 hp).1

/-- Infinite products of one sign in the column: that infinity is added. -/
theorem asumStep_inf {s : Bool} (hn : ∀ p ∈ ps, p.val.isNan = false) (hs : ∃ p ∈ ps, p.escape = false ∧ p.val = .inf s)
    (hone : ∀ p ∈ ps, p.escape = false → p.val ≠ .inf (!s)) :
    asumStep f sum ps = ((ps.filter (·.escape)).map (·.val)).foldl asumAdd (asumAdd sum (.inf s)) := by
  have hall : ∀ t ∈ infinities ps, t = s := fun t ht => by
    obtain ⟨p, hp, he, hv⟩ := mem_infinities.1 ht
    have := hone p hp he
    rw [hv] at this
    cases s <;> cases t <;> simp_all
  have hmem := mem_infinities.2 hs
  rw [asumStep_eq hn]
  cases hl : infinities ps with
  | nil => rw [hl] at hmem; exact absurd hmem List.not_mem_nil
  | cons t rest =>
    rw [hl] at hall
    obtain ⟨rfl, hrest⟩ := List.forall_mem_cons.1 hall
    have hany : (rest.any (· != t)) = false := by simpa using hrest
    simp only [hany, Bool.false_eq_true, if_false]

/-- Infinite products of both signs in the column. -/
theorem asumStep_both {s : Bool} (hn : ∀ p ∈ ps, p.val.isNan = false) (hs : ∃ p ∈ ps, p.escape = false ∧ p.val = .inf s)
    (ht : ∃ p ∈ ps, p.escape = false ∧ p.val = .inf (!s)) : Fmt.asum.value (asumStep f sum ps) = .nan := by
  have hs := mem_infinities.2 hs
  have ht := mem_infinities.2 ht
  rw [asumStep_eq hn]
  refine foldl_asumAdd_nan ?_ _
  cases hl : infinities ps with
  | nil => rw [hl] at hs; exact absurd hs List.not_mem_nil
  | cons u rest =>
    rw [hl] at hs ht
    have hany : (rest.any (· != u)) = true := by
      rw [List.any_eq_true]
      rcases Bool.eq_or_eq_not u s with h | h
      · exact ⟨!s, (List.mem_cons.1 ht).resolve_left (by cases s <;> simp [h]), by cases s <;> simp [h]⟩
      · exact ⟨s, (List.mem_cons.1 hs).resolve_left (by cases s <;> simp [h]), by cases s <;> simp [h]⟩
    simp only [hany, if_true]
    exact asum_nan_value

/-- An infinite product in the column against the opposite one anywhere. -/
theorem asumStep_opposed {s : Bool} (hn : ∀ p ∈ ps, p.val.isNan = false) (hs : ∃ p ∈ ps, p.escape = false ∧ p.val = .inf s)
    (ht : ∃ p ∈ ps, p.val = .inf (!s)) : Fmt.asum.value (asumStep f sum ps) = .nan := by
  by_cases hboth : ∃ p ∈ ps, p.escape = false ∧ p.val = .inf (!s)
  · exact asumStep_both f sum ps hn hs hboth
  obtain ⟨p, hp, hv⟩ := ht
  have he : p.escape = true := by
    by_contra he
    exact hboth ⟨p, hp, by simpa using he, hv⟩
  rw [asumStep_inf f sum ps hn hs fun q hq he hv => hboth ⟨q, hq, he, hv⟩]
  by_cases hsum : Fmt.asum.value (asumAdd sum (.inf s)) = .nan
  · exact foldl_asumAdd_nan hsum _
  · have hinf : Fmt.asum.value (asumAdd sum (.inf s)) = .inf s := by
      refine asumAdd_inf ?_
      have hsn : (Fmt.asum.value sum).isNan = false := by
        by_contra h
        exact hsum (asumAdd_nan (.inl (Ext.eq_nan (by simpa using h))))
      rw [Ext.add_comm, Ext.inf_add hsn]
      refine if_neg fun h => hsum ?_
      rw [asumAdd, h]
      cases s <;> exact asum_nan_value
    refine foldl_asumAdd_opposed hinf (escape_values_of ps (P := fun x => x.isNan = false) hn) ?_
    exact List.mem_map.2 ⟨p, List.mem_filter.2 ⟨hp, he⟩, hv⟩

/-- R74: the special values of the running sum. -/
theorem asumStep_special : let r := Fmt.asum.value (asumStep f sum ps)
    ((Fmt.asum.value sum).isNan = true ∨ (∃ p ∈ ps, p.val.isNan = true) ∨
      ((∃ p ∈ ps, p.escape = false ∧ p.val = .inf true) ∧ ∃ p ∈ ps, p.val = .inf false) ∨
      ((∃ p ∈ ps, p.escape = false ∧ p.val = .inf false) ∧ ∃ p ∈ ps, p.val = .inf true) → r.isNan = true) ∧
    (∀ s, (∃ p ∈ ps, p.escape = false ∧ p.val = .inf s) → (∀ p ∈ ps, p.val.isNan = false ∧ p.val ≠ .inf (!s)) →
      (Fmt.asum.value sum).isNan = false → r = if Fmt.asum.value sum = .inf (!s) then .nan else .inf s) := by
  refine ⟨fun h => ?_, fun s hs hps hsum => ?_⟩
  · have of_nan {r : Ext} (h : r = .nan) : r.isNan = true := by rw [h]; rfl
    by_cases hnan : ∃ p ∈ ps, p.val.isNan = true
    · rw [asumStep_nan hnan]
      exact of_nan asum_nan_value
    have hn : ∀ p ∈ ps, p.val.isNan = false := fun p hp => by
      by_contra h
      exact hnan ⟨p, hp, by simpa using h⟩
    rcases h with h | h | ⟨hs, ht⟩ | ⟨hs, ht⟩
    · rw [asumStep_eq hn]
      refine of_nan (foldl_asumAdd_nan ?_ _)
      have hadd (x : Ext) := asumAdd_nan (x := x) (.inl (Ext.eq_nan h))
      split
      · exact hadd _
      · split
        · exact asum_nan_value
        · exact hadd _
    · exact absurd h hnan
    · exact of_nan (asumStep_opposed f sum ps hn hs ht)
    · exact of_nan (asumStep_opposed f sum ps hn hs ht)
  · rw [asumStep_inf f sum ps (fun p hp => (hps p hp).1) hs fun p hp _ => (hps p hp).2]
    split
    · next h =>
      refine foldl_asumAdd_nan ?_ _
      rw [asumAdd, h]
      cases s <;> exact asum_nan_value
    · next h =>
      refine foldl_asumAdd_inf (asumAdd_inf ?_) (escape_values_of ps (P := fun x => x.isNan = false ∧ x ≠ .inf (!s)) hps)
      rw [Ext.add_comm, Ext.inf_add hsum, if_neg h]

end

/-! Byte integers (R75). -/

theorem asumInt_eq (old : Int) (i : ColIn) : asumInt old i = old + ((List.range (kstep i.f)).map fun k =>
    (i.a.getD k 0).toInt * (i.b.getD k 0).toInt).sum := by
  have hsigned (x : Byte) : (if x.toNat < 128 then (x.toNat : Int) else (x.toNat : Int) - 256) = x.toInt := by
    rw [BitVec.toInt_eq_toNat_cond]
    have := x.isLt
    split <;> split <;> omega
  have hcode (bs : List Byte) (k : Nat) : elemCode 4 bs k = (bs.getD k 0).toNat := rfl
  have along (g : Nat → Int) (l : List Nat) (t : Int) : l.foldl (fun t k => t + g k) t = t + (l.map g).sum := by
    induction l generalizing t with
    | nil => simp
    | cons k l ih => rw [List.foldl_cons, ih, List.map_cons, List.sum_cons]; ring
  simp only [asumInt, hcode, hsigned, along]

/-! Promotion (R73, R74). -/

theorem promote_of_special {sat : Bool} {acc sum : Nat}
    (h : ((Fmt.f32.value (Fmt.f32.roundNE ((Fmt.f32.value acc).add (Fmt.asum.value sum)))).isInf && !(Fmt.f32.value acc).isInf &&
      !(Fmt.asum.value sum).isInf) = false) :
    promote sat acc sum = (Fmt.f32.roundNE ((Fmt.f32.value acc).add (Fmt.asum.value sum)), false) := by
  simp only [promote, h, Bool.false_and, Bool.false_eq_true, if_false]

theorem f32_inf_value (s : Bool) : Fmt.f32.value (Fmt.f32.signed s (Fmt.f32.maxFin + 1)) = .inf s := by cases s <;> decide

/-- R73, R74: a promotion by value. -/
theorem promote_values (sat : Bool) (acc : Word) (sum : Nat) :
    let r := promote sat acc.toNat sum
    let x := Fmt.asum.value sum
    (nanF acc ∨ x.isNan = true → r = (0x7FC00000, false)) ∧
    (∀ s, f32 acc = .inf s → x.isNan = false → r = (if x = .inf (!s) then 0x7FC00000 else acc.toNat, false)) ∧
    (∀ s a, num (f32 acc) = some a → x = .inf s → r = (signBit Fmt.f32 s + 0x7F800000, false)) ∧
    (∀ a b, num (f32 acc) = some a → num x = some b →
      let top : ℚ := (2 ^ 24 - 1) * 2 ^ 104 + 2 ^ 103
      (top ≤ |a + b| → r = (signBit Fmt.f32 (decide (a + b < 0)) + (if sat then 0x7F7FFFFF else 0x7F800000), true)) ∧
      (|a + b| < top → r.2 = false ∧ nearest (has Fmt.f32) (a + b) r.1)) := by
  have hacc : Fmt.f32.value acc.toNat = f32 acc := rfl
  refine ⟨fun h => ?_, fun s hs hn => ?_, fun s a ha hx => ?_, fun a b ha hb => ?_⟩
  · have hadd : (Fmt.f32.value acc.toNat).add (Fmt.asum.value sum) = .nan := by
      rcases h with h | h
      · rw [hacc, f32_of_nanF h, Ext.nan_add]
      · rw [Ext.eq_nan h, Ext.add_nan]
    rw [promote_of_special, hadd]
    · rfl
    · rw [hadd]; rfl
  · have hadd : (Fmt.f32.value acc.toNat).add (Fmt.asum.value sum) = if Fmt.asum.value sum = .inf (!s) then .nan else .inf s := by
      rw [hacc, hs, Ext.inf_add hn]
    rw [promote_of_special, hadd]
    · split
      · rfl
      · rw [← f32_inf_code hs]
    · simp [hacc, hs, Ext.isInf]
  · obtain ⟨n, d, -, -, hv, -⟩ := f32_number ha
    have hadd : (Fmt.f32.value acc.toNat).add (Fmt.asum.value sum) = .inf s := by rw [hacc, hv, hx]; rfl
    rw [promote_of_special, hadd]
    · rw [Fmt.roundNE, Fmt.signed_eq]; rfl
    · simp [hx, Ext.isInf]
  · obtain ⟨n, d, -, hd, hv, -⟩ := f32_number ha
    obtain ⟨m, e, he, hw, -⟩ := Fmt.asum.value_finite (Fmt.mod_le_of_num hb)
    have hfa : finite (f32 acc) := ⟨_, n, d, hv, hd⟩
    have hfb : finite (Fmt.asum.value sum) := ⟨_, m, e, hw, he⟩
    have hnum := num_add_eq hfa hfb ha hb
    obtain ⟨s, N, D, hadd, hD⟩ := finite_add hfa hfb
    rw [hadd, num_fin, Option.some_inj] at hnum
    have hy : (0 : ℚ) ≤ N / D := by positivity
    have habs : |a + b| = N / D := by rw [← hnum, abs_sg_mul, abs_of_nonneg hy]
    have hnot (y : Ext) : (y.isInf && !(f32 acc).isInf && !(Fmt.asum.value sum).isInf) = y.isInf := by simp [hv, hw, Ext.isInf]
    simp only [promote, hacc, hadd, hnot, habs]
    rcases Fmt.f32_rounds.roundNE_cases s N hD with ⟨hle, hcode⟩ | ⟨hlt, r, hr, hcode, hnear⟩
    · refine ⟨fun _ => ?_, fun h => absurd hle (not_le.2 h)⟩
      have hpos : (0 : ℚ) < N / D := lt_of_lt_of_le (by norm_num) hle
      have hbit : bitOf (Fmt.f32.signed s (Fmt.f32.maxFin + 1)) 31 = s := Fmt.bitOf_signed s (by decide)
      rw [hcode, f32_inf_value, hbit, ← hnum, decide_sg_mul_neg s hpos]
      cases sat <;> simp only [Ext.isInf, Bool.and_false, Bool.and_true, Bool.false_eq_true, if_false, if_true, Fmt.signed_eq] <;> rfl
    · refine ⟨fun h => absurd h (not_le.2 hlt), fun _ => ?_⟩
      obtain ⟨n', d', -, hval, -⟩ := Fmt.value_signed Fmt.f32_rounds.ok s hr
      rw [hcode, hval, ← hnum]
      exact ⟨rfl, Fmt.nearest_signed Fmt.f32_rounds.ok hy hr hnear⟩

/-- R50, R51, R68 to R75: what a wavefront adds, by value. -/
theorem wavefrontValues : WavefrontValues :=
  ⟨prod_values, asumStep_finite, asumStep_special, asumInt_eq, promote_values⟩

end Sys2Proof.Machine
end

section
/-! PROOFS. The matrix array moves on (12_matrix_engine.md R326 to R336): it takes an operation, loads weights, admits wavefronts,
completes them and reaches its quiescent point. -/

namespace Sys2Proof.Machine

open Sys2Proof.Claim

/-! The events' arms. -/

theorem exec_weightReloadComplete {s : State} {core : Nat} (hargs : s.args = [core]) :
    exec .weightReloadComplete s = .next (s.weightReload core) := by
  have hexec : exec .weightReloadComplete s = .next (s.weightReload (s.arg 0)) := rfl
  rw [hexec, State.arg, hargs]
  rfl

theorem exec_wavefrontAdmission {s : State} {core : Nat} (hargs : s.args = [core]) :
    exec .wavefrontAdmission s = .next (s.admitWave core) := by
  have hexec : exec .wavefrontAdmission s = .next (s.admitWave (s.arg 0)) := rfl
  rw [hexec, State.arg, hargs]
  rfl

theorem exec_wavefrontComplete {s : State} {core : Nat} (hargs : s.args = [core]) :
    exec .wavefrontComplete s = .next (s.waveDone core) := by
  have hexec : exec .wavefrontComplete s = .next (s.waveDone (s.arg 0)) := rfl
  rw [hexec, State.arg, hargs]
  rfl

theorem exec_arrayQuiescentPoint {s : State} {core : Nat} (hargs : s.args = [core]) :
    exec .arrayQuiescentPoint s = .next (s.quiescent core) := by
  have hexec : exec .arrayQuiescentPoint s = .next (s.quiescent (s.arg 0)) := rfl
  rw [hexec, State.arg, hargs]
  rfl

/-! A core and a token under a change. -/

theorem core_modCore_same (s : State) (i : Nat) (f : Core → Core) : (s.modCore i f).core i = f (s.core i) := by
  rw [core_modCore, if_pos rfl]

theorem core_modMx_same (s : State) (i k : Nat) (f : MxTok → MxTok) :
    (s.modMx i k f).core i = { s.core i with mx := nmod (s.core i).mx k f } := core_modCore_same _ _ _

theorem mxTok_modMx_same (s : State) (i k : Nat) (f : MxTok → MxTok) :
    nget ((s.modMx i k f).core i).mx k = (nget (s.core i).mx k).map f := by
  rw [core_modMx_same, nget_nmod, if_pos rfl]

/-! Weights (R331). -/

/-- The weight latches and the shadow after a reload: the k-step to be admitted, then the one after it. -/
def ArraySt.reloaded (a : ArraySt) (t : MxTok) : ArraySt :=
  match a.weights with
  | none => { a with weights := some t.posS, shadow := none }
  | some w => if a.shadow.isNone ∧ w + 1 < t.par.ks then { a with shadow := some (w + 1) } else a

theorem takeOp_busy {s : State} {core : Nat} (h : (s.core core).arr.op.isSome = true) : s.takeOp core = s := by
  simp [State.takeOp, h]

theorem weightReload_eq {s : State} {core k : Nat} {t : MxTok} (hop : ((s.takeOp core).core core).arr.op = some k)
    (htok : nget ((s.takeOp core).core core).mx k = some t) :
    s.weightReload core =
      (s.takeOp core).modCore core fun c => { c with arr := ((s.takeOp core).core core).arr.reloaded t } := by
  have hbind : ((s.takeOp core).core core).arr.op.bind ((s.takeOp core).mxTok core) = some t := by
    rw [hop, Option.bind_some, State.mxTok, htok]
  unfold State.weightReload
  dsimp only
  rw [hbind]
  rfl

theorem weightReload_busy {s : State} {core k : Nat} {t : MxTok} (h : inArray s core k t) :
    s.weightReload core = s.modCore core fun c => { c with arr := (s.core core).arr.reloaded t } := by
  obtain ⟨hop, htok⟩ := h
  have hbusy : s.takeOp core = s := takeOp_busy (by rw [hop]; rfl)
  have heq := weightReload_eq (s := s) (core := core) (k := k) (t := t) (by rwa [hbusy]) (by rwa [hbusy])
  rwa [hbusy] at heq

/-- R331: the reload of an operation's weights, into the latches first and then into the shadow. -/
theorem weightReload_inArray (s : State) (core k : Nat) (t : MxTok) (hargs : s.args = [core]) (h : inArray s core k t) :
    ((s.core core).arr.weights = none → ∃ u, exec .weightReloadComplete s = .next u ∧ (u.core core).arr.weights = some t.posS ∧
      (u.core core).arr.shadow = none ∧ (u.core core).mx = (s.core core).mx ∧ u.mem = s.mem ∧ u.strands = s.strands) ∧
    (∀ w, (s.core core).arr.weights = some w → (s.core core).arr.shadow = none → w + 1 < t.par.ks →
      ∃ u, exec .weightReloadComplete s = .next u ∧ (u.core core).arr.shadow = some (w + 1) ∧ (u.core core).arr.weights = some w ∧
        (u.core core).mx = (s.core core).mx ∧ u.mem = s.mem ∧ u.strands = s.strands) := by
  rw [exec_weightReloadComplete hargs, weightReload_busy h]
  refine ⟨fun hw => ⟨_, rfl, ?_⟩, fun w hw hshadow hks => ⟨_, rfl, ?_⟩⟩
  · have ha : (s.core core).arr.reloaded t = { (s.core core).arr with weights := some t.posS, shadow := none } := by
      simp only [ArraySt.reloaded, hw]
    rw [core_modCore_same, ha]
    exact ⟨rfl, rfl, rfl, rfl, rfl⟩
  · have ha : (s.core core).arr.reloaded t = { (s.core core).arr with shadow := some (w + 1) } := by
      simp [ArraySt.reloaded, hw, hshadow, hks]
    rw [core_modCore_same, ha]
    exact ⟨rfl, hw, rfl, rfl, rfl⟩

/-- The core of an idle array that takes the operation next in turn. -/
theorem core_takeOp_idle {s : State} {core k : Nat} {t : MxTok} (hop : (s.core core).arr.op = none) (hhalt : (s.core core).arr.halt = none)
    (hnext : s.nextOp core = some k) (htok : nget (s.core core).mx k = some t) :
    let a := ((s.takeOp core).core core).arr
    a.op = some k ∧ a.weights = none ∧ a.inflight = [] ∧
      nget ((s.takeOp core).core core).mx k = some { t with asum := [] } := by
  simp only [State.takeOp, hop, hhalt, hnext, Option.isSome_none, Bool.or_self, Bool.false_eq_true, if_false, mxTok_modMx_same]
  simp [core_modMx_same, core_modCore_same, htok]

/-- R326, R331: an idle array takes the next operation, and its first weights. -/
theorem weightReload_idle (s : State) (core k : Nat) (t : MxTok) (hargs : s.args = [core]) (hop : (s.core core).arr.op = none)
    (hhalt : (s.core core).arr.halt = none) (hnext : s.nextOp core = some k) (htok : nget (s.core core).mx k = some t) :
    ∃ u, exec .weightReloadComplete s = .next u ∧ (u.core core).arr.op = some k ∧ (u.core core).arr.weights = some t.posS ∧
      (u.core core).arr.inflight = [] := by
  obtain ⟨hop', hweights, hinflight, htok'⟩ := core_takeOp_idle hop hhalt hnext htok
  rw [exec_weightReloadComplete hargs, weightReload_eq hop' htok']
  refine ⟨_, rfl, ?_⟩
  rw [core_modCore_same]
  simp [ArraySt.reloaded, hweights, hop', hinflight]

/-! Admission (R326, R330, R433, R435). -/

/-- The admissions of a core in the last microsecond. -/
def State.lately (s : State) (core : Nat) : Nat :=
  ((s.core core).arr.admits.filter fun c => decide (s.cycle < c + 2000)).length

theorem mxCapped_eq (s : State) (core : Nat) :
    s.mxCapped core = (s.core core).regs.admitCap.any fun cap => decide (cap ≤ s.lately core) := rfl

/-- The limit on the admissions of a microsecond, said by its cases. -/
theorem mxCapped_iff (s : State) (core : Nat) :
    let r := (s.core core).regs
    let cooled : Bool := r.throttled && r.wasThrottled
    let most := if 1 ≤ r.mxcap ∧ r.mxcap ≤ 2500 then r.mxcap else 2500
    let cap := if cooled then min 625 most else most
    s.mxCapped core = true ↔ (cooled = true ∨ (1 ≤ r.mxcap ∧ r.mxcap ≤ 2500)) ∧
      cap ≤ s.lately core := by
  rw [mxCapped_eq]
  simp only [CoreRegs.admitCap]
  generalize (s.core core).regs = r
  have hlimited : (r.mxcap = 0 ∨ 2500 < r.mxcap) ↔ ¬(1 ≤ r.mxcap ∧ r.mxcap ≤ 2500) := by omega
  cases hcooled : r.throttled && r.wasThrottled <;> by_cases hcap : 1 ≤ r.mxcap ∧ r.mxcap ≤ 2500 <;>
    simp [hlimited, hcap]

theorem arrayReady_eq {s : State} {core : Nat} {t : MxTok} (hhalt : (s.core core).arr.halt = none) (hheld : (s.core core).arr.held = false)
    (hteam : s.teamHeld t.team = false) (hlen : (s.core core).arr.inflight.length < 8) (hks : t.posS < t.par.ks)
    (hbegun : (s.core core).arr.begun = true ∨ s.dieShut core = false) : s.arrayReady core t = !s.mxCapped core := by
  have hstart : (!(s.core core).arr.begun && s.dieShut core) = false := by
    rcases hbegun with h | h <;> simp [h]
  simp [State.arrayReady, hhalt, hheld, hteam, hstart, Nat.not_le.2 hlen, Nat.not_le.2 hks]

/-- The wavefront to be admitted is in flight, and the operation has moved to its next row. -/
def State.waveIn (s : State) (core k : Nat) (w : Wave) (recent : List Nat) : State :=
  (s.modCore core fun c => { c with arr := { c.arr with inflight := c.arr.inflight ++ [w], admits := recent, begun := true } }).modMx core k
    fun t => { t with st := .array, posM := t.posM + 1 }

theorem core_waveIn (s : State) (core k : Nat) (w : Wave) (recent : List Nat) :
    (s.waveIn core k w recent).core core = { s.core core with
      arr := { (s.core core).arr with inflight := (s.core core).arr.inflight ++ [w], admits := recent, begun := true },
      mx := nmod (s.core core).mx k fun t => { t with st := .array, posM := t.posM + 1 } } := by
  rw [State.waveIn, core_modMx_same, core_modCore_same]

theorem core_stepAdmitted {s : State} {core k : Nat} {t t' : MxTok} (htok : nget (s.core core).mx k = some t') (hslot : t'.slot = none) :
    (s.stepAdmitted core k t).core core = { s.core core with
      arr := { (s.core core).arr with
        weights := if (s.core core).arr.shadow = some (t.posS + 1) then (s.core core).arr.shadow else none, shadow := none },
      mx := nmod (s.core core).mx k fun t => { t with slot := none, posS := t.posS + 1, posM := 0 } } := by
  simp only [State.stepAdmitted, State.mxTok, htok, Option.getD_some, hslot, Option.isSome_none, Bool.false_eq_true, if_false,
    core_modCore_same, core_modMx_same]

theorem stepAdmitted_keeps {s : State} {core k : Nat} {t t' : MxTok} (htok : nget (s.core core).mx k = some t') (hslot : t'.slot = none) :
    (s.stepAdmitted core k t).mem = s.mem ∧ (s.stepAdmitted core k t).strands = s.strands := by
  simp only [State.stepAdmitted, State.mxTok, htok, Option.getD_some, hslot, Option.isSome_none, Bool.false_eq_true, if_false]
  exact ⟨rfl, rfl⟩

theorem admitWave_eq {s : State} {core k : Nat} {t : MxTok} (h : inArray s core k t) (hready : s.arrayReady core t = true)
    (hweights : (s.core core).arr.weights = some t.posS) (haq : t.par.aq = false) :
    ∃ recent, s.admitWave core = if t.posM + 1 = t.par.m
      then (s.waveIn core k (s.readWave t t.posS t.posM none) recent).stepAdmitted core k t
      else s.waveIn core k (s.readWave t t.posS t.posM none) recent := by
  obtain ⟨hop, htok⟩ := h
  refine ⟨s.cycle :: (s.core core).arr.admits.filter fun t => decide (s.cycle < t + cyclesPerUs), ?_⟩
  simp [State.admitWave, hop, State.mxTok, htok, hready, hweights, State.waveSlot, haq, State.waveIn]

theorem readWave_window (s : State) {t : MxTok} (sk m : Nat) (hareg : t.par.areg = false) (haq : t.par.aq = false) :
    (s.readWave t sk m none).a = s.mem.readN ((s.team t.team).phys (t.par.aaddr + m * t.par.apitch + 128 * sk)) 128 := by
  simp [State.readWave, hareg, haq]

/-- What an admission of wavefront w of an operation leads to, the token then being t'. -/
def Admitted (s u : State) (core k : Nat) (t : MxTok) (w : Wave) (t' : MxTok) : Prop :=
  (u.core core).arr.inflight = (s.core core).arr.inflight ++ [w] ∧ w.s = t.posS ∧ w.m = t.posM ∧
  (t.par.areg = false → w.a = s.mem.readN ((s.team t.team).phys (t.par.aaddr + t.posM * t.par.apitch + 128 * t.posS)) 128) ∧
  nget (u.core core).mx k = some t' ∧ t'.st = .array ∧ (u.core core).arr.begun = true ∧
  (t.posM + 1 ≠ t.par.m → t'.posS = t.posS ∧ t'.posM = t.posM + 1 ∧
    (u.core core).arr.weights = (s.core core).arr.weights ∧ (u.core core).arr.shadow = (s.core core).arr.shadow) ∧
  (t.posM + 1 = t.par.m → t'.posS = t.posS + 1 ∧ t'.posM = 0 ∧ (u.core core).arr.shadow = none ∧
    (u.core core).arr.weights = if (s.core core).arr.shadow = some (t.posS + 1) then some (t.posS + 1) else none) ∧
  u.mem = s.mem ∧ u.strands = s.strands

/-- R326, R331: what an admission does: the wavefront goes in flight, and with the last row the next weights move into the latches. -/
theorem admitWave_admits {s : State} {core k : Nat} {t : MxTok} (h : inArray s core k t) (hready : s.arrayReady core t = true)
    (hweights : (s.core core).arr.weights = some t.posS) (haq : t.par.aq = false) (hslot : t.slot = none) :
    ∃ (w : Wave) (t' : MxTok), Admitted s (s.admitWave core) core k t w t' := by
  obtain ⟨recent, hadmit⟩ := admitWave_eq h hready hweights haq
  have hin := core_waveIn s core k (s.readWave t t.posS t.posM none) recent
  have htok : nget ((s.waveIn core k (s.readWave t t.posS t.posM none) recent).core core).mx k =
      some { t with st := .array, posM := t.posM + 1 } := by
    rw [hin]
    simp [nget_nmod, h.2]
  by_cases hlast : t.posM + 1 = t.par.m
  · obtain ⟨hmem, hstrands⟩ := stepAdmitted_keeps (t := t) htok hslot
    rw [if_pos hlast] at hadmit
    refine ⟨s.readWave t t.posS t.posM none, { t with st := .array, slot := none, posS := t.posS + 1, posM := 0 }, ?_⟩
    rw [Admitted, hadmit, hmem, hstrands, core_stepAdmitted htok hslot, hin]
    refine ⟨rfl, rfl, rfl, fun hareg => readWave_window s _ _ hareg haq, ?_, rfl, rfl, fun hne => absurd hlast hne, fun _ => ⟨rfl, rfl, rfl, ?_⟩,
      rfl, rfl⟩
    · simp [nget_nmod, h.2]
    · dsimp only
      split
      · next hshadow => rw [hshadow]
      · rfl
  · rw [if_neg hlast] at hadmit
    refine ⟨s.readWave t t.posS t.posM none, { t with st := .array, posM := t.posM + 1 }, ?_⟩
    rw [Admitted, hadmit]
    refine ⟨by rw [hin], rfl, rfl, fun hareg => readWave_window s _ _ hareg haq, htok, rfl, by rw [hin],
      fun _ => ⟨rfl, rfl, by rw [hin], by rw [hin]⟩, fun heq => absurd heq hlast, rfl, rfl⟩

/-- R326, R330, R331, R433, R435: rows are admitted in order, no more of them in a microsecond than the limit. -/
theorem wavefrontAdmission_ready (s : State) (core k : Nat) (t : MxTok) (hargs : s.args = [core]) (h : inArray s core k t)
    (hhalt : (s.core core).arr.halt = none) (hheld : (s.core core).arr.held = false) (hteam : s.teamHeld t.team = false)
    (hlen : (s.core core).arr.inflight.length < 8) (hks : t.posS < t.par.ks) (hweights : (s.core core).arr.weights = some t.posS)
    (hbegun : (s.core core).arr.begun = true ∨ s.dieShut core = false) (haq : t.par.aq = false) (hslot : t.slot = none) :
    let r := (s.core core).regs
    let cooled : Bool := r.throttled && r.wasThrottled
    let limited := cooled = true ∨ (1 ≤ r.mxcap ∧ r.mxcap ≤ 2500)
    let most := if 1 ≤ r.mxcap ∧ r.mxcap ≤ 2500 then r.mxcap else 2500
    let cap := if cooled then min 625 most else most
    let lately := ((s.core core).arr.admits.filter fun c => decide (s.cycle < c + 2000)).length
    (limited → cap ≤ lately → exec .wavefrontAdmission s = .next s) ∧
    (¬limited ∨ lately < cap → ∃ (u : State) (w : Wave) (t' : MxTok), exec .wavefrontAdmission s = .next u ∧
      (u.core core).arr.inflight = (s.core core).arr.inflight ++ [w] ∧ w.s = t.posS ∧ w.m = t.posM ∧
      (t.par.areg = false → w.a = s.mem.readN ((s.team t.team).phys (t.par.aaddr + t.posM * t.par.apitch + 128 * t.posS)) 128) ∧
      nget (u.core core).mx k = some t' ∧ t'.st = .array ∧ (u.core core).arr.begun = true ∧
      (t.posM + 1 ≠ t.par.m → t'.posS = t.posS ∧ t'.posM = t.posM + 1 ∧
        (u.core core).arr.weights = (s.core core).arr.weights ∧ (u.core core).arr.shadow = (s.core core).arr.shadow) ∧
      (t.posM + 1 = t.par.m → t'.posS = t.posS + 1 ∧ t'.posM = 0 ∧ (u.core core).arr.shadow = none ∧
        (u.core core).arr.weights = if (s.core core).arr.shadow = some (t.posS + 1) then some (t.posS + 1) else none) ∧
      u.mem = s.mem ∧ u.strands = s.strands) := by
  intro r cooled limited most cap lately
  have hcapped : s.mxCapped core = true ↔ limited ∧ cap ≤ lately := mxCapped_iff s core
  have hready := arrayReady_eq hhalt hheld hteam hlen hks hbegun
  rw [exec_wavefrontAdmission hargs]
  refine ⟨fun hlim hfull => ?_, fun hroom => ?_⟩
  · rw [hcapped.2 ⟨hlim, hfull⟩] at hready
    simp [State.admitWave, h.1, State.mxTok, h.2, hready]
  · have hopen : s.mxCapped core = false := by
      rw [← Bool.not_eq_true, hcapped]
      rintro ⟨hlim, hfull⟩
      exact hroom.elim (fun hno => hno hlim) (fun hlt => absurd hfull (Nat.not_le.2 hlt))
    rw [hopen] at hready
    obtain ⟨w, t', hadmits⟩ := admitWave_admits h hready hweights haq hslot
    exact ⟨_, w, t', rfl, hadmits⟩

end Sys2Proof.Machine
end

section
/-! PROOFS. A wavefront is added to the sums of its row, and promoted (12_matrix_engine.md R326; 02_number_formats.md R72 to R74). -/

namespace Sys2Proof.Machine

open Sys2Proof.Claim

/-! The ASUM file. -/

/-- The sums with a new value at a key: 0 is what a key without an entry holds. -/
def putSum (sums : NMap Int) (key : Nat) (v : Int) : NMap Int := if v = 0 then ndel sums key else nset sums key v

theorem getD_putSum {sums : NMap Int} (h : nsorted sums = true) (key j : Nat) (v : Int) :
    (nget (putSum sums key v) j).getD 0 = if j = key then v else (nget sums j).getD 0 := by
  rw [putSum]
  split
  · next hv =>
    rw [nget_ndel _ _ _ h, hv]
    split <;> rfl
  · rw [nget_nset]
    split <;> rfl

theorem nsorted_putSum {sums : NMap Int} (h : nsorted sums = true) (key : Nat) (v : Int) : nsorted (putSum sums key v) = true := by
  rw [putSum]
  split
  · exact nsorted_ndel _ _ h
  · exact nsorted_nset _ _ _ h

/-- A core with a new value of a sum. -/
def Core.putSum (c : Core) (key : Nat) (v : Int) : Core := { c with arr := { c.arr with asum := Machine.putSum c.arr.asum key v } }

/-! What the elements of a wavefront may change. -/

/-- A token without what the elements of a wavefront note in it. -/
def MxTok.unnoted (t : MxTok) : MxTok := { t with miss := false, ovf := false, final := [] }

/-- The ASUM file, three notes in the token and frames of strands: nothing else. -/
structure Summing (core k : Nat) (s u : State) : Prop where
  rest : u = { s with cores := u.cores, strands := u.strands }
  coreEq : u.core core = { s.core core with
    arr := { (s.core core).arr with asum := (u.core core).arr.asum }, mx := (u.core core).mx }
  tok : (nget (u.core core).mx k).map MxTok.unnoted = (nget (s.core core).mx k).map MxTok.unnoted
  str : ∀ j, u.str j = { s.str j with frames := (u.str j).frames }
  has : ∀ j, nhas u.strands j = nhas s.strands j

namespace Summing

theorem refl (core k : Nat) (s : State) : Summing core k s s := ⟨rfl, rfl, rfl, fun _ => rfl, fun _ => rfl⟩

theorem trans {core k : Nat} {s t u : State} (h : Summing core k s t) (h' : Summing core k t u) : Summing core k s u where
  rest := by rw [h'.rest, h.rest]
  coreEq := by rw [h'.coreEq, h.coreEq]
  tok := h'.tok.trans h.tok
  str j := by rw [h'.str j, h.str j]
  has j := (h'.has j).trans (h.has j)

theorem modMx (core k : Nat) (s : State) {g : MxTok → MxTok} (hg : ∀ t, (g t).unnoted = t.unnoted) :
    Summing core k s (s.modMx core k g) := by
  refine ⟨rfl, by rw [core_modMx_same], ?_, fun _ => rfl, fun _ => rfl⟩
  rw [mxTok_modMx_same, Option.map_map]
  exact congrArg (Option.map · _) (funext hg)

theorem putSum (core k : Nat) (s : State) (key : Nat) (v : Int) : Summing core k s (s.modCore core (·.putSum key v)) := by
  have hcore : (s.modCore core (·.putSum key v)).core core = (s.core core).putSum key v := core_modCore_same _ _ _
  exact ⟨rfl, by rw [hcore]; rfl, by rw [hcore]; rfl, fun _ => rfl, fun _ => rfl⟩

theorem engPoke (core k : Nat) (s : State) (sid uid r l : Nat) (v : Word) :
    Summing core k s (s.modStr sid (·.engPoke uid r l v)) := by
  refine ⟨rfl, rfl, rfl, fun j => ?_, fun j => nhas_modStr s sid j _⟩
  rw [str_modStr]
  split
  · next hj => rw [hj.1]; rfl
  · rfl

theorem ite {core k : Nat} {s u v : State} {c : Prop} [Decidable c] (hu : Summing core k s u) (hv : Summing core k s v) :
    Summing core k s (if c then u else v) := by
  split
  · exact hu
  · exact hv

section
variable {core k : Nat} {s u : State} (h : Summing core k s u)
include h

theorem mem : u.mem = s.mem := by rw [h.rest]
theorem teams : u.teams = s.teams := by rw [h.rest]
theorem finished (j : Nat) : (u.str j).finished = (s.str j).finished := by rw [h.str j]; rfl
theorem team (j : Nat) : u.team j = s.team j := by rw [State.team, h.teams]; rfl

end

end Summing

theorem due_iff (t : MxTok) (w : Wave) : t.par.due w.s = true ↔ promotes t w := by
  rw [MxPar.due, Bool.or_eq_true, beq_iff_eq, beq_iff_eq, promotes]

theorem colIn_eq {s : State} {core : Nat} {t : MxTok} (h : (s.team t.team).core = core) (w : Wave) (n : Nat) :
    s.colIn t w n = columnSees s core t w n := by
  subst h
  rfl

/-! One element (R72, R73). -/

/-- The key of element (m, n) in the ASUM file. -/
def elemKey (w : Wave) (n : Nat) : Nat := 128 * w.m + n

/-- What a promotion makes of an accumulator, and whether it overflows (R73, R74). -/
def promotedOut (f : Nat) (acc : Word) (sum : Int) : Word × Bool :=
  if decide (fmtGroup (afmt f) = 2) then (BitVec.ofInt 32 (max (-2147483648) (min 2147483647 (acc.toInt + sum))), false)
  else let p := promote (bitOf f 16) acc.toNat sum.toNat; (BitVec.ofNat 32 p.1, p.2)

theorem promotedOut_fst (f : Nat) (acc : Word) (sum : Int) : (promotedOut f acc sum).1 = promoted f acc sum := by
  by_cases h : fmtGroup (afmt f) = 2
  · rw [promotedOut, promoted, if_pos (decide_eq_true h), if_pos h]
  · rw [promotedOut, promoted, if_neg (by simpa using h), if_neg h]

/-- The sum of element (m, n) with a wavefront added. -/
def State.elemSum (s : State) (core : Nat) (t : MxTok) (w : Wave) (n : Nat) : Int :=
  if decide (fmtGroup (afmt t.f) = 2) then asumInt ((nget (s.core core).arr.asum (elemKey w n)).getD 0) (s.colIn t w n)
  else (asumStep t.f ((nget (s.core core).arr.asum (elemKey w n)).getD 0).toNat (s.colIn t w n).prods : Nat)

theorem elemSum_eq {s : State} {core : Nat} {t : MxTok} (h : (s.team t.team).core = core) (w : Wave) (n : Nat) :
    s.elemSum core t w n = sumAfter t.f (sumAt s core w.m n) (columnSees s core t w n) := by
  rw [← colIn_eq h, sumAfter]
  by_cases hint : fmtGroup (afmt t.f) = 2
  · rw [State.elemSum, if_pos (decide_eq_true hint), if_pos hint]
    rfl
  · rw [State.elemSum, if_neg (by simpa using hint), if_neg hint]
    rfl

/-- The accumulator a promotion starts from: 0 in the first of an operation that begins its sums (R73). -/
def State.accBefore (s : State) (t : MxTok) (w : Wave) (n : Nat) (x : RegRun) : Word :=
  if t.par.first && decide (w.s < t.par.p) then 0 else (s.str x.strand).peek (accReg x w.m n)

/-- What a promotion writes to the accumulator's register, undefined after a race and where it was not published (R231). -/
def State.accWord (s : State) (t : MxTok) (w : Wave) (n : Nat) (x : RegRun) (v : Word) : Word :=
  if t.raced ∨ t.undef.contains (x.frame, (accReg x w.m n).reg) then s.freeW (0x6800000 + elemKey w n) else v

/-- A wavefront that misses an entry of its side list is noted (R51). -/
def State.noteMiss (s : State) (core k : Nat) (t : MxTok) (w : Wave) (n : Nat) : State :=
  if (s.colIn t w n).misses then s.modMx core k fun t => { t with miss := true } else s

@[simp] theorem strands_noteMiss (s : State) (core k : Nat) (t : MxTok) (w : Wave) (n : Nat) :
    (s.noteMiss core k t w n).strands = s.strands := by
  rw [State.noteMiss]
  split
  · rfl
  · rfl

/-- A promotion of an element: the accumulator's register, the token's copy of its last value and the overflow. -/
def State.promoteElem (s : State) (core k : Nat) (t : MxTok) (w : Wave) (n : Nat) (sum : Int) (x : RegRun) : State :=
  let o := promotedOut t.f (s.accBefore t w n x) sum
  let v := s.accWord t w n x o.1
  let s := s.modStr x.strand (·.engPoke x.frame (accReg x w.m n).reg (n % 32) v)
  let s := if w.s + 1 = t.par.ks then s.modMx core k fun t => { t with final := nset t.final (elemKey w n) v } else s
  if o.2 then s.modMx core k fun t => { t with ovf := true } else s

/-- An element in its steps. -/
theorem waveElem_eq (s : State) (core k : Nat) (t : MxTok) (w : Wave) (n : Nat) :
    s.waveElem core k t w n =
      if !t.par.due w.s then (s.noteMiss core k t w n).modCore core (·.putSum (elemKey w n) (s.elemSum core t w n))
      else match t.acc[w.m / 16]? with
        | none => (s.noteMiss core k t w n).modCore core (·.putSum (elemKey w n) 0)
        | some x => ((s.noteMiss core k t w n).promoteElem core k t w n (s.elemSum core t w n) x).modCore core (·.putSum (elemKey w n) 0) :=
  rfl

theorem summing_noteMiss (s : State) (core k : Nat) (t : MxTok) (w : Wave) (n : Nat) : Summing core k s (s.noteMiss core k t w n) :=
  .ite (.modMx core k s fun _ => rfl) (.refl core k s)

theorem summing_promoteElem (s : State) (core k : Nat) (t : MxTok) (w : Wave) (n : Nat) (sum : Int) (x : RegRun) :
    Summing core k s (s.promoteElem core k t w n sum x) := by
  have hfinal (v : Word) : Summing core k s _ := (Summing.engPoke core k s x.strand x.frame (accReg x w.m n).reg (n % 32) v).trans
    (.ite (c := w.s + 1 = t.par.ks) (.modMx core k _ (g := fun t => { t with final := nset t.final (elemKey w n) v }) fun _ => rfl) (.refl core k _))
  exact (hfinal _).trans (.ite (.modMx core k _ fun _ => rfl) (.refl core k _))

theorem summing_waveElem (s : State) (core k : Nat) (t : MxTok) (w : Wave) (n : Nat) :
    Summing core k s (s.waveElem core k t w n) := by
  rw [waveElem_eq]
  split
  · exact (summing_noteMiss s core k t w n).trans (.putSum core k _ _ _)
  · split
    · exact (summing_noteMiss s core k t w n).trans (.putSum core k _ _ _)
    · exact ((summing_noteMiss s core k t w n).trans (summing_promoteElem _ core k t w n _ _)).trans (.putSum core k _ _ _)

/-! The sums after an element. -/

theorem arr_noteMiss (s : State) (core k : Nat) (t : MxTok) (w : Wave) (n : Nat) :
    ((s.noteMiss core k t w n).core core).arr = (s.core core).arr := by
  rw [State.noteMiss]
  split
  · rw [core_modMx_same]
  · rfl

theorem arr_promoteElem (s : State) (core k : Nat) (t : MxTok) (w : Wave) (n : Nat) (sum : Int) (x : RegRun) :
    ((s.promoteElem core k t w n sum x).core core).arr = (s.core core).arr := by
  have hnote (u : State) (c : Prop) [Decidable c] (g : MxTok → MxTok) :
      ((if c then u.modMx core k g else u).core core).arr = (u.core core).arr := by
    split
    · rw [core_modMx_same]
    · rfl
  exact (hnote _ _ _).trans (hnote _ _ _)

/-- The sum of an element after a wavefront, 0 where it is promoted. -/
theorem asum_waveElem (s : State) (core k : Nat) (t : MxTok) (w : Wave) (n : Nat) :
    ((s.waveElem core k t w n).core core).arr.asum =
      putSum (s.core core).arr.asum (elemKey w n) (if t.par.due w.s then 0 else s.elemSum core t w n) := by
  have hput (u : State) (v : Int) (hu : (u.core core).arr = (s.core core).arr) :
      ((u.modCore core (·.putSum (elemKey w n) v)).core core).arr.asum = putSum (s.core core).arr.asum (elemKey w n) v := by
    rw [core_modCore_same, ← hu]
    rfl
  rw [waveElem_eq]
  cases t.par.due w.s with
  | false => exact hput _ _ (arr_noteMiss s core k t w n)
  | true =>
    simp only [Bool.not_true, Bool.false_eq_true, if_false, if_true]
    split
    · exact hput _ _ (arr_noteMiss s core k t w n)
    · exact hput _ _ ((arr_promoteElem _ core k t w n _ _).trans (arr_noteMiss s core k t w n))

/-! The strands after an element. -/

theorem strands_waveElem_not_due {s : State} {core k : Nat} {t : MxTok} {w : Wave} {n : Nat} (h : t.par.due w.s = false) :
    (s.waveElem core k t w n).strands = s.strands := by
  rw [waveElem_eq, h]
  exact strands_noteMiss s core k t w n

/-- The accumulator's register after an element that is promoted, of an operation none of whose registers is undefined. -/
theorem strands_waveElem_due {s : State} {core k : Nat} {t : MxTok} {w : Wave} {n : Nat} {x : RegRun} (h : t.par.due w.s = true)
    (hx : t.acc[w.m / 16]? = some x) (hraced : t.raced = false) (hundef : t.undef = []) :
    (s.waveElem core k t w n).strands = (s.modStr x.strand (·.engPoke x.frame (accReg x w.m n).reg (n % 32)
      (promoted t.f (s.accBefore t w n x) (s.elemSum core t w n)))).strands := by
  have hpromote (u : State) (hu : u.strands = s.strands) :
      (u.promoteElem core k t w n (s.elemSum core t w n) x).strands = (s.modStr x.strand (·.engPoke x.frame (accReg x w.m n).reg (n % 32)
        (promoted t.f (s.accBefore t w n x) (s.elemSum core t w n)))).strands := by
    have hacc : u.accBefore t w n x = s.accBefore t w n x := by simp only [State.accBefore, State.str, hu]
    have hword (v : Word) : u.accWord t w n x v = v := by simp [State.accWord, hraced, hundef]
    rw [State.promoteElem]
    simp only [hacc, hword, promotedOut_fst]
    split <;> split <;> simp [State.modMx, hu]
  rw [waveElem_eq, h, hx]
  exact hpromote _ (strands_noteMiss s core k t w n)

/-! A register of a strand under an engine's write. -/

theorem cell_nset (f : Frame) (r l r' l' : Nat) (v : Word) :
    ({ f with cells := nset f.cells (32 * r + l) v } : Frame).cell r' l' = if 32 * r' + l' = 32 * r + l then v else f.cell r' l' := by
  by_cases h : 32 * r' + l' = 32 * r + l <;> simp [Frame.cell, nget_nset, h]

theorem frameOf_engPoke (st : Strand) (uid r l : Nat) (v : Word) :
    (st.engPoke uid r l v).frameOf uid = (st.frameOf uid).map fun f => { f with cells := nset f.cells (32 * r + l) v } := by
  simp only [Strand.frameOf, Strand.engPoke, List.find?_map]
  have hpred : ((fun f : Frame => f.uid == uid) ∘ fun f : Frame =>
      if f.uid = uid then { f with cells := nset f.cells (32 * r + l) v } else f) = fun f => f.uid == uid := by
    funext f
    dsimp only [Function.comp]
    split <;> rfl
  rw [hpred]
  cases hf : st.frames.find? (fun f => f.uid == uid) with
  | none => rfl
  | some f =>
    have huid : f.uid = uid := by simpa using List.find?_some hf
    rw [Option.map_some, Option.map_some, if_pos huid]

theorem peek_engPoke {st : Strand} {uid : Nat} (hframe : (st.frameOf uid).isSome = true) (huid : uid ≠ 0) (r l r' l' : Nat) (v : Word) :
    (st.engPoke uid r l v).peek ⟨uid, r', l'⟩ = if 32 * r' + l' = 32 * r + l then v else st.peek ⟨uid, r', l'⟩ := by
  obtain ⟨f, hf⟩ := Option.isSome_iff_exists.1 hframe
  simp only [Strand.peek, if_neg huid, frameOf_engPoke, hf, Option.map_some]
  exact cell_nset f r l r' l' v

/-- Elements of one row have registers of their own (R229). -/
theorem accReg_cell (x : RegRun) (m n : Nat) :
    32 * (accReg x m n).reg + (accReg x m n).lane = 32 * (x.first + 4 * (m % 16)) + n := by
  simp only [accReg]
  omega

theorem peek_accReg_engPoke {st : Strand} {x : RegRun} (hframe : (st.frameOf x.frame).isSome = true) (huid : x.frame ≠ 0) (m n n' : Nat) (v : Word) :
    (st.engPoke x.frame (accReg x m n).reg (n % 32) v).peek (accReg x m n') = if n' = n then v else st.peek (accReg x m n') := by
  have hcell : 32 * (accReg x m n').reg + (accReg x m n').lane = 32 * (accReg x m n).reg + n % 32 ↔ n' = n := by
    rw [accReg_cell, show n % 32 = (accReg x m n).lane from rfl, accReg_cell]
    omega
  rw [show accReg x m n' = ⟨x.frame, (accReg x m n').reg, (accReg x m n').lane⟩ from rfl, peek_engPoke hframe huid]
  exact if_congr hcell rfl rfl

/-! The elements of a row, one after the other. -/

/-- The state after the first j elements of a wavefront. -/
def State.waveElems (s : State) (core k : Nat) (t : MxTok) (w : Wave) (j : Nat) : State :=
  (List.range j).foldl (fun s n => s.waveElem core k t w n) s

theorem waveElems_succ (s : State) (core k : Nat) (t : MxTok) (w : Wave) (j : Nat) :
    s.waveElems core k t w (j + 1) = (s.waveElems core k t w j).waveElem core k t w j := by
  rw [State.waveElems, List.range_succ, List.foldl_append]
  rfl

theorem summing_waveElems (s : State) (core k : Nat) (t : MxTok) (w : Wave) (j : Nat) : Summing core k s (s.waveElems core k t w j) := by
  induction j with
  | zero => exact .refl core k s
  | succ j ih =>
    rw [waveElems_succ]
    exact ih.trans (summing_waveElem _ core k t w j)

section
variable {s : State} {core k : Nat} {t : MxTok} {w : Wave} (hcore : (s.team t.team).core = core)
  (hsorted : nsorted (s.core core).arr.asum = true)

/-- The new sum of element n, from the state before the wavefront. -/
def State.newSum (s : State) (core : Nat) (t : MxTok) (w : Wave) (n : Nat) : Int :=
  sumAfter t.f (sumAt s core w.m n) (columnSees s core t w n)

include hsorted in
theorem nsorted_waveElems (j : Nat) : nsorted ((s.waveElems core k t w j).core core).arr.asum = true := by
  induction j with
  | zero => exact hsorted
  | succ j ih =>
    rw [waveElems_succ, asum_waveElem]
    exact nsorted_putSum ih _ _

include hcore in
/-- An element not yet reached has its new sum to come. -/
theorem elemSum_waveElems {j n : Nat} (hsum : sumAt (s.waveElems core k t w j) core w.m n = sumAt s core w.m n) :
    (s.waveElems core k t w j).elemSum core t w n = s.newSum core t w n := by
  have h := summing_waveElems s core k t w j
  have hcols : columnSees (s.waveElems core k t w j) core t w n = columnSees s core t w n := by
    simp only [columnSees, h.mem]
  rw [elemSum_eq (by rw [h.team, hcore]), hsum, hcols]
  rfl

include hcore hsorted in
/-- The sums after the first j elements. -/
theorem sumAt_waveElems (j n : Nat) : sumAt (s.waveElems core k t w j) core w.m n =
    if n < j then (if t.par.due w.s then 0 else s.newSum core t w n) else sumAt s core w.m n := by
  induction j generalizing n with
  | zero => rfl
  | succ j ih =>
    have hnext : (s.waveElems core k t w j).elemSum core t w j = s.newSum core t w j :=
      elemSum_waveElems hcore (by rw [ih, if_neg (Nat.lt_irrefl j)])
    rw [waveElems_succ, sumAt, asum_waveElem, getD_putSum (nsorted_waveElems hsorted j), hnext]
    by_cases hn : n = j
    · rw [hn, if_pos (show 128 * w.m + j = elemKey w j from rfl), if_pos (Nat.lt_succ_self j)]
    · have hlt : n < j + 1 ↔ n < j := by omega
      rw [if_neg (by rw [elemKey]; omega), ← sumAt, ih]
      exact if_congr hlt.symm rfl rfl

theorem strands_waveElems_not_due (hdue : t.par.due w.s = false) (j : Nat) : (s.waveElems core k t w j).strands = s.strands := by
  induction j with
  | zero => rfl
  | succ j ih => rw [waveElems_succ, strands_waveElem_not_due hdue, ih]

/-- What the promotion of element n writes to its register, from the state before the wavefront. -/
def State.newAcc (s : State) (core : Nat) (t : MxTok) (w : Wave) (x : RegRun) (n : Nat) : Word :=
  promoted t.f (s.accBefore t w n x) (s.newSum core t w n)

include hcore hsorted in
/-- The accumulator's registers after the first j elements of a row that is promoted. -/
theorem peek_waveElems {x : RegRun} (hdue : t.par.due w.s = true) (hx : t.acc[w.m / 16]? = some x) (hraced : t.raced = false)
    (hundef : t.undef = []) (hhas : nhas s.strands x.strand = true) (hframe : ((s.str x.strand).frameOf x.frame).isSome = true)
    (huid : x.frame ≠ 0) (j : Nat) :
    (((s.waveElems core k t w j).str x.strand).frameOf x.frame).isSome = true ∧
      ∀ n, ((s.waveElems core k t w j).str x.strand).peek (accReg x w.m n) =
        if n < j then s.newAcc core t w x n else (s.str x.strand).peek (accReg x w.m n) := by
  induction j with
  | zero => exact ⟨hframe, fun n => rfl⟩
  | succ j ih =>
    obtain ⟨hframe', hpeek⟩ := ih
    have hhas' : nhas (s.waveElems core k t w j).strands x.strand = true := by rw [(summing_waveElems s core k t w j).has, hhas]
    have hsum : (s.waveElems core k t w j).elemSum core t w j = s.newSum core t w j :=
      elemSum_waveElems hcore (by rw [sumAt_waveElems hcore hsorted, if_neg (Nat.lt_irrefl j)])
    have hbefore : (s.waveElems core k t w j).accBefore t w j x = s.accBefore t w j x := by
      rw [State.accBefore, hpeek, if_neg (Nat.lt_irrefl j)]
      rfl
    have hstr : (s.waveElems core k t w (j + 1)).str x.strand =
        ((s.waveElems core k t w j).str x.strand).engPoke x.frame (accReg x w.m j).reg (j % 32) (s.newAcc core t w x j) := by
      rw [waveElems_succ, State.str, strands_waveElem_due hdue hx hraced hundef, hsum, hbefore, ← State.str]
      exact str_modStr_same hhas' _
    rw [hstr]
    refine ⟨by rw [frameOf_engPoke, Option.isSome_map, hframe'], fun n => ?_⟩
    rw [peek_accReg_engPoke hframe' huid, hpeek]
    by_cases hn : n = j
    · rw [if_pos hn, if_pos (by omega), hn]
    · have hlt : n < j + 1 ↔ n < j := by omega
      rw [if_neg hn]
      exact if_congr hlt.symm rfl rfl

end

end Sys2Proof.Machine
end

section
/-! PROOFS. An operation leaves the array: to the drain, to DONE or at the quiescent point of a halt (12_matrix_engine.md R233, R326,
R334, R335). -/

namespace Sys2Proof.Machine

open Sys2Proof.Claim

/-! What the end of an operation leaves unchanged. -/

@[simp] theorem cores_settleQueue (s : State) (tid desc : Nat) : (s.settleQueue tid desc).cores = s.cores := by
  rw [State.settleQueue]
  split
  · rfl
  · split
    · rfl
    · rfl

@[simp] theorem cores_unrefEngine (s : State) (tid desc e : Nat) : (s.unrefEngine tid desc e).cores = s.cores := by
  rw [State.unrefEngine, cores_settleQueue]
  rfl

/-- Steps that leave the cores unchanged do so one after the other. -/
theorem cores_foldl {α : Type} {f : State → α → State} (h : ∀ s x, (f s x).cores = s.cores) (xs : List α) (s : State) :
    (xs.foldl f s).cores = s.cores := by
  induction xs generalizing s with
  | nil => rfl
  | cons x xs ih => rw [List.foldl_cons, ih, h]

@[simp] theorem cores_mxEnded (s : State) (core k : Nat) : (s.mxEnded core k).cores = s.cores := by
  rw [State.mxEnded]
  split
  · rfl
  · dsimp only
    rw [cores_foldl (f := fun s (x : Nat × Strand) => s.dropFrames x.1) fun _ _ => rfl, cores_foldl fun s x => cores_unrefEngine s _ _ _]
    split
    · rw [cores_unrefEngine]
    · rfl

theorem core_mxEnded (s : State) (core k i : Nat) : (s.mxEnded core k).core i = s.core i := by
  rw [State.core, cores_mxEnded]
  rfl

/-- Only the frames of a finished strand are given back (R229). -/
theorem str_dropFrames_of_live {s : State} {sid : Nat} (h : (s.str sid).finished = false) (j : Nat) :
    (s.dropFrames j).str sid = s.str sid := by
  rw [State.dropFrames, str_modStr]
  split
  · next hj => rw [← hj.1, h]; rfl
  · rfl

theorem str_dropFrames_foldl {sid : Nat} (xs : List (Nat × Strand)) {s : State} (h : (s.str sid).finished = false) :
    (xs.foldl (fun s x => s.dropFrames x.1) s).str sid = s.str sid := by
  induction xs generalizing s with
  | nil => rfl
  | cons x xs ih =>
    have hx := str_dropFrames_of_live h x.1
    rw [List.foldl_cons, ih (by rw [hx, h]), hx]

/-- The end of an operation that refers to no queue leaves a strand that has not finished as it is. -/
theorem str_mxEnded_of_live {s : State} {core k sid : Nat} {t : MxTok} (htok : nget (s.core core).mx k = some t) (haq : t.par.aq = false)
    (hqueues : ∀ y ∈ (s.team t.team).queues, 32 + k ∉ y.2.engines) (h : (s.str sid).finished = false) :
    (s.mxEnded core k).str sid = s.str sid := by
  have hnone : (s.team t.team).queues.filter (fun x => x.2.engines.contains (32 + k)) = [] :=
    List.filter_eq_nil_iff.2 fun y hy => by simpa using hqueues y hy
  simp only [State.mxEnded, State.mxTok, htok, haq, Bool.false_eq_true, if_false, hnone, List.foldl_nil]
  exact str_dropFrames_foldl _ h

/-! The operation leaves the array (R233). -/

theorem core_noteAqp (s : State) (core : Nat) : (s.noteAqp core).core core =
    if (s.core core).arr.halt.isSome then
      { s.core core with regs := { (s.core core).regs with aqpmax := max (s.core core).regs.aqpmax (s.cycle - (s.core core).arr.haltAt) } }
    else s.core core := core_modCore_same _ _ _

/-- The array without its operation, its longest halt noted. -/
def State.arrayLeft (s : State) (core : Nat) : State := (s.noteAqp core).modCore core fun c => { c with arr := c.arr.leave }

theorem core_arrayLeft {s : State} {core : Nat} (hhalt : (s.core core).arr.halt = none) :
    (s.arrayLeft core).core core = { s.core core with arr := (s.core core).arr.leave } := by
  rw [State.arrayLeft, core_modCore_same, core_noteAqp, hhalt]
  rfl

theorem opLeaves_drain {s : State} {core k : Nat} {t : MxTok} (hhalt : (s.core core).arr.halt = none)
    (hdrain : t.par.last = true ∧ t.par.dslot ≠ 0xFF) :
    s.opLeaves core k t = ((s.arrayLeft core).modMx core k fun t => { t with st := .drain }).modCore core fun c =>
      { c with dre := { c.dre with queue := c.dre.queue ++ [k] } } := by
  simp only [State.opLeaves, hhalt, reduceCtorEq, false_and, if_false, if_pos hdrain]
  rfl

theorem opLeaves_done {s : State} {core k : Nat} {t : MxTok} (hhalt : (s.core core).arr.halt = none)
    (hdrain : ¬(t.par.last = true ∧ t.par.dslot ≠ 0xFF)) :
    s.opLeaves core k t = ((s.arrayLeft core).modMx core k fun t => { t with st := .done }).mxEnded core k := by
  simp only [State.opLeaves, hhalt, reduceCtorEq, false_and, if_false, if_neg hdrain]
  rfl

/-- Where an operation goes from the array, and that it takes its sums with it. -/
theorem opLeaves_leaves {s : State} {core k : Nat} {t t' : MxTok} (hhalt : (s.core core).arr.halt = none)
    (htok : nget (s.core core).mx k = some t') :
    let u := s.opLeaves core k t
    (u.core core).arr = (s.core core).arr.leave ∧ (u.core core).regs = (s.core core).regs ∧
      ((t.par.last = true ∧ t.par.dslot ≠ 0xFF) → nget (u.core core).mx k = some { t' with st := .drain } ∧
        (u.core core).dre.queue = (s.core core).dre.queue ++ [k] ∧ u.strands = s.strands) ∧
      (¬(t.par.last = true ∧ t.par.dslot ≠ 0xFF) → nget (u.core core).mx k = some { t' with st := .done } ∧
        (u.core core).dre.queue = (s.core core).dre.queue ∧
        (t'.par.aq = false → (∀ y ∈ (s.team t'.team).queues, 32 + k ∉ y.2.engines) → ∀ j, (s.str j).finished = false → u.str j = s.str j)) := by
  intro u
  have hleft := core_arrayLeft hhalt
  have hmx (g : MxTok → MxTok) : nget (((s.arrayLeft core).modMx core k g).core core).mx k = some (g t') := by
    rw [mxTok_modMx_same, hleft, htok]
    rfl
  by_cases hdrain : t.par.last = true ∧ t.par.dslot ≠ 0xFF
  · have hu : u = _ := opLeaves_drain hhalt hdrain
    have hcore : u.core core = { s.core core with
        arr := (s.core core).arr.leave, mx := nmod (s.core core).mx k fun t => { t with st := .drain },
        dre := { (s.core core).dre with queue := (s.core core).dre.queue ++ [k] } } := by
      rw [hu, core_modCore_same, core_modMx_same, hleft]
    refine ⟨by rw [hcore], by rw [hcore], fun _ => ⟨?_, by rw [hcore], by rw [hu]; rfl⟩, fun h => absurd hdrain h⟩
    rw [hu, core_modCore_same]
    exact hmx _
  · have hu : u = _ := opLeaves_done hhalt hdrain
    have hcore : u.core core = { s.core core with
        arr := (s.core core).arr.leave, mx := nmod (s.core core).mx k fun t => { t with st := .done } } := by
      rw [hu, core_mxEnded, core_modMx_same, hleft]
    refine ⟨by rw [hcore], by rw [hcore], fun h => absurd h hdrain, fun _ => ⟨?_, by rw [hcore], fun haq hqueues j hlive => ?_⟩⟩
    · rw [hu, core_mxEnded]
      exact hmx _
    · rw [hu, str_mxEnded_of_live (hmx fun t => { t with st := .done }) haq hqueues hlive]
      rfl

/-! A wavefront is complete (R326). -/

/-- The state once a wavefront is complete, but for what its k-step brings with it. -/
def State.waveOut (s : State) (core k : Nat) (t : MxTok) (w : Wave) (rest : List Wave) : State :=
  (s.waveElems core k t w t.par.n).modCore core fun c =>
    { c with arr := { c.arr with inflight := rest }, regs := { c.regs with wfcnt := c.regs.wfcnt + 1 } }

/-- The k-steps that are promoted in the whole of their rows are counted. -/
def State.stepOut (s : State) (core k : Nat) (t : MxTok) (w : Wave) (rest : List Wave) : State :=
  if t.par.due w.s then (s.waveOut core k t w rest).modMx core k fun t => { t with kdone := w.s + 1 } else s.waveOut core k t w rest

theorem waveDone_eq {s : State} {core k : Nat} {t : MxTok} {w : Wave} {rest : List Wave} (h : inArray s core k t)
    (hwave : (s.core core).arr.inflight = w :: rest) :
    s.waveDone core = if w.m + 1 < t.par.m then s.waveOut core k t w rest
      else if w.s + 1 = t.par.ks then (s.stepOut core k t w rest).opLeaves core k t else s.stepOut core k t w rest := by
  obtain ⟨hop, htok⟩ := h
  simp only [State.waveDone, hop, hwave, State.mxTok, htok]
  rfl

section
variable {s : State} {core k : Nat} {t : MxTok} {w : Wave} {rest : List Wave}

theorem core_waveOut : (s.waveOut core k t w rest).core core =
    { (s.waveElems core k t w t.par.n).core core with
      arr := { ((s.waveElems core k t w t.par.n).core core).arr with inflight := rest },
      regs := { (s.core core).regs with wfcnt := (s.core core).regs.wfcnt + 1 } } := by
  rw [State.waveOut, core_modCore_same, (summing_waveElems s core k t w t.par.n).coreEq]

/-- The token after a wavefront's elements. -/
theorem mxTok_waveOut (htok : nget (s.core core).mx k = some t) :
    ∃ t', nget ((s.waveOut core k t w rest).core core).mx k = some t' ∧ t'.unnoted = t.unnoted := by
  have htoks := (summing_waveElems s core k t w t.par.n).tok
  rw [htok, Option.map_some, Option.map_eq_some_iff] at htoks
  rwa [core_waveOut]

/-- What a token that differs in its notes alone agrees in. -/
theorem eq_of_unnoted {t' : MxTok} (hnoted : t'.unnoted = t.unnoted) :
    t'.st = t.st ∧ t'.par = t.par ∧ t'.team = t.team ∧ t'.kdone = t.kdone :=
  ⟨(congrArg MxTok.st hnoted :), (congrArg MxTok.par hnoted :), (congrArg MxTok.team hnoted :), (congrArg MxTok.kdone hnoted :)⟩

/-- A k-step's end changes the core's token and nothing else. -/
theorem stepOut_keeps : ((s.stepOut core k t w rest).core core).arr = ((s.waveOut core k t w rest).core core).arr ∧
    ((s.stepOut core k t w rest).core core).regs = ((s.waveOut core k t w rest).core core).regs ∧
    ((s.stepOut core k t w rest).core core).dre = ((s.waveOut core k t w rest).core core).dre ∧
    (s.stepOut core k t w rest).strands = (s.waveElems core k t w t.par.n).strands ∧
    (s.stepOut core k t w rest).teams = s.teams ∧ (s.stepOut core k t w rest).mem = s.mem := by
  have h := summing_waveElems s core k t w t.par.n
  rw [State.stepOut]
  split
  · rw [core_modMx_same]
    exact ⟨rfl, rfl, rfl, rfl, h.teams, h.mem⟩
  · exact ⟨rfl, rfl, rfl, rfl, h.teams, h.mem⟩

theorem mxTok_stepOut (htok : nget (s.core core).mx k = some t) :
    ∃ t', nget ((s.stepOut core k t w rest).core core).mx k = some t' ∧ t'.st = t.st ∧ t'.par = t.par ∧ t'.team = t.team ∧
      t'.kdone = if t.par.due w.s then w.s + 1 else t.kdone := by
  obtain ⟨t', htok', hnoted⟩ := mxTok_waveOut (w := w) (rest := rest) htok
  obtain ⟨hst, hpar, hteam, hkdone⟩ := eq_of_unnoted hnoted
  rw [State.stepOut]
  split
  · refine ⟨{ t' with kdone := w.s + 1 }, ?_, hst, hpar, hteam, rfl⟩
    rw [mxTok_modMx_same, htok']
    rfl
  · exact ⟨t', htok', hst, hpar, hteam, hkdone⟩

/-- A state whose sums and registers are those after the elements has the wavefront added. -/
theorem swept_of (hcore : (s.team t.team).core = core) (hsorted : nsorted (s.core core).arr.asum = true) {u : State}
    (hstrands : ¬promotes t w → u.strands = (s.waveElems core k t w t.par.n).strands)
    (hsums : ∀ n < t.par.n, sumAt u core w.m n = sumAt (s.waveElems core k t w t.par.n) core w.m n)
    (hstr : ∀ j, (s.str j).finished = false →
      (w.m + 1 ≠ t.par.m ∨ w.s + 1 ≠ t.par.ks ∨ (t.par.last = true ∧ t.par.dslot ≠ 0xFF) ∨
        (t.par.aq = false ∧ ∀ y ∈ (s.team t.team).queues, 32 + k ∉ y.2.engines)) →
      u.str j = (s.waveElems core k t w t.par.n).str j) : swept s u core k t w := by
  refine ⟨fun hno => ?_, fun hdue x hx hhas hlive hframe huid hraced hundef hends n hn => ?_⟩
  · have hdue : t.par.due w.s = false := by rw [← Bool.not_eq_true, due_iff]; exact hno
    refine ⟨(hstrands hno).trans (strands_waveElems_not_due hdue _), fun n hn => ?_⟩
    rw [hsums n hn, sumAt_waveElems hcore hsorted, if_pos hn, hdue]
    rfl
  · rw [← due_iff] at hdue
    refine ⟨?_, ?_⟩
    · rw [hsums n hn, sumAt_waveElems hcore hsorted, if_pos hn, hdue]
      rfl
    · rw [hstr _ hlive hends, (peek_waveElems hcore hsorted hdue hx hraced hundef hhas hframe huid _).2, if_pos hn]
      simp only [State.newAcc, State.accBefore, State.newSum, Bool.and_eq_true, decide_eq_true_eq]

/-- What the completion of a wavefront leads to, said of the state and the token then. -/
def Completed (s u : State) (core k : Nat) (t t' : MxTok) (w : Wave) (rest : List Wave) : Prop :=
  nget (u.core core).mx k = some t' ∧ swept s u core k t w ∧
  (u.core core).regs.wfcnt = (s.core core).regs.wfcnt + 1 ∧
  (w.m + 1 = t.par.m → promotes t w → t'.kdone = w.s + 1) ∧ (¬(w.m + 1 = t.par.m ∧ promotes t w) → t'.kdone = t.kdone) ∧
  (w.m + 1 ≠ t.par.m ∨ w.s + 1 ≠ t.par.ks →
    (u.core core).arr.inflight = rest ∧ (u.core core).arr.op = some k ∧ t'.st = t.st ∧ u.mem = s.mem ∧ u.teams = s.teams) ∧
  (w.m + 1 = t.par.m → w.s + 1 = t.par.ks →
    (u.core core).arr.op = none ∧ (u.core core).arr.weights = none ∧ (u.core core).arr.shadow = none ∧
    (t.par.last = true → t.par.dslot ≠ 0xFF → t'.st = .drain ∧ (u.core core).dre.queue = (s.core core).dre.queue ++ [k]) ∧
    (t.par.last = false ∨ t.par.dslot = 0xFF → t'.st = .done ∧ (u.core core).dre.queue = (s.core core).dre.queue))

variable (h : inArray s core k t) (hcore : (s.team t.team).core = core) (hsorted : nsorted (s.core core).arr.asum = true)
include h hcore hsorted

/-- A wavefront of another row than the last. -/
theorem completed_row (hrow : w.m + 1 ≠ t.par.m) : ∃ t', Completed s (s.waveOut core k t w rest) core k t t' w rest := by
  have hsum := summing_waveElems s core k t w t.par.n
  obtain ⟨t', htok', hnoted⟩ := mxTok_waveOut (w := w) (rest := rest) h.2
  obtain ⟨hst, -, -, hkdone⟩ := eq_of_unnoted hnoted
  have hop : ((s.waveOut core k t w rest).core core).arr.op = some k := by
    rw [core_waveOut, hsum.coreEq]
    exact h.1
  refine ⟨t', htok', swept_of hcore hsorted (fun _ => rfl) (fun n _ => ?_) (fun _ _ _ => rfl), by rw [core_waveOut], fun hm => absurd hm hrow,
    fun _ => hkdone, fun _ => ⟨by rw [core_waveOut], hop, hst, hsum.mem, hsum.teams⟩,
    fun hm => absurd hm hrow⟩
  rw [sumAt, core_waveOut]
  rfl

/-- The last row of a k-step that is not the last. -/
theorem completed_step (hrow : w.m + 1 = t.par.m) (hstep : w.s + 1 ≠ t.par.ks) :
    ∃ t', Completed s (s.stepOut core k t w rest) core k t t' w rest := by
  have hsum := summing_waveElems s core k t w t.par.n
  obtain ⟨harr, hregs, -, hstrands, hteams, hmem⟩ := stepOut_keeps (s := s) (core := core) (k := k) (t := t) (w := w) (rest := rest)
  obtain ⟨t', htok', hst, -, -, hkdone⟩ := mxTok_stepOut (w := w) (rest := rest) h.2
  have hop : ((s.stepOut core k t w rest).core core).arr.op = some k := by
    rw [harr, core_waveOut, hsum.coreEq]
    exact h.1
  refine ⟨t', htok', swept_of hcore hsorted (fun _ => hstrands) (fun n _ => ?_) (fun _ _ _ => by rw [State.str, hstrands]; rfl),
    by rw [hregs, core_waveOut], fun _ hdue => ?_, fun hno => ?_, fun _ => ⟨by rw [harr, core_waveOut], hop, hst, hmem, hteams⟩,
    fun _ hs => absurd hs hstep⟩
  · rw [sumAt, harr, core_waveOut]
    rfl
  · rw [hkdone, if_pos ((due_iff t w).2 hdue)]
  · rw [hkdone, if_neg fun hdue => hno ⟨hrow, (due_iff t w).1 hdue⟩]

/-- The last wavefront of an operation. -/
theorem completed_last (hhalt : (s.core core).arr.halt = none) (hrow : w.m + 1 = t.par.m) (hstep : w.s + 1 = t.par.ks) :
    ∃ t', Completed s ((s.stepOut core k t w rest).opLeaves core k t) core k t t' w rest := by
  have hsum := summing_waveElems s core k t w t.par.n
  have hpromotes : promotes t w := .inr hstep
  have hdue : t.par.due w.s = true := (due_iff t w).2 hpromotes
  obtain ⟨harr, hregs, hdre, hstrands, hteams, -⟩ := stepOut_keeps (s := s) (core := core) (k := k) (t := t) (w := w) (rest := rest)
  obtain ⟨t', htok', -, hpar, hteam, hkdone⟩ := mxTok_stepOut (w := w) (rest := rest) h.2
  rw [if_pos hdue] at hkdone
  have hhalt' : ((s.stepOut core k t w rest).core core).arr.halt = none := by
    rw [harr, core_waveOut, hsum.coreEq]
    exact hhalt
  have hqueue : ((s.stepOut core k t w rest).core core).dre.queue = (s.core core).dre.queue := by rw [hdre, core_waveOut, hsum.coreEq]
  have hstr (j : Nat) : (s.stepOut core k t w rest).str j = (s.waveElems core k t w t.par.n).str j := by
    rw [State.str, hstrands]
    rfl
  obtain ⟨harr', hregs', hdrain, hdone⟩ := opLeaves_leaves (t := t) hhalt' htok'
  have hwfcnt : (((s.stepOut core k t w rest).opLeaves core k t).core core).regs.wfcnt = (s.core core).regs.wfcnt + 1 := by
    rw [hregs', hregs, core_waveOut]
  have hsums (n : Nat) (hn : n < t.par.n) :
      sumAt ((s.stepOut core k t w rest).opLeaves core k t) core w.m n = sumAt (s.waveElems core k t w t.par.n) core w.m n := by
    rw [sumAt_waveElems hcore hsorted, if_pos hn, if_pos hdue, sumAt, harr']
    rfl
  have hleave : (((s.stepOut core k t w rest).opLeaves core k t).core core).arr.op = none ∧
      (((s.stepOut core k t w rest).opLeaves core k t).core core).arr.weights = none ∧
      (((s.stepOut core k t w rest).opLeaves core k t).core core).arr.shadow = none := by
    rw [harr']
    exact ⟨rfl, rfl, rfl⟩
  obtain ⟨hop, hweights, hshadow⟩ := hleave
  by_cases hgo : t.par.last = true ∧ t.par.dslot ≠ 0xFF
  · obtain ⟨htok'', hqueue', hstrands'⟩ := hdrain hgo
    refine ⟨_, htok'', swept_of hcore hsorted (fun hno => absurd hpromotes hno) hsums (fun j _ _ => ?_), hwfcnt, fun _ _ => hkdone,
      fun hno => absurd ⟨hrow, hpromotes⟩ hno, fun hno => ?_, fun _ _ => ⟨hop, hweights, hshadow, fun _ _ => ⟨rfl, by rw [hqueue', hqueue]⟩, fun hno => ?_⟩⟩
    · rw [State.str, hstrands']
      exact hstr j
    · exact hno.elim (fun hm => absurd hrow hm) fun hs => absurd hstep hs
    · simp [hgo] at hno
  · obtain ⟨htok'', hqueue', hlive⟩ := hdone hgo
    refine ⟨_, htok'', swept_of hcore hsorted (fun hno => absurd hpromotes hno) hsums (fun j hj hends => ?_), hwfcnt, fun _ _ => hkdone,
      fun hno => absurd ⟨hrow, hpromotes⟩ hno, fun hno => ?_, fun _ _ => ⟨hop, hweights, hshadow, fun hl hd => absurd ⟨hl, hd⟩ hgo,
        fun _ => ⟨rfl, by rw [hqueue', hqueue]⟩⟩⟩
    · obtain ⟨haq, hengines⟩ : t.par.aq = false ∧ ∀ y ∈ (s.team t.team).queues, 32 + k ∉ y.2.engines := by
        rcases hends with hm | hs | hd | hfree
        · exact absurd hrow hm
        · exact absurd hstep hs
        · exact absurd hd hgo
        · exact hfree
      rw [hlive (by rw [hpar, haq]) (by rw [hteam, State.team, hteams]; exact hengines) j (by rw [hstr, hsum.finished, hj]), hstr]
    · exact hno.elim (fun hm => absurd hrow hm) fun hs => absurd hstep hs

/-- R326, R233: the oldest wavefront in flight is complete. -/
theorem wavefrontComplete_oldest (hargs : s.args = [core]) (hwave : (s.core core).arr.inflight = w :: rest) (hm : w.m < t.par.m)
    (hhalt : (s.core core).arr.halt = none) :
    ∃ u t', exec .wavefrontComplete s = .next u ∧ Completed s u core k t t' w rest := by
  rw [exec_wavefrontComplete hargs, waveDone_eq h hwave]
  split
  · next hlt => exact ⟨_, (completed_row h hcore hsorted (Nat.ne_of_lt hlt)).imp fun _ hc => ⟨rfl, hc⟩⟩
  · next hge =>
    have hrow : w.m + 1 = t.par.m := by omega
    split
    · next hstep => exact ⟨_, (completed_last h hcore hsorted hhalt hrow hstep).imp fun _ hc => ⟨rfl, hc⟩⟩
    · next hstep => exact ⟨_, (completed_step h hcore hsorted hrow hstep).imp fun _ hc => ⟨rfl, hc⟩⟩

end

/-! The quiescent point of a halt (R334, R335). -/

/-- What a halt leads to at the quiescent point: the operation goes, keeps its sums for a save, or is held. -/
def State.quiesced (s : State) (core k : Nat) : Halt → State
  | .abort => (s.arrayLeft core).mxAborted core k
  | .preempt => (s.arrayLeft core).modMx core k fun t => { t with asum := (s.core core).arr.asum }
  | .debug => (s.noteAqp core).modCore core fun c => { c with arr := { c.arr with held := true } }

theorem quiescent_eq {s : State} {core k : Nat} {t : MxTok} {h : Halt} (hin : inArray s core k t) (hhalt : (s.core core).arr.halt = some h)
    (hheld : (s.core core).arr.held = false) (hflight : (s.core core).arr.inflight = []) : s.quiescent core = s.quiesced core k h := by
  simp only [State.quiescent, hin.1, hhalt, hheld, hflight, List.isEmpty_nil, Bool.not_true, Bool.or_self, Bool.false_eq_true, if_false]
  cases h <;> rfl

theorem quiescent_busy {s : State} {core k : Nat} {t : MxTok} {h : Halt} (hin : inArray s core k t) (hhalt : (s.core core).arr.halt = some h)
    (hflight : (s.core core).arr.inflight ≠ []) : s.quiescent core = s := by
  obtain ⟨w, rest, hwave⟩ := List.exists_cons_of_ne_nil hflight
  simp [State.quiescent, hin.1, hhalt, hwave]

theorem core_scrambleAcc (s : State) (t : MxTok) (i : Nat) : (s.scrambleAcc t).core i = s.core i := by
  have hcores : (s.scrambleAcc t).cores = s.cores := by
    rw [State.scrambleAcc]
    exact cores_foldl (fun s x => cores_foldl (f := fun s r => s.scramble x.strand x.frame r) (fun _ _ => rfl) x.regs s) t.acc s
  rw [State.core, hcores]
  rfl

/-- R236: the core of an operation that goes to ABORTED. -/
theorem core_mxAborted {s : State} {core k : Nat} {t : MxTok} (htok : nget (s.core core).mx k = some t) :
    (s.mxAborted core k).core core = { s.core core with
      mx := nmod (s.core core).mx k fun t => { t with st := .aborted, slot := none, abort := false },
      dre := { (s.core core).dre with queue := (s.core core).dre.queue.filter (· != k) },
      arr := if (s.core core).arr.op = some k then (s.core core).arr.leave else (s.core core).arr } := by
  have hslot (u : State) (c : Prop) [Decidable c] (f : LiveQ → LiveQ) (tid desc : Nat) :
      (if c then u.modQ tid desc f else u).core core = u.core core := by
    split
    · rfl
    · rfl
  simp only [State.mxAborted, State.mxTok, htok, core_mxEnded, core_modCore_same, core_modMx_same, hslot, core_scrambleAcc]

theorem core_arrayLeft_halted {s : State} {core : Nat} {h : Halt} (hhalt : (s.core core).arr.halt = some h) :
    (s.arrayLeft core).core core = { s.core core with
      arr := (s.core core).arr.leave,
      regs := { (s.core core).regs with aqpmax := max (s.core core).regs.aqpmax (s.cycle - (s.core core).arr.haltAt) } } := by
  rw [State.arrayLeft, core_modCore_same, core_noteAqp, hhalt]
  rfl

/-- R334, R335: a halt takes effect once nothing is in flight. -/
theorem arrayQuiescentPoint_halted (s : State) (core k : Nat) (t : MxTok) (h : Halt) (hargs : s.args = [core]) (hin : inArray s core k t)
    (hhalt : (s.core core).arr.halt = some h) (hheld : (s.core core).arr.held = false) :
    ((s.core core).arr.inflight ≠ [] → exec .arrayQuiescentPoint s = .next s) ∧
    ((s.core core).arr.inflight = [] → ∃ u, exec .arrayQuiescentPoint s = .next u ∧
      (u.core core).regs.aqpmax = max (s.core core).regs.aqpmax (s.cycle - (s.core core).arr.haltAt) ∧
      (h = .debug → (u.core core).arr.held = true ∧ (u.core core).arr.op = some k ∧ u.strands = s.strands ∧ u.mem = s.mem) ∧
      (h = .preempt → (u.core core).arr.op = none ∧ u.strands = s.strands ∧ u.mem = s.mem ∧
        (nget (u.core core).mx k).map (·.asum) = some (s.core core).arr.asum) ∧
      (h = .abort → (u.core core).arr.op = none ∧ (nget (u.core core).mx k).map (·.st) = some .aborted)) := by
  rw [exec_arrayQuiescentPoint hargs]
  refine ⟨fun hflight => by rw [quiescent_busy hin hhalt hflight], fun hflight => ⟨_, rfl, ?_⟩⟩
  have hleft := core_arrayLeft_halted hhalt
  rw [quiescent_eq hin hhalt hheld hflight]
  cases h with
  | abort =>
    have htok : nget ((s.arrayLeft core).core core).mx k = some t := by rw [hleft]; exact hin.2
    dsimp only [State.quiesced]
    rw [core_mxAborted htok, hleft]
    refine ⟨rfl, nofun, nofun, fun _ => ⟨rfl, ?_⟩⟩
    simp [nget_nmod, hin.2]
  | preempt =>
    dsimp only [State.quiesced]
    refine ⟨by rw [core_modMx_same, hleft], nofun, fun _ => ⟨by rw [core_modMx_same, hleft]; rfl, rfl, rfl, ?_⟩, nofun⟩
    rw [mxTok_modMx_same, hleft]
    simp [hin.2]
  | debug =>
    dsimp only [State.quiesced]
    rw [core_modCore_same, core_noteAqp, hhalt]
    exact ⟨rfl, fun _ => ⟨rfl, hin.1, rfl, rfl⟩, nofun, nofun⟩

/-- The array moves on, by its five events. -/
theorem arrayMoves : ArrayMoves :=
  ⟨weightReload_inArray, weightReload_idle, wavefrontAdmission_ready,
    fun _ _ _ _ _ _ hargs hin hwave hm _ hsorted hcore hhalt => wavefrontComplete_oldest hin hcore hsorted hargs hwave hm hhalt,
    arrayQuiescentPoint_halted⟩

end Sys2Proof.Machine

open Sys2Proof Sys2Proof.Machine Sys2Proof.Claim

/-- Settles O49: the array's five events one by one, a wavefront's elements by induction along its row, and the sums by value. -/
theorem Sys2Proof.Machine.arrayMovesAndValues : Obligations.ArrayMovesAndValues := ⟨arrayMoves, wavefrontValues⟩
end

section
/-! PROOFS. What the sequencer's own writes leave of the queues, of the grids and of the numbers for new ones, and what an error or a
completion leaves of them (11_scheduling_launch.md R308, R309). -/

namespace Sys2Proof.Machine

open Sys2Proof.Claim

/-! Numbers and bits of a packet's words (R3). -/

theorem leSum_eq_leNat (bs : List Byte) : leSum bs = leNat bs := by
  have from_offset (k : Nat) : ((bs.zipIdx k).map fun b => b.1.toNat * 256 ^ b.2).sum = 256 ^ k * leNat bs := by
    induction bs generalizing k with
    | nil => rfl
    | cons b bs ih =>
      simp only [List.zipIdx_cons, List.map_cons, List.sum_cons, ih, leNat, pow_succ]
      ring
  rw [leSum, from_offset, pow_zero, one_mul]

theorem fld_zero (b : List Byte) (n : Nat) : fld b 0 n = leSum (b.take n) := by rw [fld, List.drop_zero, leSum_eq_leNat]

theorem bitOf_eq_testBit (n i : Nat) : bitOf n i = n.testBit i := by
  rw [bitOf, Nat.testBit_eq_decide_div_mod_eq, Bool.eq_iff_iff, beq_iff_eq, decide_eq_true_eq]

theorem pkFence_eq (b : List Byte) : pkFence b = (leSum (b.take 4)).testBit 8 := by rw [pkFence, bitOf_eq_testBit, fld_zero]

theorem pkCpl_eq (b : List Byte) : pkCpl b = (leSum (b.take 4)).testBit 9 := by rw [pkCpl, bitOf_eq_testBit, fld_zero]

/-! When a packet may start (R309). -/

theorem acquires_iff (u : Uq) (b : List Byte) : u.acquires b = true ↔ isAcquire u b := by
  simp only [Uq.acquires, isAcquire, pkFence_eq, Bool.or_eq_true, beq_iff_eq]
  tauto

theorem mayStart_iff (u : Uq) (b : List Byte) : u.mayStart b = true ↔ startable u b := by
  have hfenced : (!u.acquires b || u.started.isEmpty) = true ↔ (isAcquire u b → u.started = []) := by
    rw [Bool.or_eq_true, Bool.not_eq_true', List.isEmpty_iff, ← acquires_iff, ← Bool.not_eq_true, imp_iff_not_or]
  rw [Uq.mayStart, Bool.and_eq_true, decide_eq_true_eq, hfenced, startable]

/-! Translations that are used, and bytes that are put (R359, R360). -/

theorem keepEnt_eq (s : State) (core : Nat) (e : TlbEnt) :
    ∃ cores xcache, s.keepEnt core e = { s with cores := cores, xcache := xcache } := by
  simp only [State.keepEnt]
  split
  · exact ⟨s.cores, s.xcache, rfl⟩
  · split <;> exact ⟨_, _, rfl⟩

theorem keepXlat_eq (s : State) (ctx core va : Nat) (x : Xlat) :
    ∃ cores xcache, s.keepXlat ctx core va x = { s with cores := cores, xcache := xcache } := by
  simp only [State.keepXlat]
  split
  · next a e _ =>
    obtain ⟨cores, xcache, h⟩ := keepEnt_eq s core ⟨ctx, 3, va / 2 ^ levelShift 3 * 2 ^ levelShift 3, false, e, a⟩
    rw [h]
    exact keepEnt_eq _ core _
  · exact keepEnt_eq s core _

/-- A translation that is used sets A and D in the tables, and is kept in a TLB and the package's cache. -/
theorem useXlat_eq (s : State) (ctx core va : Nat) (x : Xlat) (need : Need) :
    ∃ mem cores xcache, s.useXlat ctx core va x need = { s with mem := mem, cores := cores, xcache := xcache } := by
  simp only [State.useXlat]
  generalize (if need = .write then 0x60 else 0x20) = want
  split
  · exact ⟨s.mem, keepXlat_eq s ctx core va _⟩
  · exact ⟨_, keepXlat_eq _ ctx core va _⟩

theorem useXlat_ctx (s : State) (ctx core va : Nat) (x : Xlat) (need : Need) (i : Nat) :
    (s.useXlat ctx core va x need).ctx i = s.ctx i := by
  obtain ⟨mem, cores, xcache, h⟩ := useXlat_eq s ctx core va x need
  rw [h]
  rfl

theorem useXlat_host (s : State) (ctx core va : Nat) (x : Xlat) (need : Need) : (s.useXlat ctx core va x need).host = s.host := by
  obtain ⟨mem, cores, xcache, h⟩ := useXlat_eq s ctx core va x need
  rw [h]

theorem touched_mxRace (s : State) (cells : List Host.Cell) : Touched s (s.mxRace cells) := by
  have hacc (s : State) (t : MxTok) : Touched s (s.scrambleAcc t) := by
    rw [State.scrambleAcc]
    exact .foldl (fun s x => .foldl (fun s r => touched_scramble s x.strand x.frame r) x.regs s) t.acc s
  rw [State.mxRace]
  refine .foldl (fun s x => ?_) s.cores s
  refine .foldl (fun s y => ?_) _ s
  dsimp only
  split
  · exact (hacc s y.2).trans (touched_modMxs _ x.1 fun m => nmod m y.1 fun t => { t with raced := true })
  · exact .refl s

/-- Bytes put change memory where no control register is, and what follows from a race with a matrix operation. -/
theorem putCells_eq (s : State) (cells : List Host.Cell) :
    s.putCells cells = { s with
      mem := s.mem.writeCells (cells.filter fun c => regionOf c.1 != .control)
      strands := (s.putCells cells).strands
      teams := (s.putCells cells).teams
      cores := (s.putCells cells).cores
      ctlq := (s.putCells cells).ctlq } := by
  have hrace := (touched_mxRace (s.setMem (s.mem.writeCells (cells.filter fun c => regionOf c.1 != .control)))
    (cells.filter fun c => regionOf c.1 != .control)).rest
  simp only [State.putCells]
  split <;>
  · rw [hrace]
    rfl

/-! What writes leave of the queues. -/

/-- Queues, slots, grids and the numbers for new ones stay as they are. -/
structure QueuesKept (s t : State) : Prop where
  sched : t.sched = s.sched
  grids : t.grids = s.grids
  ids : t.ids = s.ids

namespace QueuesKept

theorem refl (s : State) : QueuesKept s s := ⟨rfl, rfl, rfl⟩

theorem trans {s t u : State} (h : QueuesKept s t) (h' : QueuesKept t u) : QueuesKept s u :=
  ⟨h'.sched.trans h.sched, h'.grids.trans h.grids, h'.ids.trans h.ids⟩

theorem foldl {α : Type} {f : State → α → State} (h : ∀ s x, QueuesKept s (f s x)) (xs : List α) (s : State) :
    QueuesKept s (xs.foldl f s) := by
  induction xs generalizing s with
  | nil => exact refl s
  | cons x xs ih => exact (h s x).trans (ih _)

theorem uq {s t : State} (h : QueuesKept s t) (q : Nat) : t.uq q = s.uq q := by rw [State.uq, State.uq, h.sched]

end QueuesKept

theorem queuesKept_useParts (s : State) (ctx core : Nat) (need : Need) (ps : List XPart) : QueuesKept s (s.useParts ctx core need ps) := by
  refine .foldl (fun s p => ?_) ps s
  obtain ⟨mem, cores, xcache, h⟩ := useXlat_eq s ctx core p.va p.x need
  rw [h]
  exact ⟨rfl, rfl, rfl⟩

theorem queuesKept_putCells (s : State) (cells : List Host.Cell) : QueuesKept s (s.putCells cells) := by
  rw [putCells_eq]
  exact ⟨rfl, rfl, rfl⟩

theorem queuesKept_seqWrite {s t : State} {ctx va : Nat} {bs : List Byte} (h : s.seqWrite ctx va bs = .ok t) : QueuesKept s t := by
  simp only [State.seqWrite] at h
  split at h
  · cases h
  · cases h
    exact (queuesKept_useParts s ctx noCore .write _).trans (queuesKept_putCells _ _)

theorem queuesKept_tryWriteVa (s : State) (ctx va : Nat) (bs : List Byte) : QueuesKept s (s.tryWriteVa ctx va bs) := by
  simp only [State.tryWriteVa]
  split
  · next t h =>
    simp only [State.writeVa] at h
    split at h
    · cases h
    · split at h
      · cases h
      · cases h
        exact (queuesKept_useParts s ctx noCore .write _).trans (queuesKept_putCells _ _)
  · exact .refl s

theorem queuesKept_event (s : State) (e kind queue ctx code detail : Nat) : QueuesKept s (s.event e kind queue ctx code detail) := by
  simp only [State.event, State.append]
  split <;> exact ⟨rfl, rfl, rfl⟩

theorem queuesKept_debugRecord (s : State) (kind core slot ctx : Nat) (body : List Byte) :
    QueuesKept s (s.debugRecord kind core slot ctx body) := by
  simp only [State.debugRecord]
  split <;> exact ⟨rfl, rfl, rfl⟩

theorem queuesKept_log (s : State) (ctx kind ectx : Nat) (body : List Byte) : QueuesKept s (s.log ctx kind ectx body) := by
  have hctx (s : State) (f : Ctx → Ctx) : QueuesKept s (s.modCtx ctx f) := ⟨rfl, rfl, rfl⟩
  simp only [State.log]
  split
  · exact .refl s
  · split
    · exact (hctx s _).trans (queuesKept_debugRecord _ _ _ _ _ _)
    · exact (queuesKept_putCells s _).trans (hctx _ _)

/-! Changes of one queue. -/

theorem uq_modQueue_same {s : State} {q : Nat} (h : nhas s.sched.queues q = true) (f : Uq → Uq) : (s.modQueue q f).uq q = f (s.uq q) := by
  obtain ⟨u, hu⟩ := Option.isSome_iff_exists.1 h
  simp [State.uq, State.modQueue, nget_nmod, hu]

/-- What a change of a queue keeps of it. -/
theorem uq_modQueue_keeps {α : Type} (g : Uq → α) {f : Uq → Uq} (h : ∀ u, g (f u) = g u) (s : State) (q p : Nat) :
    g ((s.modQueue q f).uq p) = g (s.uq p) := by
  simp only [State.uq, State.modQueue, State.modSched_sched, nget_nmod]
  split
  · next hp =>
    subst hp
    cases nget s.sched.queues p with
    | none => rfl
    | some u => exact h u
  · rfl

theorem nhas_modQueue (s : State) (q p : Nat) (f : Uq → Uq) : nhas (s.modQueue q f).sched.queues p = nhas s.sched.queues p :=
  nhas_nmod _ _ _ _

/-! Errors and completions (R308, R309). -/

theorem uq_modSlot (s : State) (k p : Nat) (f : Slot → Slot) : (s.modSlot k f).uq p = s.uq p := rfl

theorem queuesKept_errorWritten (s : State) (ctx va e q c r : Nat) (bs : List Byte) :
    QueuesKept s ((s.tryWriteVa ctx va bs).event e 1 q ctx c r) :=
  (queuesKept_tryWriteVa s ctx va bs).trans (queuesKept_event _ e 1 q ctx c r)

theorem queueError_grids (s : State) (q c r d : Nat) (b : List Byte) : (s.queueError q c r d b).grids = s.grids := by
  simp only [State.queueError]
  split <;>
  · simp only [State.modSlot, State.modQueue, State.modSched_grids]
    exact (queuesKept_errorWritten _ _ _ _ _ _ _ _).grids

theorem queueError_ridx (s : State) (q c r d : Nat) (b : List Byte) (p : Nat) :
    ((s.queueError q c r d b).uq p).ridx = (s.uq p).ridx := by
  have hridx (t : State) := uq_modQueue_keeps Uq.ridx (f := fun u => { u with st := .faulted }) (fun _ => rfl) t q p
  simp only [State.queueError]
  split <;>
  · simp only [uq_modSlot, hridx]
    rw [(queuesKept_errorWritten _ _ _ _ _ _ _ _).uq]

theorem startedError_grids (s : State) (q pkt c d : Nat) : (s.startedError q pkt c d).grids = s.grids := queueError_grids _ _ _ _ _ _

theorem startedError_ridx (s : State) (q pkt c d p : Nat) : ((s.startedError q pkt c d).uq p).ridx = (s.uq p).ridx :=
  (queueError_ridx _ _ _ _ _ _ _).trans
    (uq_modQueue_keeps Uq.ridx (f := fun u => { u with started := ndel u.started pkt }) (fun _ => rfl) s q p)

section
variable {s : State} {q pkt : Nat} {x : Started} (hx : nget (s.uq q).started pkt = some x) (hwork : ∀ g, x.work ≠ .grid g)
include hx hwork

theorem completePacket_silent (hcpl : x.cpl = none) :
    s.completePacket q pkt = s.modQueue q fun u => { u with started := ndel u.started pkt } := by
  cases hw : x.work
  case grid g => exact absurd hw (hwork g)
  all_goals simp only [State.completePacket, hx, hw, hcpl]

theorem completePacket_stored {a v : Nat} {t : State} (hcpl : x.cpl = some (a, v))
    (hstore : s.seqWrite (s.uq q).ctx a (leBytes 8 v) = .ok t) :
    s.completePacket q pkt = t.modQueue q fun u => { u with started := ndel u.started pkt } := by
  cases hw : x.work
  case grid g => exact absurd hw (hwork g)
  all_goals simp only [State.completePacket, hx, hw, hcpl, hstore]

theorem completePacket_faulted {a v f : Nat} (hcpl : x.cpl = some (a, v))
    (hstore : s.seqWrite (s.uq q).ctx a (leBytes 8 v) = .error f) : s.completePacket q pkt = s.startedError q pkt 0x06 f := by
  cases hw : x.work
  case grid g => exact absurd hw (hwork g)
  all_goals simp only [State.completePacket, hx, hw, hcpl, hstore]

/-- A completion moves no RIDX and, but for a launch's own, ends no grid. -/
theorem completePacket_keeps : (s.completePacket q pkt).grids = s.grids ∧ ((s.completePacket q pkt).uq q).ridx = (s.uq q).ridx := by
  have hridx (t : State) := uq_modQueue_keeps Uq.ridx (f := fun u => { u with started := ndel u.started pkt }) (fun _ => rfl) t q q
  cases hcpl : x.cpl with
  | none =>
    rw [completePacket_silent hx hwork hcpl]
    exact ⟨rfl, hridx s⟩
  | some y =>
    cases hstore : s.seqWrite (s.uq q).ctx y.1 (leBytes 8 y.2) with
    | error f =>
      rw [completePacket_faulted hx hwork hcpl hstore]
      exact ⟨startedError_grids _ _ _ _ _, startedError_ridx _ _ _ _ _ _⟩
    | ok t =>
      have hkept := queuesKept_seqWrite hstore
      rw [completePacket_stored hx hwork hcpl hstore]
      exact ⟨hkept.grids, (hridx t).trans (congrArg Uq.ridx (hkept.uq q))⟩

end

end Sys2Proof.Machine
end

section
/-! PROOFS. What a packet that starts leaves in its queue, by type (11_scheduling_launch.md R307, R309): RIDX advances and is written, and
the packet's work is kept until it completes. -/

namespace Sys2Proof.Machine

open Sys2Proof.Claim

/-! Writes of the sequencer see nothing of the queues (R309). -/

theorem useXlat_modSched (s : State) (f : Sched → Sched) (ctx core va : Nat) (x : Xlat) (need : Need) :
    (s.modSched f).useXlat ctx core va x need = (s.useXlat ctx core va x need).modSched f := by
  have hent (s : State) (core : Nat) (e : TlbEnt) : (s.modSched f).keepEnt core e = (s.keepEnt core e).modSched f := by
    rw [State.keepEnt, State.keepEnt]
    by_cases hold : (s.core core).tlb.contains e = true
    · rw [if_pos hold]
      exact if_pos hold
    · rw [if_neg hold]
      refine (if_neg hold).trans ?_
      split <;> rfl
  have hkeep (s : State) (x : Xlat) : (s.modSched f).keepXlat ctx core va x = (s.keepXlat ctx core va x).modSched f := by
    simp only [State.keepXlat]
    split
    · rw [hent, hent]
    · exact hent s core _
  simp only [State.useXlat, State.modSched_mem]
  generalize (if need = .write then 0x60 else 0x20) = want
  split
  · exact hkeep s _
  · exact hkeep (s.setMem _) _

theorem useParts_modSched (s : State) (f : Sched → Sched) (ctx core : Nat) (need : Need) (ps : List XPart) :
    (s.modSched f).useParts ctx core need ps = (s.useParts ctx core need ps).modSched f := by
  rw [State.useParts, State.useParts]
  induction ps generalizing s with
  | nil => rfl
  | cons p ps ih => rw [List.foldl_cons, List.foldl_cons, useXlat_modSched, ih]

theorem xlateParts_modSched (s : State) (f : Sched → Sched) (m : Memory) (ctx core : Nat) (need : Need) (site : Nat)
    (ps : List (Nat × Nat)) : (s.modSched f).xlateParts m ctx core need site ps = s.xlateParts m ctx core need site ps := by
  induction ps with
  | nil => rfl
  | cons p ps ih =>
    rw [State.xlateParts, State.xlateParts, ih]
    rfl

theorem outerCells_mem (s : State) (cells : List Host.Cell) :
    (s.outerCells cells).mem = s.mem.writeCells ((s.liveCells 0x7B00000 cells).filter fun c => regionOf c.1 != .control) := by
  rw [State.outerCells, putCells_eq]

theorem tryWriteVa_modSched_mem (s : State) (f : Sched → Sched) (ctx va : Nat) (bs : List Byte) :
    ((s.modSched f).tryWriteVa ctx va bs).mem = (s.tryWriteVa ctx va bs).mem := by
  by_cases hva : 2 ^ 56 < va + bs.length
  · simp only [State.tryWriteVa, State.writeVa, if_pos hva, State.modSched_mem]
  · simp only [State.tryWriteVa, State.writeVa, if_neg hva, State.modSched_mem, xlateParts_modSched, useParts_modSched]
    cases s.xlateParts s.mem ctx noCore .write 0x7100000 (pageParts va bs.length) with
    | error e => rfl
    | ok ps =>
      dsimp only
      rw [outerCells_mem, outerCells_mem]
      rfl

/-! RIDX advances (R309). -/

theorem log_unstored {s : State} {ctx : Nat} (h : (s.ctx ctx).ck.stored = []) (kind ectx : Nat) (body : List Byte) :
    s.log ctx kind ectx body = s := by simp [State.log, h]

theorem passPacket_grids (s : State) (q : Nat) (b : List Byte) : (s.passPacket q b none).grids = s.grids :=
  (queuesKept_tryWriteVa _ _ _ _).grids.trans (queuesKept_log (s.modQueue q _) _ _ _ _).grids

theorem passPacket_ids (s : State) (q : Nat) (b : List Byte) : (s.passPacket q b none).ids = s.ids :=
  (queuesKept_tryWriteVa _ _ _ _).ids.trans (queuesKept_log (s.modQueue q _) _ _ _ _).ids

section
variable {s : State} {q : Nat} (hq : nhas s.sched.queues q = true) (b : List Byte)
include hq

theorem passPacket_has : nhas (s.passPacket q b none).sched.queues q = true := by
  simp only [State.passPacket, (queuesKept_tryWriteVa _ _ _ _).sched, nhas_modQueue, (queuesKept_log _ _ _ _ _).sched, hq]

theorem passPacket_uq : (s.passPacket q b none).uq q = { s.uq q with
    acquired := (s.uq q).acquired || (s.uq q).acquires b, ridx := (s.uq q).ridx + 1, afterWait := pkType b == 4 } := by
  have hlogged (f : Uq → Uq) (ctx : Nat) (body : List Byte) :
      nhas ((s.modQueue q f).log ctx 2 ctx body).sched.queues q = true := by
    rw [(queuesKept_log _ _ _ _ _).sched, nhas_modQueue, hq]
  simp only [State.passPacket]
  rw [(queuesKept_tryWriteVa _ _ _ _).uq, uq_modQueue_same (hlogged _ _ _), (queuesKept_log _ _ _ _ _).uq, uq_modQueue_same hq]

theorem passPacket_mem (hstored : (s.ctx (s.uq q).ctx).ck.stored = []) : (s.passPacket q b none).mem =
    (s.tryWriteVa (s.uq q).ctx (s.uq q).ridxAddr (leBytes 8 ((s.uq q).ridx + 1))).mem := by
  have hlog (f : Uq → Uq) (body : List Byte) : (s.modQueue q f).log (s.uq q).ctx 2 (s.uq q).ctx body = s.modQueue q f :=
    log_unstored (s := s.modQueue q f) hstored _ _ _
  simp only [State.passPacket, uq_modQueue_same hq, hlog]
  exact (tryWriteVa_modSched_mem (s.modQueue q _) _ _ _ _).trans (tryWriteVa_modSched_mem s _ _ _ _)

end

/-! What a start leaves in the queue, by type (R307, R309). -/

/-- What is kept of a packet that has started with some work. -/
def startedWith (b : List Byte) (work : Work) (nodes : NMap GNode) : Started :=
  { ty := pkType b, cpl := if pkCpl b then some (fld b 0x30 8, fld b 0x38 8) else none, work := work, nodes := nodes,
    ktab := fld b 0x20 8, mptab := fld b 0x28 8, image := b }

theorem startedWith_cpl (b : List Byte) (work : Work) (nodes : NMap GNode) : (startedWith b work nodes).cpl =
    if (leSum (b.take 4)).testBit 9 then some (fld b 0x30 8, fld b 0x38 8) else none := by rw [← pkCpl_eq, startedWith]

theorem addStarted_uq {s : State} {q : Nat} (hq : nhas s.sched.queues q = true) (pkt : Nat) (b : List Byte) (work : Work)
    (nodes : NMap GNode) : (s.addStarted q pkt b work nodes).uq q =
      { s.uq q with started := nset (s.uq q).started pkt (startedWith b work nodes) } := uq_modQueue_same hq _

theorem addStarted_started {s : State} {q : Nat} (hq : nhas s.sched.queues q = true) (pkt : Nat) (b : List Byte) (work : Work)
    (nodes : NMap GNode) : nget ((s.addStarted q pkt b work nodes).uq q).started pkt = some (startedWith b work nodes) := by
  rw [addStarted_uq hq, nget_nset_same]

section
variable (s : State) (q pkt : Nat) {b : List Byte}

theorem startHead_copy (hty : pkType b = 3) (c : Checked) : s.startHead q pkt b c none =
    (s.passPacket q b none).addStarted q pkt b (.copy (fld b 0x08 8) (fld b 0x10 8) (fld b 0x18 8)) [] := by
  simp only [State.startHead, hty]

theorem startHead_waitLsn (hty : pkType b = 4) (c : Checked) : s.startHead q pkt b c none =
    (s.passPacket q b none).addStarted q pkt b (.waitLsn (fld b 0x08 8)) [] := by simp only [State.startHead, hty]

theorem startHead_graph (hty : pkType b = 7) (nodes : NMap GNode) : s.startHead q pkt b (.graph nodes) none =
    (s.passPacket q b none).addStarted q pkt b .graph nodes := by simp only [State.startHead, hty]

theorem startHead_barrier (hty : pkType b = 6) (c : Checked) : s.startHead q pkt b c none =
    ((s.passPacket q b none).addStarted q pkt b .barrier []).completePacket q pkt := by simp only [State.startHead, hty]

theorem startHead_launch (hty : pkType b = 1 ∨ pkType b = 2) (kd : KDesc) : s.startHead q pkt b (.launch kd) none =
    let v := s.passPacket q b none
    let x := v.newGrid (s.uq q).ctx (fld b 0x08 8) kd (fld b 0x10 8) (fld b 0x18 4) 0 (fld b 0x18 4) (.packet q pkt) (v.uq q).acquired
    x.2.addStarted q pkt b (.grid x.1) [] := by
  rcases hty with hty | hty <;> simp only [State.startHead, hty]

theorem startHead_signal (hty : pkType b = 5) (c : Checked) {m : State} (hm : (s.passPacket q b none).addStarted q pkt b .ended [] = m) :
    (∀ w t, m.signal (s.uq q).ctx (fld b 0x08 8) (fld b 0x10 8) (fld b 0x18 4) (.packet q pkt 0) = .ok (w, t) →
      s.startHead q pkt b c none = t.modQueue q fun u => { u with started := nmod u.started pkt fun x => { x with work := w } }) ∧
    (∀ e d, m.signal (s.uq q).ctx (fld b 0x08 8) (fld b 0x10 8) (fld b 0x18 4) (.packet q pkt 0) = .error (e, d) →
      s.startHead q pkt b c none = m.startedError q pkt e d) := by
  subst hm
  constructor
  all_goals
    intro _ _ h
    simp only [State.startHead, hty, h]

end

/-! The packets that only leave work behind: COPY, WAIT_LSN and GRAPH. -/

theorem startHead_adds {s : State} {q pkt : Nat} {b : List Byte} {c : Checked} (hty : pkType b ∈ [3, 4, 7])
    (hgraph : pkType b = 7 → ∃ nodes, c = .graph nodes) : ∃ work nodes, s.startHead q pkt b c none =
      (s.passPacket q b none).addStarted q pkt b work nodes := by
  simp only [List.mem_cons, List.not_mem_nil, or_false] at hty
  rcases hty with hty | hty | hty
  · exact ⟨_, _, startHead_copy s q pkt hty c⟩
  · exact ⟨_, _, startHead_waitLsn s q pkt hty c⟩
  · obtain ⟨nodes, rfl⟩ := hgraph hty
    exact ⟨_, _, startHead_graph s q pkt hty nodes⟩

section
variable {s : State} {q : Nat} (hq : nhas s.sched.queues q = true) (pkt : Nat) (b : List Byte)
include hq

theorem addStarted_passPacket_uq (work : Work) (nodes : NMap GNode) : ((s.passPacket q b none).addStarted q pkt b work nodes).uq q =
    { s.uq q with
      acquired := (s.uq q).acquired || (s.uq q).acquires b
      ridx := (s.uq q).ridx + 1
      afterWait := pkType b == 4
      started := nset (s.uq q).started pkt (startedWith b work nodes) } := by
  rw [addStarted_uq (passPacket_has hq b), passPacket_uq hq b]

theorem addStarted_passPacket_started (work : Work) (nodes : NMap GNode) :
    nget (((s.passPacket q b none).addStarted q pkt b work nodes).uq q).started pkt = some (startedWith b work nodes) :=
  addStarted_started (passPacket_has hq b) pkt b work nodes

/-- The bytes of RIDXADDR are all that such a start writes, where nothing is logged. -/
theorem addStarted_passPacket_mem (hstored : (s.ctx (s.uq q).ctx).ck.stored = []) (work : Work) (nodes : NMap GNode) :
    let t := (s.passPacket q b none).addStarted q pkt b work nodes
    let w := s.writeVa (s.uq q).ctx (s.uq q).ridxAddr (leBytes 8 ((s.uq q).ridx + 1))
    (∀ v, w = .ok v → t.mem = v.mem) ∧ (∀ e, w = .error e → t.mem = s.mem) := by
  have hmem := passPacket_mem hq b hstored
  rw [State.tryWriteVa] at hmem
  constructor
  all_goals
    intro _ hw
    refine Eq.trans hmem ?_
    rw [hw]

end

/-! Starts (R309). -/

/-- R309: a COPY, a WAIT_LSN or a GRAPH that starts. -/
theorem startHead_leavesWork {s : State} {q pkt : Nat} {b : List Byte} {c : Checked} (hq : nhas s.sched.queues q = true)
    (hridx : (s.uq q).ridx = pkt) (hty : pkType b ∈ [3, 4, 7]) (hgraph : pkType b = 7 → ∃ nodes, c = .graph nodes) :
    let t := s.startHead q pkt b c none
    (t.uq q).ridx = pkt + 1 ∧ ((t.uq q).afterWait = true ↔ pkType b = 4) ∧
    (∃ x, nget (t.uq q).started pkt = some x ∧ x.ty = pkType b ∧
      x.cpl = if (leSum (b.take 4)).testBit 9 then some (fld b 0x30 8, fld b 0x38 8) else none) ∧
    ((s.ctx (s.uq q).ctx).ck.stored = [] →
      (∀ v, s.writeVa (s.uq q).ctx (s.uq q).ridxAddr (leBytes 8 (pkt + 1)) = .ok v → t.mem = v.mem) ∧
      (∀ e, s.writeVa (s.uq q).ctx (s.uq q).ridxAddr (leBytes 8 (pkt + 1)) = .error e → t.mem = s.mem)) := by
  subst hridx
  obtain ⟨work, nodes, heq⟩ := startHead_adds (pkt := (s.uq q).ridx) (s := s) (q := q) hty hgraph
  dsimp only
  rw [heq]
  refine ⟨?_, ?_, ⟨_, addStarted_passPacket_started hq _ b work nodes, rfl, startedWith_cpl b work nodes⟩,
    fun hstored => addStarted_passPacket_mem hq _ b hstored work nodes⟩
  · rw [addStarted_passPacket_uq hq]
  · rw [addStarted_passPacket_uq hq, beq_iff_eq]

/-- R309: a launch that starts has a grid, of which no team is admitted yet. -/
theorem startHead_leavesGrid {s : State} {q : Nat} {b : List Byte} (hq : nhas s.sched.queues q = true) (pkt : Nat) (kd : KDesc)
    (hty : pkType b = 1 ∨ pkType b = 2) : let t := s.startHead q pkt b (.launch kd) none
    (∃ x, nget (t.uq q).started pkt = some x ∧ x.work = .grid s.ids.gid) ∧
    ∃ g, nget t.grids s.ids.gid = some g ∧ g.kd = kd ∧ g.ctx = (s.uq q).ctx ∧ g.teams = fld b 0x18 4 ∧ g.next = 0 ∧
      g.last = fld b 0x18 4 ∧ g.ended = [] ∧ (g.acquired = true ↔ (s.uq q).acquired = true ∨ isAcquire (s.uq q) b) := by
  have hgid : (s.passPacket q b none).ids.gid = s.ids.gid := by rw [passPacket_ids]
  rw [startHead_launch s q pkt hty, ← hgid]
  refine ⟨⟨_, addStarted_started (passPacket_has hq b) pkt b _ [], rfl⟩, _, nget_nset_same _ _ _, rfl, rfl, rfl, rfl, rfl, rfl, ?_⟩
  rw [passPacket_uq hq, Bool.or_eq_true, acquires_iff]

/-- R309: a BARRIER completes as it starts. -/
theorem startHead_completesBarrier {s : State} {q pkt : Nat} {b : List Byte} (hq : nhas s.sched.queues q = true)
    (hridx : (s.uq q).ridx = pkt) (c : Checked) (hty : pkType b = 6) : let t := s.startHead q pkt b c none
    (t.uq q).ridx = pkt + 1 ∧ t.grids = s.grids ∧ ((leSum (b.take 4)).testBit 9 = false → nsorted (s.uq q).started = true →
      nget (t.uq q).started pkt = none) := by
  subst hridx
  have hstarted := addStarted_passPacket_started hq (s.uq q).ridx b .barrier []
  obtain ⟨hgrids, hridx⟩ := completePacket_keeps hstarted nofun
  rw [addStarted_passPacket_uq hq] at hridx
  rw [startHead_barrier s q _ hty]
  refine ⟨hridx, hgrids.trans (passPacket_grids _ _ _), fun hsilent hsorted => ?_⟩
  have hcpl : (startedWith b .barrier []).cpl = none := by rw [startedWith_cpl, hsilent]; rfl
  have hhas : nhas ((s.passPacket q b none).addStarted q (s.uq q).ridx b .barrier []).sched.queues q = true :=
    (nhas_modQueue _ _ _ _).trans (passPacket_has hq b)
  rw [completePacket_silent hstarted nofun hcpl, uq_modQueue_same hhas, addStarted_passPacket_uq hq]
  exact (nget_ndel _ _ _ (nsorted_nset _ _ _ hsorted)).trans (if_pos rfl)

/-- R309: a SIGNAL that starts performs its access after RIDX has moved on. -/
theorem startHead_signals {s : State} {q pkt : Nat} {b : List Byte} (hq : nhas s.sched.queues q = true)
    (hridx : (s.uq q).ridx = pkt) (c : Checked) (hty : pkType b = 5) :
    ∃ m : State, (m.uq q).ridx = pkt + 1 ∧ (m.uq q).ctx = (s.uq q).ctx ∧ (∃ x, nget (m.uq q).started pkt = some x ∧ x.ty = 5) ∧
      (∀ w t, m.signal (s.uq q).ctx (fld b 0x08 8) (fld b 0x10 8) (fld b 0x18 4) (.packet q pkt 0) = .ok (w, t) →
        s.startHead q pkt b c none = t.modQueue q fun u => { u with started := nmod u.started pkt fun x => { x with work := w } }) ∧
      (∀ e d, m.signal (s.uq q).ctx (fld b 0x08 8) (fld b 0x10 8) (fld b 0x18 4) (.packet q pkt 0) = .error (e, d) →
        s.startHead q pkt b c none = m.startedError q pkt e d) := by
  have huq := addStarted_passPacket_uq hq pkt b .ended []
  exact ⟨_, by rw [huq, hridx], by rw [huq], ⟨_, addStarted_passPacket_started hq pkt b .ended [], hty⟩,
    startHead_signal s q pkt hty c rfl⟩

end Sys2Proof.Machine
end

section
/-! PROOFS. The events of packets and graph nodes by their cases (04_opcode_map_assembly.md R133, R135; 11_scheduling_launch.md R307 to
R309): the head of a queue, signals, nodes that start, and completions. -/

namespace Sys2Proof.Machine

open Sys2Proof.Claim

/-! The packet events (R308, R309). -/

theorem exec_packetForm {s : State} {x : Instr × Nat} (hx : x ∈ packetForms) : exec x.1 s = .next (s.packetEvent (s.arg 0) x.2) := by
  simp only [packetForms, List.mem_cons, List.not_mem_nil, or_false] at hx
  rcases hx with rfl | rfl | rfl | rfl | rfl | rfl | rfl <;> rfl

section
variable {s s1 : State} {q : Nat} {b : List Byte} (hhead : headIs s q b s1)
include hhead

theorem headPacket_of_headIs : s.headPacket q = (.packet (s.uq q).ridx b none, s1) := by
  obtain ⟨_, _, _, _, hreplay, ⟨k, hk, hkq, hkst⟩, hlt, hread⟩ := hhead
  have hactive : (s.sched.slots.any fun k => k.2.queue == q && k.2.st == .active) = true :=
    List.any_eq_true.2 ⟨k, hk, by rw [hkq, hkst, beq_self_eq_true]; rfl⟩
  simp only [State.headPacket, hreplay, hactive, hread, Bool.not_true, Bool.false_or, decide_eq_true_eq, Nat.not_le.2 hlt, if_false]

/-- Nothing keeps the sequencer from looking at the head. -/
theorem packetGate_of_headIs : (!nhas s.sched.queues q || (s.uq q).st != .mapped && (s.ctx (s.uq q).ctx).ck.replay.isNone ||
    (s.uq q).dereg || (s.ctx (s.uq q).ctx).killed) = false := by
  obtain ⟨hq, hst, hdereg, hkilled, -⟩ := hhead
  rw [hq, hst, hdereg, hkilled]
  rfl

theorem packetEvent_malformed {c d : Nat} (hcheck : s1.checkPacket (s.uq q).ctx b = .error (c, d)) (ty : Nat) :
    s.packetEvent q ty = (s1.queueError q c (s.uq q).ridx d b).settleSlots := by
  simp only [State.packetEvent, packetGate_of_headIs hhead, headPacket_of_headIs hhead, hcheck, Bool.false_eq_true, if_false]

theorem packetEvent_waits {c : Checked} {s2 : State} (hcheck : s1.checkPacket (s.uq q).ctx b = .ok (c, s2)) {ty : Nat}
    (hnot : pkType b ≠ ty ∨ ¬startable (s.uq q) b) : s.packetEvent q ty = s := by
  have hstays : pkType b ≠ ty ∨ (!(s.uq q).mayStart b) = true ∨ (ty = 5 ∧ 1024 ≤ s.loop.postq.length) := by
    rw [← mayStart_iff, Bool.not_eq_true] at hnot
    rw [Bool.not_eq_true']
    exact hnot.imp_right Or.inl
  simp only [State.packetEvent, packetGate_of_headIs hhead, headPacket_of_headIs hhead, hcheck, Bool.false_eq_true, if_false]
  exact if_pos hstays

theorem packetEvent_starts {c : Checked} {s2 : State} (hcheck : s1.checkPacket (s.uq q).ctx b = .ok (c, s2))
    (hmay : startable (s.uq q) b) (hroom : s.loop.postq.length < 1024) :
    s.packetEvent q (pkType b) = (s2.startHead q (s.uq q).ridx b c none).settleSlots := by
  have hgoes : ¬(pkType b ≠ pkType b ∨ (!(s.uq q).mayStart b) = true ∨ (pkType b = 5 ∧ 1024 ≤ s.loop.postq.length)) := by
    rw [(mayStart_iff _ _).2 hmay]
    rintro (hne | hno | ⟨-, hfull⟩)
    · exact hne rfl
    · cases hno
    · exact Nat.not_le.2 hroom hfull
  simp only [State.packetEvent, packetGate_of_headIs hhead, headPacket_of_headIs hhead, hcheck, Bool.false_eq_true, if_false]
  exact if_neg hgoes

end

/-! Signals (R309). -/

theorem post_appends {s : State} (h : s.loop.st ≠ .down) (ty arg len : Nat) (payload : List Byte) (who : PostBy) (ctx : Nat) :
    (s.post ty arg len payload who ctx).loop.postq =
      s.loop.postq ++ [⟨⟨ty, arg, 0, s.pkgid, len, (payload ++ leBytes 48 0).take 48⟩, who, ctx⟩] := by
  rw [State.post, if_neg h]
  rfl

theorem seqPost_posts {s : State} {ctx : Nat} (h : (s.ctx ctx).ck.replay = none) (ty arg len : Nat) (payload : List Byte) (who : PostBy) :
    s.seqPost ctx ty arg len payload who = (.post 0, s.post ty arg len payload who ctx) := by simp only [State.seqPost, h]

section
variable {s : State} {ctx addr val op : Nat} {who : PostBy}

theorem signal_misfit (hop : op = 2) (hlocket : s.inLocket ctx addr = true) : s.signal ctx addr val op who = .error (0x07, 0x08) := by
  rw [State.signal]
  exact if_pos ⟨hop, hlocket⟩

variable (hfits : ¬(op = 2 ∧ s.inLocket ctx addr = true))
include hfits

theorem signal_unreachable {a : Nat} (hat : s.signalAt ctx addr (if op = 2 then 4 else 8) = .error a) :
    s.signal ctx addr val op who = .error (0x06, a) := by simp only [State.signal, if_neg hfits, hat]

variable {x : Xlat} (hat : s.signalAt ctx addr (if op = 2 then 4 else 8) = .ok x)
include hat

theorem signal_posts (hreplay : (s.ctx ctx).ck.replay = none) (hlocket : regionOf x.pa = .locket) :
    s.signal ctx addr val op who = .ok (.post 0, (s.useXlat ctx noCore addr x .read).post (if op = 0 then 1 else 2) (x.pa - 0x80000000)
      (if op = 0 then 8 else 16) (leBytes 8 val ++ if op = 0 then [] else leBytes 8 0) who ctx) := by
  have hused : ((s.useXlat ctx noCore addr x .read).ctx ctx).ck.replay = none := by rw [useXlat_ctx, hreplay]
  simp only [State.signal, if_neg hfits, hat, if_pos hlocket, seqPost_posts hused]
  by_cases hop : op = 0
  · simp only [if_pos hop, List.append_nil]
    rfl
  · simp only [if_neg hop]
    rfl

theorem signal_stores (houter : regionOf x.pa ≠ .locket) (hop : op ≠ 1) : s.signal ctx addr val op who =
    .ok (.ended, (s.useXlat ctx noCore addr x .write).outerCells (cellsAt x.pa (leBytes (if op = 2 then 4 else 8) val))) := by
  simp only [State.signal, if_neg hfits, hat, if_neg houter, if_neg hop]

/-- Adding in host memory needs AtomicOps (log 41). -/
theorem signal_adds (houter : regionOf x.pa ≠ .locket) (hop : op = 1) : let u := s.useXlat ctx noCore addr x .write
    s.signal ctx addr val op who = if regionOf x.pa = .host ∧ (s.host.atomok = false ∨ s.host.atomEn = false) then .error (0x06, addr)
      else .ok (.ended, u.outerCells (cellsAt x.pa (leBytes 8 ((leNat (u.physBytes x.pa 8) + val) % 2 ^ 64)))) := by
  have hatom : (!(s.host.atomok && s.host.atomEn)) = true ↔ s.host.atomok = false ∨ s.host.atomEn = false := by
    rw [Bool.not_eq_true', Bool.and_eq_false_iff]
  simp only [State.signal, if_neg hfits, hat, if_neg houter, if_pos hop, useXlat_host, hatom]

end

/-! Graph nodes start (R133, R135). -/

theorem exec_graphNodeStart {s : State} {q pkt n : Nat} (h : s.args = [q, pkt, n]) :
    exec .graphNodeStart s = .next (s.nodeStart q pkt n) := by
  change Host.Outcome.next (s.nodeStart (s.arg 0) (s.arg 1) (s.arg 2)) = _
  simp only [State.arg, h]
  rfl

section
variable {s : State} {q pkt n : Nat} {x : Started} {nd : GNode} (hnode : nodeIs s q pkt n x nd)

include hnode in
theorem nodeStart_waits (hnot : nd.work ≠ none ∨ ∃ p ∈ nd.preds, ((nget x.nodes p).map (·.done)).getD false = false) :
    s.nodeStart q pkt n = s := by
  have hready : (nd.work.isNone && nd.preds.all fun p => ((nget x.nodes p).map (·.done)).getD false) = false := by
    rcases hnot with hwork | ⟨p, hp, hundone⟩
    · rw [Option.isNone_eq_false_iff.2 (Option.isSome_iff_ne_none.2 hwork), Bool.false_and]
    · rw [List.all_eq_false.2 ⟨p, hp, Bool.not_eq_true _ ▸ hundone⟩, Bool.and_false]
  simp only [State.nodeStart, hnode.1, hnode.2, Option.bind_some, Option.map_some, hready, Bool.false_and, Bool.not_false, Bool.or_true,
    if_true]

section
variable (hfresh : nd.work = none) (hpreds : ∀ p ∈ nd.preds, ∃ y, nget x.nodes p = some y ∧ y.done = true)
  (hplan : s.planReady (s.uq q).ctx = true) (hroom : s.loop.postq.length < 1024)
  (hslot : ∃ k ∈ s.sched.slots, k.2.queue = q ∧ k.2.st = .active)
include hfresh hpreds hplan hroom hslot

/-- Nothing keeps the node from starting. -/
theorem nodeGate_open : (!((s.ctx (s.uq q).ctx).ck.replay.isSome ||
      s.sched.slots.any fun k => k.2.queue == q && (k.2.st == .active || k.2.st == .error)) ||
    !(nd.work.isNone && nd.preds.all (fun p => ((nget x.nodes p).map (·.done)).getD false) && s.planReady (s.uq q).ctx &&
      (nd.kind != 5 || decide (s.loop.postq.length < 1024)))) = false := by
  have hdone : (nd.preds.all fun p => ((nget x.nodes p).map (·.done)).getD false) = true := by
    refine List.all_eq_true.2 fun p hp => ?_
    obtain ⟨y, hy, hyd⟩ := hpreds p hp
    rw [hy]
    exact hyd
  have hserved : (s.sched.slots.any fun k => k.2.queue == q && (k.2.st == .active || k.2.st == .error)) = true := by
    obtain ⟨k, hk, hkq, hkst⟩ := hslot
    exact List.any_eq_true.2 ⟨k, hk, by rw [hkq, hkst, beq_self_eq_true]; rfl⟩
  rw [hdone, hserved, hplan, hfresh, decide_eq_true hroom, Bool.or_true, Bool.or_true]
  rfl

include hnode

theorem nodeStart_starts {w : Work} {t : State} (hwork : s.nodeWork q pkt n x nd = .ok (w, t)) :
    let v := (t.beginLives (s.uq q).ctx n).modNode q pkt n fun y => { y with work := some w, done := w == .barrier }
    s.nodeStart q pkt n = if w = .barrier then v.endLives (s.uq q).ctx n else v := by
  simp only [State.nodeStart, hnode.1, hnode.2, Option.bind_some, Option.map_some, nodeGate_open hfresh hpreds hplan hroom hslot, hwork,
    beq_iff_eq, Bool.false_eq_true, if_false]

theorem nodeStart_fails {c d : Nat} (hwork : s.nodeWork q pkt n x nd = .error (c, d)) :
    s.nodeStart q pkt n = (s.startedError q pkt c d).settleSlots := by
  simp only [State.nodeStart, hnode.1, hnode.2, Option.bind_some, Option.map_some, nodeGate_open hfresh hpreds hplan hroom hslot, hwork,
    Bool.false_eq_true, if_false]

end
end

/-! Completions (R309). -/

theorem exec_packetCompletion {s : State} {q pkt n : Nat} (h : s.args = [q, pkt, n]) :
    exec .packetCompletion s = .next (s.packetDone q pkt n) := by
  change Host.Outcome.next (s.packetDone (s.arg 0) (s.arg 1) (s.arg 2)) = _
  simp only [State.arg, h]
  rfl

theorem finishWork_grid_running {s : State} {g : Nat} (ctx : Nat) (h : (s.grid g).finished = false) : s.finishWork ctx (.grid g) = .no := by
  simp only [State.finishWork, h, Bool.false_eq_true, if_false]

theorem finishWork_grid_ended {s : State} {g : Nat} (ctx : Nat) (h : (s.grid g).finished = true) :
    s.finishWork ctx (.grid g) = .yes { s with grids := ndel s.grids g } := by simp only [State.finishWork, h, if_true]

theorem finishWork_copy {s t : State} {ctx a b n : Nat} (h : s.copyRange ctx a b n = .ok t) : s.finishWork ctx (.copy a b n) = .yes t := by
  simp only [State.finishWork, h]

theorem finishWork_copy_faults {s t : State} {ctx a b n f : Nat} (h : s.copyRange ctx a b n = .error (f, t)) :
    s.finishWork ctx (.copy a b n) = .bad 0x06 f t := by simp only [State.finishWork, h]

theorem wantLsn_live {s : State} {ctx : Nat} (h : (s.ctx ctx).ck.replay = none) (l : Nat) : s.wantLsn ctx l = s := by
  simp only [State.wantLsn, State.logFuel, State.replayTo, h]

theorem ctxLsn_live {s : State} {ctx : Nat} (h : (s.ctx ctx).ck.replay = none) : s.ctxLsn ctx = s.loop.applied := by
  simp only [State.ctxLsn, h]

theorem finishWork_waitLsn {s : State} {ctx : Nat} (h : (s.ctx ctx).ck.replay = none) (l : Nat) :
    s.finishWork ctx (.waitLsn l) = if l ≤ s.loop.applied then .yes s else .no := by
  simp only [State.finishWork, wantLsn_live h, ctxLsn_live h]

theorem finishWork_waitWord {s t : State} {ctx va : Nat} {b : List Byte} (hread : s.seqRead ctx va 8 = .ok (b, t))
    (h : (t.ctx ctx).ck.replay = none) :
    s.finishWork ctx (.waitWord va) = if leSum (b.take 8) ≤ t.loop.applied then .yes t else .no := by
  simp only [State.finishWork, hread, wantLsn_live h, ctxLsn_live h, fld_zero]

theorem packetDone_graph {s : State} {q pkt : Nat} {x : Started} (hx : nget (s.uq q).started pkt = some x) (hwork : x.work = .graph)
    (hdone : ∀ y ∈ x.nodes, y.2.done = true) : s.packetDone q pkt 0 = (s.completePacket q pkt).settleSlots := by
  have hall : (x.nodes.all fun y => y.2.done) = true := List.all_eq_true.2 hdone
  simp only [State.packetDone, hx, hwork, hall, if_true]

section
variable {s : State} {q pkt : Nat} {x : Started} {w : Work} (hx : nget (s.uq q).started pkt = some x) (hwork : x.work = w)
  (hw : w ≠ .graph)
include hx hwork hw

theorem packetDone_unfinished (hno : s.finishWork (s.uq q).ctx w = .no) : s.packetDone q pkt 0 = s := by
  subst hwork
  simp only [State.packetDone, hx, hw, hno, if_true, if_false]

theorem packetDone_finished {t : State} (hyes : s.finishWork (s.uq q).ctx w = .yes t) :
    s.packetDone q pkt 0 = (t.completePacket q pkt).settleSlots := by
  subst hwork
  simp only [State.packetDone, hx, hw, hyes, if_true, if_false]

theorem packetDone_failed {c d : Nat} {t : State} (hbad : s.finishWork (s.uq q).ctx w = .bad c d t) :
    s.packetDone q pkt 0 = (t.startedError q pkt c d).settleSlots := by
  subst hwork
  simp only [State.packetDone, hx, hw, hbad, if_true, if_false]

end

theorem packetDone_waitLsn {s : State} {q pkt l : Nat} {x : Started} (hx : nget (s.uq q).started pkt = some x) (hwork : x.work = .waitLsn l)
    (hreplay : (s.ctx (s.uq q).ctx).ck.replay = none) :
    s.packetDone q pkt 0 = if l ≤ s.loop.applied then (s.completePacket q pkt).settleSlots else s := by
  split
  · next hle => exact packetDone_finished hx hwork nofun ((finishWork_waitLsn hreplay l).trans (if_pos hle))
  · next hgt => exact packetDone_unfinished hx hwork nofun ((finishWork_waitLsn hreplay l).trans (if_neg hgt))

section
variable {s : State} {q pkt n : Nat} {x : Started} {nd : GNode} {w : Work} (hnode : nodeIs s q pkt n x nd) (hwork : nd.work = some w)
  (hdone : nd.done = false)
include hnode hwork hdone

theorem nodeDone_unfinished (hno : s.finishWork (s.uq q).ctx w = .no) : s.packetDone q pkt (n + 1) = s := by
  simp only [State.packetDone, hnode.1, hnode.2, Nat.add_one_sub_one, Option.bind_some, Option.map_some, Option.getD_some, hwork, hdone,
    hno, Nat.add_one_ne_zero, Bool.false_eq_true, if_false]

theorem nodeDone_finished {t : State} (hyes : s.finishWork (s.uq q).ctx w = .yes t) :
    s.packetDone q pkt (n + 1) = (t.modNode q pkt n fun y => { y with done := true }).endLives (s.uq q).ctx n := by
  simp only [State.packetDone, hnode.1, hnode.2, Nat.add_one_sub_one, Option.bind_some, Option.map_some, Option.getD_some, hwork, hdone,
    hyes, Nat.add_one_ne_zero, Bool.false_eq_true, if_false]

end

theorem nodeDone_waitWord {s t : State} {q pkt n va : Nat} {x : Started} {nd : GNode} {b : List Byte} (hnode : nodeIs s q pkt n x nd)
    (hwork : nd.work = some (.waitWord va)) (hdone : nd.done = false) (hread : s.seqRead (s.uq q).ctx va 8 = .ok (b, t))
    (hreplay : (t.ctx (s.uq q).ctx).ck.replay = none) : s.packetDone q pkt (n + 1) = if leSum (b.take 8) ≤ t.loop.applied then
      (t.modNode q pkt n fun y => { y with done := true }).endLives (s.uq q).ctx n else s := by
  have hfinish := finishWork_waitWord hread hreplay
  split
  · next hle => exact nodeDone_finished hnode hwork hdone (hfinish.trans (if_pos hle))
  · next hgt => exact nodeDone_unfinished hnode hwork hdone (hfinish.trans (if_neg hgt))

/-- Settles O53: each event by its cases; what a start leaves follows from what the sequencer's own writes leave of the queues. -/
theorem packetsStartAndComplete : Obligations.PacketsStartAndComplete := by
  refine ⟨fun s s1 q b hargs hhead x hx => ?heads, fun s q pkt b hq hridx => ?starts, fun s ctx addr val op who _ hreplay => ?signals,
    fun s q pkt n x nd hargs hnode => ?nodes, fun s q pkt x hargs hx => ?completions,
    fun s q pkt n x nd va b t hargs hnode hwork hdone _ hread hreplay happlied => ?lsnNode,
    fun s q pkt n x nd g hargs hnode hwork hdone hfinished => ?gridNode⟩
  case heads =>
    have hexec : exec x.1 s = .next (s.packetEvent q x.2) := by rw [exec_packetForm hx, State.arg, hargs, List.getD_cons_zero]
    rw [hexec]
    refine ⟨fun c d hcheck => ?_, fun c s2 hcheck => ⟨fun hnot => ?_, fun hty hmay hroom => ?_⟩⟩
    · rw [packetEvent_malformed hhead hcheck]
    · rw [packetEvent_waits hhead hcheck hnot]
    · rw [← hty, packetEvent_starts hhead hcheck hmay hroom]
  case starts =>
    refine ⟨fun c => ⟨fun hty => ?_, fun hty => ?_⟩, fun kd hty => startHead_leavesGrid hq pkt kd hty, fun nodes hty => ?_,
      fun c hty _ hgraph => startHead_leavesWork hq hridx hty hgraph, fun c hty => startHead_completesBarrier hq hridx c hty,
      fun c hty => startHead_signals hq hridx c hty⟩
    · rw [startHead_copy s q pkt hty]
      exact ⟨_, addStarted_passPacket_started hq pkt b _ [], rfl⟩
    · rw [startHead_waitLsn s q pkt hty]
      exact ⟨_, addStarted_passPacket_started hq pkt b _ [], rfl⟩
    · rw [startHead_graph s q pkt hty]
      exact ⟨_, addStarted_passPacket_started hq pkt b _ nodes, rfl, rfl⟩
  case signals =>
    exact ⟨signal_misfit, fun a hfits hat => signal_unreachable hfits hat,
      fun x hfits hat => ⟨signal_posts hfits hat hreplay, signal_stores hfits hat, signal_adds hfits hat⟩,
      fun u hup ty arg len payload => post_appends hup ty arg len payload who ctx⟩
  case nodes =>
    rw [exec_graphNodeStart hargs]
    refine ⟨fun hnot => ?_, fun hfresh hpreds hplan hroom hslot => ⟨fun w t hwork => ?_, fun c d hwork => ?_⟩⟩
    · rw [nodeStart_waits hnode hnot]
    · exact congrArg Host.Outcome.next (nodeStart_starts hnode hfresh hpreds hplan hroom hslot hwork)
    · rw [nodeStart_fails hnode hfresh hpreds hplan hroom hslot hwork]
  case completions =>
    rw [exec_packetCompletion hargs]
    refine ⟨fun g hwork => ⟨fun hrunning => ?_, fun hfinished => ?_⟩, fun a b n t hwork hcopy => ?_, fun hwork hdone => ?_,
      fun hwork => ?_, fun l hwork hreplay => ?_, fun k hwork => ?_, fun a b n f t hwork hcopy => ?_, fun hwork =>
      ⟨completePacket_silent hx hwork, fun a v t => completePacket_stored hx hwork, fun a v f => completePacket_faulted hx hwork⟩⟩
    · rw [packetDone_unfinished hx hwork nofun (finishWork_grid_running _ hrunning)]
    · rw [packetDone_finished hx hwork nofun (finishWork_grid_ended _ hfinished)]
    · rw [packetDone_finished hx hwork nofun (finishWork_copy hcopy)]
    · rw [packetDone_graph hx hwork hdone]
    · rw [packetDone_finished hx hwork nofun rfl]
    · rw [packetDone_waitLsn hx hwork hreplay]
    · rw [packetDone_unfinished hx hwork nofun rfl]
    · rw [packetDone_failed hx hwork nofun (finishWork_copy_faults hcopy)]
  case lsnNode => rw [exec_packetCompletion hargs, nodeDone_waitWord hnode hwork hdone hread hreplay, happlied]
  case gridNode =>
    rw [exec_packetCompletion hargs, nodeDone_finished hnode hwork hdone (finishWork_grid_ended _ hfinished)]

end Sys2Proof.Machine
end

section
/-! PROOFS. The forms whose lanes are independent (R137): from the function that a form's meaning applies in every lane to the result
that a statement gives. -/

namespace Sys2Proof.Machine

open Sys2Proof.Claim

section
variable {i : Instr} {d a b c : Sel}

/-- A form whose lanes are independent gives any result that agrees with its function of the sources. -/
theorem gives_of_lanewise {srcs : List Opd} {f : List Word64 → Word64} {n : Nat} {g : NMap (List Word64) → RunPath → Nat → Word64}
    (hfg : ∀ v p l, f ((nget v l).getD []) = g v p l) (h : ∀ s, exec i s = lanewise srcs (d, n) f s) : gives i srcs (d, n) g := by
  obtain rfl : (fun v _ l => f ((nget v l).getD [])) = g := by
    funext v p l
    exact hfg v p l
  exact lanewise_gives i srcs (d, n) f h

theorem gives1_of_op1 {f g : Word → Word} (hfg : ∀ x, f x = g x) (h : ∀ s, exec i s = op1 f d a s) : gives1 i d a g :=
  gives_of_lanewise (fun _ _ _ => congrArg (BitVec.setWidth 64) (hfg _)) h

theorem gives2_of_op2 {f g : Word → Word → Word} (hfg : ∀ x y, f x y = g x y) (h : ∀ s, exec i s = op2 f d a b s) : gives2 i d a b g :=
  gives_of_lanewise (fun _ _ _ => congrArg (BitVec.setWidth 64) (hfg _ _)) h

theorem gives3_of_op3 {f g : Word → Word → Word → Word} (hfg : ∀ x y z, f x y z = g x y z) (h : ∀ s, exec i s = op3 f d a b c s) :
    gives3 i d a b c g :=
  gives_of_lanewise (fun _ _ _ => congrArg (BitVec.setWidth 64) (hfg _ _ _)) h

theorem gives1d_of_op1d {f g : Word → Word → Word} (hfg : ∀ z x, f z x = g z x) (h : ∀ s, exec i s = op1d f d a s) : gives1d i d a g :=
  gives_of_lanewise (fun _ _ _ => congrArg (BitVec.setWidth 64) (hfg _ _)) h

theorem gives2d_of_op2d {f g : Word → Word → Word → Word} (hfg : ∀ z x y, f z x y = g z x y) (h : ∀ s, exec i s = op2d f d a b s) :
    gives2d i d a b g :=
  gives_of_lanewise (fun _ _ _ => congrArg (BitVec.setWidth 64) (hfg _ _ _)) h

theorem gives2w_of_op2w {f g : Word64 → Word64 → Word64} (hfg : ∀ x y, f x y = g x y) (h : ∀ s, exec i s = op2w f d a b s) :
    gives2w i d a b g :=
  gives_of_lanewise (fun _ _ _ => hfg _ _) h

theorem gives2p_of_op2p {f g : Word → Word → Word64} (hfg : ∀ x y, f x y = g x y) (h : ∀ s, exec i s = op2p f d a b s) :
    gives2p i d a b g :=
  gives_of_lanewise (fun _ _ _ => hfg _ _) h

theorem gives_of_opShift64 {f : Word64 → Nat → Word64} {g : Word64 → Nat → Word64} (hfg : ∀ x n, f x n = g x n)
    (h : ∀ s, exec i s = opShift64 f d a b s) : gives i [(a, 2), (b, 1)] (d, 2) fun v _ l => g (x64 v l 0) (x32 v l 1).toNat :=
  gives_of_lanewise (fun _ _ _ => hfg _ _) h

theorem gives_of_cmp64 {f : Word64 → Word64 → Bool} {g : NMap (List Word64) → Nat → Word}
    (hfg : ∀ v l, maskOf (f (x64 v l 0) (x64 v l 1)) = g v l) (h : ∀ s, exec i s = cmp64 f d a b s) : gives i [(a, 2), (b, 2)] (d, 1) fun v _ l => (g v l).setWidth 64 :=
  gives_of_lanewise (fun _ _ _ => congrArg (BitVec.setWidth 64) (hfg _ _)) h

end

end Sys2Proof.Machine
end

section
/-! PROOFS. Division and remainder (R143): the lanes of a form that trap and those that go on, and the quotients. -/

namespace Sys2Proof.Machine

open Sys2Proof.Claim

/-! Lanes that trap beside lanes with a result. -/

/-- What each lane comes to, of the lanes that it comes to something in. -/
theorem filterMap_lanes {α β : Type} {f : Nat → α} {g : Nat × α → Option β} {on : Nat → Bool} {v : Nat → β} {lanes : List Nat}
    (h : ∀ l, g (l, f l) = if on l then some (v l) else none) :
    (lanes.map fun l => (l, f l)).filterMap g = (lanes.filter on).map v := by
  rw [List.filterMap_map, ← List.filterMap_eq_map, List.filterMap_filter]
  exact congrArg (List.filterMap · lanes) (funext h)

/-- A form whose operand phase passes: the lanes that do not trap have their results written, then the others trap. -/
theorem compute_ready {s t : State} {sid : Nat} {p q : RunPath} {srcs : List Opd} {d : Opd} {vals : NMap (List Word64)}
    {f : NMap (List Word64) → Nat → Except (Nat × Nat × Word64) Word64} {traps : Nat → Bool} {hit : Nat × Nat × Word64}
    {val : Nat → Word64} (hr : ready s sid p srcs [d] = some (q, t, vals))
    (hf : ∀ l, f vals l = if traps l then .error hit else .ok (val l)) :
    s.compute sid p srcs d true f =
      (let res := (p.lanes.filter fun l => !traps l).map fun l => (l, val l)
       ((t.writeDst sid d res).modStr sid (·.setLr (res.map fun x => (x.1, if d.2 ≤ 1 then (x.2.setWidth 32).setWidth 64 else x.2)))).splitOff
         sid q ((p.lanes.filter traps).map fun l => (l, hit))) := by
  obtain ⟨hq, -⟩ := touched_ready hr
  have hlanes : q.lanes = p.lanes := by rw [hq]
  unfold State.compute State.operands
  rw [operands_ready _ hr]
  simp only [hlanes, if_true]
  rw [filterMap_lanes (on := fun l => !traps l) (v := fun l => (l, val l)) fun l => ?res,
    filterMap_lanes (on := traps) (v := fun l => (l, hit)) fun l => ?hits]
  case res | hits => rw [hf]; cases traps l <;> rfl

theorem divides_of_division {i : Instr} {d a b : Sel} {f g : Word → Word → Word} (hfg : ∀ x y, f x y = g x y)
    (h : ∀ s, exec i s = division f d a b s) : divides i d a b g := by
  intro s sid p rest q t vals hi hr
  obtain ⟨-, ht⟩ := touched_ready hr
  have hcsr : ((begun s rest).str sid).csr = (t.str sid).csr := by rw [ht.str sid]
  rw [h, division, onPath_issues hi, compute_ready (hit := (0x10, 0, 0))
    (traps := fun l => (t.str sid).csr.dzt && x32 vals l 1 == 0)
    (val := fun l => (g (x32 vals l 0) (x32 vals l 1)).setWidth 64) hr fun l => ?_]
  · simp [List.map_map, Function.comp_def]
  · simp only [hcsr, hfg, x32, Bool.and_eq_true, beq_iff_eq, and_comm]

/-! Words and the integers they stand for. -/

@[simp] theorem toS_sInt (x : Word) : toS (sInt x) = x := BitVec.ofInt_toInt
theorem ofInt_sub (w : Nat) (x y : Int) : BitVec.ofInt w (x - y) = BitVec.ofInt w x - BitVec.ofInt w y := by
  rw [eq_comm, BitVec.sub_eq_iff_eq_add, ← BitVec.ofInt_add, Int.sub_add_cancel]
theorem toS_add (x y : Int) : toS (x + y) = toS x + toS y := BitVec.ofInt_add ..
theorem toS_mul (x y : Int) : toS (x * y) = toS x * toS y := BitVec.ofInt_mul ..
theorem toS_sub (x y : Int) : toS (x - y) = toS x - toS y := ofInt_sub ..

/-! Quotients and remainders. -/

/-- Only the least dividend by -1 has a quotient past the range, and the words of quotient and remainder are right there too. -/
theorem divRemS_eq (x y : Word) : divRemS x y = (quotS x y, remS x y) := by
  simp only [divRemS, quotS, remS]
  split
  · rfl
  · split
    · next h => rw [h.1, h.2]; decide
    · refine Prod.ext rfl ?_
      change x - toS (Int.tdiv (sInt x) (sInt y)) * y = toS (Int.tmod (sInt x) (sInt y))
      rw [Int.tmod_def, Int.mul_comm, toS_sub, toS_mul, toS_sInt, toS_sInt]

theorem divRemN_eq (x y : Word) : divRemN x y = (quotN x y, remN x y) := by
  simp only [divRemN, quotN, remN]
  split
  · rfl
  · rw [← BitVec.toNat_udiv, ← BitVec.toNat_umod, BitVec.ofNat_toNat, BitVec.ofNat_toNat, BitVec.setWidth_eq, BitVec.setWidth_eq]

/-- Settles O1: a division is a form some of whose lanes trap, and its results are R143's quotient and remainder. -/
theorem divisionResultsAndTraps : Obligations.DivisionResultsAndTraps := fun _ _ _ =>
  ⟨divides_of_division (fun x y => congrArg Prod.fst (divRemS_eq x y)) fun _ => rfl,
   divides_of_division (fun x y => congrArg Prod.fst (divRemN_eq x y)) fun _ => rfl,
   divides_of_division (fun x y => congrArg Prod.snd (divRemS_eq x y)) fun _ => rfl,
   divides_of_division (fun x y => congrArg Prod.snd (divRemN_eq x y)) fun _ => rfl⟩

end Sys2Proof.Machine
end

section
/-! PROOFS. Words by their bits (R145 to R147): the word that a condition gives bit by bit, and the bit forms. -/

namespace Sys2Proof.Machine

open Sys2Proof.Claim

/-! A word by its bits. -/

/-- A number of digits of `w` bits, bit by bit. -/
theorem testBit_sum_digits {w : Nat} {g : Nat → Nat} (hg : ∀ k, g k < 2 ^ w) (n : Nat) :
    ((List.range n).map fun k => g k * 2 ^ (w * k)).sum < 2 ^ (w * n) ∧
    ∀ i, ((List.range n).map fun k => g k * 2 ^ (w * k)).sum.testBit i = (decide (i < w * n) && (g (i / w)).testBit (i % w)) := by
  induction n with
  | zero => simp
  | succ n ih =>
    obtain ⟨hlt, hbit⟩ := ih
    rw [List.range_succ, List.map_append, List.sum_append]
    generalize ((List.range n).map fun k => g k * 2 ^ (w * k)).sum = t at hlt hbit
    rw [List.map_singleton, List.sum_singleton, Nat.mul_comm (g n), Nat.add_comm t]
    refine ⟨?_, fun i => ?_⟩
    · calc 2 ^ (w * n) * g n + t < 2 ^ (w * n) * (g n + 1) := by rw [Nat.mul_add]; omega
        _ ≤ 2 ^ (w * n) * 2 ^ w := Nat.mul_le_mul_left _ (hg n)
        _ = 2 ^ (w * (n + 1)) := by rw [← Nat.pow_add, Nat.mul_succ]
    · rw [Nat.testBit_two_pow_mul_add _ hlt, hbit]
      split
      · next h => simp [h, show i < w * (n + 1) by rw [Nat.mul_succ]; omega]
      · next h =>
        by_cases h' : i < w * (n + 1)
        · have hdiv : i / w = n := Nat.div_eq_of_lt_le (by rw [Nat.mul_comm]; omega) (by rw [Nat.mul_comm]; exact h')
          have hmod : i % w = i - w * n := by rw [← hdiv, Nat.mod_eq_sub]
          simp [h', hdiv, hmod]
        · have hsmall : g n < 2 ^ (i - w * n) :=
            Nat.lt_of_lt_of_le (hg n) (Nat.pow_le_pow_right (by omega) (by rw [Nat.mul_succ] at h'; omega))
          simp [h', Nat.testBit_lt_two_pow hsmall]

theorem sum_map_filter {α : Type} (f : α → Bool) (g : α → Nat) (l : List α) :
    ((l.filter f).map g).sum = (l.map fun x => natOf (f x) * g x).sum := by
  induction l with
  | nil => rfl
  | cons x l ih => cases hx : f x <;> simp [hx, ih, natOf]

theorem getLsbD_bitsWhere (f : Nat → Bool) (i : Nat) : (bitsWhere f).getLsbD i = (decide (i < 32) && f i) := by
  have hdigit (k : Nat) : natOf (f k) < 2 ^ 1 := by cases f k <;> decide
  have hsum : (((List.range 32).filter f).map (2 ^ ·)).sum = ((List.range 32).map fun k => natOf (f k) * 2 ^ (1 * k)).sum := by
    simp [sum_map_filter]
  rw [bitsWhere, BitVec.getLsbD_ofNat, hsum, (testBit_sum_digits hdigit 32).2, Nat.div_one, Nat.mod_one]
  cases f i <;> simp [natOf]

/-- A word is the word of its bits. -/
theorem eq_bitsWhere {x : Word} {f : Nat → Bool} (h : ∀ i < 32, x.getLsbD i = f i) : x = bitsWhere f :=
  BitVec.eq_of_getLsbD_eq fun i hi => by rw [getLsbD_bitsWhere, h i hi, decide_eq_true hi, Bool.true_and]

/-! Logic and shifts (R145). -/

theorem and_eq_bits (x y : Word) : x &&& y = bitsWhere fun i => x.getLsbD i && y.getLsbD i :=
  eq_bitsWhere fun _ _ => BitVec.getLsbD_and
theorem or_eq_bits (x y : Word) : x ||| y = bitsWhere fun i => x.getLsbD i || y.getLsbD i :=
  eq_bitsWhere fun _ _ => BitVec.getLsbD_or
theorem xor_eq_bits (x y : Word) : x ^^^ y = bitsWhere fun i => x.getLsbD i != y.getLsbD i :=
  eq_bitsWhere fun _ _ => BitVec.getLsbD_xor
theorem andn_eq_bits (x y : Word) : x &&& ~~~y = bitsWhere fun i => x.getLsbD i && !y.getLsbD i :=
  eq_bitsWhere fun i hi => by simp [hi]
theorem orn_eq_bits (x y : Word) : x ||| ~~~y = bitsWhere fun i => x.getLsbD i || !y.getLsbD i :=
  eq_bitsWhere fun i hi => by simp [hi]

/-- The model cuts the count to the width, from which on a left shift leaves nothing. -/
theorem shl_eq_bits (x y : Word) : x <<< min y.toNat 32 = bitsWhere fun i => decide (y.toNat ≤ i) && x.getLsbD (i - y.toNat) :=
  eq_bitsWhere fun i hi => by
    rw [BitVec.getLsbD_shiftLeft]
    by_cases h : y.toNat ≤ i
    · simp [hi, h, show min y.toNat 32 = y.toNat by omega]
    · simp [hi, h, show i < min y.toNat 32 by omega]
theorem shr_eq_bits (x y : Word) : x >>> y.toNat = bitsWhere fun i => x.getLsbD (i + y.toNat) :=
  eq_bitsWhere fun i _ => by rw [BitVec.getLsbD_ushiftRight, Nat.add_comm]
theorem sra_eq_bits (x y : Word) : x.sshiftRight y.toNat = bitsWhere fun i => x.getLsbD (min 31 (i + y.toNat)) :=
  eq_bitsWhere fun i hi => by
    rw [BitVec.getLsbD_sshiftRight, Nat.add_comm, decide_eq_false (by omega : ¬32 ≤ i)]
    by_cases h : i + y.toNat < 32
    · simp [h, show min 31 (i + y.toNat) = i + y.toNat by omega]
    · simp [h, show min 31 (i + y.toNat) = 31 by omega, BitVec.msb_eq_getLsbD_last]
theorem rotl_eq_bits (x y : Word) : x.rotateLeft (y.toNat % 32) = bitsWhere fun i => x.getLsbD ((i + 32 - y.toNat % 32) % 32) :=
  eq_bitsWhere fun i hi => by
    have hr : y.toNat % 32 < 32 := Nat.mod_lt _ (by omega)
    generalize y.toNat % 32 = r at hr
    rw [BitVec.getLsbD_rotateLeft, Nat.mod_eq_of_lt hr]
    by_cases h : i < r
    · simp [h, show (i + 32 - r) % 32 = 32 - r + i by omega]
    · simp [h, hi, show (i + 32 - r) % 32 = i - r by omega]

theorem shl64_eq (x : Word64) (n : Nat) : x <<< min n 64 = if n < 64 then x <<< n else 0 := by
  split
  · next h => rw [Nat.min_eq_left h.le]
  · next h => rw [Nat.min_eq_right (by omega)]; exact BitVec.shiftLeft_eq_zero (Nat.le_refl 64)
theorem shr64_eq (x : Word64) (n : Nat) : x >>> n = if n < 64 then x >>> n else 0 := by
  split
  · rfl
  · next h => exact BitVec.ushiftRight_eq_zero (by omega)

/-! Counts and reversal (R145). -/

theorem popCount_eq (x : Word) : popCount x = (List.range 32).countP fun i => x.getLsbD i := List.countP_eq_length_filter.symm

/-- The highest set bit is the binary logarithm. -/
theorem leadZeros_eq (x : Word) : leadZeros x = if x = 0 then 32 else 31 - x.toNat.log2 := by
  rw [leadZeros]
  split
  · next h => subst h; rfl
  · next h =>
    have hpos : x.toNat ≠ 0 := fun h0 => h (BitVec.eq_of_toNat_eq h0)
    have hlog : x.toNat.log2 < 32 := (Nat.log2_lt hpos).2 x.isLt
    have hfind : (List.range 32).find? (fun i => x.getLsbD (31 - i)) = some (31 - x.toNat.log2) := by
      rw [List.find?_range_eq_some]
      refine ⟨?_, by simp; omega, fun j hj => ?_⟩
      · rw [show 31 - (31 - x.toNat.log2) = x.toNat.log2 by omega]
        exact Nat.testBit_log2 hpos
      · have hlt : x.toNat < 2 ^ (31 - j) := Nat.lt_of_lt_of_le Nat.lt_log2_self (Nat.pow_le_pow_right (by omega) (by omega))
        simp [BitVec.getLsbD, Nat.testBit_lt_two_pow hlt]
    rw [hfind]
    rfl

/-- The first number below `n` that meets a condition is the length of the stretch that does not. -/
theorem find?_range_getD (f : Nat → Bool) (n : Nat) :
    ((List.range n).find? f).getD n = ((List.range n).takeWhile fun i => !f i).length := by
  have hle : (List.range n).findIdx f ≤ n := by simpa using List.findIdx_le_length (p := f) (xs := List.range n)
  rw [List.find?_eq_getElem?_findIdx, List.takeWhile_eq_take_findIdx_not]
  simp only [Bool.not_not, List.length_take, List.length_range, Nat.min_eq_left hle]
  rcases hle.lt_or_eq with h | h <;> simp [h]

theorem brev_eq_bits (x : Word) : x.reverse = bitsWhere fun i => x.getLsbD (31 - i) :=
  eq_bitsWhere fun i hi => by rw [BitVec.getLsbD_reverse, BitVec.getMsbD, decide_eq_true hi, Bool.true_and]

/-! Bit fields (R146). -/

theorem fieldPos_eq (y : Word) : fieldPos y = posOf y := by simp [fieldPos, bitsOf, posOf]
theorem fieldWidth_eq (y : Word) : fieldWidth y = widthOf y := by simp [fieldWidth, fieldPos_eq, bitsOf, widthOf]
theorem widthOf_le (y : Word) : widthOf y ≤ 32 := by unfold widthOf; omega

theorem testBit_bfxU (x y : Word) (i : Nat) : (bfxU x y).toNat.testBit i = (decide (i < widthOf y) && x.getLsbD (i + posOf y)) := by
  have hlt : x.toNat / 2 ^ posOf y % 2 ^ widthOf y < 2 ^ 32 :=
    Nat.lt_of_lt_of_le (Nat.mod_lt _ (Nat.two_pow_pos _)) (Nat.pow_le_pow_right (by omega) (widthOf_le y))
  rw [bfxU, fieldPos_eq, fieldWidth_eq, BitVec.toNat_ofNat, Nat.mod_eq_of_lt hlt, Nat.testBit_mod_two_pow, Nat.testBit_div_two_pow]
  rfl

theorem bfxU_eq_bits (x y : Word) : bfxU x y = bitsWhere fun i => decide (i < widthOf y) && x.getLsbD (i + posOf y) :=
  eq_bitsWhere fun i _ => testBit_bfxU x y i

/-- A field of `w` bits whose sign bit is set, sign-extended. -/
theorem getLsbD_negative {f w : Nat} (hf : f < 2 ^ w) (hw : w ≤ 32) {i : Nat} (hi : i < 32) :
    (BitVec.ofInt 32 ((f : Int) - 2 ^ w)).getLsbD i = (decide (w ≤ i) || f.testBit i) := by
  have hpow : 2 ^ w * (2 ^ (32 - w) - 1) + 2 ^ w = 2 ^ 32 := by
    rw [Nat.mul_sub, ← Nat.pow_add, Nat.add_sub_cancel' hw, Nat.mul_one, Nat.sub_add_cancel (Nat.pow_le_pow_right (by omega) hw)]
  have hword : BitVec.ofInt 32 ((f : Int) - 2 ^ w) = BitVec.ofNat 32 (2 ^ w * (2 ^ (32 - w) - 1) + f) := by
    have hint : ((2 ^ w * (2 ^ (32 - w) - 1) + f : Nat) : Int) = (f : Int) - 2 ^ w + (2 ^ 32 : Nat) := by
      rw [← hpow]
      push_cast
      ring
    rw [← BitVec.ofInt_natCast, hint, ← BitVec.toInt_inj, BitVec.toInt_ofInt, BitVec.toInt_ofInt, Int.add_bmod_right]
  rw [hword, BitVec.getLsbD_ofNat, Nat.testBit_two_pow_mul_add _ hf, Nat.testBit_two_pow_sub_one, decide_eq_true hi, Bool.true_and]
  split
  · next h => simp [show ¬w ≤ i by omega]
  · next h => simp [show w ≤ i by omega, show i - w < 32 - w by omega]

theorem bfxI_eq_bits (x y : Word) : bfxI x y = bitsWhere fun i => widthOf y != 0 && x.getLsbD (min i (widthOf y - 1) + posOf y) := by
  have hlt : (bfxU x y).toNat < 2 ^ widthOf y := Nat.lt_pow_two_of_testBit _ fun i hi => by
    simp [testBit_bfxU, Nat.not_lt.2 hi]
  refine eq_bitsWhere fun i hi => ?_
  simp only [bfxI, fieldWidth_eq, bitOf_eq_testBit]
  split
  · next h0 => simp [h0]
  · next h0 =>
    have hsign : (bfxU x y).toNat.testBit (widthOf y - 1) = x.getLsbD (widthOf y - 1 + posOf y) := by
      rw [testBit_bfxU, decide_eq_true (by omega), Bool.true_and]
    rw [hsign, bne_iff_ne.2 h0, Bool.true_and]
    by_cases h : i < widthOf y
    · rw [show min i (widthOf y - 1) = i by omega]
      split
      · rw [getLsbD_negative hlt (widthOf_le y) hi, testBit_bfxU]
        simp [h]
      · rw [BitVec.getLsbD_ofNat, testBit_bfxU]
        simp [h, hi]
    · rw [show min i (widthOf y - 1) = widthOf y - 1 by omega]
      split
      · next hs =>
        rw [getLsbD_negative hlt (widthOf_le y) hi, hs]
        simp [show widthOf y ≤ i by omega]
      · next hs =>
        rw [BitVec.getLsbD_ofNat, testBit_bfxU]
        simp [h, hs]

theorem bfiW_eq_bits (z x y : Word) : bfiW z x y = bitsWhere fun i =>
    if posOf y ≤ i ∧ i < posOf y + widthOf y then x.getLsbD (i - posOf y) else z.getLsbD i :=
  eq_bitsWhere fun i hi => by
    have hmask : (BitVec.ofNat 32 ((2 ^ widthOf y - 1) * 2 ^ posOf y)).getLsbD i =
        decide (posOf y ≤ i ∧ i < posOf y + widthOf y) := by
      rw [BitVec.getLsbD_ofNat, Nat.testBit_mul_two_pow, Nat.testBit_two_pow_sub_one, Bool.eq_iff_iff]
      simp only [Bool.and_eq_true, decide_eq_true_eq]
      omega
    rw [bfiW, fieldPos_eq, fieldWidth_eq, BitVec.getLsbD_or, BitVec.getLsbD_and, BitVec.getLsbD_and, BitVec.getLsbD_not,
      BitVec.getLsbD_shiftLeft, hmask]
    split
    · next h => simp [h, hi]
    · next h => simp [h, hi]

/-! Bytes (R147). -/

theorem permByte_lt (a s : Nat) : permByte a s < 2 ^ 8 := by
  simp only [permByte]
  split
  · decide
  · split
    · split <;> decide
    · exact Nat.mod_lt _ (by decide)

theorem testBit_permByte (a s : Nat) {j : Nat} (hj : j < 8) :
    (permByte a s).testBit j = (!s.testBit 2 && a.testBit (8 * (s % 4) + if s.testBit 3 then 7 else j)) := by
  have hbyte (k : Nat) (hk : k < 8) : (a / 2 ^ (8 * (s % 4)) % 256).testBit k = a.testBit (8 * (s % 4) + k) := by
    rw [show 256 = 2 ^ 8 from rfl, Nat.testBit_mod_two_pow, Nat.testBit_div_two_pow, decide_eq_true hk, Bool.true_and, Nat.add_comm]
  simp only [permByte, bitOf_eq_testBit]
  cases s.testBit 2 with
  | true => simp
  | false =>
    cases s.testBit 3 with
    | false => simpa using hbyte j hj
    | true =>
      have hsign : (a / 2 ^ (8 * (s % 4)) % 256).testBit 7 = decide (a / 2 ^ (8 * (s % 4)) % 256 ≥ 128) := by
        rw [← bitOf_eq_testBit, bitOf, Bool.eq_iff_iff, beq_iff_eq, decide_eq_true_eq]
        omega
      have hff : Nat.testBit 255 j = true := by
        rw [show 255 = 2 ^ 8 - 1 from rfl, Nat.testBit_two_pow_sub_one, decide_eq_true hj]
      simp only [Bool.false_eq_true, if_false, if_true, Bool.not_false, Bool.true_and, ← hbyte 7 (by omega), hsign]
      split <;> simp [*]

theorem permW_eq_bits (x y : Word) : permW x y = bitsWhere fun i => !y.getLsbD (4 * (i / 8) + 2) &&
    x.getLsbD (8 * (y.toNat / 2 ^ (4 * (i / 8)) % 4) + if y.getLsbD (4 * (i / 8) + 3) then 7 else i % 8) :=
  eq_bitsWhere fun i hi => by
    have hnibble (k b : Nat) (hb : b < 4) : (y.toNat / 2 ^ (4 * k) % 16).testBit b = y.getLsbD (4 * k + b) := by
      rw [show 16 = 2 ^ 4 from rfl, Nat.testBit_mod_two_pow, Nat.testBit_div_two_pow, decide_eq_true hb, Bool.true_and, Nat.add_comm]
      rfl
    rw [permW, BitVec.getLsbD_ofNat, (testBit_sum_digits (fun k => permByte_lt x.toNat (y.toNat / 2 ^ (4 * k) % 16)) 4).2,
      testBit_permByte _ _ (Nat.mod_lt _ (by omega)), hnibble _ 2 (by omega), hnibble _ 3 (by omega), Nat.mod_mod_of_dvd _ (by decide : 4 ∣ 16)]
    simp [hi, BitVec.getLsbD]

end Sys2Proof.Machine
end

section
/-! PROOFS. The integer, immediate and bit forms (R142, R144 to R147): what each function of words computes, and the forms. -/

namespace Sys2Proof.Machine

open Sys2Proof.Claim

/-! Sums, products and extremes (R142). -/

theorem add_eq_ofNat {w : Nat} (x y : BitVec w) : x + y = BitVec.ofNat w ((x.toNat + y.toNat) % 2 ^ w) := by
  simp [BitVec.toNat_eq]
theorem mul_eq_ofNat (x y : Word) : x * y = BitVec.ofNat 32 (x.toNat * y.toNat % 2 ^ 32) := by
  simp [BitVec.toNat_eq]
theorem sub_eq_toS (x y : Word) : x - y = toS (sInt x - sInt y) := by rw [toS_sub, toS_sInt, toS_sInt]
theorem sub64_eq (x y : Word64) : x - y = BitVec.ofInt 64 (x.toInt - y.toInt) := by
  rw [ofInt_sub, BitVec.ofInt_toInt, BitVec.ofInt_toInt]

/-- The high half of a product, signed and unsigned. -/
theorem ofInt_div_eq (p : Int) : BitVec.ofInt 32 (p / 2 ^ 32) = ((BitVec.ofInt 64 p) >>> 32).setWidth 32 := by
  apply BitVec.eq_of_toNat_eq
  simp only [BitVec.toNat_ofInt, BitVec.toNat_setWidth, BitVec.toNat_ushiftRight, Nat.shiftRight_eq_div_pow]
  omega
theorem ofNat_div_eq (p : Nat) : BitVec.ofNat 32 (p / 2 ^ 32) = ((BitVec.ofNat 64 p) >>> 32).setWidth 32 := by
  apply BitVec.eq_of_toNat_eq
  simp only [BitVec.toNat_ofNat, BitVec.toNat_setWidth, BitVec.toNat_ushiftRight, Nat.shiftRight_eq_div_pow]
  omega

theorem minS_eq (x y : Word) : (if x.toInt ≤ y.toInt then x else y) = toS (min (sInt x) (sInt y)) := by
  simp only [sInt, min_def]
  split <;> exact (toS_sInt _).symm
theorem maxS_eq (x y : Word) : (if x.toInt ≤ y.toInt then y else x) = toS (max (sInt x) (sInt y)) := by
  simp only [sInt, max_def]
  split <;> exact (toS_sInt _).symm
theorem minN_eq (x y : Word) : (if x.toNat ≤ y.toNat then x else y) = BitVec.ofNat 32 (min x.toNat y.toNat) := by
  rw [min_def]
  split <;> simp
theorem maxN_eq (x y : Word) : (if x.toNat ≤ y.toNat then y else x) = BitVec.ofNat 32 (max x.toNat y.toNat) := by
  rw [max_def]
  split <;> simp

theorem abs_eq (x : Word) : (if x.msb then -x else x) = BitVec.ofNat 32 (sInt x).natAbs := by
  have hx := x.isLt
  apply BitVec.eq_of_toNat_eq
  rw [sInt, BitVec.toInt_eq_msb_cond]
  cases hm : x.msb with
  | false => simp
  | true =>
    simp only [if_true, BitVec.toNat_neg, BitVec.toNat_ofNat]
    omega

theorem satS32_eq (v : Int) : satS32 v = toS (clampS v) := by
  refine congrArg toS ?_
  simp only [clampS]
  omega
theorem satN32_eq (v : Int) : satN32 v = toS (clampN v) := by
  refine congrArg toS ?_
  simp only [clampN]
  omega

theorem integerArithmeticResults : IntegerArithmeticResults := fun _ _ _ =>
  ⟨gives2_of_op2 add_eq_ofNat fun _ => rfl,
   gives2_of_op2 sub_eq_toS fun _ => rfl,
   gives2_of_op2 mul_eq_ofNat fun _ => rfl,
   gives2_of_op2 (fun x y => ofInt_div_eq (x.toInt * y.toInt)) fun _ => rfl,
   gives2_of_op2 (fun x y => ofNat_div_eq (x.toNat * y.toNat)) fun _ => rfl,
   gives2_of_op2 minS_eq fun _ => rfl,
   gives2_of_op2 minN_eq fun _ => rfl,
   gives2_of_op2 maxS_eq fun _ => rfl,
   gives2_of_op2 maxN_eq fun _ => rfl,
   gives1_of_op1 abs_eq fun _ => rfl,
   gives2_of_op2 (fun _ _ => satS32_eq _) fun _ => rfl,
   gives2_of_op2 (fun _ _ => satS32_eq _) fun _ => rfl,
   gives2_of_op2 (fun _ _ => satN32_eq _) fun _ => rfl,
   gives2_of_op2 (fun _ _ => satN32_eq _) fun _ => rfl,
   gives2w_of_op2w add_eq_ofNat fun _ => rfl,
   gives2w_of_op2w sub64_eq fun _ => rfl,
   gives2p_of_op2p (fun _ _ => rfl) fun _ => rfl,
   gives2p_of_op2p (fun _ _ => rfl) fun _ => rfl⟩

/-! Immediates (R144). -/

theorem truth_eq_maskOf (b : Bool) (c : Prop) [Decidable c] (h : b = true ↔ c) : maskOf b = truth c := by
  simp only [maskOf, truth, h]

/-- A shift count below the width is not changed by the extension of its sign. -/
theorem toNat_signExtend_count {i : BitVec 10} (h : i.toNat < 32) : (i.signExtend 32).toNat = i.toNat := by
  rw [BitVec.signExtend_eq_setWidth_of_msb_false (by rw [BitVec.msb_eq_decide]; simp; omega), BitVec.toNat_setWidth]
  omega

theorem addi_eq (i : BitVec 10) (x : Word) : x + i.signExtend 32 = toS (sInt x + i.toInt) := by
  rw [toS_add, toS_sInt]
  rfl
theorem shli_eq {i : BitVec 10} (h : i.toNat < 32) (x : Word) :
    x <<< min (i.signExtend 32).toNat 32 = BitVec.ofNat 32 (x.toNat * 2 ^ i.toNat % 2 ^ 32) := by
  rw [toNat_signExtend_count h, Nat.min_eq_left h.le, BitVec.toNat_eq, BitVec.toNat_shiftLeft, Nat.shiftLeft_eq, BitVec.toNat_ofNat,
    Nat.mod_mod]
theorem shri_eq {i : BitVec 10} (h : i.toNat < 32) (x : Word) :
    x >>> (i.signExtend 32).toNat = BitVec.ofNat 32 (x.toNat / 2 ^ i.toNat) := by
  rw [toNat_signExtend_count h, ← Nat.shiftRight_eq_div_pow, ← BitVec.toNat_ushiftRight, BitVec.ofNat_toNat, BitVec.setWidth_eq]
theorem srai_eq {i : BitVec 10} (h : i.toNat < 32) (x : Word) :
    x.sshiftRight (i.signExtend 32).toNat = toS (sInt x / 2 ^ i.toNat) := by
  rw [toNat_signExtend_count h, BitVec.sshiftRight, Int.shiftRight_eq_div_pow]
  rfl
theorem slti_iff (i : BitVec 10) (x : Word) : x.slt (i.signExtend 32) = true ↔ sInt x < i.toInt := by
  rw [BitVec.slt_iff_toInt_lt, BitVec.toInt_signExtend_of_le (by decide)]
  rfl

theorem immediateResults : ImmediateResults := fun _ _ i =>
  ⟨gives1_of_op1 (addi_eq i) fun _ => rfl,
   gives1_of_op1 (f := fun x => x &&& i.signExtend 32) (fun _ => rfl) fun _ => rfl,
   gives1_of_op1 (f := fun x => x ||| i.signExtend 32) (fun _ => rfl) fun _ => rfl,
   gives1_of_op1 (f := fun x => x ^^^ i.signExtend 32) (fun _ => rfl) fun _ => rfl,
   fun h => gives1_of_op1 (shli_eq h) fun _ => rfl,
   fun h => gives1_of_op1 (shri_eq h) fun _ => rfl,
   fun h => gives1_of_op1 (srai_eq h) fun _ => rfl,
   gives1_of_op1 (fun x => truth_eq_maskOf _ _ (slti_iff i x)) fun _ => rfl⟩

/-! The bit forms (R145 to R147). -/

theorem bitResults : BitResults := fun _ _ _ =>
  ⟨gives2_of_op2 and_eq_bits fun _ => rfl,
   gives2_of_op2 or_eq_bits fun _ => rfl,
   gives2_of_op2 xor_eq_bits fun _ => rfl,
   gives2_of_op2 andn_eq_bits fun _ => rfl,
   gives2_of_op2 orn_eq_bits fun _ => rfl,
   gives2_of_op2 shl_eq_bits fun _ => rfl,
   gives2_of_op2 shr_eq_bits fun _ => rfl,
   gives2_of_op2 sra_eq_bits fun _ => rfl,
   gives2_of_op2 rotl_eq_bits fun _ => rfl,
   gives_of_opShift64 (g := fun x n => if n < 64 then x <<< n else 0) shl64_eq fun _ => rfl,
   gives_of_opShift64 (g := fun x n => if n < 64 then x >>> n else 0) shr64_eq fun _ => rfl,
   gives_of_opShift64 (g := fun x n => x.sshiftRight n) (fun _ _ => rfl) fun _ => rfl,
   gives1_of_op1 (fun x => congrArg (BitVec.ofNat 32) (popCount_eq x)) fun _ => rfl,
   gives1_of_op1 (fun x => congrArg (BitVec.ofNat 32) (leadZeros_eq x)) fun _ => rfl,
   gives1_of_op1 (f := fun x => BitVec.ofNat 32 (trailZeros x)) (fun _ => congrArg (BitVec.ofNat 32) (find?_range_getD _ 32)) fun _ => rfl,
   gives1_of_op1 brev_eq_bits fun _ => rfl,
   gives2_of_op2 bfxU_eq_bits fun _ => rfl,
   gives2_of_op2 bfxI_eq_bits fun _ => rfl,
   gives2d_of_op2d bfiW_eq_bits fun _ => rfl,
   gives2_of_op2 permW_eq_bits fun _ => rfl⟩

/-- Settles O2: each form's function of words is the result, the bit forms' bit by bit. -/
theorem integerAndBitResults : Obligations.IntegerAndBitResults := ⟨integerArithmeticResults, immediateResults, bitResults⟩

end Sys2Proof.Machine
end

section
/-! PROOFS. The comparison forms (R148, R149): a condition gives all ones where it holds and zero elsewhere. -/

namespace Sys2Proof.Machine

open Sys2Proof.Claim

theorem gives2_of_cmp32 {i : Instr} {d a b : Sel} {f : Word → Word → Bool} {g : Word → Word → Prop} {_ : ∀ x y, Decidable (g x y)}
    (hfg : ∀ x y, f x y = true ↔ g x y) (h : ∀ s, exec i s = cmp32 f d a b s) : gives2 i d a b fun x y => truth (g x y) :=
  gives2_of_op2 (fun x y => truth_eq_maskOf _ _ (hfg x y)) h

theorem gives2_of_fcmp {i : Instr} {d a b : Sel} {f : Ext → Ext → Bool} {g : Word → Word → Prop} {_ : ∀ x y, Decidable (g x y)}
    (hfg : ∀ x y, f (f32 x) (f32 y) = true ↔ g x y) (h : ∀ s, exec i s = fcmp f d a b s) : gives2 i d a b fun x y => truth (g x y) :=
  gives2_of_cmp32 hfg h

/-! FP32 values in order (R148). -/

theorem Ext.isNan_of_lt {x y : Ext} (h : x.lt y = true) : x.isNan = false ∧ y.isNan = false := by
  cases x <;> cases y <;> simp_all [Ext.lt, Ext.isNan]

theorem Ext.eqv_iff (x y : Ext) : x.eqv y = true ↔ x.isNan = false ∧ y.isNan = false ∧ x.lt y = false ∧ y.lt x = false := by
  simp only [Ext.eqv, Bool.and_eq_true, Bool.not_eq_true', and_assoc]

theorem eqF_iff (x y : Word) : eqF x y ↔ ¬nanF x ∧ ¬nanF y ∧ eqF x y := by
  simp only [eqF, nanF, Bool.not_eq_true, Ext.eqv_iff]
  tauto

theorem ltF_iff (x y : Word) : ltF x y ↔ ¬nanF x ∧ ¬nanF y ∧ ltF x y := by
  simp only [nanF, Bool.not_eq_true]
  exact ⟨fun h => ⟨(Ext.isNan_of_lt h).1, (Ext.isNan_of_lt h).2, h⟩, fun h => h.2.2⟩

/-- The ordered values are in line: what is not greater is less or equal. -/
theorem ltF_or_eqF_iff (x y : Word) : ltF x y ∨ eqF x y ↔ ¬nanF x ∧ ¬nanF y ∧ ¬ltF y x := by
  rw [ltF_iff]
  simp only [eqF, nanF, ltF, Bool.not_eq_true, Ext.eqv_iff]
  constructor
  · rintro (⟨hx, hy, hlt⟩ | ⟨hx, hy, -, hgt⟩)
    · exact ⟨hx, hy, Ext.lt_asymm hlt⟩
    · exact ⟨hx, hy, hgt⟩
  · rintro ⟨hx, hy, hgt⟩
    cases hlt : (f32 x).lt (f32 y) with
    | true => exact .inl ⟨hx, hy, rfl⟩
    | false => exact .inr ⟨hx, hy, rfl, hgt⟩

/-! Classes (R149). -/

/-- The class of an FP32 value, by the sign and the other 31 bits of its code. -/
theorem fclassOf_eq (x : Word) : fclassOf x.toNat =
    if 0x7F800000 < x.toNat % 2 ^ 31 then 8
    else if x.toNat % 2 ^ 31 = 0x7F800000 then (if x.msb then 0 else 7)
    else if x.toNat % 2 ^ 31 = 0 then (if x.msb then 3 else 4)
    else if x.toNat % 2 ^ 31 < 2 ^ 23 then (if x.msb then 2 else 5) else (if x.msb then 1 else 6) := by
  rw [← bitOf_msb, fclassOf]
  by_cases hfin : x.toNat % 2 ^ (Fmt.f32.width - 1) ≤ Fmt.f32.maxFin
  · obtain ⟨n, d, hd, hv, hmag⟩ := Fmt.f32.value_finite hfin
    have hzero : n = 0 ↔ x.toNat % 2 ^ 31 = 0 := by
      have hmag' : (n / d : ℚ) = Fmt.f32.mag (x.toNat % 2 ^ 31) := hmag
      rw [← Fmt.f32.mag_eq_zero (c := x.toNat % 2 ^ 31), ← hmag', div_eq_zero_iff]
      simp [hd.ne']
    have hle : x.toNat % 2 ^ 31 ≤ 0x7F7FFFFF := hfin
    rw [hv, if_neg (by omega), if_neg (by omega)]
    simp only [hzero]
    rfl
  · have hgt : 0x7F7FFFFF < x.toNat % 2 ^ 31 := not_le.1 hfin
    rw [Fmt.f32.value_special (not_le.1 hfin)]
    by_cases hinf : x.toNat % 2 ^ 31 = 0x7F800000
    · have hb : (Fmt.f32.hasInf && x.toNat % 2 ^ (Fmt.f32.width - 1) == Fmt.f32.maxFin + 1) = true := by
        simpa [Fmt.f32] using hinf
      rw [hb, if_pos rfl, if_neg (by omega), if_pos hinf]
      rfl
    · have hb : (Fmt.f32.hasInf && x.toNat % 2 ^ (Fmt.f32.width - 1) == Fmt.f32.maxFin + 1) = false := by
        simpa [Fmt.f32] using hinf
      rw [hb, if_neg (by simp), if_pos (by omega)]

/-- The codes of each class of R149. -/
def InClass (x : Word) (c : Nat) : Prop :=
  (c = 0 ∧ x = 0xFF800000) ∨ (c = 1 ∧ 0x80800000 ≤ x ∧ x < 0xFF800000) ∨ (c = 2 ∧ 0x80000000 < x ∧ x < 0x80800000) ∨
  (c = 3 ∧ x = 0x80000000) ∨ (c = 4 ∧ x = 0) ∨ (c = 5 ∧ 0 < x ∧ x < 0x00800000) ∨
  (c = 6 ∧ 0x00800000 ≤ x ∧ x < 0x7F800000) ∨ (c = 7 ∧ x = 0x7F800000) ∨ (c = 8 ∧ 0x7F800000 < x &&& 0x7FFFFFFF)

theorem fclassOf_iff (x : Word) (c : Nat) : fclassOf x.toNat = c ↔ InClass x c := by
  have hx := x.isLt
  have hmask : (x &&& 0x7FFFFFFF).toNat = x.toNat % 2 ^ 31 := Nat.and_two_pow_sub_one_eq_mod x.toNat 31
  simp only [InClass, fclassOf_eq, BitVec.msb_eq_decide, BitVec.lt_def, BitVec.le_def, ← BitVec.toNat_inj, hmask, decide_eq_true_eq,
    BitVec.reduceToNat]
  generalize x.toNat = n at hx
  split_ifs <;> exact ⟨by rintro rfl; simp; omega, fun h => by rcases h with h | h | h | h | h | h | h | h | h <;> omega⟩

theorem fclass_condition (x y : Word) : y.getLsbD (fclassOf x.toNat) = true ↔ ∃ c, y.getLsbD c = true ∧ InClass x c := by
  simp only [← fclassOf_iff, exists_eq_right']

/-- Settles O3: each form's condition is the model's, and of the FP32 ones the order of values. -/
theorem compareResults : Obligations.CompareResults := fun _ _ _ =>
  ⟨gives2_of_cmp32 (f := fun x y => x == y) (fun _ _ => beq_iff_eq) fun _ => rfl,
   gives2_of_cmp32 (f := fun x y => x != y) (fun _ _ => bne_iff_ne) fun _ => rfl,
   gives2_of_cmp32 (fun _ _ => BitVec.slt_iff_toInt_lt) fun _ => rfl,
   gives2_of_cmp32 (fun _ _ => BitVec.sle_iff_toInt_le) fun _ => rfl,
   gives2_of_cmp32 (fun _ _ => BitVec.ult_iff_toNat_lt) fun _ => rfl,
   gives2_of_cmp32 (fun _ _ => BitVec.ule_iff_toNat_le) fun _ => rfl,
   gives2_of_fcmp (f := fun x y => x.eqv y) eqF_iff fun _ => rfl,
   gives2_of_fcmp (f := fun x y => !x.eqv y) (fun x y => by
     rw [Bool.not_eq_true', ← Bool.not_eq_true, ← eqF, eqF_iff]; tauto) fun _ => rfl,
   gives2_of_fcmp (f := fun x y => x.lt y) ltF_iff fun _ => rfl,
   gives2_of_fcmp (f := fun x y => x.lt y || x.eqv y) (fun x y => by
     rw [Bool.or_eq_true, ← eqF, ← ltF, ltF_or_eqF_iff]) fun _ => rfl,
   gives2_of_fcmp (f := fun x y => x.isNan || y.isNan) (fun _ _ => Bool.or_eq_true _ _ ▸ Iff.rfl) fun _ => rfl,
   gives2_of_cmp32 (f := fun x y => y.getLsbD (fclassOf x.toNat)) fclass_condition fun _ => rfl,
   gives_of_cmp64 (f := fun x y => x == y) (fun _ _ => truth_eq_maskOf _ _ beq_iff_eq) fun _ => rfl,
   gives_of_cmp64 (f := fun x y => x.slt y) (fun _ _ => truth_eq_maskOf _ _ BitVec.slt_iff_toInt_lt) fun _ => rfl,
   gives_of_cmp64 (f := fun x y => x.ult y) (fun _ _ => truth_eq_maskOf _ _ BitVec.ult_iff_toNat_lt) fun _ => rfl⟩

end Sys2Proof.Machine
end

section
/-! PROOFS. The float forms (R150 to R153): one rounding of the exact value, half by half in the packed forms, and the dot products
of bytes. -/

namespace Sys2Proof.Machine

open Sys2Proof.Claim

theorem gives2_of_fop2 {i : Instr} {d a b : Sel} {f : Nat → Nat → Nat} {g : Word → Word → Word}
    (hfg : ∀ x y : Word, BitVec.ofNat 32 (f x.toNat y.toNat) = g x y) (h : ∀ s, exec i s = fop2 f d a b s) : gives2 i d a b g :=
  gives2_of_op2 hfg h

theorem gives1_of_fop1 {i : Instr} {d a : Sel} {f : Nat → Nat} {g : Word → Word} (hfg : ∀ x : Word, BitVec.ofNat 32 (f x.toNat) = g x)
    (h : ∀ s, exec i s = fop1 f d a s) : gives1 i d a g :=
  gives1_of_op1 hfg h

theorem gives2d_of_facc {i : Instr} {d a b : Sel} {f : Nat → Nat → Nat → Nat} {g : Word → Word → Word → Word}
    (hfg : ∀ z x y : Word, BitVec.ofNat 32 (f x.toNat y.toNat z.toNat) = g z x y) (h : ∀ s, exec i s = facc f d a b s) :
    gives2d i d a b g :=
  gives2d_of_op2d hfg h

/-! Sign and magnitude. -/

theorem fabs_eq (x : Word) : x &&& 0x7FFFFFFF = BitVec.ofNat 32 (x.toNat % 2 ^ 31) := by
  rw [BitVec.toNat_eq, BitVec.toNat_ofNat, Nat.mod_eq_of_lt (by omega)]
  exact Nat.and_two_pow_sub_one_eq_mod x.toNat 31

/-- Without a carry out of the sign bit, to flip it is to add it. -/
theorem fneg_eq (x : Word) : x ^^^ 0x80000000 = BitVec.ofNat 32 ((x.toNat + 2 ^ 31) % 2 ^ 32) := by
  refine BitVec.eq_of_getLsbD_eq fun i hi => ?_
  have hbit : (0x80000000 : Word).getLsbD i = decide (31 = i) := Nat.testBit_two_pow (n := 31)
  rw [BitVec.getLsbD_xor, hbit, BitVec.getLsbD_ofNat, Nat.testBit_mod_two_pow, decide_eq_true hi, Bool.true_and, Bool.true_and, Nat.add_comm]
  by_cases h : i = 31
  · subst h
    rw [Nat.testBit_two_pow_add_eq, decide_eq_true rfl, Bool.xor_true]
    rfl
  · rw [Nat.testBit_two_pow_add_gt (by omega), decide_eq_false (Ne.symm h), Bool.xor_false]
    rfl

/-! Packed halves (R140). -/

theorem hi16_eq (x : Word) : x.toNat / 65536 % 65536 = hi16 x := Nat.mod_eq_of_lt (by have := x.isLt; omega)

theorem ofNat_perHalf (g : Nat → Nat → Nat) (x y : Word) :
    BitVec.ofNat 32 (perHalf g x.toNat y.toNat) = pair16 (g (lo16 x) (lo16 y)) (g (hi16 x) (hi16 y)) := by
  rw [perHalf, hi16_eq, hi16_eq]
  rfl

theorem ofNat_perHalf3 (g : Nat → Nat → Nat → Nat) (z x y : Word) :
    BitVec.ofNat 32 (perHalf3 g x.toNat y.toNat z.toNat) = pair16 (g (lo16 x) (lo16 y) (lo16 z)) (g (hi16 x) (hi16 y) (hi16 z)) := by
  rw [perHalf3, hi16_eq, hi16_eq, hi16_eq]
  rfl

/-! Dot products of bytes (R153). -/

/-- Under a reading of a byte, the four products are added as integers. -/
theorem idp4_eq (rd : Nat → Int) (z x y : Word) : idp4 rd z x y = toS (sInt z +
    rd (x.toNat / 2 ^ (8 * 0) % 256) * rd (y.toNat / 2 ^ (8 * 0) % 256) + rd (x.toNat / 2 ^ (8 * 1) % 256) * rd (y.toNat / 2 ^ (8 * 1) % 256) +
    rd (x.toNat / 2 ^ (8 * 2) % 256) * rd (y.toNat / 2 ^ (8 * 2) % 256) + rd (x.toNat / 2 ^ (8 * 3) % 256) * rd (y.toNat / 2 ^ (8 * 3) % 256)) := by
  rw [idp4, ← toS, ← toS_sInt z, ← toS_add, toS_sInt]
  refine congrArg toS ?_
  simp only [List.range_succ, List.range_zero, List.nil_append, List.cons_append, List.map_cons, List.map_nil, List.sum_cons, List.sum_nil]
  ring

theorem s8_eq (n : Nat) : s8 n = if (n : Int) < 128 then (n : Int) else n - 256 := by
  simp only [s8]
  split <;> split <;> omega

theorem s8_eq_byteS (x : Word) (k : Nat) : s8 (x.toNat / 2 ^ (8 * k) % 256) = byteS x k := s8_eq _

/-- Settles O4: a scalar form's rounding of its exact value is the model's own, and a packed form's is that of each half. -/
theorem floatResults : Obligations.FloatResults := fun _ _ _ =>
  ⟨gives2_of_fop2 (f := Fmt.f32.fadd) (fun _ _ => rfl) fun _ => rfl,
   gives2_of_fop2 (f := Fmt.f32.fsub) (fun _ _ => rfl) fun _ => rfl,
   gives2_of_fop2 (f := Fmt.f32.fmul) (fun _ _ => rfl) fun _ => rfl,
   gives2_of_fop2 (f := Fmt.f32.minmax false) (fun _ _ => rfl) fun _ => rfl,
   gives2_of_fop2 (f := Fmt.f32.minmax true) (fun _ _ => rfl) fun _ => rfl,
   gives1_of_op1 fabs_eq fun _ => rfl,
   gives1_of_op1 fneg_eq fun _ => rfl,
   gives2_of_fop2 (f := Fmt.f32.fdiv) (fun _ _ => rfl) fun _ => rfl,
   gives1_of_fop1 (f := f32Fn fsqrtExt) (fun _ => rfl) fun _ => rfl,
   gives1_of_fop1 (f := f32Fn (Ext.div (.fin false 1 1))) (fun _ => rfl) fun _ => rfl,
   gives1_of_fop1 (f := f32Fn frsqrtExt) (fun _ => rfl) fun _ => rfl,
   gives1_of_fop1 (f := f32Fn fexp2Ext) (fun _ => rfl) fun _ => rfl,
   gives1_of_fop1 (f := f32Fn flog2Ext) (fun _ => rfl) fun _ => rfl,
   gives1_of_fop1 (f := f32Fn fsinpiExt) (fun _ => rfl) fun _ => rfl,
   gives1_of_fop1 (f := f32Fn fcospiExt) (fun _ => rfl) fun _ => rfl,
   gives1_of_fop1 (f := f32Fn ftanhExt) (fun _ => rfl) fun _ => rfl,
   gives2_of_fop2 (ofNat_perHalf _) fun _ => rfl,
   gives2_of_fop2 (ofNat_perHalf _) fun _ => rfl,
   gives2_of_fop2 (ofNat_perHalf _) fun _ => rfl,
   gives2_of_fop2 (ofNat_perHalf _) fun _ => rfl,
   gives2_of_fop2 (ofNat_perHalf _) fun _ => rfl,
   gives2_of_fop2 (ofNat_perHalf _) fun _ => rfl,
   gives2_of_op2 (f := fun x y => BitVec.ofNat 32 (fsclCode x.toNat y.toInt)) (fun _ _ => rfl) fun _ => rfl,
   gives1_of_fop1 (f := frintCode .rne) (fun _ => rfl) fun _ => rfl,
   gives2d_of_facc (ofNat_perHalf3 _) fun _ => rfl,
   gives2d_of_facc (ofNat_perHalf3 _) fun _ => rfl,
   gives2d_of_facc (f := fdot2Code) (fun _ _ _ => rfl) fun _ => rfl,
   gives2d_of_op2d (f := idp4 s8) (fun z x y => by simp only [idp4_eq, s8_eq_byteS]) fun _ => rfl,
   gives2d_of_op2d (f := idp4 fun x => x) (fun z x y => by simp only [idp4_eq]; rfl) fun _ => rfl⟩

end Sys2Proof.Machine
end

section
/-! PROOFS. The conversions, the four-operand forms and the constants (R154 to R163): pieces of registers, and the forms. -/

namespace Sys2Proof.Machine

open Sys2Proof.Claim

/-! Fields of a conversion's word (R154, R58). -/

theorem rmOf_eq_mode (rm : BitVec 2) : rmOf rm = mode rm := by
  revert rm
  decide

theorem biasOf_eq_bias (b : BitVec 4) : biasOf b.toNat = bias b := by
  revert b
  decide

/-! Pieces of a register (R154). -/

/-- A number with `w` bits from place `k` on replaced, bit by bit. -/
theorem testBit_replaced (n v w k i : Nat) : (n - n / 2 ^ k % 2 ^ w * 2 ^ k + v % 2 ^ w * 2 ^ k).testBit i =
    if k ≤ i ∧ i < k + w then v.testBit (i - k) else n.testBit i := by
  have hparts : n - n / 2 ^ k % 2 ^ w * 2 ^ k + v % 2 ^ w * 2 ^ k =
      2 ^ k * (2 ^ w * (n / 2 ^ k / 2 ^ w) + v % 2 ^ w) + n % 2 ^ k := by
    have hhigh := Nat.div_add_mod (n / 2 ^ k) (2 ^ w)
    have hlow := Nat.div_add_mod n (2 ^ k)
    have hpiece : n / 2 ^ k % 2 ^ w * 2 ^ k ≤ 2 ^ k * (n / 2 ^ k) := by
      rw [Nat.mul_comm (2 ^ k)]
      exact Nat.mul_le_mul_right _ (Nat.mod_le ..)
    have hsplit : 2 ^ k * (n / 2 ^ k) = 2 ^ k * (2 ^ w * (n / 2 ^ k / 2 ^ w)) + n / 2 ^ k % 2 ^ w * 2 ^ k := by
      rw [Nat.mul_comm (n / 2 ^ k % 2 ^ w), ← Nat.mul_add, hhigh]
    rw [Nat.mul_add, Nat.mul_comm (v % 2 ^ w)]
    omega
  rw [hparts, Nat.testBit_two_pow_mul_add _ (Nat.mod_lt _ (Nat.two_pow_pos k)),
    Nat.testBit_two_pow_mul_add _ (Nat.mod_lt _ (Nat.two_pow_pos w))]
  by_cases hlow : i < k
  · rw [if_pos hlow, if_neg (by omega), Nat.testBit_mod_two_pow, decide_eq_true hlow, Bool.true_and]
  · rw [if_neg hlow]
    by_cases hin : i - k < w
    · rw [if_pos hin, if_pos (by omega), Nat.testBit_mod_two_pow, decide_eq_true hin, Bool.true_and]
    · rw [if_neg hin, if_neg (by omega), Nat.testBit_div_two_pow, Nat.testBit_div_two_pow]
      exact congrArg _ (by omega)

theorem merge_eq_withPiece (w : Nat) (x : Word) (el : BitVec 2) (v : Nat) : merge w x el v = withPiece w x el.toNat v :=
  eq_bitsWhere fun i hi => by
    rw [merge, BitVec.getLsbD_ofNat, testBit_replaced, decide_eq_true hi, Bool.true_and]
    rfl

section
variable {i : Instr} {d a : Sel} {w : Nat} {f : Nat → Nat} {el : BitVec 2}

theorem gives1_of_unpack (h : ∀ s, exec i s = unpack w f el d a s) :
    gives1 i d a fun x => BitVec.ofNat 32 (f (piece w x el.toNat)) :=
  gives1_of_op1 (fun _ => rfl) h

theorem gives1d_of_pack (h : ∀ s, exec i s = pack w f el d a s) : gives1d i d a fun z x => withPiece w z el.toNat (f x.toNat) :=
  gives1d_of_op1d (fun z x => merge_eq_withPiece w z el (f x.toNat)) h

end

/-- The two codes that `pk.e2m1` puts into a byte (R158). -/
def e2m1Byte (rm : BitVec 2) (sat : Bool) (x : Word64) : Nat :=
  Fmt.e2m1.convert (rmOf rm) sat (x.toNat % 2 ^ 32) + 16 * Fmt.e2m1.convert (rmOf rm) sat (x.toNat / 2 ^ 32)

/-- The two values that `upk.e2m1` takes from a byte (R158). -/
def e2m1Pair (b : Nat) : Word64 := BitVec.ofNat 64 (Fmt.e2m1.widen (b % 16) + 2 ^ 32 * Fmt.e2m1.widen (b / 16))

theorem conversionResults : ConversionResults := by
  intro d a rm sat el db
  rw [← rmOf_eq_mode, ← biasOf_eq_bias]
  exact
    ⟨gives1_of_op1 (f := fun x => BitVec.ofNat 32 (intToF32 (rmOf rm) x.toInt)) (fun _ => rfl) fun _ => rfl,
     gives1_of_op1 (f := fun x => BitVec.ofNat 32 (intToF32 (rmOf rm) x.toNat)) (fun _ => rfl) fun _ => rfl,
     gives1_of_fop1 (f := f32ToS32 (rmOf rm) sat) (fun _ => rfl) fun _ => rfl,
     gives1_of_fop1 (f := f32ToN32 (rmOf rm) sat) (fun _ => rfl) fun _ => rfl,
     fun _ => gives1_of_unpack fun _ => rfl,
     fun _ => gives1_of_unpack fun _ => rfl,
     fun _ => gives1d_of_pack fun _ => rfl,
     fun _ => gives1d_of_pack fun _ => rfl,
     gives1d_of_pack fun _ => rfl,
     gives1d_of_pack fun _ => rfl,
     gives_of_lanewise (f := fun x => (merge 8 (arg32 x 0) el (e2m1Byte rm sat (arg x 1))).setWidth 64)
       (fun _ _ _ => congrArg (BitVec.setWidth 64) (merge_eq_withPiece 8 _ el _)) fun _ => rfl,
     gives1d_of_pack fun _ => rfl,
     gives1_of_unpack fun _ => rfl,
     gives1_of_unpack fun _ => rfl,
     gives_of_lanewise (f := fun x => e2m1Pair (elemOf 8 (arg32 x 0) el)) (fun _ _ _ => rfl) fun _ => rfl,
     gives1_of_unpack fun _ => rfl,
     gives1d_of_pack fun _ => rfl,
     gives1_of_fop1 (f := frintCode (rmOf rm)) (fun _ => rfl) fun _ => rfl⟩

/-! Four operands, and constants (R162, R163). -/

theorem imad_eq (x y z : Word) : x * y + z = toS (sInt x * sInt y + sInt z) := by
  rw [toS_add, toS_mul, toS_sInt, toS_sInt, toS_sInt]

/-- The immediate goes above the low 20 bits. -/
theorem movh_eq (i : BitVec 12) (x : Word) :
    (i ++ x.setWidth 20 : BitVec 32).setWidth 64 = BitVec.ofNat 64 (i.toNat * 2 ^ 20 + x.toNat % 2 ^ 20) := by
  have hi := i.isLt
  apply BitVec.eq_of_toNat_eq
  rw [BitVec.toNat_setWidth, BitVec.toNat_append, BitVec.toNat_setWidth, BitVec.toNat_ofNat,
    ← Nat.shiftLeft_add_eq_or_of_lt (Nat.mod_lt _ (by decide)), Nat.shiftLeft_eq]

theorem fourOperandAndConstantResults : FourOperandAndConstantResults := fun _ _ _ _ i20 i12 =>
  ⟨gives3_of_op3 (f := fun x y z => BitVec.ofNat 32 (Fmt.f32.ffma x.toNat y.toNat z.toNat)) (fun _ _ _ => rfl) fun _ => rfl,
   gives3_of_op3 (f := fun x y z => if z ≠ 0 then x else y) (fun _ _ _ => ite_not ..) fun _ => rfl,
   gives3_of_op3 imad_eq fun _ => rfl,
   gives_of_lanewise (f := fun _ => (i20.signExtend 32).setWidth 64) (fun _ _ _ => rfl) fun _ => rfl,
   gives_of_lanewise (f := fun x => (i12 ++ (arg32 x 0).setWidth 20 : BitVec 32).setWidth 64) (fun _ _ _ => movh_eq i12 _) fun _ => rfl⟩

/-- Settles O6: a piece of a register is read and replaced as the statement says, bit by bit, and what is converted is the model's own. -/
theorem conversionsAndConstants : Obligations.ConversionsAndConstants := ⟨conversionResults, fourOperandAndConstantResults⟩

end Sys2Proof.Machine
end

section
/-! PROOFS. The registers of a strand under the writes of a word (R22, R26, R137): what a register holds after it or another one is
written, and what the writes leave of the strand. -/

namespace Sys2Proof.Machine

open Sys2Proof.Claim

/-! One register. -/

/-- A register that takes what is written to it: the operand register of a thread of the strand, or a register of a frame that it has. -/
def Strand.lives (st : Strand) (r : RegLoc) : Prop :=
  if r.frame = 0 then nhas st.lanes r.lane = true else (st.frameOf r.frame).isSome = true

theorem getD_setOpnd (o : List Word) (k j : Nat) (v : Word) : (setOpnd o k v).getD j 0 = if j = k then v else o.getD j 0 := by
  have hlen : k < (o ++ List.replicate (k + 1 - o.length) 0).length := by simp; omega
  have hpad : (o ++ List.replicate (k + 1 - o.length) 0)[j]?.getD 0 = o[j]?.getD 0 := by
    rw [List.getElem?_append]
    split
    · rfl
    · next h =>
      rw [List.getElem?_eq_none (Nat.not_lt.1 h), List.getElem?_replicate]
      split <;> rfl
  simp only [setOpnd, List.getD_eq_getElem?_getD, List.getElem?_set]
  by_cases h : j = k
  · rw [if_pos h.symm, if_pos h, if_pos (h ▸ hlen), Option.getD_some]
  · simpa [h, Ne.symm h] using hpad

theorem th_modTh (st : Strand) (l j : Nat) (f : Thread → Thread) :
    (st.modTh l f).th j = if j = l ∧ nhas st.lanes l = true then f (st.th l) else st.th j := by
  simp only [Strand.th, Strand.modTh, nget_nmod, nhas]
  by_cases h : j = l
  · subst h
    by_cases hn : (nget st.lanes j).isSome = true
    · obtain ⟨t, ht⟩ := Option.isSome_iff_exists.1 hn
      simp [ht]
    · simp [Option.not_isSome_iff_eq_none.1 hn]
  · simp [h]

/-- A write to an operand register. -/
theorem poke_opnd {st : Strand} {r : RegLoc} (h : r.frame = 0) (v : Word) :
    (st.poke r v).lanes = (st.modTh r.lane fun t => { t with o := setOpnd t.o r.reg v }).lanes ∧ (st.poke r v).frames = st.frames := by
  simp only [Strand.poke, h, if_true]
  split <;> exact ⟨rfl, rfl⟩

/-- A write to a register of a frame. -/
theorem poke_frame {st : Strand} {r : RegLoc} (h : r.frame ≠ 0) (v : Word) : (st.poke r v).lanes = st.lanes ∧
    (st.poke r v).frames = st.frames.map fun f =>
      if f.uid = r.frame then { f with cells := nset f.cells (32 * r.reg + r.lane) v, pubs := nset f.pubs r.reg .unfenced } else f := by
  simp only [Strand.poke, h, if_false]
  split <;> exact ⟨rfl, rfl⟩

theorem frameOf_poke {st : Strand} {r : RegLoc} (h : r.frame ≠ 0) (v : Word) (uid : Nat) : (st.poke r v).frameOf uid = (st.frameOf uid).map fun f =>
    if f.uid = r.frame then { f with cells := nset f.cells (32 * r.reg + r.lane) v, pubs := nset f.pubs r.reg .unfenced } else f := by
  rw [Strand.frameOf, (poke_frame h v).2, List.find?_map]
  refine congrArg (Option.map _) (congrArg (List.find? · st.frames) ?_)
  funext f
  dsimp only [Function.comp]
  split <;> rfl

theorem frameOf_uid {st : Strand} {uid : Nat} {f : Frame} (h : st.frameOf uid = some f) : f.uid = uid := by
  simpa using List.find?_some h

theorem th_of_lanes {st u : Strand} (h : u.lanes = st.lanes) (l : Nat) : u.th l = st.th l := by rw [Strand.th, Strand.th, h]

/-- A thread whose operand registers alone change. -/
theorem th_poke (st : Strand) (r : RegLoc) (v : Word) (l : Nat) : (st.poke r v).th l = { st.th l with o := ((st.poke r v).th l).o } := by
  by_cases h : r.frame = 0
  · rw [th_of_lanes (poke_opnd h v).1, th_modTh]
    split
    · next hl => rw [hl.1]
    · rfl
  · rw [th_of_lanes (poke_frame h v).1]

theorem th_poke_other {st : Strand} {r : RegLoc} {l : Nat} (h : r.lane ≠ l) (v : Word) : (st.poke r v).th l = st.th l := by
  by_cases hf : r.frame = 0
  · rw [th_of_lanes (poke_opnd hf v).1, th_modTh, if_neg fun hl => h hl.1.symm]
  · exact th_of_lanes (poke_frame hf v).1 l

theorem nhas_lanes_poke (st : Strand) (r : RegLoc) (v : Word) (l : Nat) : nhas (st.poke r v).lanes l = nhas st.lanes l := by
  by_cases h : r.frame = 0
  · rw [(poke_opnd h v).1]
    exact nhas_nmod ..
  · rw [(poke_frame h v).1]

theorem isSome_frameOf_poke (st : Strand) (r : RegLoc) (v : Word) (uid : Nat) :
    ((st.poke r v).frameOf uid).isSome = (st.frameOf uid).isSome := by
  by_cases h : r.frame = 0
  · rw [Strand.frameOf, (poke_opnd h v).2, ← Strand.frameOf]
  · rw [frameOf_poke h, Option.isSome_map]

theorem lives_poke (st : Strand) (r r' : RegLoc) (v : Word) : (st.poke r v).lives r' ↔ st.lives r' := by
  simp only [Strand.lives, nhas_lanes_poke, isSome_frameOf_poke]

theorem peek_poke_same {st : Strand} {r : RegLoc} (h : st.lives r) (v : Word) : (st.poke r v).peek r = v := by
  rw [Strand.lives] at h
  rw [Strand.peek]
  split
  · next hf =>
    rw [if_pos hf] at h
    rw [th_of_lanes (poke_opnd hf v).1, th_modTh, if_pos ⟨rfl, h⟩, getD_setOpnd, if_pos rfl]
  · next hf =>
    rw [if_neg hf] at h
    obtain ⟨f, hfr⟩ := Option.isSome_iff_exists.1 h
    rw [frameOf_poke hf, hfr, Option.map_some, if_pos (frameOf_uid hfr)]
    exact (cell_nset f r.reg r.lane r.reg r.lane v).trans (if_pos rfl)

theorem peek_poke_other {st : Strand} {r r' : RegLoc} (hne : r ≠ r') (hr : r.lane < 32) (hr' : r'.lane < 32) (v : Word) :
    (st.poke r v).peek r' = st.peek r' := by
  by_cases hf : r.frame = 0
  · have hframes (uid : Nat) : (st.poke r v).frameOf uid = st.frameOf uid := by rw [Strand.frameOf, (poke_opnd hf v).2, ← Strand.frameOf]
    rw [Strand.peek, Strand.peek, hframes, th_of_lanes (poke_opnd hf v).1, th_modTh]
    split
    · next hf' =>
      split
      · next hl =>
        rw [getD_setOpnd, if_neg, hl.1]
        rintro hreg
        exact hne (by cases r; cases r'; simp_all)
      · rfl
    · rfl
  · rw [Strand.peek, Strand.peek, th_of_lanes (poke_frame hf v).1, frameOf_poke hf]
    split
    · rfl
    · cases hfr : st.frameOf r'.frame with
      | none => rfl
      | some f =>
        rw [Option.map_some]
        dsimp only
        split
        · next huid =>
          refine (cell_nset f r.reg r.lane r'.reg r'.lane v).trans (if_neg fun hcell => hne ?_)
          have hframe : r.frame = r'.frame := huid.symm.trans (frameOf_uid hfr)
          have hlane : r.lane = r'.lane := by omega
          have hreg : r.reg = r'.reg := by omega
          cases r
          cases r'
          simp_all
        · rfl

/-! A word's writes. -/

/-- What the writes of registers make of a strand: the registers written hold the values written last, and the rest is as it was, but
for soft errors and pending loads that the writes end. -/
structure Written (ws : List (RegLoc × Word)) (st u : Strand) : Prop where
  rest : u = { st with frames := u.frames, lanes := u.lanes, softRegs := u.softRegs, fl := { st.fl with loads := u.fl.loads } }
  noLoads : u.fl.loads.isEmpty = st.fl.loads.isEmpty
  has : ∀ l, nhas u.lanes l = nhas st.lanes l
  th : ∀ l, u.th l = { st.th l with o := (u.th l).o }
  thOther : ∀ l, (∀ w ∈ ws, w.1.lane ≠ l) → u.th l = st.th l
  lives : ∀ r, u.lives r ↔ st.lives r
  other : ∀ r, r.lane < 32 → (∀ w ∈ ws, w.1 ≠ r) → u.peek r = st.peek r
  put : (∀ w ∈ ws, ∀ w' ∈ ws, w.1 = w'.1 → w.2 = w'.2) → ∀ w ∈ ws, st.lives w.1 → u.peek w.1 = w.2

theorem Written.nil (st : Strand) : Written [] st st :=
  ⟨rfl, rfl, fun _ => rfl, fun _ => rfl, fun _ _ => rfl, fun _ => Iff.rfl, fun _ _ _ => rfl, fun _ _ h => absurd h List.not_mem_nil⟩

theorem Written.cons {w : RegLoc × Word} {ws : List (RegLoc × Word)} {st t u : Strand} (h : Written [w] st t) (h' : Written ws t u)
    (hlane : w.1.lane < 32) : Written (w :: ws) st u where
  rest := by rw [h'.rest, h.rest]
  noLoads := h'.noLoads.trans h.noLoads
  has l := (h'.has l).trans (h.has l)
  th l := by rw [h'.th l, h.th l]
  thOther l hl := (h'.thOther l fun x hx => hl x (.tail _ hx)).trans (h.thOther l fun x hx => hl x (List.mem_singleton.1 hx ▸ .head _))
  lives r := (h'.lives r).trans (h.lives r)
  other r hr hne := (h'.other r hr fun x hx => hne x (.tail _ hx)).trans
    (h.other r hr fun x hx => hne x (List.mem_singleton.1 hx ▸ .head _))
  put hsame x hx hlives := by
    have hput := h'.put fun y hy z hz => hsame y (.tail _ hy) z (.tail _ hz)
    by_cases hlater : ∃ y ∈ ws, y.1 = x.1
    · obtain ⟨y, hy, hreg⟩ := hlater
      rw [← hreg, hput y hy ((h.lives _).2 (hreg ▸ hlives))]
      exact hsame y (.tail _ hy) x hx hreg
    · rcases List.mem_cons.1 hx with rfl | hx
      · rw [h'.other x.1 hlane fun y hy hreg => hlater ⟨y, hy, hreg⟩]
        exact h.put (by simp) x (.head _) hlives
      · exact absurd ⟨x, hx, rfl⟩ hlater

theorem written_poke {st : Strand} {w : RegLoc × Word} (hlane : w.1.lane < 32) : Written [w] st (st.poke w.1 w.2) where
  rest := by
    rw [poke_eq]
  noLoads := by rw [poke_eq]
  has := nhas_lanes_poke st w.1 w.2
  th := th_poke st w.1 w.2
  thOther l hl := th_poke_other (hl w (.head _)) w.2
  lives r := lives_poke st w.1 r w.2
  other r hr hne := peek_poke_other (hne w (.head _)) hlane hr w.2
  put _ x hx hlives := by
    obtain rfl := List.mem_singleton.1 hx
    exact peek_poke_same hlives x.2

/-- The end of pending loads leaves what is written. -/
theorem Written.endLoads {ws : List (RegLoc × Word)} {st u : Strand} (h : Written ws st u) {loads : List PendLoad}
    (hloads : loads.isEmpty = u.fl.loads.isEmpty) : Written ws st { u with fl := { u.fl with loads := loads } } where
  rest := by rw [h.rest]
  noLoads := hloads.trans h.noLoads
  has := h.has
  th := h.th
  thOther := h.thOther
  lives := h.lives
  other := h.other
  put := h.put

theorem written_regWrites {s : State} {sid : Nat} (hs : nhas s.strands sid = true) {ws : List (RegLoc × Word)}
    (hlanes : ∀ w ∈ ws, w.1.lane < 32) : Written ws (s.str sid) ((s.regWrites sid ws).str sid) := by
  induction ws generalizing s with
  | nil => exact .nil _
  | cons w ws ih =>
    have hone : Written [w] (s.str sid) ((s.regWrite sid w.1 w.2 (0x100000 + w.1.code)).str sid) := by
      have hpoke := written_poke (st := s.str sid) (hlanes w (.head _))
      rw [State.regWrite, str_modStr_same hs]
      dsimp only
      split
      · exact hpoke
      · split
        · exact hpoke
        · exact hpoke.endLoads List.isEmpty_map
    refine hone.cons (ih ?_ fun x hx => hlanes x (.tail _ hx)) (hlanes w (.head _))
    rw [State.regWrite, nhas_modStr, hs]

end Sys2Proof.Machine
end

section
/-! PROOFS. The forms of R137 and R177 that do not trap: each ends with a result in every active lane. -/

namespace Sys2Proof.Machine

open Sys2Proof.Claim

/-! The kinds of forms. -/

/-- A form that computes a result in every lane from the values of the active lanes. -/
theorem gives_of_compute {i : Instr} {srcs : List Opd} {d : Opd} (F : List Nat → NMap (List Word64) → Nat → Word64)
    (h : ∀ s, exec i s = onPath (fun sid p s => s.compute sid p srcs d true fun v l => .ok (F p.lanes v l)) s) :
    gives i srcs d fun v p l => F p.lanes v l := by
  intro s sid p rest q t vals hi hr
  obtain ⟨hq, -⟩ := touched_ready hr
  have hlanes : q.lanes = p.lanes := by rw [hq]
  rw [h, onPath_issues hi, compute_ready (traps := fun _ => false) (hit := default) hr fun _ => rfl]
  simp [wrote, splitOff_none, hlanes, List.map_map, Function.comp_def]

theorem gives_of_xln0 {i : Instr} {d : Sel} {f : List Nat → Nat → Word} (h : ∀ s, exec i s = xln0 f d s) : ∃ g, gives i [] (d, 1) g := by
  refine ⟨_, gives_of_compute (fun ls _ l => (f ls l).setWidth 64) ?_⟩
  exact h

theorem gives_of_xln1 {i : Instr} {d a : Sel} {f : LaneVals → Nat → Word} (h : ∀ s, exec i s = xln1 f d a s) :
    ∃ g, gives i [(a, 1)] (d, 1) g := by
  refine ⟨_, gives_of_compute (fun _ v l => (f (v.map fun x => (x.1, arg32 x.2 0)) l).setWidth 64) ?_⟩
  exact h

theorem gives_of_xlnPick {i : Instr} {d a b : Sel} {j : Nat → Word → Int} (h : ∀ s, exec i s = xlnPick j d a b s) :
    ∃ g, gives i [(a, 1), (b, 1)] (d, 1) g := by
  refine ⟨_, gives_of_compute (fun ls v l =>
    let k := j l (x32 v l 1)
    (if 0 ≤ k ∧ k < 32 ∧ ls.contains k.toNat then x32 v k.toNat 0 else x32 v l 0).setWidth 64) ?_⟩
  exact h

theorem gives_of_opImm {i : Instr} {d a : Sel} {c : BitVec 10} {f : Word → Word → Word} (h : ∀ s, exec i s = opImm f d a c s) :
    ∃ g, gives i [(a, 1)] (d, 1) g :=
  ⟨_, gives1_of_op1 (fun _ => rfl) h⟩

theorem gives_of_cmp32 {i : Instr} {d a b : Sel} {f : Word → Word → Bool} (h : ∀ s, exec i s = cmp32 f d a b s) :
    ∃ g, gives i [(a, 1), (b, 1)] (d, 1) g :=
  ⟨_, gives2_of_op2 (fun _ _ => rfl) h⟩

theorem gives_of_fcmp {i : Instr} {d a b : Sel} {f : Ext → Ext → Bool} (h : ∀ s, exec i s = fcmp f d a b s) :
    ∃ g, gives i [(a, 1), (b, 1)] (d, 1) g :=
  gives_of_cmp32 h

/-- Every form of R137 and R177 but a division gives some result. -/
theorem gives_of_shape {i : Instr} {srcs : List Opd} {d : Opd} (h : shape i = some (srcs, d))
    (hdiv : ∀ x y z, i ≠ .idivS32 x y z ∧ i ≠ .idivN32 x y z ∧ i ≠ .iremS32 x y z ∧ i ≠ .iremN32 x y z) : ∃ g, gives i srcs d g := by
  have hexec := exec.eq_def i
  cases i with
  | iadd | isub | imul | imulhS32 | imulhN32 | iminS32 | iminN32 | imaxS32 | imaxN32 | iaddsS32 | isubsS32 | iaddsN32 | isubsN32
  | and | or | xor | andn | orn | shl | shr | sra | rotl | bfxS | bfxN | perm | fscl =>
    cases h; exact ⟨_, gives2_of_op2 (fun _ _ => rfl) hexec⟩
  | ceq | cne | cltS | cleS | cltN | cleN | fclass => cases h; exact gives_of_cmp32 hexec
  | fceq | fcne | fclt | fcle | fcun => cases h; exact gives_of_fcmp hexec
  | fadd | fsub | fmul | fmin | fmax | fdiv | faddF16x2 | fmulF16x2 | faddBf16x2 | fmulBf16x2 | fminF16x2 | fmaxF16x2 =>
    cases h; exact ⟨_, gives2_of_fop2 (fun _ _ => rfl) hexec⟩
  | iabs | popc | clz | ctz | brev | fabs | fneg | cvtF32S32 | cvtF32N32 | movh => cases h; exact ⟨_, gives1_of_op1 (fun _ => rfl) hexec⟩
  | iaddi | iandi | iori | ixori | ishli | ishri | israi | icmpiLt => cases h; exact gives_of_opImm hexec
  | fsqrt | frcp | frsqrt | fexp2 | flog2 | fsinpi | fcospi | ftanh | frnd | cvtS32F32 | cvtN32F32 | frint =>
    cases h; exact ⟨_, gives1_of_fop1 (fun _ => rfl) hexec⟩
  | cvtF32F16 | cvtF32Bf16 | upkE4m3 | upkE5m2 | upkF8d => cases h; exact ⟨_, gives1_of_unpack hexec⟩
  | pkF16 | pkBf16 | pkE4m3 | pkE5m2 | pkF8d | cvtE8m0 => cases h; exact ⟨_, gives1d_of_pack hexec⟩
  | ffma | sel | imad => cases h; exact ⟨_, gives3_of_op3 (fun _ _ _ => rfl) hexec⟩
  | bfi | idp4S8 | idp4N8 => cases h; exact ⟨_, gives2d_of_op2d (fun _ _ _ => rfl) hexec⟩
  | ffmaF16x2 | ffmaBf16x2 | fdot2Bf16 => cases h; exact ⟨_, gives2d_of_facc (fun _ _ _ => rfl) hexec⟩
  | add64 | sub64 => cases h; exact ⟨_, gives2w_of_op2w (fun _ _ => rfl) hexec⟩
  | mulwS32 | mulwN32 => cases h; exact ⟨_, gives2p_of_op2p (fun _ _ => rfl) hexec⟩
  | shl64 | shr64 | sra64 => cases h; exact ⟨_, gives_of_opShift64 (fun _ _ => rfl) hexec⟩
  | ceq64 | clt64S | clt64N => cases h; exact ⟨_, gives_of_cmp64 (fun _ _ => rfl) hexec⟩
  | pkE2m1 | upkE2m1 | movi => cases h; exact ⟨_, lanewise_gives _ _ _ _ hexec⟩
  | lxActive | lxLead => cases h; exact gives_of_xln0 hexec
  | lxAny | lxAll | lxMask | lxFirst | lxSumS32 | lxMinS32 | lxMaxS32 | lxFsum | lxPrefixS32 | lxSame =>
    cases h; exact gives_of_xln1 hexec
  | lxPick | lxShift | lxRot | lxSwap => cases h; exact gives_of_xlnPick hexec
  | idivS32 x y z => exact absurd rfl (hdiv x y z).1
  | idivN32 x y z => exact absurd rfl (hdiv x y z).2.1
  | iremS32 x y z => exact absurd rfl (hdiv x y z).2.2.1
  | iremN32 x y z => exact absurd rfl (hdiv x y z).2.2.2
  | _ => cases h

/-- A division whose zero divisors do not trap gives its result in every lane. -/
theorem wrote_of_divides {i : Instr} {d a b : Sel} {f : Word → Word → Word} (h : divides i d a b f) {s t : State} {sid : Nat} {p q : RunPath}
    {rest : List Run} {vals : NMap (List Word64)} (hi : issues s sid p rest) (hdzt : (s.str sid).csr.dzt = false)
    (hr : ready (begun s rest) sid p [(a, 1), (b, 1)] [(d, 1)] = some (q, t, vals)) :
    exec i s = .next (wrote t sid q (d, 1) fun l => (f (x32 vals l 0) (x32 vals l 1)).setWidth 64) := by
  obtain ⟨hq, ht⟩ := touched_ready hr
  have hlanes : q.lanes = p.lanes := by rw [hq]
  have hcsr : (t.str sid).csr.dzt = false := by rw [ht.str sid]; exact hdzt
  rw [h s sid p rest q t vals hi hr]
  simp [wrote, hcsr, hlanes, splitOff_none]

/-- A form of R137 or R177 none of whose lanes trap ends with a result in every lane. -/
theorem exec_wrote {i : Instr} {srcs : List Opd} {d : Opd} (hshape : shape i = some (srcs, d)) {s t : State} {sid : Nat} {p q : RunPath}
    {rest : List Run} {vals : NMap (List Word64)} (hi : issues s sid p rest)
    (hdzt : (s.str sid).csr.dzt = false ∨ ∀ x y z, i ≠ .idivS32 x y z ∧ i ≠ .idivN32 x y z ∧ i ≠ .iremS32 x y z ∧ i ≠ .iremN32 x y z)
    (hr : ready (begun s rest) sid p srcs [d] = some (q, t, vals)) : ∃ res, exec i s = .next (wrote t sid q d res) := by
  by_cases hdiv : ∀ x y z, i ≠ .idivS32 x y z ∧ i ≠ .idivN32 x y z ∧ i ≠ .iremS32 x y z ∧ i ≠ .iremN32 x y z
  · obtain ⟨g, hg⟩ := gives_of_shape hshape hdiv
    exact ⟨_, hg s sid p rest q t vals hi hr⟩
  · have hclear := hdzt.resolve_right hdiv
    have hforms (x y z : Sel) := divisionResultsAndTraps x y z
    simp only [not_forall, not_and_or, ne_eq, not_not] at hdiv
    obtain ⟨x, y, z, rfl | rfl | rfl | rfl⟩ := hdiv <;> cases hshape
    · exact ⟨_, wrote_of_divides (hforms x y z).1 hi hclear hr⟩
    · exact ⟨_, wrote_of_divides (hforms x y z).2.1 hi hclear hr⟩
    · exact ⟨_, wrote_of_divides (hforms x y z).2.2.1 hi hclear hr⟩
    · exact ⟨_, wrote_of_divides (hforms x y z).2.2.2 hi hclear hr⟩

/-- A destination has one register or two. -/
theorem shape_dst {i : Instr} {srcs : List Opd} {d : Opd} (h : shape i = some (srcs, d)) : d.2 = 1 ∨ d.2 = 2 := by
  simp only [shape] at h
  split at h <;> cases h <;> simp

end Sys2Proof.Machine
end

section
/-! PROOFS. The frame of the register forms (R137, R22, R26, R27): a form of R137 or R177 writes its destination and `lr`, and
nothing else of the machine changes. -/

namespace Sys2Proof.Machine

open Sys2Proof.Claim

/-! The registers of a destination. -/

/-- The word of a result that goes to the register `k` places into a destination. -/
def wordOf (v : Word64) (k : Nat) : Word := if k = 0 then v.setWidth 32 else (v >>> 32).setWidth 32

/-- What the result of each lane writes to the registers of a destination. -/
def Strand.resultWrites (st : Strand) (lanes : List Nat) (d : Opd) (res : Nat → Word64) : List (RegLoc × Word) :=
  lanes.flatMap fun l => st.dstWrites l d.1 (if d.2 ≤ 1 then [(res l).setWidth 32] else [(res l).setWidth 32, (res l >>> 32).setWidth 32])

theorem mem_dstWrites (st : Strand) (l : Nat) (sel : Sel) (vs : List Word) (w : RegLoc × Word) :
    w ∈ st.dstWrites l sel vs ↔ ∃ k, vs[k]? = some w.2 ∧ st.loc l sel k = some w.1 := by
  obtain ⟨r, v⟩ := w
  simp only [Strand.dstWrites, List.mem_filterMap, Prod.exists, List.mk_mem_zipIdx_iff_getElem?, Option.map_eq_some_iff]
  constructor
  · rintro ⟨v', k, hv, r', hr, heq⟩
    cases heq
    exact ⟨k, hv, hr⟩
  · rintro ⟨k, hv, hr⟩
    exact ⟨v, k, hv, r, hr, rfl⟩

theorem mem_resultWrites {st : Strand} {lanes : List Nat} {d : Opd} {res : Nat → Word64} (hd : d.2 = 1 ∨ d.2 = 2) (w : RegLoc × Word) :
    w ∈ st.resultWrites lanes d res ↔ ∃ l ∈ lanes, ∃ k < d.2, st.loc l d.1 k = some w.1 ∧ w.2 = wordOf (res l) k := by
  have hword (v : Word64) (k : Nat) (x : Word) :
      (if d.2 ≤ 1 then [v.setWidth 32] else [v.setWidth 32, (v >>> 32).setWidth 32])[k]? = some x ↔ k < d.2 ∧ x = wordOf v k := by
    rcases hd with h | h <;> rw [h] <;> rcases k with _ | _ | k <;> simp [wordOf, eq_comm]
  simp only [Strand.resultWrites, List.mem_flatMap, mem_dstWrites, hword]
  exact exists_congr fun l => and_congr_right fun _ => exists_congr fun k => by tauto

theorem loc_eq_some {st : Strand} {l k : Nat} {sel : Sel} {r : RegLoc} (h : st.loc l sel k = some r) :
    (∃ n : Fin 64, sel = .v n ∧ (st.th l).wb + (n.val + k) < st.frameSize ∧ r = ⟨st.frame.uid, (st.th l).wb + (n.val + k), l⟩) ∨
    ∃ n : Fin 8, sel = .o n ∧ r = ⟨0, n.val + k, l⟩ := by
  cases sel with
  | v n =>
    simp only [Strand.loc, Strand.winLoc, Option.ite_none_right_eq_some, Option.some.injEq] at h
    exact .inl ⟨n, rfl, h.1, h.2.symm⟩
  | o n =>
    simp only [Strand.loc, Option.ite_none_right_eq_some, Option.some.injEq] at h
    exact .inr ⟨n, rfl, h.2.symm⟩
  | _ => cases h

theorem loc_lane {st : Strand} {l k : Nat} {sel : Sel} {r : RegLoc} (h : st.loc l sel k = some r) : r.lane = l := by
  rcases loc_eq_some h with ⟨n, -, -, rfl⟩ | ⟨n, -, rfl⟩ <;> rfl

/-- The registers of a run in one lane are distinct. -/
theorem loc_place {st : Strand} {l k k' : Nat} {sel : Sel} {r : RegLoc} (h : st.loc l sel k = some r) (h' : st.loc l sel k' = some r) :
    k = k' := by
  rcases loc_eq_some h with ⟨n, rfl, -, rfl⟩ | ⟨n, rfl, rfl⟩ <;> rcases loc_eq_some h' with ⟨n', hn, -, hr⟩ | ⟨n', hn, hr⟩ <;>
    cases hn <;> simp at hr <;> omega

/-- A register beyond the operand file is one of the current frame. -/
theorem frameOf_current {st : Strand} (h : 0 < st.frameSize) : st.frame.uid ≠ 0 ∧ (st.frameOf st.frame.uid).isSome = true := by
  have huid : st.frame.uid ≠ 0 := fun h0 => by simp [Strand.frameSize, h0] at h
  refine ⟨huid, ?_⟩
  cases hf : st.frames with
  | nil => exact absurd (by rw [Strand.frame, hf]; rfl) huid
  | cons f fs => simp [Strand.frameOf, Strand.frame, hf]

theorem lives_of_loc {st : Strand} {l k : Nat} {sel : Sel} {r : RegLoc} (h : st.loc l sel k = some r) (hl : nhas st.lanes l = true) :
    st.lives r := by
  rcases loc_eq_some h with ⟨n, -, hsize, rfl⟩ | ⟨n, -, rfl⟩
  · obtain ⟨huid, hframe⟩ := frameOf_current (Nat.zero_lt_of_lt hsize)
    rw [Strand.lives, if_neg huid]
    exact hframe
  · exact (if_pos rfl).mpr hl

theorem writeDst_eq {s : State} {sid : Nat} {d : Opd} (lanes : List Nat) (res : Nat → Word64)
    (hpush : pushOf [d] = none) (hmx : (s.coreOf sid).mx = []) (hunread : (s.str sid).unread = []) :
    s.writeDst sid d (lanes.map fun l => (l, res l)) = s.regWrites sid ((s.str sid).resultWrites lanes d res) := by
  have hregs : s.writeDst sid d (lanes.map fun l => (l, res l)) = s.regPuts sid ((s.str sid).resultWrites lanes d res) := by
    obtain ⟨sel, n⟩ := d
    cases sel with
    | q k => cases hpush
    | _ => exact congrArg (s.regPuts sid) (List.flatMap_map ..)
  have hwrote := wrote_regWrites sid ((s.str sid).resultWrites lanes d res) s
  obtain ⟨loads, hstr⟩ := hwrote.str sid
  have hcore : ((s.regWrites sid ((s.str sid).resultWrites lanes d res)).coreOf sid).mx = [] := by
    rw [State.coreOf, hstr, State.core, regWrites_frame]
    exact hmx
  rw [hregs, State.regPuts, mxTouch_idle hcore (by rw [hstr]; exact hunread)]

/-! `lr` (R27). -/

theorem nget_map_keys {α : Type} (ls : List Nat) (f : Nat → α) (j : Nat) :
    nget (ls.map fun l => (l, f l)) j = if j ∈ ls then some (f j) else none := by
  induction ls with
  | nil => rfl
  | cons l ls ih =>
    rw [List.map_cons, nget, ih]
    by_cases h : l = j
    · simp [h]
    · simp [h, Ne.symm h]

theorem th_setLr_mem {st : Strand} {l : Nat} (f : Nat → Word64) {ls : List Nat} (hl : l ∈ ls) (hn : nhas st.lanes l = true) :
    (st.setLr (ls.map fun l => (l, f l))).th l = { st.th l with lr := f l } := by
  obtain ⟨t, ht⟩ := Option.isSome_iff_exists.1 hn
  simp [Strand.th, nget_setLr, nget_map_keys, hl, ht]

theorem th_setLr_not_mem {st : Strand} {l : Nat} (f : Nat → Word64) {ls : List Nat} (hl : l ∉ ls) :
    (st.setLr (ls.map fun l => (l, f l))).th l = st.th l := by
  simp [Strand.th, nget_setLr, nget_map_keys, hl]

theorem th_setLr (st : Strand) (vals : NMap Word64) (l : Nat) : (st.setLr vals).th l = { st.th l with lr := ((st.setLr vals).th l).lr } := by
  simp only [Strand.th, nget_setLr]
  cases nget st.lanes l with
  | none => rfl
  | some t => cases nget vals l <;> rfl

theorem peek_setLr (st : Strand) (vals : NMap Word64) (r : RegLoc) : (st.setLr vals).peek r = st.peek r := by
  rw [Strand.peek, th_setLr]
  rfl

/-! Past the word (R89). -/

theorem advance_midClause {s : State} {sid : Nat} {p : RunPath} (hs : nhas s.strands sid = true) (h : midClause s sid p) :
    s.advance sid p = { s with runs := ⟨sid, nextWord p⟩ :: s.runs } := by
  obtain ⟨hpos, hlanes, hmark⟩ := h
  have hwait : (p.marked && (s.str sid).switchHeld) = false := by rcases hmark with h | h <;> simp [h]
  have hgoes : (!nhas s.strands sid || p.lanes.isEmpty) = false := by simpa [hs] using hlanes
  simp only [State.advance, State.advanceHi, hgoes, hwait, hpos, Bool.false_eq_true, if_false, if_true]
  rfl

theorem Written.switchHeld {ws : List (RegLoc × Word)} {st u : Strand} (h : Written ws st u) : u.switchHeld = st.switchHeld := by
  have hwaits : u.waits = st.waits := by rw [h.rest]
  have hsoft : u.fl.soft = st.fl.soft := by rw [h.rest]
  have hbad : u.fl.hostBad = st.fl.hostBad := by rw [h.rest]
  simp only [Strand.switchHeld, Strand.pending, h.noLoads, hwaits, hsoft, hbad]

/-! A result written inside a clause. -/

/-- Without ports, soft errors and matrix operations the operand phase of a word within its frame passes and changes nothing. -/
theorem ready_registers {s : State} {sid : Nat} {p : RunPath} {srcs dsts : List Opd} (hin : outside s sid p (srcs ++ dsts) = false)
    (hpops : popsOf srcs = []) (hpush : pushOf dsts = none) (hsoft : (s.str sid).softRegs = []) (hmx : (s.coreOf sid).mx = [])
    (hunread : (s.str sid).unread = []) : ready s sid p srcs dsts = some (p, s, s.srcVals sid [] p.lanes srcs) := by
  simp [ready, hin, hpops, hpush, softLanes_none hsoft, touchSrcs_idle hmx hunread]

/-- The registers that a word writes are of lanes of the strand, and no register is written with two values. -/
theorem resultWrites_distinct {st : Strand} {p : RunPath} {d : Opd} (res : Nat → Word64) (hd : d.2 = 1 ∨ d.2 = 2) :
    ∀ w ∈ st.resultWrites p.lanes d res, ∀ w' ∈ st.resultWrites p.lanes d res, w.1 = w'.1 → w.2 = w'.2 := by
  intro w hw w' hw' hreg
  obtain ⟨l, -, k, -, hloc, hval⟩ := (mem_resultWrites hd w).1 hw
  obtain ⟨l', -, k', -, hloc', hval'⟩ := (mem_resultWrites hd w').1 hw'
  obtain rfl : l = l' := by rw [← loc_lane hloc, ← loc_lane hloc', hreg]
  obtain rfl : k = k' := loc_place hloc (hreg ▸ hloc')
  rw [hval, hval']

section
variable {s : State} {sid : Nat} {p : RunPath} {d : Opd}

/-- The values that `lr` takes (R27). -/
def lrOf (d : Opd) (v : Word64) : Word64 := if d.2 ≤ 1 then (v.setWidth 32).setWidth 64 else v

theorem written_result (res : Nat → Word64) (hs : nhas s.strands sid = true) (hd : d.2 = 1 ∨ d.2 = 2) (hlanes : lanesOk p) :
    Written ((s.str sid).resultWrites p.lanes d res) (s.str sid)
      ((s.regWrites sid ((s.str sid).resultWrites p.lanes d res)).str sid) :=
  written_regWrites hs fun w hw => by
    obtain ⟨l, hl, k, -, hloc, -⟩ := (mem_resultWrites hd w).1 hw
    rw [loc_lane hloc]
    exact hlanes.2.2 l hl

/-- A form's end inside its clause: the destination and `lr` are written, and the path stands at its next word. -/
theorem wrote_eq (res : Nat → Word64) (hs : nhas s.strands sid = true) (hd : d.2 = 1 ∨ d.2 = 2) (hlanes : lanesOk p)
    (hmid : midClause s sid p) (hpush : pushOf [d] = none) (hmx : (s.coreOf sid).mx = []) (hunread : (s.str sid).unread = []) :
    wrote s sid p d res = { (s.regWrites sid ((s.str sid).resultWrites p.lanes d res)).modStr sid
      (·.setLr (p.lanes.map fun l => (l, lrOf d (res l)))) with runs := ⟨sid, nextWord p⟩ :: s.runs } := by
  have hwritten := written_result res hs hd hlanes
  have hhas : nhas (s.regWrites sid ((s.str sid).resultWrites p.lanes d res)).strands sid = true := by
    rw [(wrote_regWrites sid _ s).has, hs]
  obtain ⟨hpos, hne, hmark⟩ := hmid
  rw [wrote, writeDst_eq p.lanes res hpush hmx hunread, advance_midClause (by rw [nhas_modStr, hhas])
    ⟨hpos, hne, hmark.imp_right fun h => by
      rw [str_modStr_same hhas]
      exact hwritten.switchHeld.trans h⟩]
  rw [State.modStr_runs, regWrites_frame]
  rfl

/-- What such an end leaves: the strand with its registers and `lr` written, and the rest of the machine. -/
theorem wrote_frame (res : Nat → Word64) (hs : nhas s.strands sid = true) (hd : d.2 = 1 ∨ d.2 = 2) (hlanes : lanesOk p)
    (hmid : midClause s sid p) (hpush : pushOf [d] = none) (hmx : (s.coreOf sid).mx = []) (hunread : (s.str sid).unread = []) :
    (wrote s sid p d res).runs = ⟨sid, nextWord p⟩ :: s.runs ∧
    wrote s sid p d res = { s with runs := (wrote s sid p d res).runs, strands := (wrote s sid p d res).strands } ∧
    (∀ j, j ≠ sid → (wrote s sid p d res).str j = s.str j) ∧
    ∃ t, Written ((s.str sid).resultWrites p.lanes d res) (s.str sid) t ∧
      (wrote s sid p d res).str sid = t.setLr (p.lanes.map fun l => (l, lrOf d (res l))) := by
  rw [wrote_eq res hs hd hlanes hmid hpush hmx hunread]
  refine ⟨rfl, ?_, fun j hj => ?_, _, written_result res hs hd hlanes, ?_⟩
  · rw [regWrites_frame]
    rfl
  · exact (str_modStr_other hj _).trans (regWrites_other s sid j _ hj)
  · exact str_modStr_same (by rw [(wrote_regWrites sid _ s).has, hs]) _

end

/-- Settles O10: a form ends with a result in every lane; its writes and those of `lr` leave what they do not name. -/
theorem registerFormsFrame : Obligations.RegisterFormsFrame := by
  intro i srcs d s sid p rest hshape hi hlanes hmid hmx hunread hsoft hdzt hin hpops hpush _
  have hd := shape_dst hshape
  obtain ⟨res, hexec⟩ := exec_wrote hshape hi hdzt (ready_registers (s := begun s rest) hin hpops hpush hsoft hmx hunread)
  obtain ⟨hruns, hrest, hother, t, hwritten, hstr⟩ := wrote_frame (s := begun s rest) res hi.2 hd hlanes hmid hpush hmx hunread
  generalize wrote (begun s rest) sid p d res = u at hexec hruns hrest hother hstr
  have hmem (w : RegLoc × Word) := mem_resultWrites (st := s.str sid) (lanes := p.lanes) (res := res) hd w
  have hth (l : Nat) : (u.str sid).th l = { (s.str sid).th l with o := ((u.str sid).th l).o, lr := ((u.str sid).th l).lr } := by
    rw [hstr, th_setLr, hwritten.th]
    rfl
  have hpeek (r : RegLoc) : (u.str sid).peek r = t.peek r := by rw [hstr, peek_setLr]
  have hlr (l : Nat) (hl : l ∈ p.lanes) (hn : nhas (s.str sid).lanes l = true) : ((u.str sid).th l).lr = lrOf d (res l) := by
    rw [hstr, th_setLr_mem (fun l => lrOf d (res l)) hl (by rw [hwritten.has]; exact hn)]
  have hreg (l : Nat) (hl : l ∈ p.lanes) (k : Nat) (hk : k < d.2) (r : RegLoc) (hn : nhas (s.str sid).lanes l = true)
      (hloc : (s.str sid).loc l d.1 k = some r) : (u.str sid).peek r = wordOf (res l) k := by
    rw [hpeek]
    exact hwritten.put (resultWrites_distinct res hd) (r, wordOf (res l) k) ((hmem _).2 ⟨l, hl, k, hk, hloc, rfl⟩) (lives_of_loc hloc hn)
  have hkept (r : RegLoc) (hr : r.lane < 32) (hnot : ¬isDst (s.str sid) p d r) : (u.str sid).peek r = (s.str sid).peek r := by
    rw [hpeek]
    refine hwritten.other r hr fun w hw hwr => hnot ?_
    obtain ⟨l, hl, k, hk, hloc, -⟩ := (hmem w).1 hw
    exact ⟨l, hl, k, hk, hwr ▸ hloc⟩
  have hlane (l : Nat) (hl : l ∉ p.lanes) : (u.str sid).th l = (s.str sid).th l := by
    rw [hstr, th_setLr_not_mem _ hl]
    refine hwritten.thOther l fun w hw hwl => hl ?_
    obtain ⟨l', hl', k, -, hloc, -⟩ := (hmem w).1 hw
    rwa [← hwl, loc_lane hloc]
  have hfields : (u.str sid).csr = t.csr ∧ (u.str sid).ports = t.ports ∧ (u.str sid).waits = t.waits := by
    rw [hstr]
    exact ⟨rfl, rfl, rfl⟩
  refine ⟨u, hexec, hruns, ⟨res, hlr, hreg⟩, hkept, hlane, fun l => ?_, ?_, ?_, ?_, hother, fun a => ?_, hrest⟩
  · rw [hth l]
    exact ⟨rfl, rfl, rfl, rfl⟩
  · rw [hfields.1, hwritten.rest]
    rfl
  · rw [hfields.2.1, hwritten.rest]
    rfl
  · rw [hfields.2.2, hwritten.rest]
    rfl
  · rw [hrest]
    rfl

end Sys2Proof.Machine
end

section
/-! PROOFS. Branches, jumps, calls and returns whose targets pass (R166, R169), and the values a path's lanes have of a source. -/

namespace Sys2Proof.Machine

open Sys2Proof.Claim

/-! The values of the active lanes. -/

/-- Source values of these lanes, in their order. -/
def HasLanes (lanes : List Nat) (vals : NMap (List Word64)) : Prop := vals = lanes.map fun l => (l, (nget vals l).getD [])

theorem hasLanes_map (lanes : List Nat) (f : Nat → List Word64) : HasLanes lanes (lanes.map fun l => (l, f l)) :=
  List.map_congr_left fun l hl => by rw [nget_map_keys, if_pos hl, Option.getD_some]

/-- An operand phase that passes gives each active lane its source values. -/
theorem hasLanes_ready {s t : State} {sid : Nat} {p q : RunPath} {srcs dsts : List Opd} {vals : NMap (List Word64)}
    (h : ready s sid p srcs dsts = some (q, t, vals)) : HasLanes p.lanes vals := by
  simp only [ready] at h
  split at h
  · cases h
  · split at h
    · cases h
      exact hasLanes_map _ _
    · split at h
      · cases h
        exact hasLanes_map _ _
      · cases h

theorem HasLanes.any {lanes : List Nat} {vals : NMap (List Word64)} (h : HasLanes lanes vals) (f : Word → Bool) :
    (vals.any fun x => f (arg32 x.2 0)) = lanes.any fun j => f (x32 vals j 0) := by
  conv_lhs => rw [h]
  exact List.any_map

theorem HasLanes.all {lanes : List Nat} {vals : NMap (List Word64)} (h : HasLanes lanes vals) (f : Word → Bool) :
    (vals.all fun x => f (arg32 x.2 0)) = lanes.all fun j => f (x32 vals j 0) := by
  conv_lhs => rw [h]
  exact List.all_map

/-! A transfer all of whose targets pass. -/

theorem brTarget_eq (p : RunPath) (off : BitVec 17) : p.brTarget off = brTo p off := by
  rw [RunPath.brTarget, brTo, BitVec.ofInt_mul]
  rfl

section
variable {t u : State} {sid : Nat} {p : RunPath} {tmap : Bool} {want : List (Nat × Word64)}

theorem nhas_of_passes (hcheck : t.checkTargets sid tmap want = (want, [], u)) (hs : nhas t.strands sid = true) :
    nhas u.strands sid = true := by
  have h := nhas_checkTargets sid sid tmap want t
  rw [hcheck] at h
  exact h.trans hs

/-- The lanes that want to go get their link; then they leave, and the path's other lanes go to the clause's end. -/
theorem transfer_passes {link : Option Sel} (hcheck : t.checkTargets sid tmap want = (want, [], u)) (hs : nhas t.strands sid = true)
    (hlanes : p.lanes ≠ []) : t.transfer sid p tmap link want =
      leaves (link.elim u fun d => u.writeDst sid (d, 2) (want.map fun x => (x.1, p.nxt))) sid p want
        (lessNat p.lanes (want.map (·.1))) := by
  have hu := nhas_of_passes hcheck hs
  have hlinked (d : Sel) : nhas (u.writeDst sid (d, 2) (want.map fun x => (x.1, p.nxt))).strands sid = true :=
    ((wrote_writeDst u sid (d, 2) _).has sid).trans hu
  simp only [State.transfer, hcheck, List.map_nil, lessNat_nil, State.unpopHeld, List.filter_nil, List.isEmpty_nil, if_true,
    State.trapAt, trap_none, List.isEmpty_eq_false_iff.2 hlanes, Bool.not_false, Bool.and_true, leaves, ← Bool.and_eq_true]
  cases link with
  | none => rw [hu]; rfl
  | some d => simp only [hlinked d]; rfl

end

/-! The forms. -/

section
variable {i : Instr} {a : Sel} {off : BitVec 17}

/-- The lanes of a path with the lanes that go taken away. -/
theorem lessNat_pairs (lanes go : List Nat) (f : Nat → Word64) :
    lessNat lanes ((go.map fun l => (l, f l)).map (·.1)) = lanes.filter fun l => !go.contains l := by
  simp [lessNat, Function.comp_def]

/-- Where all of a path goes, none is left for the clause's end. -/
theorem lessNat_self (lanes : List Nat) (f : Nat → Word64) : lessNat lanes ((lanes.map fun l => (l, f l)).map (·.1)) = [] := by
  simp [lessNat, Function.comp_def]

/-- A conditional branch goes by its condition on the values of the active lanes. -/
theorem branches_of_branch {go : NMap (List Word64) → Nat → Bool} {take : (Nat → Word) → RunPath → Nat → Bool}
    (hgo : ∀ p vals l, HasLanes p.lanes vals → go vals l = take (fun j => x32 vals j 0) p l)
    (h : ∀ s, exec i s = branch go a off s) : branches i a off take := by
  intro s sid p rest q t u vals hi hr hlanes taken hcheck
  obtain ⟨hq, ht⟩ := touched_ready hr
  have hqlanes : q.lanes = p.lanes := by rw [hq]
  have hto : q.brTarget off = brTo p off := by rw [hq]; exact brTarget_eq p off
  have htaken : p.lanes.filter (go vals) = taken := List.filter_congr fun l _ => hgo p vals l (hasLanes_ready hr)
  have hs : nhas t.strands sid = true := (ht.has sid).trans hi.2
  refine ⟨nhas_of_passes hcheck hs, ?_⟩
  rw [h, branch, onPath_issues hi, State.operands, operands_ready _ hr]
  simp only [hqlanes, hto, htaken]
  rw [transfer_passes hcheck hs (hqlanes ▸ hlanes.1), hqlanes, lessNat_pairs]
  rfl

/-- A jump takes each lane to its own address, with its link. -/
theorem jumps_of_jump {tmap : Bool} {link : Option Sel} (h : ∀ s, exec i s = jump tmap link a s) : jumps i a tmap link := by
  intro s sid p rest q t u vals hi hr hlanes want hcheck
  obtain ⟨hq, ht⟩ := touched_ready hr
  have hqlanes : q.lanes = p.lanes := by rw [hq]
  have hnxt : q.nxt = p.nxt := by rw [hq]
  rw [h, jump, onPath_issues hi, State.operands, operands_ready _ hr]
  simp only [hqlanes]
  refine congrArg Host.Outcome.next ((transfer_passes hcheck ((ht.has sid).trans hi.2) (hqlanes ▸ hlanes.1)).trans ?_)
  rw [hqlanes, hnxt, lessNat_self, List.map_map]
  cases link <;> rfl

/-- An unconditional branch takes all of the path to its target. -/
theorem bra_leaves {s u : State} {sid : Nat} {p : RunPath} {rest : List Run} (hi : issues s sid p rest) (hlanes : lanesOk p)
    (hcheck : (begun s rest).checkTargets sid true (p.lanes.map fun l => (l, brTo p off)) = (p.lanes.map fun l => (l, brTo p off), [], u)) :
    exec (.bra off) s = .next (leaves u sid p (p.lanes.map fun l => (l, brTo p off)) []) := by
  have hexec : exec (.bra off) s = execBra off s := rfl
  rw [hexec, execBra, onPath_issues hi, brTarget_eq, transfer_passes hcheck hi.2 hlanes.1, lessNat_self]
  rfl

/-- A call takes all of the path to its target and writes the clause's successor as the link. -/
theorem call_leaves {s t u : State} {sid : Nat} {p q : RunPath} {rest : List Run} {vals : NMap (List Word64)} (hi : issues s sid p rest)
    (hr : ready (begun s rest) sid p [] [(a, 2)] = some (q, t, vals)) (hlanes : lanesOk p)
    (hcheck : t.checkTargets sid true (p.lanes.map fun l => (l, brTo p off)) = (p.lanes.map fun l => (l, brTo p off), [], u)) :
    exec (.call a off) s = .next (leaves (u.writeDst sid (a, 2) (p.lanes.map fun l => (l, p.nxt))) sid q
      (p.lanes.map fun l => (l, brTo p off)) []) := by
  have hexec : exec (.call a off) s = execCall a off s := rfl
  obtain ⟨hq, ht⟩ := touched_ready hr
  have hqlanes : q.lanes = p.lanes := by rw [hq]
  have hnxt : q.nxt = p.nxt := by rw [hq]
  have hto : q.brTarget off = brTo p off := by rw [hq]; exact brTarget_eq p off
  rw [hexec, execCall, onPath_issues hi, State.operands, operands_ready _ hr]
  simp only [hqlanes, hto]
  rw [transfer_passes hcheck ((ht.has sid).trans hi.2) (hqlanes ▸ hlanes.1), hqlanes, hnxt, lessNat_self, List.map_map]
  rfl

end

/-- The sign of a word is that of the integer it stands for. -/
theorem msb_eq_decide_neg (x : Word) : x.msb = decide (sInt x < 0) := BitVec.msb_eq_toInt

theorem not_msb_eq_decide (x : Word) : (!x.msb) = decide (0 ≤ sInt x) := by
  rw [msb_eq_decide_neg, ← decide_not, decide_eq_decide, not_lt]

theorem branchResults : BranchResults := fun _ _ =>
  ⟨fun _ _ _ _ _ => bra_leaves,
   branches_of_branch (fun _ _ _ _ => rfl) fun _ => rfl,
   branches_of_branch (fun _ _ _ _ => rfl) fun _ => rfl,
   branches_of_branch (fun _ _ _ _ => msb_eq_decide_neg _) fun _ => rfl,
   branches_of_branch (fun _ _ _ _ => not_msb_eq_decide _) fun _ => rfl,
   branches_of_branch (fun _ _ _ hv => hv.any (· != 0)) fun _ => rfl,
   branches_of_branch (fun _ _ _ hv => hv.all (· != 0)) fun _ => rfl⟩

theorem callJumpReturnResults : CallJumpReturnResults := fun _ _ _ =>
  ⟨fun _ _ _ _ _ _ _ _ hi hr hlanes => call_leaves hi hr hlanes,
   jumps_of_jump fun _ => rfl, jumps_of_jump fun _ => rfl, jumps_of_jump fun _ => rfl⟩

/-- Settles O14: a transfer's targets pass, so that its lanes leave; which lanes go is each form's condition. -/
theorem branchesCallsReturns : Obligations.BranchesCallsReturns := ⟨branchResults, callJumpReturnResults⟩

end Sys2Proof.Machine
end

section
/-! PROOFS. The cross-lane forms (R64, R177): each combines the values of the active lanes, in the order of the lanes. -/

namespace Sys2Proof.Machine

open Sys2Proof.Claim

/-! The kinds of forms. -/

section
variable {i : Instr} {d a b : Sel}

/-- A permuting form reads its source in the lane that its rule names, where that lane is active, and else in its own. -/
theorem permutes_of_xlnPick {j k : Nat → Word → Int} (h : ∀ s, exec i s = xlnPick j d a b s) (hjk : ∀ l y, j l y = k l y) :
    permutes i d a b k := by
  obtain rfl : j = k := funext fun l => funext (hjk l)
  have hpick (v : NMap (List Word64)) (p : RunPath) (l : Nat) :
      (let k := j l (x32 v l 1); if 0 ≤ k ∧ k < 32 ∧ p.lanes.contains k.toNat then x32 v k.toNat 0 else x32 v l 0) =
      x32 v (let k := j l (x32 v l 1); if 0 ≤ k ∧ k ≤ 31 ∧ k.toNat ∈ p.lanes then k.toNat else l) 0 := by
    dsimp only
    rw [apply_ite (x32 v · 0)]
    exact if_congr (and_congr_right fun _ => and_congr (Int.lt_add_one_iff (b := 31)) List.contains_iff_mem) rfl rfl
  simp only [permutes, ← hpick]
  have hgives := gives_of_compute (srcs := [(a, 1), (b, 1)]) (d := (d, 1)) (fun ls v l => (let k := j l (x32 v l 1)
    if 0 ≤ k ∧ k < 32 ∧ ls.contains k.toNat then x32 v k.toNat 0 else x32 v l 0).setWidth 64) (by exact h)
  exact hgives

theorem wrote_congr {s : State} {sid : Nat} {p : RunPath} {e : Opd} {f g : Nat → Word64} (h : ∀ l ∈ p.lanes, f l = g l) :
    wrote s sid p e f = wrote s sid p e g := by
  have hres : (p.lanes.map fun l => (l, f l)) = p.lanes.map fun l => (l, g l) := List.map_congr_left fun l hl => by rw [h l hl]
  have hlr : (p.lanes.map fun l => (l, if e.2 ≤ 1 then ((f l).setWidth 32).setWidth 64 else f l)) =
      p.lanes.map fun l => (l, if e.2 ≤ 1 then ((g l).setWidth 32).setWidth 64 else g l) :=
    List.map_congr_left fun l hl => by rw [h l hl]
  rw [wrote, hres, hlr, wrote]

/-- A form with one source combines its values in the active lanes. -/
theorem gathersOk_of_xln1 {F : LaneVals → Nat → Word} {f : (Nat → Word) → RunPath → Nat → Word}
    (h : ∀ s, exec i s = xln1 F d a s)
    (hf : ∀ (x : Nat → Word) p, lanesOk p → ∀ l ∈ p.lanes, F (p.lanes.map fun j => (j, x j)) l = f x p l) : gathersOk i d a f := by
  intro s sid p rest q t vals hlanes hi hr
  obtain ⟨hq, -⟩ := touched_ready hr
  have hqlanes : q.lanes = p.lanes := by rw [hq]
  have hvals : (vals.map fun x => (x.1, arg32 x.2 0)) = p.lanes.map fun j => (j, x32 vals j 0) := by
    conv_lhs => rw [hasLanes_ready hr]
    exact List.map_map
  have hgives := gives_of_compute (srcs := [(a, 1)]) (d := (d, 1)) (fun _ v l => (F (v.map fun x => (x.1, arg32 x.2 0)) l).setWidth 64)
    (by exact h)
  refine (hgives s sid p rest q t vals hi hr).trans (congrArg Host.Outcome.next (wrote_congr fun l hl => ?_))
  dsimp only
  rw [hvals, hf (fun j => x32 vals j 0) p hlanes l (hqlanes ▸ hl)]

/-- A form without a source gives each active lane a value of its own and the path's lanes. -/
theorem gives_of_xln0_eq {F : List Nat → Nat → Word} {f : RunPath → Nat → Word} (h : ∀ s, exec i s = xln0 F d s)
    (hf : ∀ p l, F p.lanes l = f p l) : gives i [] (d, 1) fun _ p l => (f p l).setWidth 64 := by
  obtain rfl : (fun p : RunPath => F p.lanes) = f := funext fun p => funext (hf p)
  have hgives := gives_of_compute (srcs := []) (d := (d, 1)) (fun ls _ l => (F ls l).setWidth 64) (by exact h)
  exact hgives

end

/-! Masks. -/

theorem laneWord_eq_bits (ls : List Nat) : laneWord ls = bitsWhere fun j => ls.contains j := by
  have hsum : laneMask ls = (((List.range 32).filter fun j => ls.contains j).map (2 ^ ·)).sum := by
    rw [laneMask, List.sum_eq_foldl, List.foldl_map]
  rw [laneWord, hsum, bitsWhere]

section
variable (x : Nat → Word) (p : RunPath)

theorem mask_eq_maskWhere (f : Word → Bool) :
    LaneVals.mask (p.lanes.map fun j => (j, x j)) f = maskWhere p fun j => f (x j) := by
  have hlanes : (((p.lanes.map fun j => (j, x j)).filter fun y => f y.2).map (·.1)) = p.lanes.filter fun j => f (x j) := by
    simp [List.filter_map, Function.comp_def]
  rw [LaneVals.mask, hlanes, laneWord_eq_bits, maskWhere]
  refine congrArg bitsWhere (funext fun j => ?_)
  rw [Bool.eq_iff_iff]
  simp

theorem at_lanes {l : Nat} (hl : l ∈ p.lanes) : LaneVals.at (p.lanes.map fun j => (j, x j)) l = x l := by
  obtain ⟨j, hj⟩ := Option.isSome_iff_exists.1 (List.find?_isSome.2 ⟨l, hl, beq_self_eq_true l⟩ : (p.lanes.find? (· == l)).isSome = true)
  have hjl : j = l := beq_iff_eq.1 (List.find?_some (p := (· == l)) hj)
  rw [LaneVals.at, List.find?_map]
  simp only [Function.comp_def, hj, Option.map_some, Option.getD_some, hjl]

theorem first_lanes (hp : p.lanes ≠ []) : (((p.lanes.map fun j => (j, x j)).head?).map (·.2)).getD 0 = x (p.lanes.headD 0) := by
  cases h : p.lanes with
  | nil => exact absurd h hp
  | cons l ls => rfl

/-! Sums and extremes. -/

theorem sum_lanes (ls : List Nat) : (ls.map fun j => (j, x j)).foldl (fun t y => t + y.2) 0 = toS (ls.map fun j => sInt (x j)).sum := by
  rw [List.foldl_map, List.sum_eq_foldl, List.foldl_map]
  exact List.foldl_hom toS (g₁ := fun t j => t + sInt (x j)) (g₂ := fun t j => t + x j) (init := 0) fun t j => by rw [toS_add, toS_sInt]

/-- The sum over the lanes up to one of them. -/
theorem sum_lanes_upTo (l : Nat) : ((p.lanes.map fun j => (j, x j)).filter fun y => decide (y.1 ≤ l)).foldl (fun t y => t + y.2) 0 =
    toS ((p.lanes.filter (· ≤ l)).map fun j => sInt (x j)).sum := by
  rw [← sum_lanes, List.filter_map]
  rfl

/-- A choice among words that goes by the integers they stand for, over all lanes. -/
theorem choice_lanes {g : Word → Word → Word} {h : Int → Int → Int} [Std.Commutative h] [Std.Associative h]
    (hgh : ∀ m y, sInt (g m y) = h (sInt m) (sInt y)) (e : Word) :
    (p.lanes.map fun j => (j, x j)).foldl (fun m y => g m y.2) e = toS ((p.lanes.map fun j => sInt (x j)).foldr h (sInt e)) := by
  rw [← List.foldl_eq_foldr, List.foldl_map, List.foldl_map, List.foldl_hom sInt fun m j => (hgh m (x j)).symm, toS_sInt]

end

theorem sInt_min (m y : Word) : sInt (if y.slt m then y else m) = min (sInt m) (sInt y) := by
  rw [min_comm, min_def_lt, apply_ite sInt]
  exact if_congr BitVec.slt_iff_toInt_lt rfl rfl

theorem sInt_max (m y : Word) : sInt (if m.slt y then y else m) = max (sInt m) (sInt y) := by
  rw [max_def_lt, apply_ite sInt]
  exact if_congr BitVec.slt_iff_toInt_lt rfl rfl

/-! The tree sum (R64). -/

theorem roundNE_f32_lt (v : Ext) : Fmt.f32.roundNE v < 2 ^ 32 := by
  have hsigned (s : Bool) (k : Nat) (hk : k ≤ Fmt.f32.maxFin + 1) : Fmt.f32.signed s k < 2 ^ 32 :=
    Fmt.signed_lt Fmt.f32_rounds.ok s (Nat.lt_of_le_of_lt hk (by decide))
  have hmag {s : Bool} {n d c : Nat} (h : Fmt.f32.roundMag .rne s n d = some c) : c ≤ Fmt.f32.maxFin := by
    simp only [Fmt.roundMag] at h
    split at h
    · cases h; exact Nat.zero_le _
    · split at h
      · cases h; assumption
      · cases h
  cases v with
  | nan => decide
  | inf s => exact hsigned s _ le_rfl
  | fin s n d =>
    simp only [Fmt.roundNE]
    split
    · next c h => exact hsigned s c ((hmag h).trans (Nat.le_succ _))
    · exact hsigned s _ le_rfl

theorem toNat_rne (v : Ext) : (rne v).toNat = Fmt.f32.roundNE v := by
  rw [rne, BitVec.toNat_ofNat, Nat.mod_eq_of_lt (roundNE_f32_lt v)]

theorem fsumLevel_toNat (l : List Word) : fsumLevel (l.map (·.toNat)) = (treePairs l).map (·.toNat) := by
  induction l using treePairs.induct with
  | case1 x y r ih => simp only [List.map_cons, fsumLevel, treePairs, ih, toNat_rne]; rfl
  | case2 l hl =>
    match l, hl with
    | [], _ => rfl
    | [_], _ => rfl
    | x :: y :: r, hl => exact absurd rfl (hl x y r)

theorem fsumTree_toNat (k : Nat) (l : List Word) : fsumTree k (l.map (·.toNat)) = (treeSum k l).toNat := by
  induction k generalizing l with
  | zero => cases l <;> rfl
  | succ k ih => rw [fsumTree, fsumLevel_toNat, ih, treeSum]

open Classical in
theorem fsum_lanes (x : Nat → Word) (ls : List Nat) :
    BitVec.ofNat 32 (fsumCode ((ls.map fun j => (j, x j)).map (·.2.toNat))) =
      let r := treeSum ls.length (ls.map x)
      if nanF r then 0x7FC00000 else r := by
  have hcodes : (ls.map fun j => (j, x j)).map (·.2.toNat) = (ls.map x).map (·.toNat) := by simp [Function.comp_def]
  simp only [hcodes, fsumCode, fsumTree_toNat, List.length_map, apply_ite (BitVec.ofNat 32), BitVec.ofNat_toNat, BitVec.setWidth_eq]
  exact if_congr Iff.rfl rfl rfl

/-- Settles O7: a permuting form by the lane it names, the others by what each computes from the values of the active lanes. -/
theorem crossLaneResults : Obligations.CrossLaneResults := fun d a b =>
  ⟨permutes_of_xlnPick (fun s => (rfl : _ = execLxPick d a b s)) fun _ _ => rfl,
   permutes_of_xlnPick (fun s => (rfl : _ = execLxShift d a b s)) fun _ _ => rfl,
   permutes_of_xlnPick (fun s => (rfl : _ = execLxRot d a b s)) fun _ _ => rfl,
   permutes_of_xlnPick (fun s => (rfl : _ = execLxSwap d a b s)) fun _ _ => rfl,
   gathersOk_of_xln1 (fun s => (rfl : _ = execLxAny d a s)) fun _ _ _ _ _ => truth_eq_maskOf _ _ (by simp),
   gathersOk_of_xln1 (fun s => (rfl : _ = execLxAll d a s)) fun _ _ _ _ _ => truth_eq_maskOf _ _ (by simp),
   gathersOk_of_xln1 (fun s => (rfl : _ = execLxMask d a s)) fun x p _ _ _ => mask_eq_maskWhere x p _,
   gives_of_xln0_eq (fun s => (rfl : _ = execLxActive d s)) fun p _ => by simp [laneWord_eq_bits, maskWhere],
   gathersOk_of_xln1 (fun s => (rfl : _ = execLxFirst d a s)) fun x p hp _ _ => first_lanes x p hp.1,
   gathersOk_of_xln1 (fun s => (rfl : _ = execLxSumS32 d a s)) fun x p _ _ _ => sum_lanes x p.lanes,
   gathersOk_of_xln1 (fun s => (rfl : _ = execLxMinS32 d a s)) fun x p _ _ _ => choice_lanes x p sInt_min 0x7FFFFFFF,
   gathersOk_of_xln1 (fun s => (rfl : _ = execLxMaxS32 d a s)) fun x p _ _ _ => choice_lanes x p sInt_max 0x80000000,
   gathersOk_of_xln1 (fun s => (rfl : _ = execLxFsum d a s)) fun x p _ _ _ => fsum_lanes x p.lanes,
   gathersOk_of_xln1 (fun s => (rfl : _ = execLxPrefixS32 d a s)) fun x p _ l _ => sum_lanes_upTo x p l,
   gathersOk_of_xln1 (fun s => (rfl : _ = execLxSame d a s)) fun x p _ l hl => (at_lanes x p hl).symm ▸ mask_eq_maskWhere x p _,
   gives_of_xln0_eq (fun s => (rfl : _ = execLxLead d s)) fun p l => truth_eq_maskOf _ _ (beq_iff_eq.trans eq_comm)⟩

end Sys2Proof.Machine
end

section
/-! PROOFS. What the fetch of a line leaves of the strands and their matrix operations (R83, R300, R359). -/

namespace Sys2Proof.Machine

open Sys2Proof.Claim

/-- What a fetch may change: the tables' A bits, in memory or in a pending store of the strand, and what is kept of the translation and
of the line. -/
structure Fetched (s t : State) : Prop where
  rest : t = { s with mem := t.mem, strands := t.strands, cores := t.cores, xcache := t.xcache }
  has : ∀ j, nhas t.strands j = nhas s.strands j
  str : ∀ j, t.str j = { s.str j with fl := { (s.str j).fl with stores := (t.str j).fl.stores } }
  mx : ∀ j, (t.core j).mx = (s.core j).mx

theorem Fetched.refl (s : State) : Fetched s s := ⟨rfl, fun _ => rfl, fun _ => rfl, fun _ => rfl⟩

theorem Fetched.trans {s t u : State} (h : Fetched s t) (h' : Fetched t u) : Fetched s u where
  rest := by rw [h'.rest, h.rest]
  has j := (h'.has j).trans (h.has j)
  str j := by rw [h'.str j, h.str j]
  mx j := (h'.mx j).trans (h.mx j)

theorem Fetched.setMem (s : State) (m : Memory) : Fetched s (s.setMem m) := ⟨rfl, fun _ => rfl, fun _ => rfl, fun _ => rfl⟩

/-- A core that keeps its matrix tokens. -/
theorem Fetched.modCore (s : State) (i : Nat) {f : Core → Core} (h : ∀ c, (f c).mx = c.mx) : Fetched s (s.modCore i f) := by
  refine ⟨rfl, fun _ => rfl, fun _ => rfl, fun j => ?_⟩
  rw [core_modCore]
  split
  · next hj => rw [h, hj]
  · rfl

theorem fetched_keepEnt (s : State) (core : Nat) (e : TlbEnt) : Fetched s (s.keepEnt core e) := by
  have hcache (t : State) (es : List TlbEnt) : Fetched t { t with xcache := es } := ⟨rfl, fun _ => rfl, fun _ => rfl, fun _ => rfl⟩
  simp only [State.keepEnt]
  split
  · exact .refl s
  · split
    · refine Fetched.trans (Fetched.modCore s core ?_) (hcache _ _)
      exact fun _ => rfl
    · exact hcache s _

theorem fetched_keepXlat (s : State) (ctx core va : Nat) (x : Xlat) : Fetched s (s.keepXlat ctx core va x) := by
  simp only [State.keepXlat]
  split
  · exact (fetched_keepEnt s core _).trans (fetched_keepEnt _ core _)
  · exact fetched_keepEnt s core _

theorem fetched_useXlat (s : State) (ctx core va : Nat) (x : Xlat) (need : Need) : Fetched s (s.useXlat ctx core va x need) := by
  simp only [State.useXlat]
  generalize (if need = .write then 0x60 else 0x20) = want
  split
  · exact fetched_keepXlat s ctx core va _
  · exact (Fetched.setMem s _).trans (fetched_keepXlat _ ctx core va _)

theorem fetched_useXlatOf (s : State) (sid va : Nat) (x : Xlat) (need : Need) : Fetched s (s.useXlatOf sid va x need) := by
  simp only [State.useXlatOf]
  split
  · exact fetched_useXlat s _ _ va x need
  · refine (fetched_useXlat s _ _ va x need).trans ⟨rfl, fun j => by simp, fun j => ?_, fun _ => rfl⟩
    rw [str_modStr]
    split
    · next hj =>
      rw [hj.1, Strand.orCells]
      split <;> rfl
    · rfl

theorem fetched_fetchLine (s : State) (sid va : Nat) : Fetched s (s.fetchLine sid va).2 := by
  simp only [State.fetchLine]
  split
  · exact .refl s
  · split
    · exact .refl s
    · exact .refl s
    · dsimp only
      refine (fetched_useXlatOf s sid va _ .exec).trans (Fetched.modCore _ _ ?_)
      exact fun _ => rfl

/-- Looking for a clause's successor may fetch its line, and no more. -/
theorem fetched_clauseSucc (s : State) (sid : Nat) (a : Word64) : Fetched s (s.clauseSucc sid a).2 := by
  have h := fetched_fetchLine s sid (a.toNat / 128 * 128)
  simp only [State.clauseSucc]
  split
  · exact .refl s
  · split
    · next hf => rw [hf] at h; exact h
    · next hf =>
      rw [hf] at h
      split <;> exact h

namespace Fetched

variable {s t : State} (h : Fetched s t) (sid : Nat)
include h

theorem runs : t.runs = s.runs := by rw [h.rest]
theorem lanes : (t.str sid).lanes = (s.str sid).lanes := by rw [h.str sid]
theorem coreMx : (t.coreOf sid).mx = (s.coreOf sid).mx := by
  rw [State.coreOf, h.mx, h.str sid]
  rfl
theorem outside (p : RunPath) (xs : List Opd) : Claim.outside t sid p xs = Claim.outside s sid p xs := by
  rw [Claim.outside, h.str sid]
  rfl
theorem softRegs : (t.str sid).softRegs = (s.str sid).softRegs := by rw [h.str sid]
theorem unread : (t.str sid).unread = (s.str sid).unread := by rw [h.str sid]
theorem switchHeld : (t.str sid).switchHeld = (s.str sid).switchHeld := by rw [h.str sid]; rfl
theorem loc (l : Nat) (sel : Sel) (k : Nat) : (t.str sid).loc l sel k = (s.str sid).loc l sel k := by rw [h.str sid]; rfl
theorem peek (r : RegLoc) : (t.str sid).peek r = (s.str sid).peek r := by rw [h.str sid]; rfl
theorem pendingFor (r : RegLoc) : (t.str sid).pendingFor r = (s.str sid).pendingFor r := by rw [h.str sid]; rfl

end Fetched

end Sys2Proof.Machine
end

section
/-! PROOFS. Hardware loops (R171): the `loop` word, and that it completes. -/

namespace Sys2Proof.Machine

open Sys2Proof.Claim

/-! The word. -/

/-- Outside trap levels some lanes trap at their word, with the same record, and the others go on past it. -/
theorem splitOff_traps {s : State} {sid cause sub : Nat} {p : RunPath} {hit : List Nat} {addr : Word64} (hlevel : (s.str sid).csr.tlevel = 0)
    (hhit : hit ≠ []) :
    s.splitOff sid p (hit.map fun l => (l, cause, sub, addr)) =
      let left := p.lanes.filter fun l => !hit.contains l
      ((s.modStr sid fun st => st.modThs left fun l th => { th with pc := p.nextPc l }).trap sid
        (hit.map fun l => ⟨l, cause, sub, addr, p.recPc⟩)).advance sid { p with lanes := left } := by
  have hlanes : (hit.map fun l => (l, cause, sub, addr)).map (·.1) = hit := by simp [Function.comp_def]
  have hsome : (hit.map fun l => (l, cause, sub, addr)).isEmpty = false := by simpa using hhit
  have hheld : hit.filter (s.str sid).holds = [] := List.filter_eq_nil_iff.2 fun l _ => by simp [Strand.holds, hlevel]
  simp only [State.splitOff, hsome, Bool.false_eq_true, if_false, hlanes, State.unpopHeld, hheld, List.isEmpty_nil, if_true,
    State.trapAt, List.map_map]
  rfl

/-- The end clause of a loop. -/
theorem loopEnd_eq (p : RunPath) (off : BitVec 14) : p.hdrAddr + 4 * off.setWidth 64 = p.hdrAddr + BitVec.ofNat 64 (4 * off.toNat) := by
  rw [BitVec.ofNat_mul, BitVec.ofNat_toNat]
  rfl

/-- Lanes that push a loop with their count as its iterations. -/
def State.pushLoops (s : State) (sid : Nat) (lanes : List Nat) (vals : NMap (List Word64)) (start e : Word64) : State :=
  s.modStr sid fun st => st.modThs lanes fun l th => { th with loops := ⟨x32 vals l 0, start, e⟩ :: th.loops }

/-- The lanes of a path with a third loop, which have a count and two loops already. -/
def thirdLoops (st : Strand) (p : RunPath) (vals : NMap (List Word64)) : List Nat :=
  p.lanes.filter fun l => x32 vals l 0 != 0 && decide (2 ≤ (st.th l).loops.length)

/-- The path that goes on: its lanes without a count will skip the body. -/
def loopPath (p q : RunPath) (vals : NMap (List Word64)) (after : Word64) : RunPath :=
  { q with skips := (p.lanes.filter fun l => x32 vals l 0 == 0).map fun l => (l, after) }

theorem loopPath_recPc {s t : State} {sid : Nat} {p q : RunPath} {srcs dsts : List Opd} {vals : NMap (List Word64)} {after : Word64}
    (hr : ready s sid p srcs dsts = some (q, t, vals)) : (loopPath p q vals after).recPc = p.recPc := by
  rw [(touched_ready hr).1]
  rfl

theorem loopPath_lanes {s t : State} {sid : Nat} {p q : RunPath} {srcs dsts : List Opd} {vals : NMap (List Word64)} {after : Word64}
    (hr : ready s sid p srcs dsts = some (q, t, vals)) : (loopPath p q vals after).lanes = p.lanes := by
  rw [(touched_ready hr).1]
  rfl

section
variable {a : Sel} {off : BitVec 14} {s u t : State} {sid : Nat} {p q : RunPath} {rest : List Run} {after : Word64}
  {vals : NMap (List Word64)} (hi : issues s sid p rest)
include hi

/-- An end clause without a mark traps the whole path. -/
theorem loop_unmarked (h : (begun s rest).clauseSucc sid (p.hdrAddr + BitVec.ofNat 64 (4 * off.toNat)) = (.ok none, u)) :
    exec (.loop a off) s = .next (u.trapPath sid p 0x03 0 (p.hdrAddr + BitVec.ofNat 64 (4 * off.toNat))) := by
  have hexec : exec (.loop a off) s = execLoop a off s := rfl
  rw [hexec, execLoop, onPath_issues hi, loopEnd_eq]
  simp only [h]

/-- Where the end clause has a mark, lanes with a count push the loop, but for those with two loops, which trap. -/
theorem loop_splits (h : (begun s rest).clauseSucc sid (p.hdrAddr + BitVec.ofNat 64 (4 * off.toNat)) = (.ok (some after), u))
    (hr : ready u sid p [(a, 1)] [] = some (q, t, vals)) :
    let third := thirdLoops (t.str sid) p vals
    let pushing := (p.lanes.filter fun l => !third.contains l).filter fun l => x32 vals l 0 != 0
    exec (.loop a off) s = .next ((t.pushLoops sid pushing vals p.nxt (p.hdrAddr + BitVec.ofNat 64 (4 * off.toNat))).splitOff sid
      (loopPath p q vals after) (third.map fun l => (l, 0x32, 0, 0))) := by
  intro third pushing
  have hexec : exec (.loop a off) s = execLoop a off s := rfl
  obtain ⟨hq, -⟩ := touched_ready hr
  have hpushing : lessNat (lessNat p.lanes third) (p.lanes.filter fun l => x32 vals l 0 == 0) = pushing :=
    List.filter_congr fun l hl => by
      have hmem : l ∈ p.lanes := List.mem_of_mem_filter hl
      rw [Bool.eq_iff_iff]
      simp [hmem]
  rw [hexec, execLoop, onPath_issues hi, loopEnd_eq]
  simp only [h]
  rw [State.operands, operands_ready _ hr, ← hpushing, hq]
  rfl

/-- No lane has a third loop. -/
theorem loop_pushes (h : (begun s rest).clauseSucc sid (p.hdrAddr + BitVec.ofNat 64 (4 * off.toNat)) = (.ok (some after), u))
    (hr : ready u sid p [(a, 1)] [] = some (q, t, vals))
    (hroom : ∀ l ∈ p.lanes, x32 vals l 0 ≠ 0 → ((t.str sid).th l).loops.length < 2) :
    exec (.loop a off) s = .next ((t.pushLoops sid (p.lanes.filter fun l => x32 vals l 0 != 0) vals p.nxt
      (p.hdrAddr + BitVec.ofNat 64 (4 * off.toNat))).advance sid (loopPath p q vals after)) := by
  have hthird : thirdLoops (t.str sid) p vals = [] := by
    rw [thirdLoops, List.filter_eq_nil_iff]
    intro l hl hl3
    rw [Bool.and_eq_true, bne_iff_ne, decide_eq_true_eq] at hl3
    exact absurd (hroom l hl hl3.1) (Nat.not_lt.2 hl3.2)
  rw [loop_splits hi h hr, hthird, List.map_nil, splitOff_none]
  simp

/-- Lanes with a third loop trap, and the others go on. -/
theorem loop_traps_third (h : (begun s rest).clauseSucc sid (p.hdrAddr + BitVec.ofNat 64 (4 * off.toNat)) = (.ok (some after), u))
    (hr : ready u sid p [(a, 1)] [] = some (q, t, vals)) (hlevel : (t.str sid).csr.tlevel = 0) :
    let third := thirdLoops (t.str sid) p vals
    let left := p.lanes.filter fun l => !third.contains l
    let q' := loopPath p q vals after
    let pushed := t.pushLoops sid (left.filter fun l => x32 vals l 0 != 0) vals p.nxt (p.hdrAddr + BitVec.ofNat 64 (4 * off.toNat))
    third ≠ [] → exec (.loop a off) s = .next (((pushed.modStr sid fun st => st.modThs left fun l th => { th with pc := q'.nextPc l }).trap sid
      (third.map fun l => ⟨l, 0x32, 0, 0, p.recPc⟩)).advance sid { q' with lanes := left }) := by
  intro third left q' pushed hthird
  have hcsr : (pushed.str sid).csr.tlevel = 0 := by
    change ((t.modStr sid _).str sid).csr.tlevel = 0
    rw [str_modStr]
    split <;> exact hlevel
  rw [loop_splits hi h hr, splitOff_traps hcsr hthird, loopPath_lanes hr, loopPath_recPc hr]

end

theorem loopWord : LoopWord := fun _ _ _ _ _ _ _ hi =>
  ⟨fun _ _ _ _ h hr _ => loop_pushes hi h hr,
   fun _ _ _ _ h hr _ hthird hlevel => loop_traps_third hi h hr hlevel hthird,
   loop_unmarked hi⟩

/-! The word completes. -/

/-- Without ports and soft errors the operand phase of a word within its frame passes. -/
theorem ready_no_ports {s : State} {sid : Nat} {p : RunPath} {srcs : List Opd} (hin : outside s sid p srcs = false)
    (hpops : popsOf srcs = []) (hsoft : (s.str sid).softRegs = []) : ready s sid p srcs [] =
      some (p, s.touchSrcs sid p.lanes srcs, (s.touchSrcs sid p.lanes srcs).srcVals sid [] p.lanes srcs) := by
  have hpush : pushOf [] = none := rfl
  simp [ready, hin, hpops, hpush, softLanes_none hsoft]

/-- A register without a pending load is read as it stands. -/
theorem src_settled {s : State} {sid l k site : Nat} {pops : NMap (NMap Word)} {sel : Sel} {r : RegLoc}
    (hloc : (s.str sid).loc l sel k = some r) (hsettled : (s.str sid).pendingFor r = []) :
    s.src sid pops l sel k site = (s.str sid).peek r := by
  have hread (n : Nat) : s.regRead sid r n = (s.str sid).peek r := by simp only [State.regRead, hsettled, State.freeOf]
  rcases loc_eq_some hloc with ⟨n, rfl, -⟩ | ⟨n, rfl, -⟩
  all_goals
    simp only [State.src, hloc]
    exact hread _

/-- The value a lane has of a source of one register. -/
theorem x32_srcVals {s : State} {sid l : Nat} {pops : NMap (NMap Word)} {lanes : List Nat} {sel : Sel} (hl : l ∈ lanes) :
    x32 (s.srcVals sid pops lanes [(sel, 1)]) l 0 = s.src sid pops l sel 0 1 := by
  rw [State.srcVals, x32, nget_map_keys, if_pos hl]
  exact BitVec.setWidth_setWidth_of_le (s.src sid pops l sel 0 1) (by decide : 32 ≤ 64)

section
variable {s : State} {sid : Nat} {vals : NMap (List Word64)} (lanes : List Nat) (start e : Word64) (hs : nhas s.strands sid = true)
include hs

/-- A lane that pushes has the loop on top of its stack, and the others keep theirs. -/
theorem loops_pushLoops {l : Nat} (hn : nhas (s.str sid).lanes l = true) :
    (((s.pushLoops sid lanes vals start e).str sid).th l).loops =
      if l ∈ lanes then ⟨x32 vals l 0, start, e⟩ :: ((s.str sid).th l).loops else ((s.str sid).th l).loops := by
  rw [State.pushLoops, str_modStr_same hs]
  split
  · next hl => rw [th_modThs_mem _ hl hn]
  · next hl => rw [th_modThs_not_mem _ hl]

/-- Inside its clause the path goes on to its next word, and its lanes without a count note where they go after it. -/
theorem advance_pushLoops {p : RunPath} {after : Word64} (hmid : midClause s sid p) :
    (s.pushLoops sid lanes vals start e).advance sid (loopPath p p vals after) =
      { s.pushLoops sid lanes vals start e with
        runs := ⟨sid, { nextWord p with skips := (p.lanes.filter fun l => x32 vals l 0 == 0).map fun l => (l, after) }⟩ :: s.runs } := by
  obtain ⟨hpos, hlanes, hmark⟩ := hmid
  have hheld : ((s.pushLoops sid lanes vals start e).str sid).switchHeld = (s.str sid).switchHeld := by
    rw [State.pushLoops, str_modStr_same hs]
    rfl
  exact advance_midClause (by rwa [State.pushLoops, nhas_modStr]) ⟨hpos, hlanes, hmark.imp_right hheld.trans⟩

end

theorem loopCompletes : LoopCompletes := by
  intro a off s sid p rest after hi _ ⟨hpos, hne, hmark⟩ e hsucc hin hpops hsoft hroom
  obtain ⟨u, hu⟩ : ∃ u, (begun s rest).clauseSucc sid e = (.ok (some after), u) := ⟨_, Prod.ext hsucc rfl⟩
  have hf : Fetched (begun s rest) u := by
    have h := fetched_clauseSucc (begun s rest) sid e
    rwa [hu] at h
  have ht := touched_touchSrcs u sid p.lanes [(a, 1)]
  have hr := ready_no_ports ((hf.outside sid p [(a, 1)]).trans hin) hpops ((hf.softRegs sid).trans hsoft)
  have hidle (hmx : (s.coreOf sid).mx = []) (hunread : (s.str sid).unread = []) : u.touchSrcs sid p.lanes [(a, 1)] = u :=
    touchSrcs_idle ((hf.coreMx sid).trans hmx) ((hf.unread sid).trans hunread) _ _
  generalize u.touchSrcs sid p.lanes [(a, 1)] = t at hr ht hidle
  generalize hvals : t.srcVals sid [] p.lanes [(a, 1)] = vals at hr
  have hs : nhas t.strands sid = true := (ht.has sid).trans ((hf.has sid).trans hi.2)
  have htLanes : (t.str sid).lanes = (s.str sid).lanes := by rw [ht.str sid]; exact hf.lanes sid
  have hheld : (t.str sid).switchHeld = (s.str sid).switchHeld := by rw [ht.str sid]; exact hf.switchHeld sid
  have hruns : t.runs = rest := ht.runs.trans hf.runs
  have hexec := loop_pushes hi hu hr fun l hl _ => by rw [th_of_lanes htLanes]; exact hroom l hl
  rw [advance_pushLoops _ _ _ hs ⟨hpos, hne, hmark.imp_right hheld.trans⟩, hruns] at hexec
  refine ⟨_, fun l => x32 vals l 0, hexec, rfl, fun l hl hn => ?_, fun hmx hunread l hl r hloc hpending => ?_⟩
  · have hn' : nhas (t.str sid).lanes l = true := by rwa [htLanes]
    refine (loops_pushLoops (p.lanes.filter fun l => x32 vals l 0 != 0) p.nxt e hs hn').trans ?_
    rw [th_of_lanes htLanes]
    by_cases hcount : x32 vals l 0 = 0 <;> simp [hl, hcount]
  · rw [← hvals, hidle hmx hunread]
    calc x32 (u.srcVals sid [] p.lanes [(a, 1)]) l 0
      _ = u.src sid [] l a 0 1 := x32_srcVals hl
      _ = (u.str sid).peek r := src_settled ((hf.loc sid l a 0).trans hloc) ((hf.pendingFor sid r).trans hpending)
      _ = (s.str sid).peek r := hf.peek sid r

/-- Settles O16: the word by whether its end clause has a mark and its lanes room for a loop; it completes where they have, since the
fetch of the end clause's line leaves the strand's threads and registers. -/
theorem loopResults : Obligations.LoopResults := ⟨loopWord, loopCompletes⟩

end Sys2Proof.Machine
end
